-- ==== Sys2Proof/Word.lean ====
section
/-! DEFINITION. The words, bytes and small index types the whole model is written in. -/

namespace Sys2Proof

/-- One byte. -/
abbrev Byte := BitVec 8
/-- A 16-bit word. -/
abbrev Half := BitVec 16
/-- A 32-bit word, the width of the bridge window, the geometry word and the attribute word. -/
abbrev Word := BitVec 32
/-- A 64-bit word: a tenant range entry (R177), a code-flash word (R353). -/
abbrev DWord := BitVec 64
/-- A 29-bit shelf-bus identifier (R227). -/
abbrev CanId := BitVec 29
/-- A shelf-bus node ID (R72 NODE_ID, R227 SRC). -/
abbrev NodeId := BitVec 10

/-- A session with a transport: S0 to S6 (R279). S7 is internal to the warden. -/
abbrev Sess := Fin 7
/-- A power domain D00 to D19 (R47). -/
abbrev Dom := Fin 20
/-- A lane number (R436). -/
abbrev LaneId := Fin 87
/-- A die, ch * 32 + tgt * 4 + lun (R140). -/
abbrev Die := Fin 256
/-- A tenant (R177). -/
abbrev Tenant := Fin 256
/-- A NAND channel N0 to N7, domain D12 to D19 (R47). -/
abbrev Chan := Fin 8

end Sys2Proof
end

