-- ==== Sys2Proof/Syntax.lean ====
section
/-! DEFINITION. The commands the block takes: one constructor of Instr per row of spec/opcode_table.json. The table
gives no operand fields; the operands are the model's (assumption log entry 7): what the step's rule needs to be told from outside. Numbers that come from a typed Gehel line are
plain Nat, since the device itself judges their range (R435); a keyword argument is a code, and a code
outside the verb's list stands for a word the verb does not list (R288). Durations are in nanoseconds. -/

namespace Sys2Proof

/-- A subchannel (R94: A = 0, B = 1). -/
inductive Sub | a | b
  deriving DecidableEq, Repr

/-- A logical rank of a subchannel (R92 NR). -/
abbrev Rank := Fin 16

/-- A bank: bank group and bank in the group (R92 NBG, NB). -/
structure BankAddr where
  bg : Fin 8
  ba : Fin 4
  deriving DecidableEq, Repr

/-- A shelf-bus data frame as SHB sees it (R224, R227, R255). -/
structure Frame where
  id : CanId
  fdf : Bool
  brs : Bool
  esi : Bool
  dlc : BitVec 4
  data : List Byte
  deriving DecidableEq, Repr

/-- How a received frame is framed: SHB discards base-format and remote frames before filtering (R224). -/
inductive FrameForm | extended | base | remote
  deriving DecidableEq, Repr

/-- The error kinds of R243 and R250. -/
inductive BusErr | stuff | form | ack | bit1 | bit0 | crc
  deriving DecidableEq, Repr

/-- A bank of the module: subchannel, logical rank, bank. -/
structure BankKey where
  sub : Sub
  rank : Rank
  bank : BankAddr
  deriving DecidableEq, Repr

/-- What a capture entry holds: an MR address, or one of the two references (R96). -/
inductive MrKey | mr (a : Byte) | vrefca | vrefcs
  deriving DecidableEq, Repr

/-- A snoop record (R51, R90, R91): the granule of a WRITE, every granule of a bank, a captured mode-register write, or a rank's
self-refresh entry or exit. -/
inductive Snoop
  | granule (g : Nat)
  | whole (k : BankKey)
  | capture (sub : Sub) (rank : Rank) (key : MrKey) (value : Byte)
  | selfRefresh (sub : Sub) (rank : Rank) (entry : Bool)
  deriving DecidableEq, Repr

/-- How the work that a flit names ends (R49, R61). -/
inductive WorkEnd | complete | failed | aborted
  deriving DecidableEq, Repr

/-- The field KIND of a flit's sideband (R50), codes 0 to 3. -/
inductive FlitKind | data | desc | stat | ctrl
  deriving DecidableEq, Repr

/-- The 64 bytes of a flit (R49): as bytes, or where the model itself fills them, what they carry: up to 15 snoop records on HP to
MAP (R90), the outcome in a STAT flit (R49). The spec prints no layout of these two. -/
inductive Payload | bytes (b : BitVec 512) | snoop (l : List Snoop) | outcome (e : WorkEnd)
  deriving DecidableEq, Repr

/-- A flit: the fields of its 16-bit sideband (R50) and its payload. -/
structure Flit where
  kind : FlitKind
  last : Bool
  poison : Bool
  tag : BitVec 8
  payload : Payload
  deriving DecidableEq, Repr

/-- What the SECDED check of a lane finds (R69). -/
inductive Secded | clean | corrected | uncorrectable
  deriving DecidableEq, Repr

/-- Power-good or PLL lock: what a domain failed to reach (R67, R330). -/
inductive PowerFail | powerGood | pllLock
  deriving DecidableEq, Repr

/-- The PLLs of R48. -/
inductive Pll | f | m | n
  deriving DecidableEq, Repr

/-- A page of a block group: the pages of one number in all its planes (R133, R138). -/
structure Page where
  die : Die
  block : Nat
  page : Nat
  deriving DecidableEq, Repr

/-- Program status of a strand or page (NAND status, R116): a failure names the failing plane (R153). -/
inductive ProgStatus | pass | fail (plane : Fin 4)
  deriving DecidableEq, Repr

/-- A credit that comes back (R49): the lane, the TAG of the work that a DONE lane has ended, and how it ended. -/
structure Returned where
  lane : LaneId
  tag : BitVec 8
  how : WorkEnd
  deriving DecidableEq, Repr

/-- What the margin reads of a fold's word line find (R148): the highest corrected bits of a codeword, none where it does not decode, and
the plane that fails. -/
structure FoldRead where
  bits : Option Nat
  plane : Fin 4
  deriving DecidableEq, Repr

/-- What the margin reads of a rim copy find (R142): the highest corrected bits of a codeword in the three reads, and whether the CRC
matches; or a read that does not decode. -/
inductive MarginRead | decoded (bits : Nat) (crcOk : Bool) | failed
  deriving DecidableEq, Repr

/-- How a page read ends (R155): corrected bits with hard decisions, a retry depth with its corrected
bits, or no entry decodes. -/
inductive ReadResult
  | hard (bits : Nat)
  | retry (depth bits : Nat)
  | fail
  deriving DecidableEq, Repr

/-- What the NAND shows at BOOT (R130, R143, R151, R158, R163): the outside facts of IMAGE_DERIVATION. -/
structure NandFacts where
  /-- the ONFI ID bytes 0 to 5 (byte 0 lowest) that the target with index ch * 8 + tgt answers; a target not listed is absent -/
  ids : List (Fin 64 × BitVec 48)
  /-- the stored profile fails its check (R130, R158) -/
  profileBad : Bool
  /-- dies that stay fenced after their RESET (R158) -/
  fenced : List Die
  /-- the config store's ring record fails its check (R143) -/
  ringsBad : Bool
  /-- rim copies, by SEQ and ring B, that do not decode or fail their check (R143) -/
  deadCopies : List (Nat × Bool)
  /-- directory copies that do not pass, by SEQ and copy B, and tables that fail in both places, by SEQ and TYPE (R163) -/
  badDirs : List (Nat × Bool)
  badTables : List (Nat × Nat)
  /-- blank checks (R151): for an open group the page at its pointer, for a FREE group its first page, with the highest count of 0 bits in
  a codeword; a group not listed shows none -/
  zeroBits : List ((Die × Nat) × Nat)
  /-- the log copy decodes (R344) -/
  logReadable : Bool
  deriving DecidableEq, Repr

/-- A factory bad-block mark (R152): the byte at FBB_OFFSET of the block's first (0), second (1) or last (2) page. -/
structure Mark where
  die : Die
  block : Nat
  page : Fin 3
  byte : Byte
  deriving DecidableEq, Repr

/-- What provisioning finds (R152): the marks, and the blank checks of R151 as in `NandFacts`. -/
structure FirstFacts where
  marks : List Mark
  zeroBits : List ((Die × Nat) × Nat)
  deriving DecidableEq, Repr

/-- Thermistor reading: tenths of a degree, or a rail (R223). -/
inductive Ntc | temp (tenths : Int) | opened | shorted
  deriving DecidableEq, Repr

/-- One front-end conversion (R206): cell voltages and the VBAT reading in 0.1 mV, and PK_NTC. -/
structure Sample where
  cells : List Nat
  vbat : Nat
  ntc : Ntc
  deriving DecidableEq, Repr

/-- The causes that pause the charger (R200). -/
inductive PauseCause | rest | temperature | bulk
  deriving DecidableEq, Repr

/-- The range words of TENANT RANGE (R310): sub 0 = A, 1 = B, 2 = AB. -/
structure RangeArg where
  sub : Nat
  rankFirst : Nat
  rankLast : Nat
  allBank : Bool
  bg : Nat
  ba : Nat
  rowFirst : Nat
  rowLast : Nat
  deriving DecidableEq, Repr

/-- The keys of BAT SET (R316). -/
inductive BatKey
  | vchg | vmaint | vcut | imb | recharge | taper | ichg | maint | retry | parksafe | cap | pmod
  deriving DecidableEq, Repr

/-- The keys of FLASH OPT SET (R321), the R72 field names. -/
inductive OptKey
  | nodeId | keeperCap | join | nomRate | dataRate | consRate | fallback | bank | enN | enShb | enChg
  | anonOk | ichg | cells | chem | cfgWp | optWp | arbFloor
  deriving DecidableEq, Repr

/-- Which reads reach CFL (R348). -/
inductive FetchKind | instruction | dataRead
  deriving DecidableEq, Repr

/-- The commands. Those with operands stand first, each part in the table's order. -/
inductive Instr
  -- power, supplies and resets
  | crystalRecheck (pass : Bool)
  | drstL (high : Bool)
  | tjAlarm (degrees : Int)
  | tjAlarmEnd (degrees : Int)
  -- BOOT
  | hpReady (pass : Bool)
  | rootAndSelftests (root xts map : Bool)
  | imageDerivation (facts : NandFacts)
  | provisioningStart (facts : FirstFacts)
  -- host DDR5 commands
  | act (sub : Sub) (rank : Rank) (bank : BankAddr) (row : BitVec 18)
  | wr (sub : Sub) (rank : Rank) (bank : BankAddr) (data : Nat)
  | wra (sub : Sub) (rank : Rank) (bank : BankAddr) (data : Nat)
  | wrp (sub : Sub) (rank : Rank) (bank : BankAddr) (data : Nat)
  | wrpa (sub : Sub) (rank : Rank) (bank : BankAddr) (data : Nat)
  | rd (sub : Sub) (rank : Rank) (bank : BankAddr)
  | rda (sub : Sub) (rank : Rank) (bank : BankAddr)
  | preab (sub : Sub) (rank : Rank)
  | presb (sub : Sub) (rank : Rank) (ba : Fin 4)
  | prepb (sub : Sub) (rank : Rank) (bank : BankAddr)
  | refab (sub : Sub) (rank : Rank)
  | refsb (sub : Sub) (rank : Rank) (ba : Fin 4)
  | rfmab (sub : Sub) (rank : Rank)
  | rfmsb (sub : Sub) (rank : Rank) (ba : Fin 4)
  | sre (sub : Sub) (rank : Rank)
  | srx (sub : Sub) (rank : Rank)
  | pde (sub : Sub) (rank : Rank)
  | pdx (sub : Sub) (rank : Rank)
  | mrw (sub : Sub) (ranks : List Rank) (mr : Byte) (value : Byte)
  | rcdControlWordWrite (sub : Sub) (addr : Byte) (value : Byte)
  | mrr (sub : Sub) (rank : Rank) (mr : Byte)
  | mpc (sub : Sub) (ranks : List Rank) (op : Byte)
  | vrefca (sub : Sub) (ranks : List Rank) (value : Byte)
  | vrefcs (sub : Sub) (ranks : List Rank) (value : Byte)
  | nop (sub : Sub)
  | des (sub : Sub)
  | caParityError (sub : Sub)
  -- takeover
  | portRetrainDone (aOk bOk : Bool)
  -- waits, arming, saving
  | strandLoadDone (die : Die)
  | strandProgramDone (die : Die) (status : ProgStatus)
  | dieTimeout (die : Die)
  | dieResetRetry (die : Die) (stillBusy : Bool)
  | tailDone (logWritten : Bool)
  | rimProgramDone (copyB : Bool) (pass : Bool)
  | rimMarginReadDone (a b : MarginRead)
  -- settling and the NAND
  | foldProgramDone (die : Die) (status : ProgStatus)
  | foldMarginReadDone (die : Die) (found : FoldRead)
  | blockEraseDone (die : Die) (block : Nat) (status : ProgStatus)
  | nandReadDone (page : Page) (plane : Fin 4) (gidx seq : Nat) (result : ReadResult)
  -- restore and handback
  | restoreLoadDone (badDirs : List (Nat × Bool)) (badTables : List (Nat × Nat))
  -- lanes and domains
  | flitSend (lane : LaneId) (flit : Flit)
  | flitArrival (lane : LaneId) (check : Secded)
  | creditReturn (back : Returned)
  | pllLock (pll : Pll)
  | domainUp (dom : Dom)
  | domainPowerFail (dom : Dom) (kind : PowerFail)
  | drainComplete (dom : Dom)
  | drainLimitExpiry (dom : Dom)
  -- watchdog, deferred activation, crypto-erase
  | keyZeroize (t : Tenant) (readBackZero : Bool)
  | keyStoreWriteDone (t : Tenant)
  | oldCopyEraseDone (t : Tenant) (verified : Bool)
  -- pack, charger, estimator
  | packPresenceChange (present : Bool)
  | packEepromRead (ack : Bool) (bytes : List Byte)
  | chgPause (cause : PauseCause)
  | chgResume (cause : PauseCause)
  | estimatorStep (sample : Sample) (dtMs : Nat) (icmd : Nat)
  | wardenPackSample (sample : Sample) (icmd : Nat)
  | impedanceProbe (after : List Nat)
  | polarisationProbe (after2s : List Nat)
  -- shelf bus and bridge window
  | frameReceived (form : FrameForm) (frame : Frame) (shortestRun : Nat)
  | busError (kind : BusErr) (transmitting : Bool) (brsFrame : Bool)
  | reassemblyGap (src : NodeId) (cls : BitVec 3) (type : BitVec 6) (tag : BitVec 10)
  | bwCtrlWinEn (enable : Bool)
  | bwIrqClear (mask : Word)
  | bwRelease (index : BitVec 6)
  | q1EntryRead (index : BitVec 6) (word : BitVec 5)
  | txctlRequest (mailbox : Fin 8) (word : Word)
  | txctlCancel (mailbox : Fin 8)
  | bridgeRegisterWrite (offset : Nat) (word : Word)
  -- I3C common command codes
  | entdaa (addr : BitVec 7) (won : Bool)
  | setnewda (addr : BitVec 7)
  | hsdaMismatch (hotJoinEnabled : Bool)
  -- warp time and stakes
  | sync (src : NodeId) (tag : BitVec 10) (payload : List Byte)
  | followUp (src : NodeId) (tag : BitVec 10) (payload : List Byte)
  | keeperAnnounce (src : NodeId) (payload : List Byte)
  | slotTable (tag : BitVec 10) (payload : List Byte)
  | stakeSetFrame (src : NodeId) (tag : BitVec 10) (payload : List Byte)
  | stakeCancelFrame (tag : BitVec 10) (payload : List Byte)
  | restRequestFrame (src : NodeId) (payload : List Byte)
  | stakeFire (index : Fin 64)
  -- transports and sessions
  | consoleCharacter (ch : Byte) (damaged : Bool)
  | pipeInWrite (s6 : Bool) (bytes : List Byte)
  | pipeOutRead (s6 : Bool) (count : Nat)
  | pipeCtrlFlush (s6 : Bool)
  | pipeCtrlOvfClr (s6 : Bool)
  | tunnelRequest (src : NodeId) (payload : List Byte)
  | sessionIdleExpiry (k : Sess)
  | nonceExpiry (k : Sess)
  -- Gehel: hold control
  | status (k : Sess)
  | park (k : Sess)
  | parkCancel (k : Sess)
  | parkSet (k : Sess) (wait : Nat)
  | restore (k : Sess)
  | restoreCancel (k : Sess)
  | restoreDiscard (k : Sess)
  | restoreReport (k : Sess) (tenant start : Option Nat)
  | settleStart (k : Sess)
  | settleStop (k : Sess)
  | settleSet (k : Sess) (startFree stopFree startLayers stopLayers : Nat)
  -- Gehel: tenants and keys
  | tenantRangeAdd (k : Sess) (t : Nat) (r : RangeArg)
  | tenantRangeDel (k : Sess) (t : Nat) (r : RangeArg)
  | tenantRangeList (k : Sess) (start : Option Nat)
  | tenantCommit (k : Sess)
  | tenantDiscard (k : Sess)
  | tenantSet (k : Sess) (t : Nat) (cls policy : Option Nat)
  | tenantEnable (k : Sess) (t : Nat)
  | tenantDisable (k : Sess) (t : Nat)
  | tenantShow (k : Sess) (t : Nat)
  | keyOwner (k : Sess) (plain : Bool) (blob : List Byte)
  | keyLoad (k : Sess) (t : Nat) (blob : List Byte)
  | keyGen (k : Sess) (t : Nat)
  | keyErase (k : Sess) (t : Nat)
  | keyShow (k : Sess) (t : Nat)
  -- Gehel: dirty map, geometry, profile
  | map (k : Sess)
  | mapGeometry (k : Sess) (word : Nat)
  | mapGranule (k : Sess) (size : Nat)
  | mapCoord (k : Sess) (sub rank bg ba row : Nat)
  | mapCoordGidx (k : Sess) (gidx : Nat)
  | mapProfile (k : Sess) (off : Nat) (data : List Byte)
  | mapProfileCommit (k : Sess)
  | mapProvision (k : Sess)
  -- Gehel: pack
  | bat (k : Sess)
  | batSet (k : Sess) (keys : List (BatKey × Nat))
  | batClear (k : Sess)
  | batRest (k : Sess)
  | batOcvload (k : Sess) (chem off : Nat) (data : List Byte)
  | batOcvloadCommit (k : Sess) (chem : Nat)
  | batTable (k : Sess) (cell : Nat)
  -- Gehel: shelf bus
  | bus (k : Sess)
  | busFilter (k : Sess) (n mtch mask fmt en : Nat)
  | busRecover (k : Sess)
  | busRedetect (k : Sess)
  | busFlush (k : Sess)
  | busSet (k : Sess) (holdoff count beacon : Option Nat)
  -- Gehel: warp time and stakes
  | warp (k : Sess)
  | warpSet (k : Sess) (interval delay restmax : Option Nat)
  | warpTable (k : Sess) (n mask smax stagger : Nat) (send target : Option Nat)
  | warpTableActive (k : Sess) (n : Nat)
  | stakeSet (k : Sess) (i action : Nat) (relative : Bool) (trigger : Nat) (arg send target : Option Nat)
  | stakeCancel (k : Sess) (i : Nat) (send : Option Nat)
  | stakeShow (k : Sess) (i : Option Nat)
  -- Gehel: event log, and the recorder's own events
  | log (k : Sess)
  | logRead (k : Sess) (start count : Option Nat)
  | logPrev (k : Sess) (start count : Option Nat)
  | logClear (k : Sess)
  | logFreeze (k : Sess)
  | logThaw (k : Sess)
  | logMark (k : Sess) (code : Nat)
  | eventArrival (dom : Dom) (evt : BitVec 11) (sev : BitVec 3) (args : Vector Word 4)
  -- Gehel: code flash, and CFL's own events
  | flash (k : Sess)
  | flashOpt (k : Sess)
  | flashOptSet (k : Sess) (keys : List (OptKey × Nat))
  | flashUnlock (k : Sess) (pwd : List Byte)
  | flashLock (k : Sess)
  | flashProtect (k : Sess) (first last state : Nat)
  | flashPassword (k : Sess) (pwd : List Byte)
  | flashScrub (k : Sess) (region : Nat)
  | flashFetch (kind : FetchKind) (addr : Nat)
  | wordProgramDone (pulses : Nat) (pass : Bool)
  | sectorEraseDone (pulses : Nat) (pass : Bool)
  | marginReadDone (weak : List Nat)
  -- Gehel: firmware update, and class 4 messages
  | fw (k : Sess)
  | fwMissing (k : Sess) (start : Option Nat)
  | fwPutHdr (k : Sess) (off : Nat) (data : List Byte)
  | fwPut (k : Sess) (idx off : Nat) (data : List Byte)
  | fwActivate (k : Sess)
  | fwAbort (k : Sess)
  | header (src : NodeId) (bytes : List Byte)
  | splint (src : NodeId) (tag : BitVec 10) (bytes : List Byte)
  -- Gehel: domains, resets, diagnostics
  | domain (k : Sess)
  | domainEnable (k : Sess) (d : Nat)
  | domainDisable (k : Sess) (d : Nat)
  | domainDisableForce (k : Sess) (d : Nat)
  | domainSet (k : Sess) (drain : Nat)
  | resetWarm (k : Sess)
  | resetMgmt (k : Sess)
  | diagLanes (k : Sess)
  | diagNand (k : Sess) (die : Nat)
  | diagTemp (k : Sess)
  | diagSelftest (k : Sess)
  -- Gehel: authentication and sessions
  | auth (k : Sess) (level : Nat)
  | authMac (k : Sess) (level : Nat) (mac : List Byte)
  | authLower (k : Sess) (level : Nat)
  | authSecretWrap (k : Sess) (level : Nat) (blob : List Byte)
  | authSecretPlain (k : Sess) (level : Nat) (blob : List Byte)
  | session (k : Sess)
  | sessionList (k : Sess)
  | sessionSetEcho (k : Sess) (on : Nat)
  | sessionSetNotify (k : Sess) (on : Nat)
  | sessionSetIdle (k : Sess) (limit : Nat)
  | sessionEnd (k : Sess)
  -- rows the table appends
  | vbulkQualifyReached (at11 : Bool)
  | dramAlert (aHigh bHigh : Bool)
  -- power, supplies and resets, without operands
  | powerOnReset
  | powerOnResetRelease
  | rcStable
  | aonInitDone
  | optionLoad
  | crystalConfirmed
  | crystalTimeout
  | wardenParityError
  | bulkStable
  | vbulkQualifyDrop
  | holdLLow
  | vbulkDroop
  | vddqDLow
  | vccqNLow
  | refclkLoss
  | refclkReturn
  | refclkLossLimit
  | refclkAbsentBoot
  | thermalShutdown
  | vsbLoss
  -- BOOT, without operands
  | bootDomainsUp
  | headerCheck
  | bodyCheck
  | firmwareStart
  | provisioningDone
  -- host DDR5 commands, without operands
  | hostDckAbsent
  | mapSnoopApply
  -- takeover, without operands
  | burstDrainEnd
  | closeEnd
  | switchEnd
  | clockHandoverEnd
  | portStartEnd
  | firstGranule
  -- waits, arming, saving, without operands
  | parkWaitExpiry
  | restoreWaitExpiry
  | descriptorReloadDone
  | coverRecompute
  | plaitStart
  | slotOpenToken
  | rimDwellExpiry
  | eRemUpdate
  | eRemStale
  | endOfDischarge
  | hwFloorComparator
  -- settling and the NAND, without operands
  | settleAutoStart
  | settleAutoStop
  -- restore and handback, without operands
  | streamStart
  | streamEnd
  | zeroFillEnd
  | handbackDataEnd
  | handbackRefreshEnd
  | modeReplayDone
  | handbackSreDone
  | handbackRelease
  | handbackReady
  -- watchdog, deferred activation, crypto-erase, without operands
  | watchdogKick
  | watchdogExpiry
  | deferredActivation
  -- pack, charger, estimator, without operands
  | chgPrechargeDone
  | chgCvEntry
  | chargeEnd
  | chgRecharge
  | cellOv
  | preTimeout
  | chgTimeout
  | buck
  | faultRetryExpiry
  | marginUpgradeHold
  | restAnchor
  | unanchored
  | restRequest
  | selfRestWindow
  | restWindowEnd
  | packRecordWrite
  | sensefailRequalify
  -- shelf bus and bridge window, without operands
  | rateCandidateTimeout
  | dataRateTimeout
  | busIntegrated
  | frameTxDone
  | arbitrationLost
  | busoffRecoveryPolicy
  | busoffRecoveryDone
  | rxdStuck
  | beaconTimer
  | bwCtrlQ1Flush
  | bwQ1ovfClear
  -- I3C common command codes, without operands
  | rstdaa
  | getpid
  | getbcr
  | getdcr
  | getstatus
  -- warp time and stakes, without operands
  | followUpTimeout
  | syncLoss
  | keeperElectionTimeout
  | keeperSyncTimer
  | warpStep
  | warpGuardCrossing
  | warpCountSave
  | frameBoundaryTableSwitch
  -- Gehel: event log, and the recorder's own events, without operands
  | bucketTick
  | freezeLeaseExpiry
  -- Gehel: code flash, and CFL's own events, without operands
  | cflOperationTimeout
  -- Gehel: firmware update, and class 4 messages, without operands
  | receiptTimer
  | imageVerificationDone
  -- rows the table appends, without operands
  | frameSof
  | vsbPowerUp
  deriving DecidableEq, Repr

end Sys2Proof
end

