-- ==== Sys2Proof/Config.lean ====
section
/-! DEFINITION. What an implementation fixes and the values the spec leaves open. Every opaque constant
here is a free value: nothing can evaluate it, and a statement about it holds whatever it is
(assumption log entry 4). -/

namespace Sys2Proof.Config

/-- Output bytes of the on-die DRBG: draw number `n`, length `len` (R181, R296, R408). -/
opaque drbg (n len : Nat) : List Byte

/-- The 8-byte device serial, fused, most significant byte first (R296). -/
opaque serial : DWord

/-- HMAC-SHA-384 of RFC 2104: key, message (R185, R296, R373). -/
opaque hmacSha384 (key msg : List Byte) : List Byte

/-- SHA-384 of FIPS 180-4 (R370, R376). -/
opaque sha384 (msg : List Byte) : List Byte

/-- HKDF-SHA-384: input key, label (R184, R371). -/
opaque hkdfSha384 (ikm label : List Byte) : List Byte

/-- The AES-256 block cipher of FIPS 197 under a key: a permutation of the blocks of 128 bits, byte 0 of a block highest (R185, R186, R192). -/
opaque aesBlock (key : List Byte) : Equiv.Perm (BitVec 128)

/-- AES-256 counter-mode keystream block: key, IV, block counter (R347). -/
opaque aesCtr (key iv : List Byte) (ctr : Nat) : List Byte

/-- AES-256-GCM tag over additional data and ciphertext: key, IV, AAD, ciphertext (R379). -/
opaque gcmTag (key iv aad ct : List Byte) : List Byte

/-- AES-256-XTS of IEEE 1619: key 1 and key 2, tweak, a data unit of 4096 bytes (R187). -/
opaque xtsEncrypt (key tweak data : List Byte) : List Byte

/-- The packed 40-bit stream of a granule whose content is the token `n`; `unknown` marks a content that no WRITE gave (R20). -/
opaque granuleBytes (unknown : Bool) (n : Nat) : List Byte

/-- ECDSA P-384 verification under boot-ROM public key `keyId`: digest, signature (R370, R371). -/
opaque ecdsaVerify (keyId : Nat) (digest sig : List Byte) : Bool

/-- The class key fused into every ZH-960 (R371). -/
opaque classKey : List Byte

/-- The fused on-die secret from which the device root derives (R184). -/
opaque fusedSecret : List Byte

/-- The mean pack current of R214 where its equation has no solution, the cells being too weak for the load: mean OCV, resistance and
load power per cell. -/
opaque meanCurrentOpen (ocv res power : ℚ) : ℚ

/-- Factory OCV table in mV: LFP flag, SoC point 0-20, temperature column 0-3 (R212: published by Talir). -/
opaque factoryOcv (lfp : Bool) (soc temp : Nat) : ℕ

/-- Default series resistance of a chemistry's impedance table in 0.1 mOhm: LFP flag, SoC bin, temperature bin
(R199: the chemistry's default impedance table is not printed). -/
opaque defaultRser (lfp : Bool) (soc temp : Nat) : ℕ

/-- Default polarisation resistance of a chemistry's impedance table in 0.1 mOhm (R199). -/
opaque defaultRpol (lfp : Bool) (soc temp : Nat) : ℕ

/-- The supply power P_dev of the ZH-960 in watt, from its factory table (R205); `n` numbers the evaluation. -/
opaque pDev (n : Nat) : ℚ

/-- The AON current model of R205 in ampere. -/
opaque aonCurrent (n : Nat) : ℚ

/-- OCV in mV, its slope in mV per unit of SoC, and its inverse, where the table ends: outside 0-100 % or -10-45 degrees, or at a voltage
that no point of the table spans (R207, R210). -/
opaque ocvBeyond (lfp : Bool) (z temp : ℚ) : ℚ
opaque ocvSlopeBeyond (lfp : Bool) (z temp : ℚ) : ℚ
opaque ocvInverseBeyond (lfp : Bool) (mv temp : ℚ) : ℚ

/-- The temperature that the OCV tables take while PK_NTC stands at a rail (R223). -/
opaque openNtcTemp : ℚ

/-- What a cell's filter starts from where the spec gives no start: cell state `field` 0-4 = z, v_p, P_zz, P_zv, P_vv at start `n`
(R199, R212). -/
opaque filterSeed (n cell field : Nat) : ℚ

/-- The config store declares VAON_IN fed from the pack only (R205). -/
opaque vaonPackOnly : Bool

/-- Event number of a catalogued event (R329: the catalogue of 0x010-0x7EF is published separately);
`k` is the event's place in the model's list of kinds. -/
opaque catEvt (k : Nat) : BitVec 11

/-- The content of a config-store copy: its length, and its bytes (R349, R350). -/
opaque areaLen (area seq : Nat) : Nat
opaque areaByte (area seq offset : Nat) : Byte

/-- Severity of a catalogued event (R330). -/
opaque catSev (k : Nat) : BitVec 3

/-- The factory replay mask before R97's clearing: the bits of mode register `mr` that a handback writes. -/
opaque factoryReplayMask (mr : Nat) : Byte

/-- The training-mode, per-DRAM-addressability and multi-purpose-mode control bits of mode register `mr`, which JESD79-5 defines and
R97 has the factory mask clear. -/
opaque modeControlBits (mr : Nat) : Byte

/-- What a write of an RCD control word does to the subchannel's training mode (R87): JESD82-511 gives the words, this spec does not.
0 nothing, 1 leaves the mode, 2 enters CS training, 3 enters CA training, by the remainder by 4. -/
opaque rcdTraining (addr value : Byte) : Nat

/-- A byte of a frame's data that the frame received does not carry, its DLC being longer (R224); `n` numbers the frame. -/
opaque busByte (n i : Nat) : Byte

/-- A cell voltage, in 0.1 mV, of a conversion that brings none for the cell (R206); `n` numbers the conversion. -/
opaque cellReading (n i : Nat) : Nat

/-- The grown bad-block cause of a group that a blank check closes (R151): R153's six causes name none for it, so only the remainder by 6
is used. -/
opaque blankCause : Nat

/-- The time in seconds of reading and writing again the newest layer map (R139). -/
opaque mergeTime : ℚ

/-- CRC-32C of a table whose layout the spec does not give (R137); `n` numbers the table. -/
opaque tableCrc (n : Nat) : Word

/-- The rate trim, in parts per 10^9, that the PI loop of R262 sets for offset `o` at pair `n` (its gains are not given); its use bounds
it by 500 ppm. -/
opaque slew (o : Int) (n : Nat) : Int

/-- Error bound e0 in nanoseconds where the nominal rate is not known (R264). -/
opaque e0Unknown : Nat

/-- The stake index that the keeper's policy gives a REST stake (R275): its `n`-th choice, modulo 64. -/
opaque restStake (n : Nat) : Nat

/-- A code-flash word after a failed or interrupted program or erase (R354, R355, R364). -/
opaque flashWord (n : Nat) : DWord

/-- The program count of a word after an interrupted erase (R364): a 2-bit count, see its use. -/
opaque flashCount (n : Nat) : Nat

/-- Whether the ECC of such a word can still correct it (R364: an ECC word may read uncorrectable). -/
opaque flashEcc (n : Nat) : Bool

/-- The word of the dirty map, if any, that MAP finds uncorrectable as it applies snoop records (R107); no command of the table tells it. -/
opaque badMapWord (n : Nat) : Option Nat

/-- How many errors the ECC of the code flash corrects in a read (R345); no command of the table tells it. -/
opaque correctedErrors (n : Nat) : Nat

/-- REC after a reception that finds it above 127: ISO 11898-1 gives a value of 119 to 127, so only the remainder by 9 is used
(R243). -/
opaque recAfter (n : Nat) : Nat

/-- Bits [7:0] of the `n`-th GETSTATUS reply, which follow MIPI I3C Basic (R36). -/
opaque i3cStatus (n : Nat) : Byte

/-- Whether a test passes when `DIAG SELFTEST` repeats it: 0 the device root, 1 XTS, 2 MAP (R78, R323). -/
opaque selfTest (n which : Nat) : Bool

end Sys2Proof.Config
end

