-- ==== Sys2Proof/Machine/State.lean ====
section
/-! DEFINITION. The state of the ZH-960 as plain data, the reasons a step can stop, and the state after
reset. Each field's docstring names the rule of spec/ that gives it. -/

namespace Sys2Proof.Machine

/-! ## Names -/

/-- The hold states (R25), in the order of their codes 0 to 7. -/
inductive HoldState | dark | boot | serve | park | save | held | restore | fault
  deriving DecidableEq, Repr

/-- The image relations (R22), codes 0 to 2. -/
inductive ImgRel | none | pending | track
  deriving DecidableEq, Repr

/-- The causes of a save (R27, R140), codes 0 to 5. -/
inductive Cause | none | pin | droop | verb | sideband | stake
  deriving DecidableEq, Repr

/-- The phases of the warden reset (R70). -/
inductive PorPhase | asserted | rcStart | aonInit | optionLoad | up
  deriving DecidableEq, Repr

/-- The crystal's confirmation (R70, R86). -/
inductive Xtal | pending | ok | fail
  deriving DecidableEq, Repr

/-- The reset causes (R82), codes 0 to 4. -/
inductive ResetCause | powerOn | warm | mgmtWatchdog | mgmtRequest | activate
  deriving DecidableEq, Repr

/-- Which option copy is in force (R73). -/
inductive OptSel | a | b | dflt
  deriving DecidableEq, Repr

/-- A firmware bank (R345). -/
inductive Bank | a | b
  deriving DecidableEq, Repr

/-- The power state of a domain (R323, R330). -/
inductive DMode | off | ret | on | draining | stuck | failed
  deriving DecidableEq, Repr

/-- The privilege levels (R295). -/
inductive Priv | view | run | keep
  deriving DecidableEq, Repr

/-- The margin classes (R217), codes 0 to 3. -/
inductive Margin | green | amber | red | none
  deriving DecidableEq, Repr

/-- The warp states (R260), codes 0 to 4. -/
inductive WarpState | none | synced | holdover | wide | keeper
  deriving DecidableEq, Repr

/-- The bus modes (R232, R249), codes 0 to 5. -/
inductive BusMode | off | detecting | listen | active | busoff | dupnode
  deriving DecidableEq, Repr

/-- The charger modes (R200), codes 0 to 7. -/
inductive ChgMode | off | precharge | cc | cv | done | maint | paused | fault
  deriving DecidableEq, Repr

/-- The estimator states (R209, R275). -/
inductive EstState | learning | anchored | unanchored | sensefail
  deriving DecidableEq, Repr

/-- The pack results (R199). -/
inductive PackResult | none | anon | mismatch | id
  deriving DecidableEq, Repr

/-- The level of VBULK as the comparators see it: below the droop threshold, between, at or above the
qualify threshold (R27, R31, R52). -/
inductive Bulk | droop | low | qualified
  deriving DecidableEq, Repr

/-- The causes of an entry to FAULT (R387), codes 1 to 13. -/
inductive FaultCause
  | xtsTest | mapTest | root | rimArea | stripe | noProfile | noFirmware | hpSelfcheck | refclk
  | noRimCommit | restore | laneHalt | coreDomain
  deriving DecidableEq, Repr

/-- What QCK carries (R410). -/
inductive Qck | stopped | dck | pllM
  deriving DecidableEq, Repr

/-- Who drives QCA and QCS (R410). -/
inductive Qca | latch | fwd | port
  deriving DecidableEq, Repr

/-- A set of granules: disjoint half-open intervals, rising (R94). -/
abbrev RangeSet := List (Nat × Nat)

/-- The content of one granule, as a token: all 40 bits zero (R166), the token a host WRITE carried, or
what nobody knows. -/
inductive Content | zero | data (n : Nat) | unknown (n : Nat)
  deriving DecidableEq, Repr

/-- A half-open range of granules that hold one content. -/
structure Seg where
  lo : Nat
  hi : Nat
  c : Content
  deriving DecidableEq, Repr

/-- The contents of all granules: a granule in no segment holds `base`. Segments rise, do not touch with the
same content, and none holds `base`. -/
structure Contents where
  base : Content
  segs : List Seg
  deriving DecidableEq, Repr

/-! ## Lines: responses and notices (R289-R291) -/

/-- A printed value (R290). -/
inductive Val
  | nat (n : Nat)
  | int (i : Int)
  | tenths (i : Int)
  | hex (digits : Nat) (n : Nat)
  | kw (s : String)
  | size (n : Nat)
  | dur (ns : Nat)
  | csv (l : List Nat)
  | bytes (l : List Byte)
  | ranges (l : List (Nat × Nat))
  deriving DecidableEq, Repr

/-- A response or notice line. -/
inductive Line
  | ok (fields : List (String × Val))
  | err (code : Nat) (fields : List (String × Val))
  | evt (fields : List (String × Val))
  deriving DecidableEq, Repr

/-! ## Events (R328-R331) -/

/-- The events the model raises: common events of R330, the recorder's own of R331, the two that the
manual numbers (R387, R391), and those whose number stands in the published catalogue (R329). -/
inductive EvKind
  -- common (R330)
  | pstate | laneDiscard | laneCorr | lanePoison | domainFailed
  -- recorder (R331)
  | summary | mark | full | clear | life | holdOvf | badEntry | wrap
  -- numbered in this manual
  | faultEntry | mgmtHold
  -- catalogued (R329): power, reset, options, boot
  | resetDone | optInvalid | optDefault | optReservedCode | optReservedBits | xtalFail | refclkStop
  | bankFallback | noBank | vddqLow | vccqLow | tjHigh | bootTrigger
  -- hold and host path
  | trigger | superseded | parkDone | parkEnded | restoreDropped | restoreExpired | drstEv | writeNoRow
  | captureOvf | dckLost | parityBlocked | mapPoison | retrainFail | armedLost
  -- save, NAND
  | rimCommitted | strandFail | dieFenced | targetExcluded | stripeShort | saveEnergy | wear | groupRetired
  | bbtFull | foldStarted | provisioned | imageLost | granuleRead | recordFallback | ringMoved | rimFailed
  | stakeMissed | stakeSet
  -- tenants and keys
  | keyLost | zeroizeFail | keyCopyFail | eraseProof
  -- pack
  | packChange | packClamp | chgFault | senseFail | estReset | probeRejected | marginChange | imbalance
  | unanchored | restReq | batEmpty | packRecordBad
  -- bus, warp
  | busoff | dupnode | busStuck | noFrame | q0q1Lost | warpStepped | warpLost | warpNoKeeper | warpCountBad | hsdaMismatch
  | drainLimit | laneHalted
  -- sessions, code flash, update
  | lineDamaged | secretsBad | drbgFail | flashWarn | flashFail | flashTimeout | digestMismatch | fetchFault
  | areaInvalid | protInvalid | verifyFail | genExhausted | thermoFail | logCopyBad | noticeSent | s7Response
  deriving DecidableEq, Repr

/-- An event number: one of the model's kinds, or a number that arrived from a domain. -/
inductive EvCode | named (k : EvKind) | num (n : BitVec 11)
  deriving DecidableEq, Repr

/-- A recorder entry (R328). -/
structure Entry where
  seq : BitVec 32
  warp : BitVec 64
  dom : Dom
  ev : EvCode
  sev : BitVec 3
  wsync : Bool
  delayed : Bool
  epoch : BitVec 6
  args : Vector Word 4
  /-- an uncorrectable word: reads return BAD_ENTRY (R344) -/
  bad : Bool
  deriving DecidableEq, Repr

/-- A token bucket bound to one CODE (R335). -/
structure Bucket where
  dom : Dom
  ev : EvCode
  sev : BitVec 3
  tokens : Nat
  suppressed : Nat
  firstWarp : BitVec 64
  deriving DecidableEq, Repr

/-- The previous life's log (R340, R342). -/
structure LogCopy where
  epoch : BitVec 32
  full : Bool
  drops : Nat
  hovf : Nat
  entries : List Entry
  deriving DecidableEq, Repr

/-- The event recorder (R328-R344). -/
structure Recorder where
  /-- entries held, oldest first, at most 4096 (R333) -/
  entries : List Entry
  /-- SEQ the next append takes (R332, R334) -/
  seq : BitVec 32
  epoch : BitVec 32
  /-- the last entry took SEQ 0xFFFF_FFFF: the next one is preceded by WRAP (R334) -/
  wrapDue : Bool
  full : Bool
  drops : Nat
  /-- end of the FREEZE lease, in AON microseconds (R338) -/
  lease : Option Nat
  /-- the holding buffer, at most 64 (R338) -/
  held : List Entry
  hovf : Nat
  /-- the token buckets in use, at most 64 (R335) -/
  buckets : List Bucket
  /-- the previous life's log (R342) -/
  prev : Option LogCopy
  deriving DecidableEq, Repr

/-! ## AON and the warden -/

/-- The option fields of R72. -/
structure Options where
  nodeId : NodeId
  keeperCap : Bool
  join : BitVec 2
  dataRate : BitVec 3
  nomRate : BitVec 3
  consRate : BitVec 3
  fallback : Bool
  bank : Bank
  enN : BitVec 8
  enShb : Bool
  enChg : Bool
  anonOk : Bool
  ichg : BitVec 5
  cells : BitVec 2
  chem : BitVec 2
  cfgWp : Bool
  optWp : Bool
  arbFloor : Word
  deriving DecidableEq, Repr

/-- The BOOT phases of R78 that have ended. -/
structure BootSt where
  domainsUp : Bool
  hpReady : Bool
  header : Bool
  body : Bool
  firmware : Bool
  tests : Bool
  /-- the bank under check and whether it is the fallback (R79) -/
  trying : Bank
  second : Bool
  rootOk : Bool
  xtsOk : Bool
  mapOk : Bool
  /-- REFCLK was absent 500 ms after T2 (R86) -/
  noRefclk : Bool
  deriving DecidableEq, Repr

/-- Failed attempts in a row and the end of the backoff (R298, R363), in AON microseconds. -/
structure Backoff where
  fails : Nat
  until_ : Nat
  deriving DecidableEq, Repr

/-- The Kalman state of one cell (R207): SoC, polarisation voltage, covariance. -/
structure Cell where
  z : ℚ
  vp : ℚ
  pzz : ℚ
  pzv : ℚ
  pvv : ℚ
  deriving DecidableEq, Repr

/-- The accounts the warden keeps while D02 is OFF (R206). -/
structure PackAcc where
  /-- discharged charge since D02 went OFF, ampere-seconds -/
  charge : ℚ
  /-- time covered, and time for which rest has held, seconds -/
  gap : ℚ
  rest : Nat
  last : List Nat
  deriving DecidableEq, Repr

/-- State held in D00 AON: only a power-on reset clears it (R40, R63). -/
structure Aon where
  por : PorPhase
  /-- the AON timebase, microseconds -/
  us : Nat
  xtal : Xtal
  hold : HoldState
  boot : BootSt
  img : ImgRel
  /-- the relation has been derived or set since the power-on reset (R31 T5) -/
  imgKnown : Bool
  cont : Bool
  stale : Bool
  cause : Cause
  /-- the planned cause that T10 superseded (R42) -/
  superseded : Option Cause
  failedSave : Bool
  nandDiverged : Bool
  /-- AON was lost after a power-on reset and no record has committed since (R151) -/
  aonLost : Bool
  rst : ResetCause
  boots : Nat
  opt : Options
  optSel : OptSel
  optSeq : Nat
  /-- the run-time disable mask (R54) -/
  runDisable : Vector Bool 20
  wdArmed : Bool
  wdKick : Nat
  wdResets : List Nat
  mgmtHold : Bool
  authRun : Backoff
  authKeep : Backoff
  pwd : Backoff
  deferred : Bool
  activated : Bool
  /-- crypto-erases whose Key store write has not verified (R192) -/
  erases : List Tenant
  checkpoint : Option (List Cell)
  /-- the granules that the save under way had yielded at that checkpoint (R222) -/
  checkGrans : Nat
  packAcc : PackAcc
  /-- end of the fault-retry timer in AON microseconds (R203, R204) -/
  retryEnd : Option Nat
  batEmpty : Bool
  hwFloor : Bool
  tjHigh : Bool
  tj : Int
  bank : Bank
  fwfb : Bool
  /-- no bank passed: the recovery set runs (R80) -/
  noFirmware : Bool
  hpOk : Bool
  faults : List FaultCause
  /-- the PARK alarm of R122 -/
  parkAlarm : Bool
  /-- the 200 ms of stable VBULK are under way (R31, R76, R85) -/
  qualifying : Bool
  /-- when the last unplanned trigger came (R42) -/
  trigAt : Option Nat
  deriving DecidableEq, Repr

/-- Pins and supplies; the model keeps their levels as the outside sets them (R27, R399-R415). -/
structure Pins where
  vaon : Bool
  bulk : Bulk
  /-- VBULK qualifies the charger: reached 11.0 V and not since below 10.9 V (R52, R200) -/
  bulk11 : Bool
  vsb : Bool
  refclk : Bool
  drstHigh : Bool
  qalertA : Bool
  qalertB : Bool
  /-- ALERT_L held low by an unplanned takeover (R88) -/
  alertHeld : Bool
  /-- HP's own parity alert on ALERT_L (R88) -/
  parityAlert : Bool
  /-- true: DRAM DQ at the port; false: at the host (R103) -/
  dqswA : Bool
  dqswB : Bool
  batsw : Bool
  qrstHigh : Bool
  qck : Qck
  qca : Qca
  /-- port drivers and ODT enabled (R103) -/
  port : Bool
  deriving DecidableEq, Repr

/-! ## Domains and lanes -/

/-- One power domain (R47-R67). -/
structure DomSt where
  mode : DMode
  /-- enabled (R52, R54): by the masks at the option load and at BOOT, and since then by `DOMAIN ENABLE` and `DOMAIN DISABLE` -/
  en : Bool
  /-- an enable sequence runs, for this session (R55) -/
  enabling : Option (Option Sess)
  /-- session that asked for the disable (R291) -/
  issuer : Option Sess
  /-- a NAND channel that serves plaits only from the next full save (R56) -/
  waiting : Bool
  /-- a drain that began as FORCE would (R61) -/
  failKind : Option PowerFail
  deriving DecidableEq, Repr

/-- What a source has learnt of its last flit (R49, R62): sent, waiting for a credit, or refused at once, because the lane is DOWN or
the sink takes no new work. -/
inductive SendOutcome | none | sent | waits | refused
  deriving DecidableEq, Repr

/-- One lane (R49, R51, R62, R69). -/
structure Lane where
  credits : Nat
  /-- the flits that the source holds back for want of a credit (R49), and what became of its last one (R62) -/
  waiting : List Flit
  outcome : SendOutcome
  /-- flits sent and not yet visible at the sink -/
  flight : List Flit
  /-- flits in the sink's queue; on a DONE lane, also those whose work is not finished -/
  queue : List Flit
  halted : Bool
  corr : Nat
  /-- corrected errors since the last LANE_CORR entry (R330) -/
  corrNew : Nat
  poison : Nat
  resets : Nat
  discarded : Nat
  /-- TAGs of descriptors that FORCE discarded: their requester got a STAT flit with status ABORTED (R61) -/
  aborted : List (BitVec 8)
  deriving DecidableEq, Repr

/-- A PLL (R48, R55, R68): disabled, enabled without lock, locked. -/
inductive PllSt | off | locking | locked
  deriving DecidableEq, Repr

/-- The domains, the PLLs and the drain limit. -/
structure Domains where
  dom : Vector DomSt 20
  lanes : Vector Lane 87
  pllF : PllSt
  pllM : PllSt
  pllN : PllSt
  /-- the drain limit in nanoseconds (R58) -/
  drainNs : Nat
  deriving DecidableEq, Repr

/-! ## The host path -/

/-- A rank entry of the capture set (R96). -/
structure CapRank where
  sub : Sub
  rank : Rank
  key : MrKey
  value : Byte
  deriving DecidableEq, Repr

/-- A per-device entry of the capture set with the selection that made it (R96). -/
structure CapDev where
  sub : Sub
  rank : Rank
  key : MrKey
  /-- the selecting enumeration -/
  sel : Byte
  value : Byte
  deriving DecidableEq, Repr

/-- One entry of the capture set, in order of last write (R96, R97). -/
inductive CapEntry | rank (e : CapRank) | device (e : CapDev)
  deriving DecidableEq, Repr

/-- The training modes of the RCD (R87). -/
inductive TrainMode | cs | ca
  deriving DecidableEq, Repr

/-- The phases of R98 and R102. -/
inductive TakePhase
  | idle | burstDrain | close | switch_ | clock | portStart | retrain | firstGranule | owned
  | dataEnd | refresh | replay | sre | waitRelease | release | ready
  deriving DecidableEq, Repr

/-- D07 HP (R87-R107). -/
structure HostPath where
  rows : List (BankKey × BitVec 18)
  selfRef : List (Sub × Rank)
  capture : List CapEntry
  /-- per (subchannel, rank): the selected enumeration, none = all devices (R96) -/
  pda : List ((Sub × Rank) × Byte)
  /-- the enumerations captured, device after device (R89) -/
  enums : List ((Sub × Rank) × Byte)
  mrcapOvf : Bool
  rcd : List ((Sub × Byte) × Byte)
  /-- the RCD's CS or CA training mode, per subchannel (R87, R106) -/
  training : List (Sub × TrainMode)
  /-- HP's outgoing buffer: the records that no flit of lane 0 holds yet (R90) -/
  snoop : List Snoop
  filter : List Nat
  phase : TakePhase
  dckAbsent : Bool
  parityErrors : Nat
  /-- what the last handback wrote, in order (R97) -/
  replayed : List (CapEntry × Byte)
  deriving DecidableEq, Repr

/-! ## NAND -/

/-- The NAND profile (R131). -/
structure Profile where
  valid : Bool
  number : Nat
  idBytes : BitVec 48
  idMask : Byte
  iface : Nat
  tmode : Nat
  spare : Nat
  planes : Nat
  pageBytes : Nat
  luns : Nat
  wls : Nat
  blocks : Nat
  pairDist : Nat
  minStripe : Nat
  tprogTlc : Nat
  tprogSlc : Nat
  tr : Nat
  tbers : Nat
  tlcVal : Nat
  pslcVal : Nat
  pslcOp : Nat
  pslcMethod : Nat
  retryWarn : Nat
  retryFa : Nat
  retryN : Nat
  progScheme : Nat
  marginBits : Nat
  marginEr : Nat
  marginHi : Nat
  marginLo : Nat
  warnBits : Nat
  retireBits : Nat
  fbbOffset : Nat
  fbbPages : Nat
  blankBits : Nat
  pslcPe : Nat
  tlcPe : Nat
  rimDwell : Nat
  /-- RETRY[0-15], 4 feature bytes each -/
  retry : List Byte
  deriving DecidableEq, Repr

/-- Roles of a block group (R133), codes 0 to 10. -/
inductive Role
  | erasePending | free | deltaOpen | delta | baseOpen | base | rim | table | retiring | grownBad | factoryBad
  deriving DecidableEq, Repr

/-- A row of the block-state table (R133-R135); a group that waits for its retirement keeps the cause and the failing plane
(R153, R154). -/
structure Group where
  die : Die
  block : Nat
  role : Role
  erases : Nat
  wp : Nat
  cause : Nat
  plane : Nat
  deriving DecidableEq, Repr

/-- The strand tag in the spare area of a strand's first page (R115). -/
structure StrandTag where
  plait : Nat
  saveSeq : Nat
  grans : Nat
  widthM1 : Nat
  strand : Nat
  table : Bool
  pad : Bool
  first : Nat
  deriving DecidableEq, Repr

/-- The array work of a die (R117, R147): a strand, a table strand, a rim copy, a word line of a fold, an erase. -/
inductive Work
  | strand (page : Page)
  | table (page : Page)
  | rim (copyB : Bool) (page : Page)
  | fold
  | erase (block : Nat)
  deriving DecidableEq, Repr

/-- What a die does now (R117): its data are being loaded, it waits for an owned slot, its array works. -/
inductive DieOp | idle | loading (w : Work) | ready (w : Work) | busy (w : Work)
  deriving DecidableEq, Repr

/-- One die (R114, R158, R404). -/
structure DieSt where
  present : Bool
  fenced : Bool
  /-- the profile does not match its target (R130) -/
  mismatch : Bool
  /-- out of the stripe for the rest of this save (R116) -/
  failed : Bool
  op : DieOp
  /-- the first ONFI RESET has gone out (R158) -/
  resetSent : Bool
  /-- highest retry depth and corrected bits seen (DIAG NAND, R323) -/
  maxRetry : Nat
  maxCorr : Nat
  deriving DecidableEq, Repr

/-- A grown bad-block entry (R153). -/
structure Grown where
  cause : Nat
  die : Die
  plane : Nat
  block : Nat
  deriving DecidableEq, Repr

/-- Rim record types (R140), codes 1 to 5. -/
inductive RecType | save | fold | restored | discard | format
  deriving DecidableEq, Repr

/-- A table that a table directory lists (R137): its type, its strands in order, its CRC, and whether it is reused unchanged from the
record before. -/
structure TableRef where
  type : Nat
  strands : List Page
  crc : Word
  reused : Bool
  deriving DecidableEq, Repr

/-- A line of the base map (R146): the TLC page that holds one strand of a layer. -/
structure BaseRef where
  seq : Nat
  plait : Nat
  strand : Nat
  page : Page
  deriving DecidableEq, Repr

/-- A rim record (R140), with what its table directory leads to. -/
structure Rim where
  type : RecType
  subskip : Bool
  cont : Bool
  partial_ : Bool
  seq : Nat
  prevSeq : Nat
  warp : Nat
  geom : Word
  grans : Nat
  plaits : Nat
  layers : Nat
  ndieM1 : Nat
  cause : Cause
  k : Nat
  widthM1 : Nat
  bbtGen : Nat
  logFirst : BitVec 32
  usedDies : List Die
  volatile_ : List Tenant
  revoked : List Tenant
  erased : List Tenant
  tenants : List Tenant
  /-- the two copies of the table directory (DIR_A, DIR_B), the layer maps newest first, which it lists itself or through an index
  (R139), the other tables it lists, and the ring locations that it repeats (R137, R141) -/
  dirA : Option Page
  dirB : Option Page
  maps : List TableRef
  dir : List TableRef
  ringDies : Die × Die
  /-- what those tables hold (R137): the log copy, the capture table, the tenant map and attributes -/
  log : Option LogCopy
  capTable : List CapEntry
  tenMap : List DWord
  attrs : Vector Word 256
  /-- the delta layers of the image, newest first, by SEQ (R137, R139) -/
  layerSeqs : List Nat
  /-- the base map (R146): the layers that stand in the base alone, newest first, and where their strands and the folded strands of the
  delta layers are -/
  baseSeqs : List Nat
  base : List BaseRef
  /-- the block-state checkpoint (R139) -/
  checkpoint : List Group
  /-- the pages of the rings that hold its two copies (R141) -/
  copyA : Option Page
  copyB : Option Page
  deriving DecidableEq, Repr

/-- A part of a plait: the granules of one tenant under one key generation (R188). -/
structure PlaitPart where
  tenant : Tenant
  gen : Nat
  set : RangeSet
  deriving DecidableEq, Repr

/-- A plait (R114, R115): its granules in order, per strand the page that holds it (none once its group is erased), and the contents of
its granules as they were read from the DRAM. -/
structure Plait where
  no : Nat
  first : Nat
  parts : List PlaitPart
  strands : List (Option Page)
  contents : Contents
  deriving DecidableEq, Repr

/-- A delta layer (R111). Its plaits keep their numbers when their strands move to the base (R146). -/
structure Layer where
  seq : Nat
  plaits : List Plait
  deriving DecidableEq, Repr

/-- One copy of a rim being committed (R142), and the ring page that its program takes. -/
structure RimCopy where
  die : Die
  page : Option Page
  programmed : Bool
  passed : Bool
  attempts : Nat
  deriving DecidableEq, Repr

/-- What follows a rim commit (R34, R35, R113, R146, R152, R175, R190). -/
inductive RimUse
  | saveRim | restoredRim | foldRim | formatRim
  | discardRim (session : Option Sess)
  | eraseProof
  | zeroSave
  deriving DecidableEq, Repr

/-- A rim commit in progress (R142). -/
structure RimJob where
  rim : Rim
  use : RimUse
  a : RimCopy
  b : RimCopy
  dwell : Bool
  deriving DecidableEq, Repr

/-- The state of a strand on its way to a die (R114, R117). -/
inductive StrandSt | waiting | loading | ready | busy | done
  deriving DecidableEq, Repr

/-- A table strand (R137): the type of its table (0 = a directory copy), its place in the table, the die it goes to, how far it is, and
once it is programmed its page. -/
structure TabStrand where
  type : Nat
  idx : Nat
  die : Die
  st : StrandSt
  page : Option Page
  deriving DecidableEq, Repr

/-- The tables of a record being written (R119, R137, R148). -/
structure TableJob where
  use : RimUse
  strands : List TabStrand
  deriving DecidableEq, Repr

/-- A fold in progress on one die (R146, R148): its destination group and how far it is programmed and
margin-read. -/
structure FoldDie where
  die : Die
  block : Nat
  wp : Nat
  read : Nat
  busy : Bool
  /-- the strands that the word line under way takes, and those that stand in the group, with their pages there (R146) -/
  taking : List BaseRef
  copied : List BaseRef
  /-- a FOLD record is being committed for the group (R148) -/
  closing : Bool
  deriving DecidableEq, Repr

/-- A rim ring (R141): four groups on one die, the group in use, its next page, and per group the highest SEQ in it
(0 = erased). -/
structure Ring where
  die : Die
  blocks : List Nat
  cur : Nat
  page : Nat
  tops : List Nat
  deriving DecidableEq, Repr

/-- The settle engine (R145-R150). -/
structure Settle where
  running : Bool
  folds : List FoldDie
  /-- groups whose margin read failed once (R157) -/
  marginFailed : List (Die × Nat)
  startFree : Nat
  stopFree : Nat
  startLayers : Nat
  stopLayers : Nat
  deriving DecidableEq, Repr

/-- Provisioning (R152). -/
inductive Prov | never | running | done
  deriving DecidableEq, Repr

/-- The NAND channels, the NAND and the module's DRAM. -/
structure Nand where
  profile : Profile
  /-- a profile stored by MAP PROFILE COMMIT for the next BOOT (R130) -/
  nextProfile : Option Profile
  dies : Vector DieSt 256
  /-- rows of the block-state table that differ from an untouched FREE group, by die and block -/
  groups : List Group
  /-- ERASE_PENDING groups whose erase has completed: FREE at the next checkpoint (R134, R157) -/
  erased : List (Die × Nat)
  /-- the strand tags in the pages (R115) -/
  tags : List (Page × StrandTag)
  /-- the grown bad-block table in force, and its two copies with their generations: in the config store and in TABLE groups (R153) -/
  bbt : List Grown
  bbtGen : Nat
  bbtCfg : List Grown × Nat
  bbtTab : List Grown × Nat
  bbtFull : Bool
  /-- the factory table survives (R152) -/
  fbbt : Bool
  ringA : Ring
  ringB : Ring
  /-- valid rim records, highest SEQ first (R143) -/
  rims : List Rim
  /-- layers whose pages are still there, newest first (R137-R149) -/
  layers : List Layer
  tab : Option TableJob
  rimJob : Option RimJob
  settle : Settle
  prov : Prov
  noProfile : Bool
  imgloss : Option Nat
  rimfb : Bool
  /-- the rim area could not be written (R44 RIM_AREA) -/
  rimDead : Bool
  /-- the record chosen at image derivation (R161, R163) -/
  chosen : Option Nat
  /-- the DRAM's contents, granule by granule (R16, R17) -/
  dram : Contents
  /-- the device itself has left the DRAM in self-refresh (R53, R102) -/
  dramSr : Bool
  deriving DecidableEq, Repr

/-! ## Dirty map and save sequencer -/

/-- A strand in flight (R114, R117), and once it is programmed its page. -/
structure Strand where
  die : Die
  st : StrandSt
  page : Option Page
  deriving DecidableEq, Repr

/-- A plait under way (R116). -/
structure OpenPlait where
  plait : Plait
  strands : List Strand
  deriving DecidableEq, Repr

/-- The part of a save that is running (R119). -/
inductive SavePhase | takeover | stream | tail | commit
  deriving DecidableEq, Repr

/-- A save under way (R108-R128). -/
structure Save where
  planned : Bool
  full : Bool
  seq : Nat
  phase : SavePhase
  /-- tenants and granules not yet yielded, in save order (R112) -/
  todo : List (Tenant × RangeSet)
  plaitNo : Nat
  /-- the die of the last strand of the last plait (R114) -/
  lastDie : Option Die
  open_ : List OpenPlait
  done : List Plait
  /-- no new plait starts (R123, R128, R216) -/
  stop : Bool
  partial_ : Bool
  /-- the subchannels that the save skips (R107) -/
  skips : List Sub
  /-- dirty granules at takeover, per tenant, in save order (R124) -/
  owed : List (Tenant × RangeSet)
  /-- E_fix and e_g at the trigger in joule (R128) -/
  eFix0 : ℚ
  eG0 : ℚ
  /-- the integral of modelled load in joule at the trigger, at the end of Takeover, at the issue of the last granule read, at the end
  of Pipeline (R120) -/
  eStart : ℚ
  eTakeover : ℚ
  eStream : ℚ
  ePipe : ℚ
  /-- the log as the Tail copied it when it began (R340) -/
  logCopy : Option LogCopy
  logWritten : Bool
  deriving DecidableEq, Repr

/-- A descriptor reload under way (R108, R179): the new map and what it will dirty. -/
structure Reload where
  map : List DWord
  session : Option Sess
  deriving DecidableEq, Repr

/-- D08 MAP. -/
structure MapSt where
  geom : Word
  dirty : RangeSet
  descriptors : Bool
  /-- CLASS of every tenant, and the usable dies, as the descriptors hold them (R108, R112, R182) -/
  classes : Vector Nat 256
  descDies : List Die
  reload : Option Reload
  /-- MAP's copy of E_rem in joule, and whether the firmware's values have stopped (R215) -/
  eRem : ℚ
  eStale : Bool
  /-- the class that cover= reports (R121), none below class 0 -/
  cover : Option Nat
  /-- learned energies in joule (R120, R123) -/
  eg : ℚ
  eFix : ℚ
  eTail : ℚ
  /-- strands of a table of each type 1 to 8 (R137), 0 of a directory; the spec gives no sizes (assumption log entry 65) -/
  tabLens : Vector Nat 9
  save : Option Save
  dqFailA : Bool
  dqFailB : Bool
  /-- the PARK wait in nanoseconds (R30) -/
  parkWaitNs : Nat
  deriving DecidableEq, Repr

/-! ## Restore -/

/-- A waiting RESTORE request (R27, R34, R159, R274). `stagger` is trigger and ARG of the stake that asked. -/
structure RestoreReq where
  source : Cause
  session : Option Sess
  stagger : Option (Nat × Nat)
  deriving DecidableEq, Repr

/-- A restore under way (R164-R171). -/
structure RestoreRun where
  short : Bool
  rim : Rim
  stale : Bool
  rimfb : Bool
  loaded : Bool
  takeoverDone : Bool
  streaming : Bool
  streamDone : Bool
  zeroDone : Bool
  sreDone : Bool
  committed : Option Nat
  written : RangeSet
  zeroed : List Tenant
  /-- copies that failed to decode: granule and layer SEQ (R167) -/
  failed : List (Nat × Nat)
  older : RangeSet
  lost : RangeSet
  zeroCount : Nat
  /-- neither retained record could be read: every granule is zeroed and `img=NONE` follows (R163, R176) -/
  imageLost : Bool
  /-- warp time before which a staggered Stream does not begin (R274) -/
  notBefore : Nat
  deriving DecidableEq, Repr

/-- The restore report (R172). -/
structure Report where
  short : Bool
  rseq : Nat
  stale : Bool
  rimfb : Bool
  partial_ : Bool
  subskip : Bool
  incomplete : List Tenant
  older : RangeSet
  lost : RangeSet
  zeroed : Nat
  zeroTenants : List Tenant
  /-- the record's tenant map, by which the report counts a tenant's granules -/
  tenMap : List DWord
  deriving DecidableEq, Repr

/-- Restore state: the request, the run, the last report (config store REP). -/
structure RestoreSt where
  req : Option RestoreReq
  run : Option RestoreRun
  report : Option Report
  deriving DecidableEq, Repr

/-! ## Tenants and keys -/

/-- The phases of a crypto-erase (R189). -/
inductive ErasePhase | zeroize | keyStore | oldCopy | proof
  deriving DecidableEq, Repr
structure EraseJob where
  t : Tenant
  phase : ErasePhase
  session : Option Sess
  tries : Nat
  zeroFail : Bool
  /-- an erase resumed at a firmware start whose proof stands already (R192) -/
  proven : Bool
  deriving DecidableEq, Repr

/-- A key-store blob (R192): the wrapped key, its GEN, its check code, and whether its CRC holds. -/
structure Blob where
  wrapped : List Byte
  gen : Nat
  kcv : List Byte
  crcOk : Bool
  /-- SLOT of the attribute word that was stored with it (R181) -/
  slot : Nat
  deriving DecidableEq, Repr

/-- Tenant map, attributes and keys. -/
structure Tenants where
  map : List DWord
  attr : Vector Word 256
  blobs : Vector (Option Blob) 256
  /-- the owner transport key, wrapped under K_store (R185) -/
  otk : Option (List Byte)
  eraseList : List Tenant
  /-- key-store copies not verified erased (R192) -/
  oldDirty : Bool
  /-- XTS slots that hold a key (R186) -/
  loaded : List Tenant
  unusable : List Tenant
  jobs : List EraseJob
  /-- outcome of each tenant's last erase: true = VERIFIED (R194) -/
  kdestroy : List (Tenant × Bool)
  keyloss : List Tenant
  deriving DecidableEq, Repr

/-! ## Battery -/

/-- The settings of BAT SET (R316), in the units of that table; none = the chemistry's value (R197). -/
structure BatSet where
  vchg : Option Nat
  vmaint : Option Nat
  vcut : Option Nat
  imb : Option Nat
  recharge : Nat
  taper : Nat
  ichg : Option Nat
  maint : Bool
  retryNs : Nat
  parksafe : Nat
  cap : Nat
  pmod : Nat
  deriving DecidableEq, Repr

/-- The pack identity record (R198), after clamping (R199). -/
structure PackId where
  chem : Nat
  cells : Nat
  serial : Nat
  capMah : Nat
  ichgMax : Nat
  vchgMv : Nat
  tchgMax : Nat
  rsInit : Nat
  deriving DecidableEq, Repr

/-- One impedance bin (R212): r_ser and r_pol in 0.1 mOhm, and the count; none = the value copied from the default table (R199). -/
structure Bin where
  rser : Option (BitVec 16)
  rpol : Option (BitVec 16)
  count : BitVec 8
  deriving DecidableEq, Repr

/-- The pack record (R212): what is learned of the pack whose serial is stored. -/
structure PackRec where
  serial : Nat
  capMah : Nat
  /-- learned capacity per cell, mAh -/
  q : List (BitVec 16)
  /-- scale applied to the default table so that its reference entry equals RS_INIT (R199) -/
  rsInit : Nat
  bins : List (List Bin)
  /-- cycle count, in hundredths of an equivalent full cycle (R212, R213) -/
  cycles : BitVec 32
  est : EstState
  /-- warp time of the last anchor -/
  anchorWarp : Option Nat
  deriving DecidableEq, Repr

/-- A probe under way (R211): samples before the step and 1 ms after it; `dI` holds I_before until then and the step from then on;
`z0` is each cell's z at the second sample. -/
structure Probe where
  before : List Nat
  after : List Nat
  dI : ℚ
  z0 : List ℚ
  deriving DecidableEq, Repr

/-- Pack, charger and estimator. -/
structure Battery where
  set : BatSet
  present : Bool
  /-- presence has been judged since power-on (R199) -/
  judgedPack : Bool
  result : PackResult
  pid : Option PackId
  packRec : Option PackRec
  /-- the pack record as the config store holds it, and when it was written (R212) -/
  stored : Option PackRec
  storedAt : Option Nat
  readTries : Nat
  chg : ChgMode
  iset : Nat
  icmd : Nat
  pauses : List PauseCause
  /-- the mode that PAUSED interrupted (R200) -/
  pausedFrom : ChgMode
  restUntil : Option Nat
  /-- times of the charger faults within 24 h, and the lock of the third (R203) -/
  chgFaults : List Nat
  locked : Bool
  /-- CC and CV time since the last DONE, MAINT or OFF, ms (R203) -/
  chgTime : Nat
  fromFull : Bool
  cells : List Cell
  /-- the front end's conversions, newest first, at most four (R206) -/
  ring : List Sample
  /-- discharge that the cycle count does not hold yet, in hundredths of a cycle (R212, R213) -/
  cycleRest : ℚ
  /-- rejected updates in a row, per cell (R208, R223), and rejected probes in a row (R211) -/
  rej : List Nat
  probeRej : List Nat
  est : EstState
  anchored : Bool
  probed : Bool
  /-- AON time of the last anchor that counts (R210, R219) -/
  anchorUs : Nat
  /-- discharge since the last anchor per cell in ampere-seconds, with the z of that anchor (R213) -/
  sinceAnchor : List (ℚ × ℚ)
  /-- available energy in joule (R214) -/
  eavail : ℚ
  /-- the integral of modelled load at the pack terminals, in joule (R120, R213) -/
  loadJ : ℚ
  margin : Margin
  judged : Bool
  better : Option Margin
  ocvNmc : Option (List Nat)
  ocvLfp : Option (List Nat)
  probe : Option Probe
  firstRestReq : Option Nat
  /-- a REST stake has arrived since the first request (R219) -/
  restStake : Bool
  /-- remaining time of the fault-retry timer as the config store holds it, in seconds (R204, R212) -/
  retryLeft : Option Nat
  imbalance : Bool
  eod : Bool
  deriving DecidableEq, Repr

/-! ## Shelf bus -/

/-- Mailbox statuses (R239), codes 0 to 7. -/
inductive MboxStatus | empty | pending | active | done | cancelled | failed | aborted | refused
  deriving DecidableEq, Repr

/-- A mailbox (R239, R254). -/
structure Mbox where
  id : CanId
  status : MboxStatus
  attempts : Nat
  tries : Nat
  fdf : Bool
  brs : Bool
  dlc : BitVec 4
  data : List Byte
  cancel : Bool
  /-- an ACTIVE bridge mailbox whose window was disabled (R248), or whose domain goes away (R257) -/
  abort : Bool
  deriving DecidableEq, Repr

/-- A filter pair (R253). -/
structure Filter where
  en : Bool
  fmt : BitVec 2
  id : CanId
  mask : CanId
  deriving DecidableEq, Repr

/-- A Q1 entry (R238, R255). -/
structure Q1Entry where
  frame : Frame
  seq : Nat
  pair : Nat
  ts : Nat
  locked : Bool
  deriving DecidableEq, Repr

/-- A partial segmented message (R229). -/
structure Partial where
  src : NodeId
  cls : BitVec 3
  type : BitVec 6
  tag : BitVec 10
  next : Nat
  data : List Byte
  deriving DecidableEq, Repr

/-- What SHB is sending (R240). -/
inductive OnWire | idle | mbox (n : Fin 16) | fifo
  deriving DecidableEq, Repr

/-- The counters that BUS reports (R243, R317). -/
structure BusCounts where
  stuff : Nat
  form : Nat
  ack : Nat
  bit : Nat
  crc : Nat
  arblost : Nat
  miss : Nat
  q0ovf : Nat
  reasm : Nat
  reservedType : Nat
  busoff : Nat
  deriving DecidableEq, Repr

/-- D05 SHB and its bridge window. -/
structure Shb where
  mode : BusMode
  integrating : Bool
  recovering : Bool
  nrate : Nat
  drate : Nat
  cand : Nat
  validRun : Nat
  errRun : Nat
  dcand : Nat
  dvalid : Nat
  derr : Nat
  tec : Nat
  recCnt : Nat
  last : Nat
  passive : Bool
  counts : BusCounts
  filters : Vector Filter 32
  q0 : List Frame
  q1 : Vector (Option Q1Entry) 64
  q1seq : Nat
  q1ovf : Nat
  mbox : Vector Mbox 16
  fifo : List Frame
  onWire : OnWire
  partials : List Partial
  recov : List Nat
  /-- the policies of BUS SET: holdoff and beacon interval in nanoseconds, recoveries per hour (R230, R245) -/
  holdoffNs : Nat
  recovMax : Nat
  beaconNs : Nat
  stuck : Bool
  /-- detection has gone through every candidate rate since it began, and none is confirmed (R258) -/
  noFrame : Bool
  winEn : Bool
  ibiEn : Bool
  irq : Word
  irqen : Word
  /-- frames whose transmission has ended, last first -/
  sent : List Frame
  deriving DecidableEq, Repr

/-! ## Warp -/

/-- States of a stake entry (R271), codes 0 to 4. -/
inductive StakeSt | empty | armed | fired | missed | cancelled
  deriving DecidableEq, Repr

/-- A stake entry (R271). -/
structure Stake where
  trigger : Nat
  state : StakeSt
  action : Nat
  arg : Nat
  src : NodeId
  late : Nat
  deriving DecidableEq, Repr

/-- A slot table (R268). -/
structure SlotTable where
  mask : BitVec 40
  smax : Nat
  stagger : Nat
  deriving DecidableEq, Repr

/-- A SYNC waiting for its FOLLOW_UP (R261). -/
structure SyncWait where
  src : NodeId
  tag : BitVec 10
  local_ : Nat
  table : Nat
  deriving DecidableEq, Repr

/-- D06 WARP. -/
structure Warp where
  state : WarpState
  /-- warp time; it runs in AON while D06 is in RET or OFF -/
  ns : Nat
  /-- the node that this one follows -/
  keeper : Option NodeId
  await : Option SyncWait
  good : Nat
  missed : Nat
  /-- AON time of the last accepted SYNC pair (R260, R262) -/
  lastSync : Option Nat
  /-- growth of the error bound since then, in femtoseconds (R265) -/
  growthFs : Nat
  step : Option Int
  /-- rate trim of the PI loop in parts per 10^9 (R262) -/
  trim : Int
  interval : Nat
  delay : Nat
  restmax : Nat
  tables : Vector (Option SlotTable) 4
  active : Fin 4
  pending : Option (Fin 4)
  stakes : Vector Stake 64
  discards : Nat
  ignored : Nat
  stored : Option Nat
  storeBad : Bool
  syncSeq : Nat
  /-- a candidate without a valid warp time waits its further 10 s (R263) -/
  candidate : Bool
  /-- AON time until which the node follows before it may announce (R263) -/
  followUs : Nat
  /-- the count was started under R266 and has not been SYNCED since -/
  unset_ : Bool
  /-- tag and SOF of the SYNC on the wire (R261) -/
  sof : Option (BitVec 10 × Nat)
  /-- new content of the active table, for the next frame boundary (R268) -/
  staged : Option SlotTable
  /-- the part of the count below a nanosecond, in 10^-6 ns -/
  frac : Nat
  /-- REST stakes this keeper has placed: requester and trigger (R275) -/
  rests : List (NodeId × Nat)
  deriving DecidableEq, Repr

/-! ## Gehel sessions -/

/-- An AUTH nonce (R296): its bytes, its level, its end in AON microseconds. -/
structure Nonce where
  bytes : List Byte
  level : Priv
  until_ : Nat
  deriving DecidableEq, Repr

/-- What a session waits for (R300). -/
inductive Busy
  | keyErase (t : Tenant)
  | commit
  | domainEnable (d : Dom)
  | domainForce (d : Dom)
  | discard
  | flashJob
  | activate
  deriving DecidableEq, Repr

/-- A staged upload (R314). -/
inductive UploadKind | profile | ocv (chem : Nat) | header | splint (idx : Nat)
  deriving DecidableEq, Repr
structure Upload where
  kind : UploadKind
  bytes : List Byte
  deriving DecidableEq, Repr

/-- A line that a session holds: a command, or a line whose form or syntax the parser refused, with its code. -/
inductive QLine | cmd (i : Instr) | bad (code : Nat)
  deriving DecidableEq, Repr

/-- A queued line and, for a tunnel, its LSEQ (R284, R300). -/
structure QEntry where
  lseq : Byte
  line : QLine
  deriving DecidableEq, Repr

/-- A command whose outcome a notice reports to the issuing session (R291). -/
inductive Issue | drain (d : Dom) | erase (t : Tenant) | restore
  deriving DecidableEq, Repr

/-- One session S0 to S6 (R279-R304). -/
structure Ses where
  isOpen : Bool
  priv : Priv
  notify : Bool
  echo : Bool
  node : Option NodeId
  lastLseq : Option Byte
  lastResp : List Byte
  /-- sequence of the tunnel line being executed -/
  curLseq : Byte
  /-- the partial line: of a pipe, what its input buffer holds (R283) -/
  line : List Byte
  /-- the present line is damaged or too long: the code that answers it (R281, R283, R286) -/
  lineErr : Option Nat
  queue : List QEntry
  out : List Byte
  /-- the last response, as a line -/
  resp : Option Line
  notices : List Line
  lost : Nat
  busy : Option Busy
  nonce : Option Nonce
  unlock : Bool
  adds : List DWord
  dels : List DWord
  uploads : List Upload
  ovf : Bool
  ibiEn : Bool
  /-- what the session has issued since it opened (R291) -/
  issued : List Issue
  deriving DecidableEq, Repr

/-- The firmware's session state and its policies. -/
structure Mgmt where
  running : Bool
  ses : Vector Ses 7
  idleNs : Nat
  /-- the secrets of RUN and KEEP, wrapped under K_store (R297) -/
  secRun : Option (List Byte)
  secKeep : Option (List Byte)
  secBad : Bool
  /-- frames of the firmware that wait for room in the transmit FIFO (R242) -/
  txFeed : List Frame
  /-- the core halted on a poisoned fetch (R368) -/
  halted : Bool
  /-- a management reset ended the sessions, so they reopen with `*EVT rst=` (R83) -/
  announce : Bool
  deriving DecidableEq, Repr

/-! ## Code flash and update -/

/-- The margin modes of a read (R359): PV-MARGIN against a stricter reference for programmed cells, EV-MARGIN for erased ones. -/
inductive ReadMode | pv | ev
  deriving DecidableEq, Repr

/-- A CFL operation (R357): word index and value, sector, sector. -/
inductive CflOp | program (w : Nat) (v : DWord) | erase (s : Nat) | margin (s : Nat) (mode : ReadMode)
  deriving DecidableEq, Repr

/-- What a list of operations is for, and so what its end does and answers. -/
inductive CflUse
  /-- `FLASH OPT SET` (R75) -/
  | optSet (keys : List (OptKey × Nat))
  /-- `FLASH PROTECT` (R361) -/
  | protect (first last : Nat) (on : Bool)
  /-- `FLASH PASSWORD` (R362) -/
  | password (pwd : List Byte)
  /-- `FLASH SCRUB` of a region code (R360) -/
  | scrub (region : Nat)
  /-- an accepted splint: index and payload (R377) -/
  | splint (idx : Nat) (data : List Byte)
  /-- an accepted header opens a staging (R376) -/
  | openStaging (hdr : List Byte)
  /-- VERIFIED or FAILED after a verification (R379) -/
  | verdict (pass : Bool)
  /-- CLOSED at an abort (R382) -/
  | abort
  /-- BANK, then CLOSED, then the ACTIVATE reset; the flag is set in the recovery set (R80, R380) -/
  | activate (recovery : Bool)
  /-- one record of the thermometer after another (R381) -/
  | thermo
  /-- the refresh of a sector in which a scrub found a weak word (R360) -/
  | refresh
  /-- what is left of a job whose firmware was reset -/
  | loose
  deriving DecidableEq, Repr
structure CflJob where
  use : CflUse
  session : Option Sess
  /-- its operations have been laid out -/
  planned : Bool
  ops : List CflOp
  /-- all operations again, for the one repeat of R368, and whether it has been taken -/
  redo : List CflOp
  retried : Bool
  deriving DecidableEq, Repr

/-- Operation statuses (R356), codes 0 to 4. -/
inductive CflStatus | ok | fail | progConflict | protected_ | timeout
  deriving DecidableEq, Repr

/-- What a fetch returned (R347, R348). -/
inductive FetchResult | line (bytes : List Byte) | fault | poison
  deriving DecidableEq, Repr

/-- D03 CFL (R345-R368). -/
structure Cfl where
  words : List (Nat × DWord)
  counts : List (Nat × Nat)
  jobs : List CflJob
  waiting : List (FetchKind × Nat)
  fetched : Option FetchResult
  /-- the fetch-key register holds the key of this bank (R346) -/
  key : Option Bank
  latch : Bool
  /-- PROT bitmap and password in force (R361) -/
  prot : BitVec 448
  pwd : List Byte
  protSeq : Nat
  /-- the sector that holds the selected protection record, none = no valid copy -/
  protSel : Option Nat
  status : CflStatus
  pulses : Nat
  maxpulse : Nat
  warn8 : Nat
  /-- words whose ECC has failed, and words that margin reads found weak (R360, R368) -/
  uncorr : List Nat
  weak : List Nat
  /-- the running scrub's counts: words checked, weak words, sectors refreshed (R360) -/
  scrubbed : Nat
  scrubWeak : Nat
  refreshed : Nat
  /-- what the PV-MARGIN read of the scrub's present sector found, until its EV-MARGIN read (R360) -/
  scrubFound : List Nat
  /-- errors that the ECC has corrected (R345) -/
  corrected : Nat
  /-- a warm reset waits for the end of the program or erase under way (R85) -/
  warmDue : Bool
  deriving DecidableEq, Repr

/-- Config-store areas (R349), in the order of R350's AREA codes. -/
inductive Area | keys | ten | gbbt | fbbt | cfg | sec | hdr | pack | rep | time
  deriving DecidableEq, Repr

/-- Bookkeeping of one area (R350): the current copy (false = first), its SEQ, and whether the other copy
is erased. -/
structure AreaSt where
  second : Bool
  seq : Nat
  otherErased : Bool
  written : Bool
  deriving DecidableEq, Repr

/-- The reasons of a rejected header or splint (R375), codes 0 to 13. -/
inductive Reason
  | none | magic | version | family | size | signature | rollback | image | index | length | mac | noHeader
  | busy | flash
  deriving DecidableEq, Repr

/-- The retrain seeds (R98, R402): the width of the DRAM devices that they name, x4 or x8, and the centring values. -/
structure Seeds where
  x8 : Bool
  centring : List Byte
  deriving DecidableEq, Repr

/-- The module's own settings in the config store that no verb of Gehel writes: replay mask (R97), switch settle time in nanoseconds
(R103), the retrain seeds (R98, R402), the leakage current I_leak in ampere (R205). -/
structure ModuleCfg where
  replayMask : Vector Byte 256
  tswNs : Nat
  seeds : Seeds
  iLeak : ℚ
  deriving DecidableEq, Repr

/-- Config-store bookkeeping and the firmware staging (R349, R369-R382). -/
structure Store where
  cfg : ModuleCfg
  areas : Vector AreaSt 10
  hdrA : List Byte
  hdrB : List Byte
  /-- source of the most recent HEADER message, last rejection, AON time of the last RECEIPT (R375) -/
  distributor : Option NodeId
  reason : Reason
  lastReceipt : Nat
  classDiscards : Nat
  /-- sessions waiting for verification (R380) -/
  verifyWaiters : List Sess
  /-- splints have arrived since the last RECEIPT (R375) -/
  receiptDue : Bool
  deriving DecidableEq, Repr

/-! ## I3C -/

/-- The I3C responder (R36, R246, R408, R409). -/
structure I3c where
  dyn : Option (BitVec 7)
  instance_ : BitVec 16
  hotJoin : Bool
  /-- the last CCC or window read's bytes, most significant first -/
  reply : List Byte
  /-- in-band interrupts raised, by mandatory data byte (R246, R282) -/
  ibi : List Byte
  deriving DecidableEq, Repr

/-! ## The state -/

/-- The whole machine. -/
structure State where
  aon : Aon
  log : Recorder
  pins : Pins
  doms : Domains
  hp : HostPath
  map : MapSt
  nand : Nand
  rst : RestoreSt
  ten : Tenants
  bat : Battery
  shb : Shb
  warp : Warp
  mg : Mgmt
  cfl : Cfl
  store : Store
  i3c : I3c
  /-- numbers the free values taken so far; the MODEL's own field (assumption log entry 4) -/
  free : Nat
  /-- the commands that wait, first in first out (assumption log entry 1) -/
  pending : List Instr
  deriving DecidableEq, Repr

/-! ## Why a step stops -/

/-- Why a command ends in a fault. -/
inductive Fault
  /-- A command that has no effect at all. No meaning raises it: every command of the table has an effect on every operand, and where a
  conversion or a frame brings less than it should, the bytes and voltages it lacks are free values (assumption log entry 7). Safe. -/
  | illFormed
  deriving DecidableEq, Repr

/-- Why a command is refused. -/
inductive Refusal
  /-- The command has no meaning in this model. Raised only by an arm of exec. Safe. -/
  | notModelled (mnemonic : String)
  deriving DecidableEq, Repr

/-! ## Reset

The state with the power-on reset still asserted (R63, R70), of a module as it leaves the factory. Values the
spec does not give are named in the assumption log, entries 3, 5 and 6. -/

/-- The factory defaults of R72. -/
def Options.factory : Options :=
  { nodeId := 0x3FF, keeperCap := false, join := 1, dataRate := 0, nomRate := 0, consRate := 0, fallback := true
    bank := .a, enN := 0xFF, enShb := true, enChg := true, anonOk := true, ichg := 5, cells := 0, chem := 0
    cfgWp := false, optWp := false, arbFloor := 0 }

/-- No BOOT phase has ended. -/
def BootSt.start : BootSt :=
  { domainsUp := false, hpReady := false, header := false, body := false, firmware := false, tests := false
    trying := .a, second := false, rootOk := false, xtsOk := false, mapOk := false, noRefclk := false }

def Recorder.empty : Recorder :=
  { entries := [], seq := 0, epoch := 0, wrapDue := false, full := false, drops := 0, lease := none, held := [], hovf := 0
    buckets := [], prev := none }

def Aon.reset : Aon :=
  { por := .asserted, us := 0, xtal := .pending, hold := .dark, boot := BootSt.start, img := .none, imgKnown := false
    cont := false, stale := false, cause := .none, superseded := none, failedSave := false, nandDiverged := false
    aonLost := true, rst := .powerOn, boots := 0, opt := Options.factory, optSel := .dflt, optSeq := 0
    runDisable := Vector.replicate 20 false, wdArmed := false, wdKick := 0, wdResets := [], mgmtHold := false
    authRun := { fails := 0, until_ := 0 }, authKeep := { fails := 0, until_ := 0 }
    pwd := { fails := 0, until_ := 0 }, deferred := false, activated := false, erases := []
    checkpoint := none, checkGrans := 0, packAcc := { charge := 0, gap := 0, rest := 0, last := [] }, retryEnd := none
    batEmpty := false, hwFloor := false, tjHigh := false, tj := 25, bank := .a, fwfb := false, noFirmware := false
    hpOk := false, faults := [], parkAlarm := false, qualifying := false, trigAt := none }

def Pins.start : Pins :=
  { vaon := false, bulk := .droop, bulk11 := false, vsb := false, refclk := true
    drstHigh := true, qalertA := true, qalertB := true, alertHeld := false, parityAlert := false
    dqswA := true, dqswB := true, batsw := false, qrstHigh := false, qck := .stopped, qca := .latch, port := false }

def DomSt.off : DomSt := { mode := .off, en := false, enabling := none, issuer := none, waiting := false, failKind := none }
def DomSt.on : DomSt := { DomSt.off with mode := .on }

/-- A lane in state DOWN (R51). -/
def Lane.down : Lane :=
  { credits := 0, waiting := [], outcome := .none, flight := [], queue := [], halted := false, corr := 0, corrNew := 0
    poison := 0, resets := 0, discarded := 0, aborted := [] }

def Domains.reset : Domains :=
  { dom := (Vector.replicate 20 DomSt.off).set 0 DomSt.on, lanes := Vector.replicate 87 Lane.down
    pllF := .off, pllM := .off, pllN := .off, drainNs := 2000000000 }

def HostPath.reset : HostPath :=
  { rows := [], selfRef := [], capture := [], pda := [], enums := [], mrcapOvf := false, rcd := [], training := [], snoop := [], filter := []
    phase := .idle, dckAbsent := false, parityErrors := 0, replayed := [] }

/-- The reference profile of R132. Fields that R132 leaves out hold zero (assumption log entry 6). -/
def Profile.reference : Profile :=
  { valid := true, number := 0, idBytes := 0, idMask := 0, iface := 2, tmode := 0, spare := 2048, planes := 4
    pageBytes := 16384, luns := 1, wls := 704, blocks := 1232, pairDist := 1, minStripe := 32, tprogTlc := 2400
    tprogSlc := 350, tr := 90, tbers := 10000, tlcVal := 0, pslcVal := 0, pslcOp := 0, pslcMethod := 0
    retryWarn := 6, retryFa := 0, retryN := 12, progScheme := 0, marginBits := 48, marginEr := 0, marginHi := 0
    marginLo := 0, warnBits := 96, retireBits := 144, fbbOffset := 0, fbbPages := 0, blankBits := 8, pslcPe := 3000
    tlcPe := 3000, rimDwell := 30, retry := List.replicate 64 0 }

def DieSt.absent : DieSt :=
  { present := false, fenced := false, mismatch := false, failed := false, op := .idle, resetSent := false
    maxRetry := 0, maxCorr := 0 }

def Settle.reset : Settle :=
  { running := false, folds := [], marginFailed := [], startFree := 40, stopFree := 60, startLayers := 24
    stopLayers := 8 }

/-- A ring before provisioning: no group yet. -/
def Ring.at (d : Die) : Ring := { die := d, blocks := [], cur := 0, page := 0, tops := [] }

def Nand.reset : Nand :=
  { profile := Profile.reference, nextProfile := none, dies := Vector.replicate 256 DieSt.absent, groups := [], erased := []
    tags := [], bbt := [], bbtGen := 0, bbtCfg := ([], 0), bbtTab := ([], 0), bbtFull := false, fbbt := false, ringA := Ring.at 0, ringB := Ring.at 32, rims := [], layers := []
    tab := none, rimJob := none, settle := Settle.reset, prov := .never, noProfile := false, imgloss := none, rimfb := false
    rimDead := false, chosen := none, dram := { base := .unknown 0, segs := [] }, dramSr := false }

/-- The seeds of R120 and R123 with P_DEV = 9.0 W, P_MOD = 10.0 W and the reference t_g of 7.53 us. -/
def MapSt.reset : MapSt :=
  { geom := 0x00100000, dirty := [], descriptors := false, classes := Vector.replicate 256 7, descDies := [], reload := none, eRem := 0, eStale := false, cover := none
    eg := 19 * (753 / 100000000), eFix := 19 * (12 / 100), eTail := 19 * (9 / 100), tabLens := Vector.replicate 9 2, save := none
    dqFailA := false, dqFailB := false, parkWaitNs := 30000000000 }

def RestoreSt.reset : RestoreSt := { req := none, run := none, report := none }

def Tenants.reset : Tenants :=
  { map := [], attr := Vector.replicate 256 0x00000070, blobs := Vector.replicate 256 none, otk := none, eraseList := []
    oldDirty := false, loaded := [], unusable := [], jobs := [], kdestroy := [], keyloss := [] }

def BatSet.factory : BatSet :=
  { vchg := none, vmaint := none, vcut := none, imb := none, recharge := 95, taper := 20, ichg := none, maint := false
    retryNs := 1800000000000, parksafe := 50, cap := 2000, pmod := 10000 }

def Battery.reset : Battery :=
  { set := BatSet.factory, present := false, judgedPack := false, result := .none, pid := none, packRec := none
    stored := none, storedAt := none, readTries := 0, chg := .off, iset := 0, icmd := 0, pauses := [], pausedFrom := .off, cycleRest := 0
    restUntil := none, chgFaults := [], locked := false, chgTime := 0, fromFull := false, cells := [], ring := []
    rej := [], probeRej := [], est := .learning, anchored := false, probed := false, anchorUs := 0, sinceAnchor := []
    eavail := 0, loadJ := 0, margin := .none, judged := false, better := none, ocvNmc := none, ocvLfp := none, probe := none
    firstRestReq := none, restStake := false, retryLeft := none, imbalance := false, eod := false }

def Filter.off : Filter := { en := false, fmt := 0, id := 0, mask := 0 }
def Mbox.empty : Mbox :=
  { id := 0, status := .empty, attempts := 0, tries := 0, fdf := false, brs := false, dlc := 0, data := []
    cancel := false, abort := false }

def Shb.reset : Shb :=
  { mode := .off, integrating := false, recovering := false, nrate := 0, drate := 0, cand := 0, validRun := 0
    errRun := 0, dcand := 0, dvalid := 0, derr := 0, tec := 0, recCnt := 0, last := 0, passive := false
    counts := { stuff := 0, form := 0, ack := 0, bit := 0, crc := 0, arblost := 0, miss := 0, q0ovf := 0
                reasm := 0, reservedType := 0, busoff := 0 }
    filters := Vector.replicate 32 Filter.off, q0 := [], q1 := Vector.replicate 64 none, q1seq := 0, q1ovf := 0
    mbox := Vector.replicate 16 Mbox.empty, fifo := [], onWire := .idle, partials := [], recov := []
    holdoffNs := 5000000000, recovMax := 3, beaconNs := 10000000000, stuck := false, noFrame := false, winEn := false, ibiEn := false
    irq := 0, irqen := 0, sent := [] }

def Stake.empty : Stake := { trigger := 0, state := .empty, action := 0, arg := 0, src := 0, late := 0 }

/-- The first-BOOT slot table of R268 for a node. -/
def SlotTable.first (node : Nat) : SlotTable :=
  { mask := 1 <<< (node % 40), smax := 64, stagger := node % 40 }

def Warp.reset : Warp :=
  { state := .none, ns := 0, keeper := none, await := none, good := 0, missed := 0, lastSync := none, growthFs := 0
    step := none, trim := 0, interval := 2, delay := 0, restmax := 4
    tables := Vector.replicate 4 none, active := 0, pending := none
    stakes := Vector.replicate 64 Stake.empty, discards := 0, ignored := 0, stored := none, storeBad := false
    syncSeq := 0, candidate := false, followUs := 0, unset_ := true, sof := none, staged := none, frac := 0, rests := [] }

/-- A session without a transport open. -/
def Ses.closed : Ses :=
  { isOpen := false, priv := .view, notify := true, echo := false, node := none, lastLseq := none, lastResp := []
    curLseq := 0, line := [], lineErr := none, queue := [], out := [], resp := none
    notices := [], lost := 0, busy := none, nonce := none, unlock := false, adds := [], dels := [], uploads := []
    ovf := false, ibiEn := false, issued := [] }

def Mgmt.reset : Mgmt :=
  { running := false, ses := Vector.replicate 7 Ses.closed, idleNs := 900000000000, secRun := none, secKeep := none
    secBad := false, txFeed := [], halted := false, announce := false }

/-- The protection record as the module leaves the factory (R361): PROT and PWD all zero, SEQ 0, in sector 498. -/
def Cfl.factoryWords : List (Nat × DWord) :=
  [(1019904, 0x000000015A505254)] ++ (List.range 14).map (fun i => (1019905 + i, 0)) ++ [(1019919, 0x5690C7B800000000)]

def Cfl.reset : Cfl :=
  { words := Cfl.factoryWords, counts := Cfl.factoryWords.map (fun p => (p.1, 1)), jobs := [], waiting := [], fetched := none, key := none, latch := false, prot := 0
    pwd := List.replicate 16 0, protSeq := 0, protSel := none, status := .ok, pulses := 0, maxpulse := 0, warn8 := 0
    uncorr := [], weak := [], scrubbed := 0, scrubWeak := 0, refreshed := 0, scrubFound := [], corrected := 0, warmDue := false }

def AreaSt.factory : AreaSt := { second := false, seq := 0, otherErased := true, written := false }

/-- The replay mask of the factory (R97): it clears every training-mode, per-DRAM-addressability and multi-purpose-mode control bit of
JESD79-5. -/
def factoryMask (mr : Nat) : Byte := Config.factoryReplayMask mr &&& ~~~(Config.modeControlBits mr)

/-- What the factory stores: tSW 200 ns (R103), I_leak 0.03 mA (R205), x4 DRAM (assumption log entry 61). -/
def ModuleCfg.factory : ModuleCfg :=
  { replayMask := Vector.ofFn (fun i => factoryMask i.val), tswNs := 200, seeds := { x8 := false, centring := [] }, iLeak := 3 / 100000 }

def Store.reset : Store :=
  { cfg := ModuleCfg.factory, areas := Vector.replicate 10 AreaSt.factory, hdrA := List.replicate 512 0xFF, hdrB := List.replicate 512 0xFF
    distributor := none, reason := .none, lastReceipt := 0, classDiscards := 0, verifyWaiters := [], receiptDue := false }

def I3c.reset : I3c := { dyn := none, instance_ := 0, hotJoin := false, reply := [], ibi := [] }

/-- The machine right after reset: the power-on reset is asserted, the hold state reads DARK (R36, R63, R70). -/
def State.reset : State :=
  { aon := Aon.reset, log := Recorder.empty, pins := Pins.start, doms := Domains.reset, hp := HostPath.reset
    map := MapSt.reset, nand := Nand.reset, rst := RestoreSt.reset, ten := Tenants.reset, bat := Battery.reset
    shb := Shb.reset, warp := Warp.reset, mg := Mgmt.reset, cfl := Cfl.reset, store := Store.reset, i3c := I3c.reset
    free := 0, pending := [] }

end Sys2Proof.Machine
end

