-- ==== Sys2Proof/Machine/Data.lean ====
section
/-! DEFINITION. Operations on the plain data of the state: sets of granules, contents, vectors, keyed lists,
byte strings, the two CRCs, and the areas of the config store. -/

namespace Sys2Proof.Machine

/-! ## Vectors and keyed lists -/

/-- `v` with the entry at `i` changed by `f`. -/
def upd {α : Type} {n : Nat} (v : Vector α n) (i : Fin n) (f : α → α) : Vector α n :=
  v.set i.val (f (v[i.val]'i.isLt)) i.isLt

/-- `v` with the entry at the number `i` changed, unchanged where there is none. -/
def updNat {α : Type} {n : Nat} (v : Vector α n) (i : Nat) (f : α → α) : Vector α n :=
  if h : i < n then v.set i (f v[i]) h else v

/-- The value under a key. -/
def look {α β : Type} [DecidableEq α] (k : α) : List (α × β) → Option β
  | [] => none
  | (a, b) :: t => if a = k then some b else look k t

/-- Put a value under a key, in the place the key had, or at the end. -/
def put {α β : Type} [DecidableEq α] (k : α) (b : β) : List (α × β) → List (α × β)
  | [] => [(k, b)]
  | (a, c) :: t => if a = k then (k, b) :: t else (a, c) :: put k b t

/-- Take a key out. -/
def drop {α β : Type} [DecidableEq α] (k : α) (l : List (α × β)) : List (α × β) := l.filter (fun p => p.1 ≠ k)

/-- Insert a number into a rising list without repeats. -/
def insertNat (n : Nat) : List Nat → List Nat
  | [] => [n]
  | a :: t => if n < a then n :: a :: t else if n = a then a :: t else a :: insertNat n t

/-- Insert into a list of tenants or dies, rising, without repeats. -/
def insertFin {m : Nat} (n : Fin m) : List (Fin m) → List (Fin m)
  | [] => [n]
  | a :: t => if n < a then n :: a :: t else if n = a then a :: t else a :: insertFin n t

/-- Every number below `n`, as `Fin n`, rising. -/
def allFin (n : Nat) : List (Fin n) := List.finRange n

/-! ## Sets of granules -/

def rsMem (r : RangeSet) (g : Nat) : Bool := r.any (fun p => p.1 ≤ g && g < p.2)

/-- Add the interval `[lo, hi)`. -/
def rsAdd : RangeSet → Nat → Nat → RangeSet
  | [], lo, hi => if lo < hi then [(lo, hi)] else []
  | (a, b) :: t, lo, hi =>
    if hi ≤ lo then (a, b) :: t
    else if hi < a then (lo, hi) :: (a, b) :: t
    else if b < lo then (a, b) :: rsAdd t lo hi
    else rsAdd t (min a lo) (max b hi)

/-- Take the interval `[lo, hi)` out. -/
def rsSub : RangeSet → Nat → Nat → RangeSet
  | [], _, _ => []
  | (a, b) :: t, lo, hi =>
    (if a < min b lo then [(a, min b lo)] else []) ++
    (if max a hi < b then [(max a hi, b)] else []) ++ rsSub t lo hi

/-- The part inside `[lo, hi)`. -/
def rsClip (r : RangeSet) (lo hi : Nat) : RangeSet :=
  r.filterMap (fun p => if max p.1 lo < min p.2 hi then some (max p.1 lo, min p.2 hi) else none)

def rsUnion (r q : RangeSet) : RangeSet := q.foldl (fun acc p => rsAdd acc p.1 p.2) r
def rsDiff (r q : RangeSet) : RangeSet :=
  q.foldl (fun acc p => if p.1 < p.2 then rsSub acc p.1 p.2 else acc) r
def rsInter (r q : RangeSet) : RangeSet := q.foldl (fun acc p => rsUnion acc (rsClip r p.1 p.2)) []

/-- The number of granules. -/
def rsSize (r : RangeSet) : Nat := r.foldl (fun n p => n + (p.2 - p.1)) 0

/-- The first `n` granules, and the rest. -/
def rsTake : RangeSet → Nat → RangeSet × RangeSet
  | [], _ => ([], [])
  | (a, b) :: t, n =>
    if n = 0 then ([], (a, b) :: t)
    else if b - a ≤ n then
      let q := rsTake t (n - (b - a))
      ((a, b) :: q.1, q.2)
    else ([(a, a + n)], (a + n, b) :: t)

/-! ## Contents -/

/-- The content of a granule. -/
def Contents.get (c : Contents) (g : Nat) : Content :=
  match c.segs.find? (fun q => q.lo ≤ g && g < q.hi) with
  | some q => q.c
  | none => c.base

/-- The segments without the interval `[lo, hi)`. -/
def segCut (l : List Seg) (lo hi : Nat) : List Seg :=
  l.flatMap (fun q =>
    (if q.lo < min q.hi lo then [{ q with hi := min q.hi lo }] else []) ++
    (if max q.lo hi < q.hi then [{ q with lo := max q.lo hi }] else []))

/-- A segment before a list; where it touches the first one with the same content they are one. -/
def segCons (s : Seg) : List Seg → List Seg
  | [] => [s]
  | q :: t => if s.hi = q.lo ∧ q.c = s.c then { s with hi := q.hi } :: t else s :: q :: t

/-- Put a segment in its place; neighbours that touch with the same content join. -/
def segInsert (s : Seg) : List Seg → List Seg
  | [] => [s]
  | q :: t =>
    if q.hi = s.lo ∧ q.c = s.c then segCons { s with lo := q.lo } t
    else if s.hi ≤ q.lo then segCons s (q :: t)
    else q :: segInsert s t

/-- Give every granule of `[lo, hi)` one content. -/
def Contents.setRange (c : Contents) (lo hi : Nat) (x : Content) : Contents :=
  if hi ≤ lo then c
  else
    let l := segCut c.segs lo hi
    { c with segs := if x = c.base then l else segInsert { lo := lo, hi := hi, c := x } l }

/-- Give every granule of a set one content. -/
def Contents.fill (c : Contents) (r : RangeSet) (x : Content) : Contents :=
  r.foldl (fun acc p => acc.setRange p.1 p.2 x) c

/-- Copy the granules of a set from another content. -/
def Contents.copy (c src : Contents) (r : RangeSet) : Contents :=
  src.segs.foldl
    (fun acc q => acc.fill (rsClip r q.lo q.hi) q.c)
    (c.fill r src.base)

/-- The canonical form of segments: none empty, none holding `base`, rising, and two that touch hold different contents. -/
def segsWf (base : Content) : List Seg → Bool
  | [] => true
  | a :: t =>
    decide (a.lo < a.hi) && decide (a.c ≠ base) &&
    (match t with
      | [] => true
      | b :: _ => decide (a.hi < b.lo) || (decide (a.hi = b.lo) && decide (a.c ≠ b.c))) && segsWf base t

/-- The contents stand in their canonical form, so that equal contents are equal data. -/
def Contents.wf (c : Contents) : Bool := segsWf c.base c.segs

/-! ## Bytes -/

/-- `n` bytes, least significant first. -/
def leBytes : Nat → Nat → List Byte
  | 0, _ => []
  | n + 1, v => BitVec.ofNat 8 v :: leBytes n (v / 256)

/-- `n` bytes, most significant first. -/
def beBytes (n v : Nat) : List Byte := (leBytes n v).reverse

/-- The number that bytes hold, least significant first. -/
def leNat : List Byte → Nat
  | [] => 0
  | b :: t => b.toNat + 256 * leNat t

/-- The number that bytes hold, most significant first. -/
def beNat (l : List Byte) : Nat := leNat l.reverse

/-- `n` bytes of a string from an offset; bytes past its end read `pad`. -/
def bytesAt (l : List Byte) (off n : Nat) (pad : Byte := 0) : List Byte :=
  (List.range n).map (fun i => l.getD (off + i) pad)

/-- A field of bytes, least significant first. -/
def leAt (l : List Byte) (off n : Nat) : Nat := leNat (bytesAt l off n)

/-- Bits `[hi:lo]` of a number. -/
def bitsOf (v hi lo : Nat) : Nat := v / 2 ^ lo % 2 ^ (hi - lo + 1)

def bitOf (v n : Nat) : Bool := v / 2 ^ n % 2 = 1

/-- One byte into a reflected CRC of 32 bits. -/
def crcByte (poly : Word) (crc : Word) (b : Byte) : Word :=
  (List.range 8).foldl
    (fun c _ => if c.getLsbD 0 then (c >>> 1) ^^^ poly else c >>> 1)
    (crc ^^^ b.setWidth 32)

/-- CRC-32 of IEEE 802.3 (R72). -/
def crc32 (l : List Byte) : Word := (l.foldl (crcByte 0xEDB88320) 0xFFFFFFFF) ^^^ 0xFFFFFFFF

/-- CRC-32C (R131, R198, R212, R350). -/
def crc32c (l : List Byte) : Word := (l.foldl (crcByte 0x82F63B78) 0xFFFFFFFF) ^^^ 0xFFFFFFFF

/-- ASCII text as bytes. -/
def ascii (s : String) : List Byte := s.toList.map (fun c => BitVec.ofNat 8 c.toNat)

/-- `⌈a / b⌉`, 0 when `b` is 0. -/
def ceilDiv (a b : Nat) : Nat := if b = 0 then 0 else (a + b - 1) / b

/-! ## Free values -/

/-- A fresh number for a free value, and the state that has taken it. -/
def fresh (s : State) : Nat × State := (s.free, { s with free := s.free + 1 })

/-! ## Config-store areas (R349, R350) -/

/-- An area's place in R350's AREA codes. -/
def Area.code : Area → Nat
  | .keys => 0
  | .ten => 1
  | .gbbt => 2
  | .fbbt => 3
  | .cfg => 4
  | .sec => 5
  | .hdr => 6
  | .pack => 7
  | .rep => 8
  | .time => 9

/-- Sectors of one copy, and of all of the area (R349). -/
def Area.sectors : Area → Nat × Nat
  | .keys => (2, 4)
  | .ten => (3, 6)
  | .gbbt => (2, 4)
  | .fbbt => (4, 4)
  | _ => (1, 2)

def allAreas : List Area := [.keys, .ten, .gbbt, .fbbt, .cfg, .sec, .hdr, .pack, .rep, .time]

def areaOf (s : State) (a : Area) : AreaSt := s.store.areas.toList.getD a.code AreaSt.factory
def setArea (s : State) (a : Area) (x : AreaSt) : State := { s with store := { s.store with areas := updNat s.store.areas a.code (fun _ => x) } }

/-- Write an area (R350): the erased copy takes the content with SEQ one above, the old copy is erased. Its words are not
kept one by one: what an area holds stands in the state's own fields (assumption log entry 21). FBBT has one copy. -/
def writeArea (s : State) (a : Area) : State :=
  let x := areaOf s a
  setArea s a { second := if x.written && a ≠ .fbbt then !x.second else x.second, seq := x.seq + 1, otherErased := true, written := true }

end Sys2Proof.Machine
end

