-- ==== Sys2Proof/Machine/Recorder.lean ====
section
/-! DEFINITION. The event recorder's appends (R328-R335, R338-R340). -/

namespace Sys2Proof.Machine

/-- Severities of R328. -/
def sevInfo : BitVec 3 := 1
def sevNotice : BitVec 3 := 2
def sevWarning : BitVec 3 := 3
def sevAlarm : BitVec 3 := 4
def sevFault : BitVec 3 := 5

/-- The catalogued events that report a detected fault (R386, R388, R415). -/
def EvKind.isFault : EvKind → Bool
  | .optInvalid | .optDefault | .xtalFail | .refclkStop | .noBank | .vddqLow | .vccqLow | .captureOvf | .mapPoison | .retrainFail
  | .strandFail | .dieFenced | .stripeShort | .bbtFull | .imageLost | .rimFailed | .keyLost | .zeroizeFail | .keyCopyFail | .chgFault
  | .senseFail | .busoff | .dupnode | .busStuck | .noFrame | .laneHalted | .secretsBad | .flashFail | .flashTimeout | .fetchFault => true
  | _ => false

/-- An event's severity (R330, R331, R387, R391); that of a catalogued event is a free value from INFO to FAULT, from WARNING on for a
detected fault (R328, R386). -/
def EvKind.sev : EvKind → BitVec 3
  | .pstate => sevInfo
  | .laneDiscard => sevNotice
  | .laneCorr | .lanePoison => sevWarning
  | .domainFailed => sevAlarm
  | .summary | .mark => sevInfo
  | .full => sevWarning
  | .clear | .life | .wrap => sevNotice
  | .holdOvf => sevWarning
  | .badEntry => sevFault
  | .faultEntry => sevFault
  | .mgmtHold => sevAlarm
  | k => let free := (Config.catSev k.ctorIdx).toNat
         BitVec.ofNat 3 (if k.isFault then 3 + free % 3 else 1 + free % 5)

/-- The recorder's own entries bypass the buckets (R335). -/
def EvKind.own : EvKind → Bool
  | .summary | .mark | .full | .clear | .life | .holdOvf | .badEntry | .wrap => true
  | _ => false

def EvCode.own : EvCode → Bool
  | .named k => k.own
  | .num _ => false

/-- An event's number (R329-R331). FAULT_ENTRY and MGMT_HOLD have their numbers in R387 and R391; a catalogued event's is a free value from
0x012 to 0x7EF (R329). -/
def EvKind.number : EvKind → BitVec 11
  | .pstate => 0x001
  | .laneDiscard => 0x002
  | .laneCorr => 0x003
  | .lanePoison => 0x004
  | .domainFailed => 0x005
  | .summary => 0x7F0
  | .mark => 0x7F1
  | .full => 0x7F2
  | .clear => 0x7F3
  | .life => 0x7F4
  | .holdOvf => 0x7F5
  | .badEntry => 0x7F6
  | .wrap => 0x7F7
  | .faultEntry => 0x010
  | .mgmtHold => 0x011
  | k => BitVec.ofNat 11 (0x012 + (Config.catEvt k.ctorIdx).toNat % 0x7DE)

def EvCode.number : EvCode → BitVec 11
  | .named k => k.number
  | .num n => n

/-- CODE: DOM in bits [15:11], EVT in bits [10:0] (R328). -/
def codeOf (d : Dom) (e : EvCode) : Nat := d.val * 2048 + e.number.toNat

def mkArgs (a b c d : Nat) : Vector Word 4 :=
  #v[BitVec.ofNat 32 a, BitVec.ofNat 32 b, BitVec.ofNat 32 c, BitVec.ofNat 32 d]

/-- What an arriving event holds before it has a place in the log. -/
def Entry.stamp (warp : Nat) (wsync : Bool) (d : Dom) (e : EvCode) (sev : BitVec 3) (args : Vector Word 4) : Entry :=
  { seq := 0, warp := BitVec.ofNat 64 warp, dom := d, ev := e, sev := sev, wsync := wsync, delayed := false
    epoch := 0, args := args, bad := false }

/-- Append one entry at the next SEQ: dropped when the log is full, replaced by FULL in the last place (R333). -/
def Recorder.append1 (r : Recorder) (e : Entry) : Recorder :=
  if r.full then { r with drops := r.drops + 1 }
  else
    let last := r.seq = 0xFFFFFFFF
    let next := r.seq + 1
    if r.entries.length ≥ 4095 then
      { r with
        entries := r.entries ++
          [{ e with seq := r.seq, dom := 0, ev := .named .full, sev := EvKind.full.sev, delayed := false
                    epoch := r.epoch.setWidth 6, args := mkArgs r.seq.toNat 0 0 0 }]
        seq := next, wrapDue := last, full := true, drops := r.drops + 1 }
    else
      { r with entries := r.entries ++ [{ e with seq := r.seq, epoch := r.epoch.setWidth 6 }]
               seq := next, wrapDue := last }

/-- Append with the WRAP entry ahead where SEQ has wrapped (R334). -/
def Recorder.append (r : Recorder) (e : Entry) : Recorder :=
  if r.wrapDue then
    let r := { r with wrapDue := false, epoch := r.epoch + 1 }
    let w : Entry := { e with dom := 0, ev := .named .wrap, sev := EvKind.wrap.sev, delayed := false
                              args := mkArgs r.epoch.toNat 0 0 0 }
    (r.append1 w).append1 e
  else r.append1 e

/-- An entry goes into the log, or, while a lease runs, into the holding buffer with the epoch of its arrival (R338, R340). -/
def Recorder.place (r : Recorder) (e : Entry) : Recorder :=
  match r.lease with
  | none => r.append e
  | some _ =>
    if r.held.length < 64 then { r with held := r.held ++ [{ e with epoch := r.epoch.setWidth 6 }] } else { r with hovf := r.hovf + 1 }

/-- The token bucket of a code (R335): whether the event is recorded, and the buckets after it. A code with no
bucket takes a free one, which holds 8 tokens; with none free it is recorded without limit. -/
def takeToken (l : List Bucket) (d : Dom) (e : EvCode) (sev : BitVec 3) (warp : BitVec 64) : Bool × List Bucket :=
  match l.find? (fun b => b.dom = d ∧ b.ev = e) with
  | some b =>
    if b.tokens = 0 then
      (false, l.map (fun c => if c.dom = d ∧ c.ev = e then
        { c with suppressed := c.suppressed + 1, firstWarp := if c.suppressed = 0 then warp else c.firstWarp } else c))
    else (true, l.map (fun c => if c.dom = d ∧ c.ev = e then { c with tokens := c.tokens - 1 } else c))
  | none =>
    if l.length < 64 then
      (true, l ++ [{ dom := d, ev := e, sev := sev, tokens := 7, suppressed := 0, firstWarp := 0 }])
    else (true, l)

/-- An event that has arrived in AON: rate limiting (R335), then its place. -/
def Recorder.arrive (r : Recorder) (e : Entry) : Recorder :=
  if e.sev = sevFault ∨ e.ev.own = true then r.place e
  else
    let q := takeToken r.buckets e.dom e.ev e.sev e.warp
    let r := { r with buckets := q.2 }
    if q.1 then r.place e else r

/-- One tick of the 1 Hz clock (R335): a SUMMARY for each bucket with a suppressed count, one token for each
bucket, and buckets that stand at 8 with nothing suppressed become free. -/
def Recorder.tick (r : Recorder) (warp : Nat) (wsync : Bool) : Recorder :=
  let due := r.buckets.filter (fun b => b.suppressed ≠ 0)
  let r := due.foldl
    (fun r b => r.place (Entry.stamp warp wsync 0 (.named .summary) b.sev
      (mkArgs (codeOf b.dom b.ev) b.suppressed (b.firstWarp.toNat % 2 ^ 32) 0))) r
  { r with
    buckets := (r.buckets.map (fun b => { b with suppressed := 0, tokens := min 8 (b.tokens + 1) })).filter
      (fun b => b.tokens ≠ 8) }

/-- The end of the FREEZE lease (R338): held entries follow with DELAYED = 1, then HOLD_OVF. -/
def Recorder.thaw (r : Recorder) (warp : Nat) (wsync : Bool) : Recorder :=
  let held := r.held
  let lost := r.hovf
  let r := { r with lease := none, held := [], hovf := 0 }
  let r := held.foldl (fun r e => r.append { e with delayed := true }) r
  if lost = 0 then r
  else r.append (Entry.stamp warp wsync 0 (.named .holdOvf) EvKind.holdOvf.sev (mkArgs lost 0 0 0))

/-- `LOG CLEAR` (R339): CLEAR is the first entry of the new epoch, past the holding buffer. -/
def Recorder.clear (r : Recorder) (warp : Nat) (wsync : Bool) (session : Nat) : Recorder :=
  let n := r.entries.length
  let d := r.drops
  let r := { r with entries := [], full := false, drops := 0, epoch := r.epoch + 1 }
  r.append (Entry.stamp warp wsync 0 (.named .clear) EvKind.clear.sev (mkArgs n session d r.epoch.toNat))

/-- The SEQ that the held entry with index `i` would take if the lease ended now; a WRAP entry takes SEQ 0 first (R334, R340). -/
def Recorder.heldSeq (r : Recorder) (i : Nat) : BitVec 32 :=
  let n := r.seq.toNat + i
  BitVec.ofNat 32 (if r.wrapDue || 2 ^ 32 ≤ n then n + 1 else n)

/-- The log copy of a Tail (R340): held-buffer entries follow with the SEQ they would take. -/
def Recorder.copy (r : Recorder) : LogCopy :=
  let extra := (r.held.zipIdx).map (fun p => { p.1 with delayed := true, seq := r.heldSeq p.2 })
  { epoch := r.epoch, full := r.full, drops := r.drops, hovf := r.hovf, entries := r.entries ++ extra }

/-! ## Logging from the machine -/

def wsyncOf (s : State) : Bool :=
  match s.warp.state with
  | .synced | .keeper => true
  | _ => false

/-- Log an event with a given severity. Events that the model raises stand in the log at once; their flight on the
event lanes is not modelled (assumption log entry 9). -/
def logSev (s : State) (d : Dom) (e : EvCode) (sev : BitVec 3) (args : Vector Word 4) : State :=
  { s with log := s.log.arrive (Entry.stamp s.warp.ns (wsyncOf s) d e sev args) }

/-- Log an event of the model's list. -/
def logEv (s : State) (d : Dom) (k : EvKind) (a0 : Nat := 0) (a1 : Nat := 0) (a2 : Nat := 0) (a3 : Nat := 0) : State :=
  logSev s d (.named k) k.sev (mkArgs a0 a1 a2 a3)

/-- A power mode's code in PSTATE (R330). -/
def DMode.code : DMode → Nat
  | .off => 0
  | .ret => 1
  | .on => 2
  | .draining => 3
  | .stuck => 4
  | .failed => 5

/-- PSTATE: WARNING for STUCK and FAILED, else INFO (R330). -/
def logPstate (s : State) (d : Dom) (m : DMode) : State :=
  logSev s d (.named .pstate) (if m = .stuck ∨ m = .failed then sevWarning else sevInfo) (mkArgs m.code 0 0 0)

end Sys2Proof.Machine
end

