-- ==== Sys2Proof/Machine/BusOps.lean ====
section
/-! DEFINITION. Shelf-bus frames, identifiers, segmentation, mailboxes and the transmit FIFO (R227-R229,
R239-R242, R254). -/

namespace Sys2Proof.Machine

/-! ## Identifiers and lengths -/

/-- An identifier (R227): CLASS [28:26], TYPE [25:20], SRC [19:10], TAG [9:0]. -/
def makeId (cls type src tag : Nat) : CanId :=
  BitVec.ofNat 29 (cls % 8 * 2 ^ 26 + type % 64 * 2 ^ 20 + src % 1024 * 2 ^ 10 + tag % 1024)

def idClass (i : CanId) : BitVec 3 := i.extractLsb' 26 3
def idType (i : CanId) : BitVec 6 := i.extractLsb' 20 6
def idSrc (i : CanId) : NodeId := i.extractLsb' 10 10
def idTag (i : CanId) : BitVec 10 := i.extractLsb' 0 10

/-- Data bytes of a length code (ISO 11898-1). -/
def dlcLen (fdf : Bool) (dlc : BitVec 4) : Nat :=
  if dlc.toNat ≤ 8 then dlc.toNat
  else if fdf then
    match dlc.toNat with
    | 9 => 12
    | 10 => 16
    | 11 => 20
    | 12 => 24
    | 13 => 32
    | 14 => 48
    | _ => 64
  else 8

/-- The smallest length code that holds `n` bytes. -/
def lenDlc (n : Nat) : BitVec 4 :=
  if n ≤ 8 then BitVec.ofNat 4 n
  else if n ≤ 12 then 9
  else if n ≤ 16 then 10
  else if n ≤ 20 then 11
  else if n ≤ 24 then 12
  else if n ≤ 32 then 13
  else if n ≤ 48 then 14
  else 15

/-- Bytes padded with 0x00 to a length. -/
def padTo (n : Nat) (l : List Byte) : List Byte := l ++ List.replicate (n - l.length) 0

/-- The data rate allows FD frames: it is known and not classical-only (R229, R240). -/
def fdAllowed (s : Shb) : Bool := 2 ≤ s.drate

/-! ## Mailboxes -/

def MboxStatus.isFinal : MboxStatus → Bool
  | .pending | .active => false
  | _ => true

/-- The reasons to refuse a request (R240). -/
def mboxRefused (s : Shb) (n : Nat) (id : CanId) (fdf brs : Bool) : Bool :=
  idClass id = 7 || (8 ≤ n && idClass id = 0) || ((fdf || brs) && s.drate = 1) || (brs && !fdf)

/-- Set bits of BW_IRQ (R251) and raise the in-band interrupt of R246. -/
def raiseIrq (s : State) (bits : Word) : State :=
  let shb := { s.shb with irq := s.shb.irq ||| bits }
  let s := { s with shb := shb }
  if shb.ibiEn ∧ (shb.irq &&& shb.irqen) ≠ 0 then { s with i3c := { s.i3c with ibi := s.i3c.ibi ++ [0x01] } } else s

def irqQ1Rx : Word := 1
def irqQ1Ovf : Word := 2
def irqTxDone : Word := 4
def irqState : Word := 8

/-- Request a mailbox with its present identifier and data (R240). -/
def mboxRequest (s : State) (n : Fin 16) (fdf brs : Bool) (dlc : BitVec 4) (attempts : Nat) : State :=
  let m := s.shb.mbox[n.val]
  if m.status = .pending ∨ m.status = .active then s
  else
    let bad := mboxRefused s.shb n.val m.id fdf brs
    let m' := { m with status := if bad then .refused else .pending, attempts := attempts, tries := 0, fdf := fdf
                       brs := brs, dlc := dlc, cancel := false, abort := false }
    let s := { s with shb := { s.shb with mbox := upd s.shb.mbox n (fun _ => m') } }
    if bad ∧ 8 ≤ n.val then raiseIrq s irqTxDone else s

/-- The firmware sends a classical frame through the lowest of mailboxes 0 to 7 that is at rest; with none at rest
the request is ignored (R240; assumption log entry 20). -/
def fwSend (s : State) (id : CanId) (data : List Byte) : State :=
  match (allFin 8).find? (fun n => (s.shb.mbox[n.val]).status.isFinal) with
  | none => s
  | some n =>
    let i : Fin 16 := ⟨n.val, by omega⟩
    let s := { s with shb := { s.shb with mbox := upd s.shb.mbox i (fun m => { m with id := id, data := data }) } }
    mboxRequest s i false false (lenDlc data.length) 0

/-! ## The transmit FIFO and segmented messages -/

/-- Move frames that the firmware has prepared into the FIFO while it has room (R242). -/
def refillFifo (s : State) : State :=
  let room := 32 - s.shb.fifo.length
  { s with shb := { s.shb with fifo := s.shb.fifo ++ s.mg.txFeed.take room }
           mg := { s.mg with txFeed := s.mg.txFeed.drop room } }

/-- The firmware hands frames of classes 3 to 5 to the FIFO. -/
def fifoSend (s : State) (l : List Frame) : State :=
  refillFifo { s with mg := { s.mg with txFeed := s.mg.txFeed ++ l } }

/-- The frames of a segmented message (R229): a segment byte, then 63 bytes of an FD frame or 7 of a classical one. -/
def segment (fd : Bool) (id : CanId) (payload : List Byte) : List Frame :=
  let c := if fd then 63 else 7
  let m := max 1 (ceilDiv payload.length c)
  (List.range m).map (fun i =>
    let body := (payload.drop (i * c)).take c
    let seg : Nat := (if i = 0 then 128 else 0) + (if i + 1 = m then 64 else 0) + i % 64
    let raw := BitVec.ofNat 8 seg :: body
    let dlc := lenDlc raw.length
    { id := id, fdf := fd, brs := fd, esi := false, dlc := dlc, data := padTo (dlcLen fd dlc) raw })

/-- Send a segmented message through the FIFO. -/
def sendMessage (s : State) (id : CanId) (payload : List Byte) : State :=
  fifoSend s (segment (fdAllowed s.shb) id payload)

/-- A keeper-capable node follows for 4 intervals before it may announce (R263): until then, in AON microseconds. -/
def holdElection (s : State) : State :=
  { s with warp := { s.warp with followUs := s.aon.us + 4 * 31250 * 2 ^ s.warp.interval } }

/-- A keeper that no longer reaches the bus is keeper no more: its bound grows from now on (R263, R277). -/
def dropKeeper (s : State) : State :=
  if s.warp.state = .keeper then
    { s with warp := { s.warp with state := .holdover, keeper := none, lastSync := some s.aon.us, growthFs := 0, good := 0 } }
  else s

/-- Set the bus mode; a change raises BW_IRQ.STATE (R251). -/
def setBusMode (s : State) (m : BusMode) : State :=
  if s.shb.mode = m then s else raiseIrq (dropKeeper { s with shb := { s.shb with mode := m } }) irqState

/-- Both rates known, by detection or from the option area: JOIN = 1 and a module without a node ID listen; the others integrate
(R231, R234). -/
def joinBus (s : State) : State :=
  if s.shb.nrate = 0 ∨ s.shb.drate = 0 then s
  else if s.aon.opt.join = 1 ∨ s.aon.opt.nodeId = 0x3FF then setBusMode s .listen
  else { s with shb := { s.shb with integrating := true } }

/-- Detection starts for every rate that the option area does not name (R232, R233). -/
def detect (s : State) : State :=
  let s := { s with shb := { s.shb with
      nrate := s.aon.opt.nomRate.toNat, drate := s.aon.opt.dataRate.toNat, cand := 4, validRun := 0, errRun := 0, dcand := 0
      dvalid := 0, derr := 0, integrating := false, recovering := false, noFrame := false } }
  joinBus (setBusMode s .detecting)

/-- SHB without any content: what the config store and the options hold comes back (R48). -/
def coldShb (b : Shb) : Shb := { Shb.reset with holdoffNs := b.holdoffNs, recovMax := b.recovMax, beaconNs := b.beaconNs, sent := b.sent }

def BusMode.code : BusMode → Nat
  | .off => 0
  | .detecting => 1
  | .listen => 2
  | .active => 3
  | .busoff => 4
  | .dupnode => 5

def BusMode.text : BusMode → String
  | .off => "OFF"
  | .detecting => "DETECTING"
  | .listen => "LISTEN"
  | .active => "ACTIVE"
  | .busoff => "BUSOFF"
  | .dupnode => "DUPNODE"

end Sys2Proof.Machine
end

