-- ==== Sys2Proof/Machine/Text.lean ====
section
/-! DEFINITION. Response and notice lines as text (R5, R289-R291, R294, R306). -/

namespace Sys2Proof.Machine

def OK (fields : List (String × Val) := []) : Line := .ok fields
def ERR (code : Nat) (fields : List (String × Val) := []) : Line := .err code fields
def EVT (fields : List (String × Val)) : Line := .evt fields

/-- The text of an error code (R294, R306 and the entries of the verbs). -/
def errText (code : Nat) : String :=
  match code with
  | 100 => "unknown verb"
  | 101 => "value out of range"
  | 102 => "line too long"
  | 103 => "malformed number or unit"
  | 104 => "missing argument"
  | 105 => "unknown or duplicate argument"
  | 106 => "unbalanced quote"
  | 107 => "character not allowed"
  | 108 => "reserved code"
  | 109 => "key wrap check failed"
  | 110 => "header rejected"
  | 111 => "splint rejected"
  | 112 => "table check failed"
  | 113 => "piece out of sequence"
  | 201 => "privilege RUN required"
  | 202 => "privilege KEEP required"
  | 203 => "authentication failed"
  | 204 => "authentication backoff"
  | 205 => "no challenge outstanding"
  | 206 => "not allowed on this session"
  | 207 => "protection password wrong"
  | 208 => "protection locked out"
  | 209 => "protection unlock required"
  | 300 => "busy with another session"
  | 301 => "not allowed in state"
  | 302 => "other request pending"
  | 303 => "domain required"
  | 304 => "domain draining"
  | 305 => "image pending"
  | 306 => "tenant map not aligned"
  | 307 => "no image to settle"
  | 308 => "no pending image"
  | 309 => "geometry differs from image"
  | 310 => "tenant ranges overlap"
  | 311 => "map commit abandoned by takeover"
  | 312 => "key slot occupied"
  | 313 => "no header accepted"
  | 314 => "image incomplete"
  | 315 => "another image staging"
  | 316 => "provisioning not allowed"
  | 402 => "option sequence exhausted"
  | 403 => "granule too small for capacity"
  | 404 => "tenant map full"
  | 405 => "domain not enabled"
  | 406 => "aborted"
  | 407 => "absent on this member"
  | 408 => "no session free"
  | 409 => "key generation exhausted"
  | 410 => "session queue full"
  | 411 => "range entry not found"
  | 412 => "no restore report"
  | 413 => "owner key not set"
  | 501 => "no firmware"
  | 502 => "authentication secrets unreadable"
  | 503 => "key zeroize failed"
  | 504 => "key copy erase failed"
  | 505 => "image verification failed"
  | 506 => "flash operation failed"
  | 507 => "self-test failed"
  | _ => ""

/-! ## Values -/

def decText (n : Nat) : String := toString n

/-- One hexadecimal digit, upper case (R290). -/
def hexDigit (n : Nat) : Char := if n < 10 then Char.ofNat (48 + n) else Char.ofNat (55 + n)

/-- `k` hexadecimal digits of a number, most significant first. -/
def hexDigits : Nat → Nat → List Char
  | 0, _ => []
  | k + 1, v => hexDigits k (v / 16) ++ [hexDigit (v % 16)]

/-- An underscore every four digits from the right, when there are more than four (R5). -/
def underscore (l : List Char) : List Char :=
  ((l.reverse.zipIdx).flatMap (fun p => if p.2 ≠ 0 ∧ p.2 % 4 = 0 then ['_', p.1] else [p.1])).reverse

def hexText (digits n : Nat) : String := String.ofList (['0', 'x'] ++ underscore (hexDigits digits n))

/-- A signed number. -/
def intText (i : Int) : String := if i < 0 then "-" ++ decText i.natAbs else decText i.natAbs

/-- A size (R290): the largest suffix that divides it. -/
def sizeText (n : Nat) : String :=
  if n ≠ 0 ∧ n % 2 ^ 30 = 0 then decText (n / 2 ^ 30) ++ "G"
  else if n ≠ 0 ∧ n % 2 ^ 20 = 0 then decText (n / 2 ^ 20) ++ "M"
  else if n ≠ 0 ∧ n % 2 ^ 10 = 0 then decText (n / 2 ^ 10) ++ "K"
  else decText n

/-- A duration in nanoseconds, with the largest unit that divides it (R290). -/
def durText (ns : Nat) : String :=
  if ns % 3600000000000 = 0 then decText (ns / 3600000000000) ++ "h"
  else if ns % 60000000000 = 0 then decText (ns / 60000000000) ++ "min"
  else if ns % 1000000000 = 0 then decText (ns / 1000000000) ++ "s"
  else if ns % 1000000 = 0 then decText (ns / 1000000) ++ "ms"
  else if ns % 1000 = 0 then decText (ns / 1000) ++ "us"
  else decText ns ++ "ns"

def joinWith (sep : String) : List String → String
  | [] => ""
  | [a] => a
  | a :: t => a ++ sep ++ joinWith sep t

/-- A value in double quotes when it holds a space (R290). -/
def quoteText (s : String) : String :=
  if s.toList.any (fun c => c = ' ') then String.ofList ('"' :: s.toList ++ ['"']) else s

def Val.text : Val → String
  | .nat n => decText n
  | .int i => intText i
  | .tenths i => intText (i / 10) ++ "." ++ decText (i.natAbs % 10)
  | .hex d n => hexText d n
  | .kw s => quoteText s
  | .size n => sizeText n
  | .dur ns => durText ns
  | .csv l => joinWith "," (l.map decText)
  | .bytes l => hexText (2 * l.length) (beNat l)
  | .ranges l => joinWith "," (l.map (fun p => if p.1 = p.2 then decText p.1 else decText p.1 ++ "-" ++ decText p.2))

/-- Fields as `key=value`, each after a space; a field without a key is a bare word. -/
def fieldsText (l : List (String × Val)) : String :=
  l.foldl (fun acc p => acc ++ " " ++ (if p.1 = "" then p.2.text else p.1 ++ "=" ++ p.2.text)) ""

def Line.text : Line → String
  | .ok f => "+OK" ++ fieldsText f
  | .err c f => "-ERR " ++ decText c ++ " " ++ errText c ++ fieldsText f
  | .evt f => "*EVT" ++ fieldsText f

def Line.bytes (l : Line) : List Byte := ascii l.text

/-- The keyword of a Boolean value. -/
def boolVal (b : Bool) : Val := .kw (if b then "on" else "off")
/-- 1 or 0. -/
def flagVal (b : Bool) : Val := .nat (if b then 1 else 0)

/-- A two-digit decimal number. -/
def two (n : Nat) : String := if n < 10 then "0" ++ decText n else decText n

/-- A domain's name as verbs print it. -/
def domText (d : Dom) : String := "D" ++ two d.val

end Sys2Proof.Machine
end

