-- ==== Sys2Proof/Machine/Sessions.lean ====
section
/-! DEFINITION. Gehel sessions: responses, notices and their scopes, opening and ending (R279-R285, R289-R292,
R300). -/

namespace Sys2Proof.Machine

def getSes (s : State) (k : Sess) : Ses := s.mg.ses[k.val]

def setSes (s : State) (k : Sess) (f : Ses → Ses) : State := { s with mg := { s.mg with ses := upd s.mg.ses k f } }

/-- S1 to S4 are tunnels. -/
def isTunnel (k : Sess) : Bool := 1 ≤ k.val && k.val ≤ 4
/-- S5 and S6 are pipes. -/
def isPipe (k : Sess) : Bool := 5 ≤ k.val

/-- A session as it opens: VIEW, notices on for S0, S5 and S6 and off for S1 to S4, echo on for S0 (R279, R281). -/
def Ses.opened (k : Sess) : Ses := { Ses.closed with isOpen := true, notify := !isTunnel k, echo := k = 0 }

/-! ## Transport output -/

/-- Bytes into a pipe's output buffer; the in-band interrupt when OUT_AVAIL leaves 0 (R282). -/
def pipePut (s : State) (k : Sess) (b : List Byte) : State :=
  let q := getSes s k
  let s' := setSes s k (fun q => { q with out := q.out ++ b })
  if q.out.isEmpty ∧ b ≠ [] ∧ q.ibiEn then
    { s' with i3c := { s'.i3c with ibi := s'.i3c.ibi ++ [if k = 5 then 0x02 else 0x03] } }
  else s'

/-- Bytes on the console's way out. The idle tick has sent them (assumption log entry 2). -/
def consolePut (s : State) (b : List Byte) : State := setSes s 0 (fun q => { q with out := q.out ++ b })

/-- The prompt, with echo on (R281). -/
def consolePrompt (q : Ses) : List Byte := if q.echo then ascii "zh> " else []

/-- The payload of a tunnel RESPONSE message (R284). -/
def tunnelPayload (lseq : Byte) (notice : Bool) (text : List Byte) : List Byte :=
  leBytes 2 text.length ++ [lseq, if notice then 1 else 0] ++ text

/-- Send a RESPONSE message to a node (R284). -/
def tunnelSend (s : State) (node : NodeId) (payload : List Byte) : State :=
  sendMessage s (makeId 3 1 s.aon.opt.nodeId.toNat node.toNat) payload

/-! ## Responses -/

/-- One response line of a session, with the LSEQ that a tunnel echoes (R284, R289). -/
def respondSeq (s : State) (k : Sess) (lseq : Byte) (l : Line) : State :=
  let s := setSes s k (fun q => { q with resp := some l })
  if isTunnel k then
    let p := tunnelPayload lseq false l.bytes
    match (getSes s k).node with
    | some n => tunnelSend (setSes s k (fun q => { q with lastLseq := some lseq, lastResp := p })) n p
    | none => s
  else if isPipe k then pipePut s k (l.bytes ++ [0x0A])
  else consolePut s (l.bytes ++ [0x0D, 0x0A] ++ consolePrompt (getSes s 0))

def respond (s : State) (k : Sess) (l : Line) : State := respondSeq s k (getSes s k).curLseq l

/-! ## Notices -/

/-- Queue a notice for one session: at most 16 wait, the rest are counted, and the count goes before the next one that
fits (R292). -/
def Ses.notice (q : Ses) (l : Line) : Ses :=
  if 16 ≤ q.notices.length then { q with lost := q.lost + 1 }
  else if q.lost = 0 then { q with notices := q.notices ++ [l] }
  else { q with notices := q.notices ++ [EVT [("lost", .nat q.lost)], l], lost := 0 }

/-- A notice to every session that satisfies a condition. -/
def noticeTo (s : State) (p : Sess → Ses → Bool) (l : Line) : State :=
  { s with mg := { s.mg with
      ses := Vector.ofFn (fun k => let q := s.mg.ses[k.val]; if p k q then q.notice l else q) } }

/-- Scope general: every open session whose notices are on (R291). -/
def noticeGeneral (s : State) (l : Line) : State := noticeTo s (fun _ q => q.isOpen && q.notify) l

/-- Scope all: every open session (R291). -/
def noticeAll (s : State) (l : Line) : State := noticeTo s (fun _ q => q.isOpen) l

/-- A session issues a command whose outcome a notice reports; with none, nothing is noted. -/
def noteIssue (s : State) (k : Option Sess) (x : Issue) : State :=
  match k with
  | some k => setSes s k (fun q => if x ∈ q.issued then q else { q with issued := x :: q.issued })
  | none => s

/-- Scope issuer: the issuing session, or general when none issued the command or it has ended, also where another session has been
opened under its number since (R291). -/
def noticeIssuer (s : State) (k : Option Sess) (x : Issue) (l : Line) : State :=
  match k with
  | some k => if (getSes s k).isOpen && (getSes s k).issued.contains x then setSes s k (fun q => q.notice l) else noticeGeneral s l
  | none => noticeGeneral s l

/-- Write the waiting notices of a session between response lines: at once on the console, with the prompt and the partial input after
them where echo is on, into a pipe while its buffer
has room, as RESPONSE messages of KIND 1 on a tunnel (R284, R291, R292). -/
def drainNotices (s : State) (k : Sess) : State :=
  let q := getSes s k
  match q.notices with
  | [] => s
  | l =>
    if !q.isOpen ∨ q.busy.isSome then s
    else if isTunnel k then
      match q.node with
      | some n =>
        (setSes s k (fun q => { q with notices := [] })) |> fun s =>
          l.foldl (fun s x => tunnelSend s n (tunnelPayload 0xFF true x.bytes)) s
      | none => s
    else if isPipe k then
      if 4096 ≤ q.out.length then s
      else pipePut (setSes s k (fun q => { q with notices := [] })) k (l.flatMap (fun x => x.bytes ++ [0x0A]))
    else
      consolePut (setSes s k (fun q => { q with notices := [] }))
        (l.flatMap (fun x => x.bytes ++ [0x0D, 0x0A]) ++ consolePrompt q ++ (if q.echo then q.line else []))

/-! ## Opening and ending -/

/-- S0, S5 and S6 open at VIEW (R78, R279). -/
def openSessions (s : State) : State :=
  { s with mg := { s.mg with
      ses := Vector.ofFn (fun k => if isTunnel k then s.mg.ses[k.val] else Ses.opened k) } }

/-- Every session but S7 ends (R26, R83, R303). -/
def closeSessions (s : State) : State :=
  { s with mg := { s.mg with ses := Vector.replicate 7 Ses.closed, txFeed := [] } }

/-- End the tunnels S1 to S4 (bus mode OFF, R279). -/
def closeTunnels (s : State) : State :=
  { s with mg := { s.mg with
      ses := Vector.ofFn (fun k => if isTunnel k then Ses.closed else s.mg.ses[k.val]) } }

/-- The recovery set is what answers: no bank passed, or the management hold (R80, R391). -/
def recovering (s : State) : Bool := s.aon.noFirmware || s.aon.mgmtHold

/-! ## Executing lines -/

/-- What a verb does to the session: one response line, the session stays busy until its response (R300), or the response has
been given already. -/
inductive Reply | line (l : Line) | wait (b : Busy) | done
  deriving DecidableEq, Repr

abbrev Verb := State → State × Reply

/-- Answer with a line and no further change. -/
def ans (s : State) (l : Line) : State × Reply := (s, .line l)

/-- Refuse. -/
def err (s : State) (code : Nat) (fields : List (String × Val) := []) : State × Reply := (s, .line (ERR code fields))

/-- Run a verb in a session. -/
def runLine (s : State) (k : Sess) (lseq : Byte) (f : Verb) : State :=
  let s := setSes s k (fun q => { q with curLseq := lseq })
  match f s with
  | (s', .line l) => respond s' k l
  | (s', .wait b) => setSes s' k (fun q => { q with busy := some b })
  | (s', .done) => s'

/-- The session cannot execute now: a verb of its own runs, or its output buffer is full (R283, R300). -/
def stalled (s : State) (k : Sess) : Bool :=
  let q := getSes s k
  q.busy.isSome || (isPipe k && 4096 ≤ q.out.length)

/-- A line reaches a session (R300): executed at once, queued behind others (four at most), or answered 410. A session
that is not open takes no line (R26, R279). -/
def onLineSeq (s : State) (k : Sess) (lseq : Byte) (line : QLine) (f : Verb) : State :=
  let q := getSes s k
  if !q.isOpen then s
  else if stalled s k ∨ q.queue ≠ [] then
    if q.queue.length < 4 then setSes s k (fun q => { q with queue := q.queue ++ [{ lseq := lseq, line := line }] })
    else respondSeq s k lseq (ERR 410)
  else runLine s k lseq f

/-- The sequence of a line that reaches a session outside a tunnel message. -/
def nextLseq (b : Byte) : Byte := if b = 254 then 0 else b + 1

/-- A verb as a command on session `k` (R300), or 501 when only the recovery set answers and the verb is not in it
(R80). -/
def onVerb (s : State) (k : Sess) (i : Instr) (inRecovery : Bool) (f : Verb) : State :=
  onLineSeq s k (nextLseq (getSes s k).curLseq) (.cmd i)
    (fun s => if recovering s && !inRecovery then err s 501 else f s)

/-- End the wait of a session that is busy with `b`, with its response (R300). -/
def answerBusy (s : State) (k : Option Sess) (b : Busy) (l : Line) : State :=
  match k with
  | some k => if (getSes s k).busy = some b then respond (setSes s k (fun q => { q with busy := none })) k l else s
  | none => s

end Sys2Proof.Machine
end

