-- ==== Sys2Proof/Machine/Domains.lean ====
section
/-! DEFINITION. Power domains and lanes (R47-R69, R436). -/

namespace Sys2Proof.Machine

/-! ## Lanes -/

/-- A lane's depth in flits (R51), by its number (R436). -/
def laneDepth (n : LaneId) : Nat :=
  let n := n.val
  if n = 0 then 32
  else if n = 1 then 8
  else if n ≤ 7 then 16
  else if n = 8 then 8
  else if n ≤ 24 then 32
  else if n ≤ 40 then 8
  else if n ≤ 48 then 2
  else if n = 49 then 4
  else if n ≤ 52 then 16
  else if n = 53 then 4
  else if n ≤ 57 then 16
  else if n ≤ 59 then 8
  else if n ≤ 61 then 4
  else if n ≤ 63 then 8
  else if n ≤ 65 then 4
  else if n ≤ 67 then 8
  else if n = 68 then 2
  else 4

/-- The lane returns its credit when the work is done, not at POP (R49, R51). -/
def laneDone (n : LaneId) : Bool :=
  let n := n.val
  n = 1 || n = 2 || n = 3 || n = 8 || (25 ≤ n && n ≤ 32) || n = 49 || n = 51 || n = 53 || n = 58 || n = 62 || n = 64

/-- A lane's source and sink domains (R51, R436). -/
def laneEnds (n : LaneId) : Nat × Nat :=
  let n := n.val
  if n = 0 then (7, 8)
  else if n = 1 then (8, 7)
  else if n = 2 then (8, 9)
  else if n = 3 then (8, 10)
  else if n = 4 then (9, 11)
  else if n = 5 then (10, 11)
  else if n = 6 then (11, 9)
  else if n = 7 then (11, 10)
  else if n = 8 then (8, 11)
  else if n ≤ 16 then (11, n - 9 + 12)
  else if n ≤ 24 then (n - 17 + 12, 11)
  else if n ≤ 32 then (8, n - 25 + 12)
  else if n ≤ 40 then (n - 33 + 12, 8)
  else if n ≤ 48 then (6, n - 41 + 12)
  else if n = 49 then (2, 3)
  else if n = 50 then (3, 2)
  else if n = 51 then (2, 8)
  else if n = 52 then (8, 2)
  else if n = 53 then (2, 11)
  else if n = 54 then (2, 4)
  else if n = 55 then (4, 2)
  else if n = 56 then (2, 5)
  else if n = 57 then (5, 2)
  else if n = 58 then (4, 5)
  else if n = 59 then (5, 4)
  else if n = 60 then (5, 6)
  else if n = 61 then (6, 5)
  else if n = 62 then (2, 6)
  else if n = 63 then (6, 2)
  else if n = 64 then (2, 1)
  else if n = 65 then (1, 2)
  else if n = 66 then (2, 0)
  else if n = 67 then (0, 2)
  else if n = 68 then (0, 6)
  else if n = 69 then (1, 0)
  else (n - 67, 0)

/-- The domain is powered and clocked: ON, or draining towards its end. -/
def DMode.powered : DMode → Bool
  | .on | .draining | .stuck => true
  | _ => false

def domOf (s : State) (d : Dom) : DomSt := s.doms.dom[d.val]

def modeOf (s : State) (d : Nat) : DMode := if h : d < 20 then (s.doms.dom[d]).mode else .off

/-- A domain answers commands that need it: it is ON and not draining (R57). -/
def isOn (s : State) (d : Nat) : Bool := modeOf s d = .on

def setDom (s : State) (d : Dom) (f : DomSt → DomSt) : State :=
  { s with doms := { s.doms with dom := upd s.doms.dom d f } }

/-- The PLL that clocks a domain: 0 PLL_F, 1 PLL_M, 2 PLL_N, none for D00 and D01 (R47). -/
def pllOf (d : Dom) : Option Pll :=
  if d = 0 ∨ d = 1 then none
  else if d = 7 ∨ d = 9 ∨ d = 10 then some .m
  else if 12 ≤ d.val then some .n
  else some .f

def pllSt (s : State) : Pll → PllSt
  | .f => s.doms.pllF
  | .m => s.doms.pllM
  | .n => s.doms.pllN

def pllOn (s : State) (p : Pll) : Bool := pllSt s p = .locked

def setPll (s : State) (p : Pll) (x : PllSt) : State :=
  match p with
  | .f => { s with doms := { s.doms with pllF := x } }
  | .m => { s with doms := { s.doms with pllM := x } }
  | .n => { s with doms := { s.doms with pllN := x } }

/-- An island's clock runs (R47, R68, R78): that of D07 comes from the host while HP serves it, every other one but those of D00 and D01
from a PLL that has lock. -/
def clocked (s : State) (d : Dom) : Bool :=
  match pllOf d with
  | none => true
  | some p =>
    pllOn s p || (d = 7 && (s.aon.hold = .serve || s.aon.hold = .park || s.aon.hold = .fault))

/-- The domain is powered and its clock runs. -/
def runs (s : State) (d : Dom) : Bool := (modeOf s d.val).powered && clocked s d

/-- A lane's source, and its sink, whose island logs what its check finds. -/
def laneSource (n : LaneId) : Dom := Fin.ofNat 20 (laneEnds n).1
def laneSink (n : LaneId) : Dom := Fin.ofNat 20 (laneEnds n).2

/-- A lane is UP only while both of its ends are powered (R62). -/
def laneUp (s : State) (n : LaneId) : Bool :=
  (modeOf s (laneEnds n).1).powered && (modeOf s (laneEnds n).2).powered

/-- Every flit of the lane, sent and queued. -/
def Lane.count (l : Lane) : Nat := l.flight.length + l.queue.length

def laneOf (s : State) (n : LaneId) : Lane := s.doms.lanes[n.val]
def setLane (s : State) (n : LaneId) (f : Lane → Lane) : State := { s with doms := { s.doms with lanes := upd s.doms.lanes n f } }

def kindCode : FlitKind → Nat
  | .data => 0
  | .desc => 1
  | .stat => 2
  | .ctrl => 3

/-- The 16-bit sideband of a flit (R50): KIND, LAST, POISON, four reserved bits that are written 0, TAG. -/
def sideband (f : Flit) : Half :=
  BitVec.ofNat 16 (kindCode f.kind * 2 ^ 14 + (if f.last then 2 ^ 13 else 0) + (if f.poison then 2 ^ 12 else 0) + f.tag.toNat)

/-- The lane that carries the STAT flit of a DONE lane's work back to its source (R50, R51): the status lanes of the channels, of CFL, MAP,
SHB's bridge side, WARP and CHG. The work of the other DONE lanes has no lane back. -/
def statLane (n : LaneId) : Option LaneId :=
  let n := n.val
  if 25 ≤ n ∧ n ≤ 32 then some (Fin.ofNat 87 (n + 8))
  else if n = 49 ∨ n = 51 ∨ n = 58 ∨ n = 62 ∨ n = 64 then some (Fin.ofNat 87 (n + 1))
  else none

/-- The event lanes of D01 and D03 to D19 (R51, R436). -/
def eventLane (n : LaneId) : Bool := 69 ≤ n.val

/-- A source sends a flit (R49, R57, R62): one credit for one flit; without a credit it waits, but an event is then dropped (R333). On a
DOWN lane it learns so at once, and a sink that drains takes no new work. -/
def sendFlit (s : State) (n : LaneId) (f : Flit) : State :=
  let drains := modeOf s (laneEnds n).2 = .draining ∨ modeOf s (laneEnds n).2 = .stuck
  if eventLane n && laneUp s n && (laneOf s n).credits = 0 then
    setLane { s with log := { s.log with drops := s.log.drops + 1 } } n (fun l => { l with outcome := .refused })
  else setLane s n (fun l =>
    if !laneUp s n ∨ (drains ∧ f.kind = .desc) then { l with outcome := .refused }
    else if 1 ≤ l.credits ∧ l.waiting = [] ∧ !l.halted then
      { l with credits := l.credits - 1, flight := l.flight ++ [f], outcome := .sent }
    else { l with waiting := l.waiting ++ [f], outcome := .waits })

/-- A credit comes back to the source; a flit that waits for one takes it (R49). -/
def Lane.refund (l : Lane) : Lane :=
  match l.waiting with
  | [] => { l with credits := l.credits + 1 }
  | f :: rest => { l with waiting := rest, flight := l.flight ++ [f], outcome := .sent }

/-- A lane reset (R62): pointers cleared, the counter at the depth while the lane is UP and 0 otherwise, and one
LANE_DISCARD entry when flits were lost. -/
def resetLane (s : State) (n : LaneId) : State :=
  let l := s.doms.lanes[n.val]
  let lost := l.count
  let l' := { l with credits := if laneUp s n then laneDepth n else 0, waiting := [], flight := [], queue := []
                     halted := false, resets := l.resets + 1, discarded := l.discarded + lost }
  let s := { s with doms := { s.doms with lanes := upd s.doms.lanes n (fun _ => l') } }
  if lost = 0 then s else logEv s 0 .laneDiscard n.val lost

def touches (d : Dom) (n : LaneId) : Bool := (laneEnds n).1 = d.val || (laneEnds n).2 = d.val

/-- Reset every lane that touches a domain (R55, R61, R63). -/
def resetLanesOf (s : State) (d : Dom) : State :=
  ((allFin 87).filter (touches d)).foldl resetLane s

/-- Lanes whose sink is not powered read 0 credits, and what their storage held is gone (R51, R62); a lane whose
source is not powered keeps the complete flits in its queue. -/
def settleLanes (s : State) : State :=
  { s with doms := { s.doms with lanes := Vector.ofFn (fun n =>
      let l := s.doms.lanes[n.val]
      if (modeOf s (laneEnds n).2).powered then
        if (modeOf s (laneEnds n).1).powered then l else { l with waiting := [], flight := [] }
      else { l with credits := 0, waiting := [], flight := [], queue := [] }) } }

/-- Descriptors that a domain has accepted and not finished are discarded, and their requesters get a STAT flit with status ABORTED
(R61, R66). The lanes do not tell which of them the domain has started: all count as not started (assumption log entry 63). -/
def abortWork (s : State) (d : Dom) : State :=
  ((allFin 87).filter (fun n => laneDone n && (laneEnds n).2 = d.val)).foldl
    (fun s n => setLane s n (fun l =>
      { l with aborted := ((l.queue ++ l.flight).filter (fun f => f.kind = .desc)).map (·.tag) })) s

/-- A change of modes brings domains up: every lane that touches one of them is reset, its counter at the depth where the lane is UP now
(R49, R55, R63). -/
def wakeLanes (before s : State) : State :=
  let up (d : Nat) : Bool := !(modeOf before d).powered && (modeOf s d).powered
  ((allFin 87).filter (fun n => up (laneEnds n).1 || up (laneEnds n).2)).foldl resetLane s

/-! ## Power modes -/

/-- Optional domains: D01, D05, D12 to D19 (R47). -/
def optional (d : Dom) : Bool := d = 1 || d = 5 || 12 ≤ d.val

/-- The warden enables a PLL while a domain that it clocks is ON or coming up and disables it otherwise (R48, R55). -/
def settlePlls (s : State) : State :=
  [Pll.f, .m, .n].foldl
    (fun s p =>
      if (allFin 20).any (fun d => pllOf d = some p && ((modeOf s d.val).powered || (domOf s d).enabling.isSome)) then
        (if pllSt s p = .off then setPll s p .locking else s)
      else setPll s p .off) s

/-- The boot-enable mask of the option area (R54, R72). -/
def bootEnabled (o : Options) (d : Dom) : Bool :=
  if d = 1 then o.enChg
  else if d = 5 then o.enShb
  else if 12 ≤ d.val then o.enN.getLsbD (d.val - 12)
  else true

/-- The domain is enabled (R52). -/
def enabled (s : State) (d : Dom) : Bool := (domOf s d).en

/-- The masks decide which domains are enabled (R54): the boot-enable mask, less the run-time disable mask. -/
def latchEnables (s : State) : State :=
  { s with doms := { s.doms with dom := Vector.ofFn (fun d : Fin 20 =>
      { s.doms.dom[d.val] with en := bootEnabled s.aon.opt d && !(s.aon.runDisable[d.val]) }) } }

def setEnabled (s : State) (d : Dom) (b : Bool) : State := setDom s d (fun x => { x with en := b })

def setRunDisable (s : State) (d : Dom) (b : Bool) : State :=
  { s with aon := { s.aon with runDisable := upd s.aon.runDisable d (fun _ => b) } }

def DMode.text : DMode → String
  | .off => "OFF"
  | .ret => "RET"
  | .on => "ON"
  | .draining => "DRAINING"
  | .stuck => "STUCK"
  | .failed => "FAILED"

/-- Q0 and Q1 hold no content once D05 leaves ON: the frames they held are counted and logged (R237). -/
def dropRxQueues (s : State) : State :=
  let n := s.shb.q0.length + (s.shb.q1.toList.filter (·.isSome)).length
  let s := { s with shb := { s.shb with q0 := [], q1 := Vector.replicate 64 none, partials := [] } }
  if n = 0 then s else logEv s 5 .q0q1Lost n

/-- D05 leaves ON (R60, R237, R257): pending mailboxes are ABORTED, an active one completes or becomes ABORTED, the
receive queues are emptied, the bus mode is OFF and with it the tunnels end (R279). -/
def leaveShb (s : State) : State :=
  let s := dropKeeper (closeTunnels (dropRxQueues s))
  { s with shb := { s.shb with
      mode := .off, integrating := false, recovering := false, noFrame := false, winEn := false, ibiEn := false, irq := 0, irqen := 0
      mbox := s.shb.mbox.map (fun m =>
        match m.status with
        | .pending => { m with status := .aborted }
        | .active => { m with abort := true }
        | _ => m) } }

/-- What D05 does as soon as it is ON (R232, R234): OFF with JOIN = 3; otherwise detection of every rate that the
option area does not name, and integration once the rates are known. -/
def enterShb (s : State) : State :=
  if s.aon.opt.join = 3 then s
  else detect { s with shb := { s.shb with tec := 0, recCnt := 0, passive := false } }

/-- D06 holds no state in OFF: the stakes and what WARP was following are gone; the count goes on in AON, the tables come back from the
config store (R48, R265, R268). -/
def darkWarp (s : State) : State :=
  { s with warp := { s.warp with
      stakes := Vector.replicate 64 Stake.empty, await := none, keeper := none, good := 0, missed := 0, step := none, pending := none
      staged := none, sof := none, rests := [], candidate := false } }

/-- Bring a domain to a mode, with its PSTATE entry and what the change does inside it (R52, R330). A domain that is
draining ends its disable (R66): it joins the run-time disable mask, and a notice follows. -/
def setMode (s : State) (d : Dom) (m : DMode) : State :=
  let old := (domOf s d).mode
  if old = m then s
  else
    let was := old = .draining ∨ old = .stuck
    let issuer := (domOf s d).issuer
    let s := setDom s d (fun x =>
      { x with mode := m, enabling := none, issuer := if m = .draining ∨ m = .stuck then x.issuer else none,
               failKind := if m = .failed then x.failKind else none })
    let s := logPstate s d m
    let s := if d = 5 ∧ old.powered ∧ !m.powered then leaveShb s else s
    let s := if d = 5 ∧ (m = .off ∨ m = .failed) then { s with shb := coldShb s.shb } else s
    let s := if d = 6 ∧ m = .off then darkWarp s else s
    let s := if was ∧ !m.powered then abortWork s d else s
    let s := if d = 1 ∧ !m.powered then { s with bat := { s.bat with chg := .off } } else s
    let s := if d = 5 ∧ m = .on then enterShb s else s
    if was ∧ !m.powered ∧ m ≠ .failed then
      noticeIssuer (setRunDisable (setEnabled s d false) d true) issuer (.drain d) (EVT [("dom", .kw (domText d)), ("pstate", .kw m.text)])
    else s

/-- Bring every domain to the mode that a column of R52 gives. A FAILED domain reads FAILED until the next BOOT (R64). -/
def applyModes (s : State) (target : State → Dom → DMode) : State :=
  settlePlls (wakeLanes s (settleLanes ((allFin 20).foldl
    (fun s' d => if (domOf s' d).mode = .failed then s' else setMode s' d (target s d)) s)))

/-- D05 or a NAND channel as it is: ON stays ON, a disabled one stays OFF. -/
def optKeep (s : State) (d : Dom) : DMode :=
  match (domOf s d).mode with
  | .on => .on
  | .draining => .draining
  | .stuck => .stuck
  | _ => .off

/-- Column DARK of R52: D00; D01 while the charger input qualifies. -/
def modesDark (s : State) (d : Dom) : DMode :=
  if d = 0 then .on
  else if d = 1 ∧ enabled s 1 ∧ s.pins.bulk11 then .on
  else .off

/-- Column BOOT: every core domain, and each enabled optional domain. -/
def modesBoot (s : State) (d : Dom) : DMode := if enabled s d then .on else .off

/-- D05 leaves ON for RET, in which its FIFO and mailboxes stay (R48, R60, R66); where it was OFF it stays OFF. -/
def shbRet (s : State) : DMode := if modeOf s 5 = .off then .off else .ret

/-- Columns SAVE and RESTORE. D05 goes to RET; channels stay as they are. -/
def modesSave (s : State) (d : Dom) : DMode :=
  if d = 1 then .off
  else if d = 5 then shbRet s
  else if optional d then optKeep s d
  else .on

/-- Column HELD on bulk. A D05 that drains or is masked is not ON; it keeps its retained state (R66; assumption log entry 62). -/
def modesHeldBulk (s : State) (d : Dom) : DMode :=
  if d = 0 ∨ d = 6 then .on
  else if d = 1 then (if enabled s 1 ∧ s.pins.bulk11 then .on else .off)
  else if d = 5 then (if enabled s 5 then .on else shbRet s)
  else .off

/-- Column HELD on pack. -/
def modesHeldPack (s : State) (d : Dom) : DMode :=
  if d = 0 then .on
  else if d = 6 then .ret
  else if d = 5 then shbRet s
  else .off

/-- Columns SERVE and PARK, entered from SAVE's or RESTORE's: D05 and D01 come back if enabled; the run-time disable mask governs
(R66). -/
def modesServe (s : State) (d : Dom) : DMode :=
  if d = 1 ∨ d = 5 then
    (match (domOf s d).mode with
     | .draining => .draining
     | .stuck => .stuck
     | m => if enabled s d then .on else m)
  else if optional d then optKeep s d
  else .on

end Sys2Proof.Machine
end

