-- ==== Sys2Proof/Machine/Geometry.lean ====
section
/-! DEFINITION. The geometry word, granule indices, tenant ranges and attributes (R92-R94, R177-R183). -/

namespace Sys2Proof.Machine

/-! ## The geometry word (R92, R93) -/

def geoGran (w : Word) : Nat := (w.extractLsb' 19 3).toNat
/-- Granule size G in bytes. -/
def geoG (w : Word) : Nat := 16384 * 2 ^ geoGran w
/-- Logical ranks per subchannel. -/
def geoNR (w : Word) : Nat := (w.extractLsb' 15 4).toNat + 1
/-- Rows per bank. -/
def geoRows (w : Word) : Nat := 65536 * 2 ^ (w.extractLsb' 13 2).toNat
/-- Bank groups. -/
def geoBG (w : Word) : Nat := if w.getLsbD 12 then 8 else 4
/-- Banks per group. -/
def geoNB (w : Word) : Nat := if w.getLsbD 11 then 4 else 2
/-- Data bytes per row. -/
def geoRowB (w : Word) : Nat := if w.getLsbD 10 then 8192 else 4096
/-- The module data capacity C (R93). -/
def geoC (w : Word) : Nat := 2 * geoNR w * geoBG w * geoNB w * geoRows w * geoRowB w
/-- Rows per granule. -/
def geoRPG (w : Word) : Nat := geoG w / geoRowB w
/-- Granules of one bank. -/
def geoPerBank (w : Word) : Nat := geoRows w / geoRPG w
/-- Granules of the module. -/
def geoGranules (w : Word) : Nat := geoC w / geoG w

/-- A field holds a reserved code, or a reserved bit is set (R6, R92). -/
def geoReserved (w : Word) : Bool :=
  geoGran w = 7 || (w.extractLsb' 13 2).toNat = 3 || w.extractLsb' 22 9 ≠ 0 || w.extractLsb' 0 10 ≠ 0

/-- R93: C within 512 GiB and the dirty map's bit count. -/
def geoFits (w : Word) : Bool := geoC w ≤ 512 * 2 ^ 30 && geoC w / geoG w ≤ 8388608

/-- MAP accepts the word (R92, R93). -/
def geoValid (w : Word) : Bool := w.getLsbD 31 && !geoReserved w && geoFits w

/-- The number of a bank among the module's banks, in the order of R94. -/
def bankIndex (w : Word) (sub rank bg ba : Nat) : Nat := ((sub * geoNR w + rank) * geoBG w + bg) * geoNB w + ba

/-- R94. -/
def gidxOf (w : Word) (sub rank bg ba row : Nat) : Nat :=
  bankIndex w sub rank bg ba * geoPerBank w + row / geoRPG w

/-- The coordinate lies inside the geometry. -/
def coordOk (w : Word) (sub rank bg ba row : Nat) : Bool :=
  sub < 2 && rank < geoNR w && bg < geoBG w && ba < geoNB w && row < geoRows w

def subNum : Sub → Nat
  | .a => 0
  | .b => 1

/-- Every granule of the module. -/
def allGranules (s : State) : RangeSet := if geoValid s.map.geom then [(0, geoGranules s.map.geom)] else []

/-- The granules of one subchannel. -/
def subGranules (w : Word) (sub : Sub) : RangeSet :=
  let h := geoGranules w / 2
  match sub with
  | .a => [(0, h)]
  | .b => [(h, 2 * h)]

/-! ## Range entries (R177) -/

def enTenant (e : DWord) : Nat := (e.extractLsb' 56 8).toNat
def enSub (e : DWord) : Nat := (e.extractLsb' 54 2).toNat
def enRankF (e : DWord) : Nat := (e.extractLsb' 50 4).toNat
def enRankL (e : DWord) : Nat := (e.extractLsb' 46 4).toNat
def enAll (e : DWord) : Bool := e.getLsbD 45
def enBG (e : DWord) : Nat := (e.extractLsb' 42 3).toNat
def enBA (e : DWord) : Nat := (e.extractLsb' 40 2).toNat
def enRowF (e : DWord) : Nat := (e.extractLsb' 18 18).toNat
def enRowL (e : DWord) : Nat := (e.extractLsb' 0 18).toNat

/-- An entry's fields put into a word. -/
def makeEntry (t sub rf rl : Nat) (all : Bool) (bg ba rowF rowL : Nat) : DWord :=
  BitVec.ofNat 64 (t % 256 * 2 ^ 56 + sub % 4 * 2 ^ 54 + rf % 16 * 2 ^ 50 + rl % 16 * 2 ^ 46 +
    (if all then 2 ^ 45 else 0) + bg % 8 * 2 ^ 42 + ba % 4 * 2 ^ 40 + rowF % 2 ^ 18 * 2 ^ 18 + rowL % 2 ^ 18)

/-- The granules that an entry names. -/
def entryGranules (w : Word) (e : DWord) : RangeSet :=
  let subs := if enSub e = 2 then [0, 1] else [enSub e]
  let ranks := (List.range 16).filter (fun r => enRankF e ≤ r && r ≤ enRankL e)
  let bgs := if enAll e then List.range (geoBG w) else [enBG e]
  let bas := if enAll e then List.range (geoNB w) else [enBA e]
  subs.foldl (fun acc s => ranks.foldl (fun acc r => bgs.foldl (fun acc g => bas.foldl (fun acc b =>
    let base := bankIndex w s r g b * geoPerBank w
    rsAdd acc (base + enRowF e / geoRPG w) (base + enRowL e / geoRPG w + 1)) acc) acc) acc) []

/-- The granules of a tenant. Granules that no entry names belong to tenant 0, and entries that name tenant 0 change
nothing (R178). -/
def tenantGranules (s : State) (map : List DWord) (t : Tenant) : RangeSet :=
  let of (n : Nat) := (map.filter (fun e => enTenant e = n)).foldl
    (fun acc e => rsUnion acc (entryGranules s.map.geom e)) []
  if t = 0 then
    (map.filter (fun e => enTenant e ≠ 0)).foldl (fun acc e => rsDiff acc (entryGranules s.map.geom e)) (allGranules s)
  else rsInter (of t.val) (allGranules s)

/-- The owner of a granule. -/
def ownerOf (s : State) (map : List DWord) (g : Nat) : Tenant :=
  match map.find? (fun e => enTenant e ≠ 0 && rsMem (entryGranules s.map.geom e) g) with
  | some e => Fin.ofNat 256 (enTenant e)
  | none => 0

/-! ## Attributes (R181) -/

def attrOf (s : State) (t : Tenant) : Word := s.ten.attr[t.val]
def attrClass (a : Word) : Nat := (a.extractLsb' 4 3).toNat
def attrVolatile (a : Word) : Bool := a.getLsbD 3
def attrDisabled (a : Word) : Bool := a.getLsbD 2
def attrSlot (a : Word) : Nat := (a.extractLsb' 0 2).toNat
def attrGen (a : Word) : Nat := (a.extractLsb' 16 16).toNat

/-- An attribute word from its fields. -/
def makeAttr (gen cls : Nat) (vol dis : Bool) (slot : Nat) : Word :=
  BitVec.ofNat 32 (gen % 65536 * 65536 + cls % 8 * 16 + (if vol then 8 else 0) + (if dis then 4 else 0) + slot % 4)

def setAttr (s : State) (t : Tenant) (a : Word) : State := { s with ten := { s.ten with attr := upd s.ten.attr t (fun _ => a) } }

/-- LOADED: IMPORTED or GENERATED (R181). -/
def slotLoaded (a : Word) : Bool := attrSlot a = 1 || attrSlot a = 2

/-- Persist, enabled and keyed: what a save covers (R180). -/
def saved (s : State) (t : Tenant) : Bool :=
  let a := attrOf s t
  !attrVolatile a && !attrDisabled a && slotLoaded a && !(t ∈ s.ten.unusable) && !(s.ten.jobs.any (fun j => j.t = t && j.phase ≠ .proof))

/-! ## The dirty map -/

def setDirty (s : State) (r : RangeSet) : State := { s with map := { s.map with dirty := rsUnion s.map.dirty r } }

/-- Set every bit of the dirty map (R22, R35). -/
def setAllDirty (s : State) : State := { s with map := { s.map with dirty := allGranules s } }

/-- Every enabled channel serves plaits (R56). -/
def endWaiting (s : State) : State :=
  { s with doms := { s.doms with dom := s.doms.dom.map (fun d => { d with waiting := false }) } }

/-- `img=NONE` with every bit of the dirty map set, and channels that waited for a full save serve plaits (R35, R56, R59, R84, R95). SETTLE
ends with the image (R145). -/
def dropImage (s : State) : State :=
  endWaiting (setAllDirty { s with
    aon := { s.aon with img := .none }, nand := { s.nand with settle := { s.nand.settle with running := false } } })

/-- Dirty granules of a tenant. -/
def dirtyOf (s : State) (t : Tenant) : RangeSet := rsInter s.map.dirty (tenantGranules s s.ten.map t)

/-- D(c): dirty granules of persist, enabled and keyed tenants in classes 0 to c (R121, R180). -/
def dirtyCount (s : State) (c : Nat) : Nat :=
  (allFin 256).foldl (fun n t => if saved s t ∧ attrClass (attrOf s t) ≤ c then n + rsSize (dirtyOf s t) else n) 0

/-- The tenants in save order: class as the descriptors hold it (R182), then ID (R112). -/
def saveOrder (s : State) : List Tenant :=
  (List.range 8).flatMap (fun c => (allFin 256).filter (fun t => saved s t && s.map.classes[t.val] = c))

/-- The descriptors take the classes of now (R108, R182). -/
def loadClasses (s : State) : State :=
  { s with map := { s.map with classes := Vector.ofFn (fun t : Fin 256 => attrClass s.ten.attr[t.val]) } }

end Sys2Proof.Machine
end

