-- ==== Sys2Proof/Machine/NandOps.lean ====
section
/-! DEFINITION. Dies, pages, block groups, the image's maps, the stripe, rim rings and the numbers of a save (R114, R115, R118, R121,
R132-R139, R141, R144, R146, R149, R153, R154). -/

namespace Sys2Proof.Machine

/-! ## Dies -/

def dieCh (d : Die) : Nat := d.val / 32
def dieTgt (d : Die) : Nat := d.val / 4 % 8
def dieLun (d : Die) : Nat := d.val % 4

/-- The island of a die's channel. -/
def dieDom (d : Die) : Dom := Fin.ofNat 20 (12 + dieCh d)

def dieOf (s : State) (d : Die) : DieSt := s.nand.dies[d.val]

def setDie (s : State) (d : Die) (f : DieSt → DieSt) : State :=
  { s with nand := { s.nand with dies := upd s.nand.dies d f } }

def setOp (s : State) (d : Die) (o : DieOp) : State := setDie s d (fun x => { x with op := o })

/-- Every die in plait order (R114): channel fastest, then target, then LUN. -/
def plaitOrder : List Die :=
  (allFin 4).flatMap (fun l => (allFin 8).flatMap (fun t => (allFin 8).map (fun c =>
    Fin.ofNat 256 (c.val * 32 + t.val * 4 + l.val))))

/-- The dies in plait order from the one after `d` on, wrapping to `d` itself. -/
def orderAfter (d : Die) : List Die :=
  let i := plaitOrder.findIdx (· = d)
  plaitOrder.drop (i + 1) ++ plaitOrder.take (i + 1)

/-- A die that plaits may use: identified, not fenced, not out for this save, on a channel that is ON and not waiting
for a full save (R56, R114, R116). -/
def usable (s : State) (d : Die) : Bool :=
  let x := dieOf s d
  x.present && !x.mismatch && !x.fenced && !x.failed && isOn s (dieDom d).val && !(domOf s (dieDom d)).waiting

def usableDies (s : State) : List Die := plaitOrder.filter (usable s)

/-- The die is free for new array work: nothing runs on it, and it is not being reset (R158). -/
def dieFree (s : State) (d : Die) : Bool := (dieOf s d).op = .idle && !(dieOf s d).resetSent

/-- The firmware's settle and erase work holds the die (R42, R127). -/
def DieOp.settling : DieOp → Bool
  | .loading .fold | .ready .fold | .busy .fold | .ready (.erase _) | .busy (.erase _) => true
  | _ => false

/-- A die that can be read: present, matching, not fenced, its channel powered (R158, R167). -/
def readable (s : State) (d : Die) : Bool :=
  let x := dieOf s d
  x.present && !x.mismatch && !x.fenced && (modeOf s (dieDom d).val).powered

/-! ## Pages (R132, R138) -/

/-- A physical page address (R138). -/
def pageWord (p : Page) : DWord :=
  BitVec.ofNat 64 (dieCh p.die * 2 ^ 37 + dieTgt p.die * 2 ^ 34 + dieLun p.die * 2 ^ 32 + p.block % 2 ^ 16 * 2 ^ 16 + p.page % 2 ^ 16)

/-- The page that an address names. -/
def wordPage (w : DWord) : Page :=
  { die := Fin.ofNat 256 ((w.extractLsb' 37 3).toNat * 32 + (w.extractLsb' 34 3).toNat * 4 + (w.extractLsb' 32 2).toNat)
    block := (w.extractLsb' 16 16).toNat, page := (w.extractLsb' 0 16).toNat }

/-- LDPC codewords of a page, and the parity bytes of each; a codeword has 4096 data and 16 metadata bytes (R132). -/
def pageCodewords (p : Profile) : Nat := p.pageBytes / 4096
def parityBytes (p : Profile) : Nat := p.spare / pageCodewords p - 16

/-- The 32 bytes of a strand tag (R115). -/
def StrandTag.bytes (t : StrandTag) : List Byte :=
  let body := leBytes 4 0x53545244 ++ leBytes 4 t.plait ++ leBytes 8 t.saveSeq ++
    [BitVec.ofNat 8 t.strand, BitVec.ofNat 8 t.widthM1] ++ leBytes 2 t.grans ++
    leBytes 4 ((if t.table then 2 else 0) + (if t.pad then 1 else 0)) ++ leBytes 4 t.first
  body ++ leBytes 4 (crc32c body).toNat

/-- The metadata of codeword `i` of a strand's first page: the tag stands in the first two (R132). -/
def StrandTag.metadata (t : StrandTag) (i : Nat) : List Byte := if i < 2 then (t.bytes.drop (16 * i)).take 16 else []

/-- A strand tag that a page's metadata hold: marker and CRC hold (R115, R162). -/
def tagOk (l : List Byte) : Bool := leAt l 0 4 = 0x53545244 && leAt l 28 4 = (crc32c (bytesAt l 0 28)).toNat

/-! ## Block groups -/

/-- A group's row; a group without a row is FREE and untouched. -/
def groupOf (s : State) (d : Die) (b : Nat) : Group :=
  match s.nand.groups.find? (fun g => g.die = d ∧ g.block = b) with
  | some g => g
  | none => { die := d, block := b, role := .free, erases := 0, wp := 0, cause := 0, plane := 0 }

/-- Write a group's row. -/
def setGroup (s : State) (g : Group) : State :=
  let rest := s.nand.groups.filter (fun x => !(x.die = g.die ∧ x.block = g.block))
  { s with nand := { s.nand with groups := g :: rest } }

def setRole (s : State) (d : Die) (b : Nat) (r : Role) : State := setGroup s { groupOf s d b with role := r }

/-- Fewer erases, then the lower block: the open order and the erase order (R135). -/
def Group.before (a b : Group) : Bool := a.erases < b.erases || (a.erases = b.erases && a.block < b.block)

/-- The first of some groups in that order. -/
def firstGroup (l : List Group) : Option Group :=
  l.foldl (fun acc g => match acc with
    | none => some g
    | some a => if g.before a then some g else some a) none

/-- The FREE group that opens next on a die, other than one that is held back (R135). `tlc` asks for a group that may hold TLC data. -/
def nextFree (s : State) (d : Die) (tlc : Bool) (held : Option Nat) : Option Group :=
  let p := s.nand.profile
  let rows := s.nand.groups.filter (fun g => g.die = d && g.role = .free && g.erases < 10 * p.pslcPe && (!tlc || g.erases < p.tlcPe) &&
    held ≠ some g.block)
  let fresh := (List.range p.blocks).find? (fun b => !(s.nand.groups.any (fun g => g.die = d && g.block = b)) && held ≠ some b)
  firstGroup ((fresh.map (groupOf s d)).toList ++ rows)

/-- FREE groups of a die that pSLC use allows. -/
def freeCount (s : State) (d : Die) : Nat :=
  s.nand.profile.blocks - (s.nand.groups.filter (fun g =>
    g.die = d && !(g.role = .free && g.erases < 10 * s.nand.profile.pslcPe))).length

/-! ## Rim rings: where they may go (R136, R141) -/

/-- The die of a ring that moves alone: the first usable die after the failing one in plait order that carries neither ring, on another
channel than the other ring's die (R141). -/
def relocateTo (s : State) (failing other : Die) : Option Die :=
  (orderAfter failing).find? (fun d => usable s d && d ≠ failing && d ≠ s.nand.ringA.die && d ≠ s.nand.ringB.die && dieCh d ≠ dieCh other)

/-- The dies of two rings that move together (R141): the first one's counts from the higher-numbered failing die, the second one's is the
next usable die after it on another channel. -/
def relocatePair (s : State) : Option (Die × Die) :=
  let a := s.nand.ringA.die
  let b := s.nand.ringB.die
  let num (d : Die) : Nat := plaitOrder.findIdx (· = d)
  let from_ := if num a < num b then b else a
  match relocateTo s from_ b with
  | none => none
  | some x =>
    match (orderAfter x).find? (fun d => usable s d && d ≠ x && d ≠ a && d ≠ b && dieCh d ≠ dieCh x) with
    | none => none
    | some y => some (x, y)

/-- The group that a die holds back for the next relocation of a ring (R136): its first FREE one. -/
def reservedBlock (s : State) (d : Die) : Option Nat :=
  match (if s.nand.prov = .done then relocatePair s else none) with
  | some p => if d = p.1 ∨ d = p.2 then (nextFree s d false none).map (·.block) else none
  | none => none

/-- The pSLC strands of the groups that are held back (R136). -/
def ringReserve (s : State) : Nat :=
  match (if s.nand.prov = .done then relocatePair s else none) with
  | some p => (([p.1, p.2].filter (fun d => (nextFree s d false none).isSome)).length) * s.nand.profile.wls
  | none => 0

/-! ## Opening and programming (R134) -/

/-- The group on a die that is open in a role, or the next FREE one opened in it (R134, R135). -/
def openGroup (s : State) (d : Die) (r : Role) : State × Option Group :=
  match s.nand.groups.find? (fun g => g.die = d && g.role = r) with
  | some g => (s, some g)
  | none =>
    match nextFree s d (r = .baseOpen) (reservedBlock s d) with
    | some g => (setGroup s { g with role := r, wp := 0 }, some { g with role := r, wp := 0 })
    | none => (s, none)

/-- The page that the next strand on a die takes (R133, R134). -/
def nextPage (s : State) (d : Die) : State × Option Page :=
  match openGroup s d .deltaOpen with
  | (s, some g) => (s, some { die := d, block := g.block, page := g.wp })
  | (s, none) => (s, none)

/-- A program descriptor names the page at the write pointer of an open group (R134). -/
def atPointer (s : State) (p : Page) : Bool :=
  let g := groupOf s p.die p.block
  (g.role = .deltaOpen || g.role = .rim) && g.wp = p.page

/-- A page has been programmed: the pointer moves on, and a full group of strands closes (R133, R134). -/
def advancePage (s : State) (p : Page) : State :=
  let g := groupOf s p.die p.block
  let wp := p.page + 1
  setGroup s { g with wp := wp, role := if g.role = .deltaOpen ∧ s.nand.profile.wls ≤ wp then .delta else g.role }

/-- A strand's tag stands in its page (R115). -/
def tagPage (s : State) (p : Page) (t : StrandTag) : State := { s with nand := { s.nand with tags := put p t s.nand.tags } }

/-- The first array start after a commit sets NAND_DIVERGED (R151). -/
def diverge (s : State) : State := { s with aon := { s.aon with nandDiverged := true } }

/-! ## The maps of an image (R114, R137, R144, R146, R149) -/

/-- Bytes of a strand: p x P. -/
def strandBytes (s : State) : Nat := s.nand.profile.planes * s.nand.profile.pageBytes
/-- The stored granule size SG = 1.25 G under a geometry word. -/
def storedOf (w : Word) : Nat := geoG w * 5 / 4
def storedG (s : State) : Nat := storedOf s.map.geom

/-- The granules of a list of parts, in order. -/
def granulesOf (l : List PlaitPart) : List Nat :=
  l.flatMap (fun p => p.set.flatMap (fun q => (List.range (q.2 - q.1)).map (fun i => q.1 + i)))

/-- The granules of a plait. -/
def Plait.set (p : Plait) : RangeSet := p.parts.foldl (fun acc q => rsUnion acc q.set) []

/-- The granules of a layer. -/
def Layer.set (l : Layer) : RangeSet := l.plaits.foldl (fun acc p => rsUnion acc p.set) []

/-- The granules that have a byte on strand `i` of a plait: granule j holds the stored bytes from j x SG on (R114). -/
def strandSet (sb sg : Nat) (p : Plait) (i : Nat) : RangeSet :=
  if sg = 0 then [] else
  let first := i * sb / sg
  let last := ((i + 1) * sb - 1) / sg
  (((granulesOf p.parts).drop first).take (last + 1 - first)).foldl (fun acc g => rsAdd acc g (g + 1)) []

/-- The page of a strand in a record's maps: in the base where a FOLD record has moved it, else in the delta layer (R144, R146). -/
def Rim.locate (r : Rim) (l : Layer) (p : Plait) (i : Nat) : Option Page :=
  match r.base.find? (fun b => b.seq = l.seq && b.plait = p.no && b.strand = i) with
  | some b => some b.page
  | none => if r.layerSeqs.any (· = l.seq) then p.strands.getD i none else none

/-- The layers of a record, newest first, those of the base last (R165). -/
def imageLayers (s : State) (r : Rim) : List Layer :=
  (r.layerSeqs ++ r.baseSeqs).filterMap (fun q => s.nand.layers.find? (fun l => l.seq = q))

/-- The strands of a record's image that hold a current byte, newest layer first, with the pages that its maps name (R146, R154). -/
def liveRefs (s : State) (r : Rim) : List BaseRef :=
  let sb := strandBytes s
  let sg := storedOf r.geom
  ((imageLayers s r).foldl (fun (acc : RangeSet × List BaseRef) l =>
    (rsUnion acc.1 l.set,
     acc.2 ++ l.plaits.flatMap (fun p => (List.range p.strands.length).filterMap (fun i =>
       if rsDiff (strandSet sb sg p i) acc.1 = [] then none
       else (r.locate l p i).map (fun g => { seq := l.seq, plait := p.no, strand := i, page := g }))))) ([], [])).2

/-- The pages of a record's tables and directories (R137). -/
def Rim.tablePages (r : Rim) : List Page :=
  (r.maps ++ r.dir).flatMap (·.strands) ++ r.dirA.toList ++ r.dirB.toList

def inGroup (p : Page) (d : Die) (b : Nat) : Bool := p.die = d && p.block = b

/-- A record's maps reference a page of the group (R144 PF4, R149, R154). -/
def namedBy (s : State) (r : Rim) (d : Die) (b : Nat) : Bool :=
  (liveRefs s r).any (fun x => inGroup x.page d b) || r.tablePages.any (fun p => inGroup p d b)

/-- The records that carry an image (R140). -/
def RecType.image : RecType → Bool
  | .save | .fold | .restored => true
  | _ => false

/-- The two retained records: the highest valid records that carry an image (R149). -/
def retained (s : State) : List Rim := (s.nand.rims.filter (fun r => r.type.image)).take 2

/-- The record whose image the next record builds on: the highest that carries an image. -/
def imageRim (s : State) : Option Rim := (retained s).head?

def topSeq (s : State) : Nat := match s.nand.rims with
  | r :: _ => r.seq
  | [] => 0

/-- The strands and tables that a save or a record under way has put on the NAND and no record has committed yet. -/
def openPages (s : State) : List Page :=
  (match s.map.save with
   | some v => v.done.flatMap (fun p => p.strands.filterMap id) ++ v.open_.flatMap (fun p => p.strands.filterMap (·.page))
   | none => []) ++
  (match s.nand.tab with
   | some j => j.strands.filterMap (·.page)
   | none => []) ++
  (match s.nand.rimJob with
   | some j => j.rim.tablePages
   | none => [])

/-- The group has live data (R154). -/
def hasLive (s : State) (d : Die) (b : Nat) : Bool :=
  (retained s).any (fun r => namedBy s r d b) || (openPages s).any (fun p => inGroup p d b)

/-- The pages of an erased group are gone: tags, strands, base pages and rim copies (R133, R141). A record without a copy is no more. -/
def forgetGroup (s : State) (d : Die) (b : Nat) : State :=
  let keep (p : Option Page) : Option Page := p.filter (fun x => !inGroup x d b)
  let layers := s.nand.layers.map (fun l => { l with plaits := l.plaits.map (fun p => { p with strands := p.strands.map keep }) })
  let rims := s.nand.rims.map (fun r =>
    { r with base := r.base.filter (fun x => !inGroup x.page d b), copyA := keep r.copyA, copyB := keep r.copyB })
  { s with nand := { s.nand with
      tags := s.nand.tags.filter (fun x => !inGroup x.1 d b), layers := layers
      rims := rims.filter (fun r => r.copyA.isSome || r.copyB.isSome) } }

/-! ## Bad blocks (R153, R154, R156) -/

/-- Grown bad-block causes (R153). -/
def causeProg : Nat := 1
def causeErase : Nat := 2
def causeLdpc : Nat := 3
def causeMargin : Nat := 4
def causeWear : Nat := 5
def causeRead : Nat := 6

/-- The entry's 32 bits (R153). -/
def Grown.word (g : Grown) : Word := BitVec.ofNat 32 (g.cause % 16 * 2 ^ 28 + g.die.val * 2 ^ 20 + g.plane % 4 * 2 ^ 18 + g.block % 2 ^ 16)

/-- Enter a group in the grown table (R153, R156): the copy in the config store is written at once, that in TABLE groups with the tables of
the next record. -/
def addGrown (s : State) (cause : Nat) (d : Die) (plane b : Nat) : State :=
  if 4096 ≤ s.nand.bbt.length then logEv { s with nand := { s.nand with bbtFull := true } } 0 .bbtFull
  else
    let n := s.nand.bbt ++ [{ cause := cause, die := d, plane := plane, block := b }]
    let gen := s.nand.bbtGen + 1
    writeArea { s with nand := { s.nand with bbt := n, bbtGen := gen, bbtCfg := (n, gen), bbtFull := 4096 ≤ n.length } } .gbbt

/-- Retire a group (R154): RETIRING while it holds live data, GROWN_BAD at once otherwise. -/
def retire (s : State) (cause : Nat) (d : Die) (plane b : Nat) : State :=
  let g := groupOf s d b
  if g.role = .retiring ∨ g.role = .grownBad ∨ g.role = .factoryBad then s
  else
    let s := logEv s (dieDom d) .groupRetired d.val b cause
    if hasLive s d b then setGroup s { g with role := .retiring, cause := cause, plane := plane }
    else addGrown (setGroup s { g with role := .grownBad, cause := cause, plane := plane }) cause d plane b

/-! ## The stripe (R114) -/

/-- k and W for N dies (R114). -/
def stripe (s : State) (n : Nat) : Nat × Nat :=
  let sb := strandBytes s
  let k := if storedG s = 0 then 0 else n * sb / storedG s
  if k = 0 then (1, ceilDiv (storedG s) sb) else (k, ceilDiv (k * storedG s) sb)

/-- A plait stays within 256 strands and 65,535 granules (R126). -/
def stripeFits (s : State) : Bool :=
  let kw := stripe s (usableDies s).length
  kw.1 ≤ 65535 && kw.2 ≤ 256

/-- The set bits of a mask: the owned slots m. -/
def ownedSlots (m : BitVec 40) : Nat := ((List.range 40).filter (fun i => m.getLsbD i)).length

def activeTable (s : State) : Option SlotTable := s.warp.tables[s.warp.active.val]

/-- SMAX of the slot table in force (R117). -/
def slotMax (s : State) : Nat :=
  match activeTable s with
  | some t => t.smax
  | none => 64

/-- H_free (R136). -/
def hFree (s : State) : Nat :=
  (usableDies s).foldl (fun n d => n + freeCount s d * s.nand.profile.wls) 0 - ringReserve s

/-! ## The tables of a record (R137, R139) -/

/-- The delta layers that the image holds with one more: the directory lists them itself up to 58, and at 65,535 the new map is merged
with the newest one (R139). -/
def nextLayers (s : State) : Nat :=
  match (if s.aon.img = .none then none else imageRim s) with
  | some r => r.layerSeqs.length + 1
  | none => 1

/-- Strands of a table of a type: a layer-map index and a log copy have the sizes of R139 and R340, the others those that State holds
(assumption log entry 65). -/
def tabLen (s : State) (type : Nat) : Nat :=
  if type = 5 then ceilDiv (32 + 32 * (s.log.entries.length + s.log.held.length)) (strandBytes s)
  else if type = 8 then ceilDiv (16 * nextLayers s) (strandBytes s)
  else s.map.tabLens.toList.getD type 1

/-- The types of the tables that the tail of the next save writes (R119, R137, R139). -/
def tailTypes (s : State) : List Nat := [1, 3, 4, 5, 6, 7] ++ (if 58 < nextLayers s then [8] else [])

/-- H_tail (R121): the tables of the tail and two copies of the directory, and the newest map where it is written again (R139). -/
def hTail (s : State) : Nat :=
  (tailTypes s).foldl (fun n t => n + tabLen s t) 2 + (if 65535 < nextLayers s then tabLen s 1 else 0)

/-! ## Time and energy -/

/-- t_g in seconds (R118), at the channel rate of the interface; the reference figure when no stripe exists
(assumption log entry 14). -/
def granuleTime (s : State) : ℚ :=
  let dies := usableDies s
  let n := dies.length
  let p := s.nand.profile
  let m := match activeTable s with
    | some t => ownedSlots t.mask
    | none => 0
  if n = 0 ∨ m = 0 then 753 / 100000000
  else
    let ch := ((allFin 8).filter (fun c => dies.any (fun d => dieCh d = c.val))).length
    let kw := stripe s n
    let sb : ℚ := strandBytes s
    let eff : ℚ := (kw.1 * storedG s : ℕ) / (kw.2 * sb)
    let rate : ℚ := match p.iface with
      | 0 => 50000000
      | 1 => 533000000
      | _ => 1600000000
    let tx : ℚ := ((p.pageBytes + p.spare : ℕ) : ℚ) / rate + 48 / 100000000
    let rBus : ℚ := (ch * p.pageBytes : ℕ) / tx
    let delta : ℚ := 1 / 1000 / m
    let cyc : ℚ := delta * (⌈(p.tprogSlc : ℚ) / 1000000 / delta⌉ : ℤ)
    let rDie : ℚ := n * sb / cyc
    let rSlot : ℚ := (m * slotMax s : ℕ) * sb * 1000
    (storedG s : ℚ) / (eff * min rBus (min rDie rSlot))

/-- P_DEV + P_MOD in watt (R120). -/
def savePower (s : State) : ℚ := 9 + (s.bat.set.pmod : ℚ) / 1000

/-- Reseed e_g (R120). -/
def reseedEg (s : State) : State := { s with map := { s.map with eg := savePower s * granuleTime s } }

/-- Reseed e_g, E_fix and E_tail after a change of P_MOD (R120, R123). -/
def reseedAll (s : State) : State :=
  let s := reseedEg s
  { s with map := { s.map with eFix := savePower s * (12 / 100), eTail := savePower s * (9 / 100) } }

/-- What reading and writing the newest layer map again adds to E_fix while the image holds 65,534 layers or more (R139); the spec gives
no time for it. -/
def mergeEnergy (s : State) : ℚ := if 65534 < nextLayers s then savePower s * Config.mergeTime else 0

/-- E_need(c) in joule (R121). -/
def eNeed (s : State) (c : Nat) : ℚ := s.map.eFix + mergeEnergy s + s.map.eg * dirtyCount s c

/-- H_need(c) in strands (R121). -/
def hNeed (s : State) (c : Nat) : Nat :=
  let kw := stripe s (usableDies s).length
  kw.2 * ceilDiv (dirtyCount s c) kw.1 + hTail s

/-- `cover=` (R121): the highest class whose needs both hold. -/
def coverOf (s : State) : Option Nat :=
  (List.range 8).foldl (fun acc c => if eNeed s c ≤ s.bat.eavail ∧ hNeed s c ≤ hFree s then some c else acc) none

/-- E_floor (R123). -/
def eFloor (s : State) : ℚ := 2 * (stripe s (usableDies s).length).1 * s.map.eg + s.map.eTail

/-! ## Rim rings: their pages (R141) -/

/-- The next page of a ring: none while its group still holds records or is not erased. -/
def Ring.next (r : Ring) (wls : Nat) : Option Page :=
  match r.blocks[r.cur]? with
  | some b => if r.page < wls then some { die := r.die, block := b, page := r.page } else none
  | none => none

/-- A full group hands over to the next one if that is erased (R141, R157). -/
def Ring.handOver (r : Ring) (wls : Nat) : Ring :=
  let next := if r.blocks.length = 0 then 0 else (r.cur + 1) % r.blocks.length
  if wls ≤ r.page ∧ r.tops.getD next 1 = 0 then { r with cur := next, page := 0 } else r

/-- The page has taken a record of sequence `seq` (R141). -/
def Ring.advance (r : Ring) (wls seq : Nat) : Ring :=
  { r with page := r.page + 1, tops := r.tops.set r.cur seq }.handOver wls

/-- The oldest group of a ring that no erased group follows: it is erased once every record in it is older than both retained records, so
that one group is always kept erased (R141). -/
def Ring.due (r : Ring) (oldest : Nat) : Option Nat :=
  if r.blocks.length < 2 ∨ r.tops.any (· = 0) then none
  else
    let i := (r.cur + 1) % r.blocks.length
    if r.tops.getD i 0 < oldest then r.blocks[i]? else none

/-- The lower SEQ of the two retained records; 0 with fewer than two. -/
def oldestRetained (s : State) : Nat :=
  match retained s with
  | [_, r] => r.seq
  | _ => 0

/-- A ring group has been erased: it may take records again. -/
def Ring.erased (r : Ring) (wls b : Nat) : Ring := { r with tops := r.tops.set (r.blocks.findIdx (· = b)) 0 }.handOver wls

/-- One more FREE group of the ring's die joins it (R136). -/
def growRing (s : State) (r : Ring) (held : Option Nat) : State × Ring :=
  match nextFree s r.die false held with
  | some g => (setGroup s { g with role := .rim, wp := 0 }, { r with blocks := r.blocks ++ [g.block], tops := r.tops ++ [0] })
  | none => (s, r)

/-- A ring of four groups on a die, from its FREE groups (R141, R152). -/
def makeRing (s : State) (d : Die) : State × Ring :=
  (List.range 4).foldl (fun (p : State × Ring) _ => growRing p.1 p.2 none) (s, Ring.at d)

/-- A relocated ring begins with the group held back for it (R136). -/
def startRing (s : State) (d : Die) : State × Ring := growRing s (Ring.at d) none

/-- A relocated ring takes its further groups from FREE in SERVE (R136). -/
def fillRing (s : State) (copyB : Bool) : State :=
  let r := if copyB then s.nand.ringB else s.nand.ringA
  if s.nand.prov ≠ .done ∨ 4 ≤ r.blocks.length then s
  else
    let q := growRing s r (reservedBlock s r.die)
    let r := q.2.handOver s.nand.profile.wls
    if copyB then { q.1 with nand := { q.1.nand with ringB := r } } else { q.1 with nand := { q.1.nand with ringA := r } }

/-- The groups of a ring that is given up hold no referenced data (R133). -/
def freeRing (s : State) (r : Ring) : State := r.blocks.foldl (fun s b => setRole s r.die b .erasePending) s

end Sys2Proof.Machine
end

