-- ==== Sys2Proof/Machine/Estimator.lean ====
section
/-! DEFINITION. The pack's tables, thresholds and filter: what the firmware computes of each cell (R196-R199, R201, R205-R214,
R223). Voltages stand in volt, currents in ampere, charges in ampere-seconds, energies in joule; table entries in the units of
R212. -/

namespace Sys2Proof.Machine

/-! ## The square root and the exponential, to a fixed precision (assumption log entry 33) -/

/-- The largest number below 2^128 whose square is at most `n`. -/
def rootFloor (n : Nat) : Nat := (List.range 128).foldr (fun i r => if (r + 2 ^ i) * (r + 2 ^ i) ≤ n then r + 2 ^ i else r) 0

/-- The square root of a number that is not negative, rounded down to a multiple of 2^-64 (R208 to R211, R214). -/
def sqrtQ (x : ℚ) : ℚ := (rootFloor (⌊x * 2 ^ 128⌋ : ℤ).toNat : ℕ) / 2 ^ 64

/-- e^-f for 0 <= f <= 1, in units of 2^-64: the series up to its 24th power, each power rounded down. -/
def expFrac (f : ℚ) : ℤ :=
  let u : ℤ := ⌊f * 2 ^ 64⌋
  ((List.range 24).foldl (fun (p : ℤ × ℤ) (k : ℕ) =>
    let term := p.2 * u / (2 ^ 64 * ((k : ℤ) + 1))
    (if k % 2 = 0 then p.1 - term else p.1 + term, term)) (2 ^ 64, 2 ^ 64)).1

/-- e^-x for x >= 0 (R207, R211), to about 2^-60: e^-1 once for each whole unit of x, and the series for the rest. From 60 on it is 0. -/
def expNeg (x : ℚ) : ℚ :=
  let n : ℕ := (⌊x⌋ : ℤ).toNat
  if 60 ≤ n then 0
  else ((List.range n).foldl (fun v _ => v * expFrac 1 / 2 ^ 64) (expFrac (x - n)) : ℤ) / 2 ^ 64

/-! ## The newest conversion (R206) -/

/-- The newest of the front end's conversions. -/
def newest (b : Battery) : Option Sample := b.ring.head?

/-- A conversion goes into the ring of four. -/
def pushRing (b : Battery) (x : Sample) : Battery := { b with ring := (x :: b.ring).take 4 }

/-- The module stands on bulk: VBULK at or above the qualify threshold (R52). -/
def onBulk (s : State) : Bool := s.pins.bulk = .qualified

/-! ## Thresholds (R197) -/

def isLfp (s : State) : Bool := s.aon.opt.chem = 1
def cellCount (s : State) : Nat := s.aon.opt.cells.toNat

/-- V_chg in mV: the chemistry's or the setting's, lowered by the pack's VCHG_MV (R198). -/
def vChg (s : State) : Nat :=
  let v := s.bat.set.vchg.getD (if isLfp s then 3650 else 4200)
  match s.bat.pid with
  | some p => if p.vchgMv = 0 then v else min v p.vchgMv
  | none => v
def vMaint (s : State) : Nat := min (s.bat.set.vmaint.getD (vChg s)) (vChg s)
def vPre (s : State) : Nat := if isLfp s then 2500 else 3000
def vCut (s : State) : Nat := s.bat.set.vcut.getD (if isLfp s then 2500 else 3000)
def imbLimit (s : State) : Nat := s.bat.set.imb.getD (if isLfp s then 50 else 100)

/-- Design capacity in mAh (R199). -/
def designCap (s : State) : Nat :=
  match s.bat.pid with
  | some p => p.capMah
  | none => s.bat.set.cap

/-- The pack temperature in tenths of a degree, none at a rail. -/
def ntcTemp (x : Ntc) : Option Int :=
  match x with
  | .temp t => some t
  | _ => none

def packTemp (s : State) : Option Int := (newest s.bat).bind (fun x => ntcTemp x.ntc)

/-- I_set in mA (R201): halved in the half-current band, in steps of 10 mA, at least 100. -/
def iSet (s : State) : Nat :=
  let pack := match s.bat.pid with
    | some p => p.ichgMax
    | none => 2000
  let base := min (min (s.aon.opt.ichg.toNat * 100) pack) (min (s.bat.set.ichg.getD 2000) 2000)
  let cold : Bool := match packTemp s with
    | some t => t < 100
    | none => false
  (if cold then max 100 (base / 2) else base) / 10 * 10

/-! ## OCV (R207, R212) -/

/-- A table entry in mV: SoC point 0-20, temperature column 0-3. -/
def ocvPoint (s : State) (soc col : Nat) : ℚ :=
  match (if isLfp s then s.bat.ocvLfp else s.bat.ocvNmc) with
  | some l => (l.getD (soc * 4 + col) 0 : ℕ)
  | none => (Config.factoryOcv (isLfp s) soc col : ℕ)

def tempOfCol (c : Nat) : ℚ :=
  match c with
  | 0 => -10
  | 1 => 10
  | 2 => 25
  | _ => 45

/-- A table row at a temperature within the table. -/
def ocvRow (s : State) (soc : Nat) (t : ℚ) : ℚ :=
  let c : Nat := if t < 10 then 0 else if t < 25 then 1 else 2
  let a := ocvPoint s soc c
  a + (ocvPoint s soc (c + 1) - a) * (t - tempOfCol c) / (tempOfCol (c + 1) - tempOfCol c)

def inTable (z t : ℚ) : Bool := 0 ≤ z && z ≤ 1 && -10 ≤ t && t ≤ 45

/-- The segment of z: its lower point; a value on a point belongs to the upper segment. -/
def socSegment (z : ℚ) : Nat := min 19 ((⌊z * 20⌋ : ℤ).toNat)

/-- OCV in volt. -/
def ocv (s : State) (z t : ℚ) : ℚ :=
  (if inTable z t then
    let i := socSegment z
    let a := ocvRow s i t
    a + (ocvRow s (i + 1) t - a) * (z * 20 - i)
  else Config.ocvBeyond (isLfp s) z t) / 1000

/-- dOCV/dz in volt. -/
def ocvSlope (s : State) (z t : ℚ) : ℚ :=
  (if inTable z t then
    let i := socSegment z
    (ocvRow s (i + 1) t - ocvRow s i t) * 20
  else Config.ocvSlopeBeyond (isLfp s) z t) / 1000

/-- OCV inverse: the first segment that spans the voltage. -/
def ocvInv (s : State) (v t : ℚ) : ℚ :=
  let mv := v * 1000
  match (if inTable 0 t then
    (List.range 20).find? (fun i => ocvRow s i t ≤ mv && mv ≤ ocvRow s (i + 1) t && ocvRow s i t < ocvRow s (i + 1) t) else none) with
  | some i => ((i : ℚ) + (mv - ocvRow s i t) / (ocvRow s (i + 1) t - ocvRow s i t)) / 20
  | none => Config.ocvInverseBeyond (isLfp s) mv t

/-- The mean of OCV over an interval of SoC: the trapezoids of the segments it meets. -/
def ocvMean (s : State) (a b t : ℚ) : ℚ :=
  let pieces : ℚ := (List.range 20).foldl (fun (acc : ℚ) (i : ℕ) =>
    let lo := max a ((i : ℚ) / 20)
    let hi := min b (((i : ℚ) + 1) / 20)
    if lo < hi then acc + (hi - lo) * (ocv s lo t + (ocvRow s i t + (ocvRow s (i + 1) t - ocvRow s i t) * (hi * 20 - i)) / 1000) / 2 else acc) 0
  if a = b then ocv s a t else if inTable a t && inTable b t then pieces / (b - a) else (ocv s a t + ocv s b t) / 2

/-- The temperature that the OCV tables take. -/
def tableTemp (s : State) : ℚ :=
  match packTemp s with
  | some t => (t : ℚ) / 10
  | none => Config.openNtcTemp

/-! ## The impedance table (R199, R212) -/

def socBin (z : ℚ) : Nat := min 7 ((⌊z * 8⌋ : ℤ).toNat)
/-- Temperature bins of R212; at a rail the bin below 0 degrees (R223). -/
def tempBin (t : Option Int) : Nat :=
  match t with
  | none => 0
  | some t => if t < 0 then 0 else if t < 100 then 1 else if t < 200 then 2 else if t < 300 then 3 else if t < 450 then 4 else 5

def binOf (r : PackRec) (cell soc temp : Nat) : Bin :=
  (r.bins.getD cell []).getD (temp * 8 + soc) { rser := none, rpol := none, count := 0 }

/-- The scale of R199: the 20-30 degrees, 50 % entry equals RS_INIT. -/
def tableScale (s : State) (r : PackRec) : ℚ :=
  if r.rsInit = 0 then 1 else (r.rsInit : ℚ) / (Config.defaultRser (isLfp s) 4 3 : ℕ)

def defaultSer (s : State) (r : PackRec) (soc temp : Nat) : ℚ := tableScale s r * (Config.defaultRser (isLfp s) soc temp : ℕ)
def defaultPol (s : State) (r : PackRec) (soc temp : Nat) : ℚ := tableScale s r * (Config.defaultRpol (isLfp s) soc temp : ℕ)

/-- A figure as a field of `w` bits holds it: rounded down, and at most the field's greatest value (R212; assumption log entry 76). -/
def stored (w : Nat) (x : ℚ) : BitVec w := BitVec.ofNat w (min (2 ^ w - 1) (⌊x⌋ : ℤ).toNat)

/-- A field's value, or the default table's as the record's copy of it holds it (R199, R212). -/
def figure (f : Option (BitVec 16)) (dflt : ℚ) : ℚ := ((f.getD (stored 16 dflt)).toNat : ℕ)

/-- r_ser and r_pol of a bin in 0.1 mOhm. -/
def binSer (s : State) (r : PackRec) (cell soc temp : Nat) : ℚ := figure (binOf r cell soc temp).rser (defaultSer s r soc temp)
def binPol (s : State) (r : PackRec) (cell soc temp : Nat) : ℚ := figure (binOf r cell soc temp).rpol (defaultPol s r soc temp)

/-- r_ser and r_pol of a cell in ohm. -/
def rSer (s : State) (r : PackRec) (cell : Nat) (z : ℚ) : ℚ := binSer s r cell (socBin z) (tempBin (packTemp s)) / 10000
def rPol (s : State) (r : PackRec) (cell : Nat) (z : ℚ) : ℚ := binPol s r cell (socBin z) (tempBin (packTemp s)) / 10000

/-- Q of a cell in Ah. -/
def cellQ (r : PackRec) (n : Nat) : ℚ := ((r.q.getD n 0).toNat : ℕ) / 1000

def setBin (r : PackRec) (cell soc temp : Nat) (f : Bin → Bin) : PackRec :=
  { r with bins := r.bins.set cell ((r.bins.getD cell []).set (temp * 8 + soc) (f (binOf r cell soc temp))) }

/-! ## Current (R205) -/

/-- V_pack in volt. -/
def packVolts (l : List Nat) : ℚ := (l.foldl (· + ·) 0 : ℕ) / 10000

/-- I_chg in ampere (R200), of setpoints in milliampere. -/
def chargeCurrent (b : Battery) : ℚ :=
  match b.chg with
  | .precharge => 1 / 10
  | .cc => (b.iset : ℚ) / 1000
  | .cv | .maint => (b.icmd : ℚ) / 1000
  | _ => 0

/-- I_load on bulk in ampere (R205). -/
def bulkLoad (s : State) : ℚ := s.store.cfg.iLeak + (if Config.vaonPackOnly then Config.aonCurrent s.free else 0)

/-- The power at the pack terminals with BATSW_EN asserted, in watt (R205). -/
def loadPower (s : State) : ℚ := Config.pDev s.free + (s.bat.set.pmod : ℚ) / 1000

/-- The reconstructed current in ampere, positive on discharge (R205). -/
def packCurrent (s : State) : ℚ :=
  let load : ℚ :=
    if s.pins.batsw then loadPower s / packVolts (match newest s.bat with
      | some x => x.cells
      | none => [])
    else if (s.aon.hold = .held ∨ s.aon.hold = .dark) ∧ onBulk s = false then Config.aonCurrent s.free + s.store.cfg.iLeak
    else bulkLoad s
  load - chargeCurrent s.bat

/-- sigma_I (R205). -/
def sigmaI (s : State) (i : ℚ) : ℚ :=
  if s.aon.hold = .save then |i| * 5 / 100
  else match s.bat.chg with
    | .cc | .precharge => chargeCurrent s.bat * 3 / 100 + 5 / 10000
    | _ => 5 / 10000

/-! ## The filter (R207, R208) -/

def tau (s : State) : ℚ := if isLfp s then 40 else 20

/-- Prediction over `dt` seconds at current `i`. -/
def predictCell (s : State) (r : PackRec) (n : Nat) (i sig dt : ℚ) (c : Cell) : Cell :=
  let a := expNeg (dt / tau s)
  let q := cellQ r n
  let g0 := -dt / (3600 * q)
  let g1 := rPol s r n c.z * (1 - a)
  { z := c.z + g0 * i
    vp := a * c.vp + g1 * i
    pzz := c.pzz + g0 * g0 * sig * sig + 12 / 1000000000 * dt
    pzv := a * c.pzv + g0 * g1 * sig * sig
    pvv := a * a * c.pvv + g1 * g1 * sig * sig + dt / 100000000 }

/-- sigma_v in volt. -/
def sigmaV : ℚ := 2 / 1000

/-- The update with a measured voltage; none = rejected. -/
def updateCell (s : State) (r : PackRec) (n : Nat) (i v : ℚ) (c : Cell) : Option Cell :=
  let t := tableTemp s
  let rs := rSer s r n c.z
  let h := ocvSlope s c.z t
  let yHat := ocv s c.z t - c.vp - rs * i
  let hz := h * c.pzz - c.pzv
  let hv := h * c.pzv - c.pvv
  let sv := h * hz - hv + sigmaV * sigmaV + (2 / 10 * rs * i) * (2 / 10 * rs * i)
  let e := v - yHat
  if e * e > 16 * sv then none
  else
    let kz := hz / sv
    let kv := hv / sv
    some { z := c.z + kz * e, vp := c.vp + kv * e
           pzz := c.pzz - kz * hz, pzv := c.pzv - kz * hv, pvv := c.pvv - kv * hv }

/-- A cell's filter at new-pack learning: sigma_z = 0.15; the spec gives no other start (R199). -/
def learningCell (n : Nat) (i : Nat) : Cell :=
  { z := Config.filterSeed n i 0, vp := Config.filterSeed n i 1, pzz := 225 / 10000, pzv := Config.filterSeed n i 3, pvv := Config.filterSeed n i 4 }
/-- A cell's filter where no checkpoint survives. -/
def seededCell (n : Nat) (i : Nat) : Cell :=
  { learningCell n i with pzz := Config.filterSeed n i 2 }

/-! ## Outputs (R209) -/

/-- The weakest cell: its place and its filter. -/
def weakest (s : State) : Option (Nat × Cell) :=
  (s.bat.cells.zipIdx).foldl (fun acc p => match acc with
    | none => some (p.2, p.1)
    | some (i, c) => if p.1.z < c.z then some (p.2, p.1) else some (i, c)) none

def socOf (s : State) : ℚ := ((weakest s).map (fun p => p.2.z)).getD 0
def socPct (s : State) : Nat := min 100 ((⌊socOf s * 100⌋ : ℤ).toNat)

def EstState.text : EstState → String
  | .learning => "LEARNING"
  | .anchored => "ANCHORED"
  | .unanchored => "UNANCHORED"
  | .sensefail => "SENSEFAIL"

def EstState.code : EstState → Nat
  | .learning => 0
  | .anchored => 1
  | .unanchored => 2
  | .sensefail => 3

/-- `est=` once LEARNING may have ended (R209). -/
def estNow (s : State) : State :=
  { s with bat := { s.bat with est := if s.bat.anchored && s.bat.probed then .anchored else .learning } }

/-! ## Energy (R214, R215) -/

/-- E_cell with a margin of `m` standard deviations (R214); the mean current is the smaller root of its equation. -/
def cellEnergy (s : State) (r : PackRec) (m : ℚ) (n : Nat) (c : Cell) : ℚ :=
  let t := tableTemp s
  let cells : ℚ := s.bat.cells.length
  let p := savePower s
  let res := rSer s r n c.z + rPol s r n c.z
  let vc : ℚ := (vCut s : ℚ) / 1000
  let zEod := ocvInv s (vc + res * p / (cells * vc)) t
  let zm := c.z - m * sqrtQ c.pzz
  if zm ≤ zEod then 0
  else
    let o := ocvMean s zEod zm t
    let mean := if res = 0 then p / (cells * o)
      else if o * o < 4 * res * p / cells then Config.meanCurrentOpen o res (p / cells)
      else (o - sqrtQ (o * o - 4 * res * p / cells)) / (2 * res)
    3600 * cellQ r n * (zm - zEod) * o * (1 - res * mean / o)

/-- The estimator works: a pack that it may use, plausible readings. -/
def packUsable (s : State) : Bool :=
  s.bat.present && (s.bat.result = .anon || s.bat.result = .id) && s.bat.est ≠ .sensefail && s.bat.cells ≠ []

/-- E_avail with a margin of `m` standard deviations, in joule. -/
def energyWith (s : State) (m : ℚ) : ℚ :=
  match s.bat.packRec with
  | none => 0
  | some r =>
    if packUsable s then
      let l := (s.bat.cells.zipIdx).map (fun p => cellEnergy s r m p.2 p.1)
      match l with
      | [] => 0
      | e :: t => (s.bat.cells.length : ℚ) * t.foldl min e
    else 0

/-- The margin of R214: two standard deviations while LEARNING or UNANCHORED. -/
def marginSigmas (s : State) : ℚ := if s.bat.est = .learning ∨ s.bat.est = .unanchored then 2 else 1

/-- E_avail is recomputed in SERVE and PARK; it is 0 without a pack that the estimator may use (R199, R214, R223). -/
def refreshEnergy (s : State) : State :=
  if !packUsable s then { s with bat := { s.bat with eavail := 0 } }
  else if s.aon.hold = .serve ∨ s.aon.hold = .park then { s with bat := { s.bat with eavail := energyWith s (marginSigmas s) } }
  else s

end Sys2Proof.Machine
end

