-- ==== Sys2Proof/Machine/Flash.lean ====
section
/-! DEFINITION. The code-flash array: words, sectors, refusals and interruptions (R345, R352, R353, R361, R364). -/

namespace Sys2Proof.Machine

/-! ## Words -/

/-- An erased word. -/
def wordErased : DWord := BitVec.allOnes 64

/-- 64-bit words of a 16 KiB sector. -/
def sectorWords : Nat := 2048

/-- The word under an index (byte offset divided by 8): a word not listed is erased. -/
def flashGet (l : List (Nat × DWord)) (w : Nat) : DWord :=
  match l with
  | [] => wordErased
  | (a, v) :: t => if a = w then v else flashGet t w

/-- Write a word: an erased one is not listed, the rest stand in rising order. -/
def flashPut : List (Nat × DWord) → Nat → DWord → List (Nat × DWord)
  | [], w, v => if v = wordErased then [] else [(w, v)]
  | (a, b) :: t, w, v =>
    if w < a then (if v = wordErased then (a, b) :: t else (w, v) :: (a, b) :: t)
    else if w = a then (if v = wordErased then t else (w, v) :: t)
    else (a, b) :: flashPut t w v

/-- Erase a sector. -/
def flashErase (l : List (Nat × DWord)) (n : Nat) : List (Nat × DWord) := l.filter (fun p => p.1 / sectorWords ≠ n)

/-- The canonical form: indices strictly rising, no erased word listed. -/
def flashWf : List (Nat × DWord) → Bool
  | [] => true
  | [(_, v)] => v ≠ wordErased
  | (a, v) :: (b, w) :: t => v ≠ wordErased && a < b && flashWf ((b, w) :: t)

def wordAt (s : State) (w : Nat) : DWord := flashGet s.cfl.words w

/-- Bytes of the array, little-endian words. -/
def flashBytes (s : State) (off n : Nat) : List Byte :=
  ((List.range (ceilDiv n 8)).flatMap (fun i => leBytes 8 (wordAt s (off / 8 + i)).toNat)).take n

/-- A record of bytes as the words it takes. -/
def wordsOf (l : List Byte) : List DWord :=
  (List.range (ceilDiv l.length 8)).map (fun i => BitVec.ofNat 64 (leAt l (8 * i) 8))

/-- The program operations that write a record from an offset; erased words need none. -/
def programOps (off : Nat) (l : List Byte) : List CflOp :=
  (((wordsOf l).zipIdx).filter (fun p => p.1 ≠ wordErased)).map (fun p => .program (off / 8 + p.2) p.1)

/-- An uncorrectable word lies among the words of a range. -/
def flashBad (s : State) (off n : Nat) : Bool := s.cfl.uncorr.any (fun w => off / 8 ≤ w && w < off / 8 + ceilDiv n 8)

/-! ## Refusals (R345, R352, R353, R361) -/

/-- The bit-clear region has no ECC (R345). -/
def bitClearSector (n : Nat) : Bool := 480 ≤ n && n ≤ 495

/-- Protected by the record in force, unless the latch is set (R361, R362). -/
def protectedSector (s : State) (n : Nat) : Bool := n < 448 && s.cfl.prot.getLsbD n && !s.cfl.latch

def programRefused (s : State) (w : Nat) : Bool := 500 ≤ w / sectorWords || protectedSector s (w / sectorWords)
def eraseRefused (s : State) (n : Nat) : Bool := 500 ≤ n || n = 480 || protectedSector s n

def countOf (s : State) (w : Nat) : Nat := (look w s.cfl.counts).getD 0

/-- The program count has reached its limit, or a bit would go from 0 to 1 (R353). -/
def programConflict (s : State) (w : Nat) (v : DWord) : Bool :=
  (if bitClearSector (w / sectorWords) then 2 else 1) ≤ countOf s w || (v &&& wordAt s w) ≠ v

/-! ## What operations leave -/

def setWord (s : State) (w : Nat) (v : DWord) : State := { s with cfl := { s.cfl with words := flashPut s.cfl.words w v } }

/-- The program count advances before the first pulse (R353). -/
def advanceCount (s : State) (w : Nat) : State := { s with cfl := { s.cfl with counts := put w (countOf s w + 1) s.cfl.counts } }

/-- A word whose program failed or was interrupted: its value is free, and outside the bit-clear region its ECC may fail (R364). -/
def spoilWord (s : State) (w : Nat) : State :=
  let n := s.free
  let s := setWord { s with free := n + 1 } w (Config.flashWord n)
  if !bitClearSector (w / sectorWords) && Config.flashEcc n then
    { s with cfl := { s.cfl with uncorr := insertNat w s.cfl.uncorr } }
  else s

/-- An erased sector: every word erased, every program count 0 (R355). -/
def wipeSector (s : State) (n : Nat) : State :=
  { s with cfl := { s.cfl with
      words := flashErase s.cfl.words n
      counts := s.cfl.counts.filter (fun p => p.1 / sectorWords ≠ n)
      uncorr := s.cfl.uncorr.filter (fun w => w / sectorWords ≠ n)
      weak := s.cfl.weak.filter (fun w => w / sectorWords ≠ n) } }

/-- A sector whose erase failed or was interrupted: values and program counts are free (R364). -/
def spoilSector (s : State) (n : Nat) : State :=
  let s := wipeSector s n
  (List.range sectorWords).foldl (fun s i =>
    let w := n * sectorWords + i
    let f := s.free
    let s := spoilWord s w
    { s with cfl := { s.cfl with counts := put w (Config.flashCount f % 4) s.cfl.counts } }) s

/-- The operation under way. -/
def currentOp (s : State) : Option CflOp :=
  match s.cfl.jobs with
  | [] => none
  | j :: _ => j.ops.head?

/-- The operation under way is cut off by the loss of D03's power (R364), and what the firmware had planned is gone. -/
def interruptCfl (s : State) : State :=
  let s' := match currentOp s with
    | some (.program w v) => if programRefused s w || programConflict s w v then s else spoilWord (advanceCount s w) w
    | some (.erase n) => if eraseRefused s n then s else spoilSector s n
    | _ => s
  { s' with cfl := { s'.cfl with jobs := [], waiting := [], warmDue := false } }

/-- Only the operation under way goes on when D02 is reset; the firmware's plan is lost (R63, R66). -/
def looseCfl (s : State) : State :=
  { s with cfl := { s.cfl with
      waiting := []
      jobs := match currentOp s with
        | some o => [{ use := .loose, session := none, planned := true, ops := [o], redo := [], retried := true }]
        | none => [] } }

end Sys2Proof.Machine
end

