-- ==== Sys2Proof/Machine/Hold.lean ====
section
/-! DEFINITION. The hold states: READY and ARMED, the entries to each state, triggers, PARK and RESTORE requests
(R25-R46, R84, R88, R103, R108, R122, R159-R164, R387, R393, R407). -/

namespace Sys2Proof.Machine

/-! ## What is derived from the state -/

/-- READY (R25, R36, R81). -/
def ready (s : State) : Bool :=
  match s.aon.hold with
  | .serve | .park => true
  | .fault => s.aon.hpOk
  | _ => false

/-- Every core domain of the save set is ON (R52, R108). -/
def saveSetOn (s : State) : Bool := [2, 3, 4, 6, 7, 8, 9, 10, 11].all (fun d => isOn s d)

/-- Free pSLC headroom for one plait and the tail tables (R108), the plait within the limits of R126. -/
def headroom (s : State) : Bool := stripeFits s && (stripe s (usableDies s).length).2 + hTail s ≤ hFree s

/-- ARMED (R36, R108). -/
def armed (s : State) : Bool :=
  (s.aon.hold = .serve || s.aon.hold = .park) && s.nand.prov ≠ .running && s.aon.img ≠ .pending &&
  s.aon.imgKnown && saveSetOn s && s.nand.profile.minStripe ≤ (usableDies s).length && s.map.descriptors && headroom s

def HoldState.code : HoldState → Nat
  | .dark => 0
  | .boot => 1
  | .serve => 2
  | .park => 3
  | .save => 4
  | .held => 5
  | .restore => 6
  | .fault => 7

def HoldState.text : HoldState → String
  | .dark => "DARK"
  | .boot => "BOOT"
  | .serve => "SERVE"
  | .park => "PARK"
  | .save => "SAVE"
  | .held => "HELD"
  | .restore => "RESTORE"
  | .fault => "FAULT"

def ImgRel.code : ImgRel → Nat
  | .none => 0
  | .pending => 1
  | .track => 2

def ImgRel.text : ImgRel → String
  | .none => "NONE"
  | .pending => "PENDING"
  | .track => "TRACK"

def Cause.code : Cause → Nat
  | .none => 0
  | .pin => 1
  | .droop => 2
  | .verb => 3
  | .sideband => 4
  | .stake => 5

def Cause.text : Cause → String
  | .none => "NONE"
  | .pin => "PIN"
  | .droop => "DROOP"
  | .verb => "VERB"
  | .sideband => "SIDEBAND"
  | .stake => "STAKE"

def Margin.code : Margin → Nat
  | .green => 0
  | .amber => 1
  | .red => 2
  | .none => 3

/-- The hold-state byte (R36): READY, ARMED, IMG, STATE. -/
def holdByte (s : State) : Byte :=
  BitVec.ofNat 8 ((if ready s then 128 else 0) + (if armed s then 64 else 0) + s.aon.img.code * 16 + s.aon.hold.code)

/-! ## Pins -/

/-- The port lets the DRAM go: its drivers are off, DQ at the host, QCK from the host's DCK (R102, R103). -/
def pinsRelease (p : Pins) : Pins := { p with dqswA := false, dqswB := false, port := false, qck := .dck }

/-- READY = 1: the host owns the DRAM, its CA and its reset input are forwarded (R84, R88, R410). -/
def pinsHost (p : Pins) : Pins := { pinsRelease p with qca := .fwd, qrstHigh := p.drstHigh, alertHeld := false }

/-- The port takes the DRAM's command bus and holds its reset high (R88, R101, R410). -/
def pinsPort (p : Pins) : Pins := { p with qca := .port, qrstHigh := true }

/-- The DRAM side at rest: DQ at the port side, the port off, CA held by the latches (R53, R103, R410). -/
def pinsRest (p : Pins) : Pins :=
  { p with dqswA := true, dqswB := true, port := false, qca := .latch, qck := .stopped, alertHeld := false, batsw := false }

/-- The DQ lines that a strobe pair of the port covers, lowest and highest: four with x4 devices; with x8 devices eight for an even pair,
and none for an odd one, which the port tristates (R402). -/
def strobeDq (x8 : Bool) (k : Fin 10) : Option (Nat × Nat) :=
  if x8 then (if k.val % 2 = 0 then some (4 * k.val, 4 * k.val + 7) else none) else some (4 * k.val, 4 * k.val + 3)

/-- The port drives a strobe pair (R103, R402). -/
def strobeDriven (s : State) (k : Fin 10) : Bool := s.pins.port && (strobeDq s.store.cfg.seeds.x8 k).isSome

/-! ## Coverage and alarms -/

/-- E_avail in whole joule, as HOLD_ALARM carries it (R230). -/
def eavailJ (s : State) : Nat := (⌊s.bat.eavail⌋ : ℤ).toNat

/-- A class 1 HOLD_ALARM frame (R230): reason 0 = margin change, 1 = PARK accepted with `cover=` below 7. -/
def sendHoldAlarm (s : State) (reason : Nat) : State :=
  if isOn s 5 then
    fwSend s (makeId 1 0 s.aon.opt.nodeId.toNat 0)
      ([BitVec.ofNat 8 s.bat.margin.code,
        (match s.map.cover with
         | some c => BitVec.ofNat 8 c
         | none => 0xFF), holdByte s, BitVec.ofNat 8 reason] ++ leBytes 4 (eavailJ s))
  else s

/-! ## The margin class (R217) -/

/-- The class that the present figures give. -/
def marginNow (s : State) : Margin :=
  match s.map.cover with
  | none => .none
  | some c =>
    if c < 7 then .red
    else if (eNeed s 7) / 4 ≤ s.bat.eavail - eNeed s 7 then .green
    else .amber

def Margin.text : Margin → String
  | .green => "GREEN"
  | .amber => "AMBER"
  | .red => "RED"
  | .none => "NONE"

/-- A class takes effect: event, notice, and at RED or NONE the hold alarm. -/
def takeMargin (s : State) (m : Margin) : State :=
  let s := { s with bat := { s.bat with better := none } }
  if m = s.bat.margin then s
  else
    let s := logEv { s with bat := { s.bat with margin := m } } 2 .marginChange m.code
    let s := noticeGeneral s (EVT [("margin", .kw m.text)])
    if m = .red ∨ m = .none then sendHoldAlarm s 0 else s

/-- One judgment: the first after a warden reset or a BOOT at once, a worse class at once, a better one after 60 s. -/
def judgeMargin (s : State) : State :=
  if s.aon.hold = .serve ∨ s.aon.hold = .park then
    let m := marginNow s
    if !s.bat.judged then takeMargin { s with bat := { s.bat with judged := true } } m
    else if s.bat.margin.code < m.code then takeMargin s m
    else { s with bat := { s.bat with better := if m = s.bat.margin then none else some m } }
  else s

/-- `cover=` as the present figures give it (R121); R122's alarm ends when it reads 7 in PARK. -/
def takeCover (s : State) : State :=
  let c := coverOf s
  { s with map := { s.map with cover := c }
           aon := { s.aon with parkAlarm := s.aon.parkAlarm && !(c = some 7) } }

/-- In SERVE and PARK the firmware recomputes E_avail, `cover=` and the margin class, which is judged each time (R121, R214, R217). -/
def recomputeCover (s : State) : State :=
  let s := refreshEnergy s
  if s.aon.hold = .serve ∨ s.aon.hold = .park then judgeMargin (takeCover s) else s

/-! ## Leaving and entering states -/

/-- The DRAM loses its supply: continuity ends, its contents are unknown (R24, R40, R125). -/
def dramLost (s : State) : State :=
  { s with aon := { s.aon with cont := false }
           nand := { s.nand with dram := { base := .unknown (s.free + 1), segs := [] }, dramSr := false }
           free := s.free + 1 }

/-- Warp time runs on the AON holdover once D06 is in RET or OFF (R52, R265). In SAVE and RESTORE it is SYNC_LOSS that tells. -/
def warpHold (s : State) : State :=
  match s.warp.state with
  | .synced | .keeper => let s := dropKeeper s; { s with warp := { s.warp with state := .holdover, good := 0, await := none, keeper := none } }
  | _ => s

/-- The reload of descriptors is abandoned by a takeover, and the waiting TENANT COMMIT answered 311 (R194). -/
def abandonReload (s : State) : State :=
  match s.map.reload with
  | none => s
  | some r =>
    answerBusy { s with map := { s.map with reload := none } } r.session .commit (ERR 311)

/-- A waiting RESTORE request is dropped and logged (R160, R175). -/
def dropRestore (s : State) : State :=
  match s.rst.req with
  | none => s
  | some _ => logEv { s with rst := { s.rst with req := none } } 0 .restoreDropped

/-- SETTLE ends: no new fold starts; a word line that a die programs completes and stays uncommitted (R42, R150, R157). -/
def stopSettle (s : State) : State :=
  let dies := s.nand.dies.map (fun d => if d.op = .ready .fold then { d with op := .idle } else d)
  let busy (f : FoldDie) : Bool := f.busy && (dieOf s f.die).op = .busy .fold
  { s with nand := { s.nand with
      dies := dies
      settle := { s.nand.settle with
        running := false
        folds := s.nand.settle.folds.map (fun f => if busy f then f else { f with busy := false, taking := [] }) } } }

/-- No new erase starts either (R42, R157). -/
def stopArrays (s : State) : State :=
  let s := stopSettle s
  { s with nand := { s.nand with dies := s.nand.dies.map (fun d => match d.op with
      | .ready (.erase _) => { d with op := .idle }
      | _ => d) } }

/-- A rim commit and the tables of a record under way are abandoned; a fold that was to be committed stays open. -/
def dropRimJob (s : State) : State :=
  { s with nand := { s.nand with
      rimJob := none, tab := none
      dies := s.nand.dies.map (fun d => match d.op with
        | .loading (.table _) | .ready (.table _) | .ready (.rim _ _) => { d with op := .idle }
        | _ => d)
      settle := { s.nand.settle with folds := s.nand.settle.folds.map (fun f => { f with closing := false }) } } }

/-- A REST window ends (R220): the charger is no longer paused for it. -/
def endRest (b : Battery) : Battery := { b with restUntil := none, pauses := b.pauses.filter (· ≠ .rest) }

/-- What goes when the save-set domains lose power: the host path's and MAP's state, the firmware, every session
(R26, R47, R52, R303). The capture set stays until BOOT clears it (R96). -/
def powerDown (s : State) : State :=
  let s := interruptCfl (closeSessions (dropRimJob s))
  { s with
    hp := { s.hp with rows := [], selfRef := [], pda := [], enums := [], rcd := [], training := [], snoop := [], filter := [], phase := .idle
                      dckAbsent := false }
    map := { s.map with descriptors := false, reload := none, save := none, eStale := false }
    doms := { s.doms with dom := s.doms.dom.map (fun d => { d with enabling := none }) }
    rst := { s.rst with run := none, req := none }
    mg := { s.mg with running := false, halted := false }
    cfl := { s.cfl with key := none, latch := false, waiting := [] }
    bat := endRest { s.bat with probe := none }
    aon := { s.aon with boot := BootSt.start, wdArmed := false, parkAlarm := false, qualifying := false }
    nand := { s.nand with prov := if s.nand.prov = .running then .never else s.nand.prov }
    pins := pinsRest s.pins }

/-- The filter checkpoint in AON while D02 is OFF (R212, R222). -/
def checkpointCells (s : State) : State :=
  { s with aon := { s.aon with checkpoint := if s.bat.cells = [] then s.aon.checkpoint else some s.bat.cells
                               packAcc := { s.aon.packAcc with charge := 0, gap := 0, rest := 0 } } }

/-- Entry to HELD (T5, T8, T12, T17, T20). On pack the module PMIC stops (R125). -/
def enterHeld (s : State) : State :=
  let s := checkpointCells (stopArrays (dropRestore (abandonReload s)))
  let s := powerDown { s with aon := { s.aon with hold := .held }, nand := { s.nand with dramSr := true } }
  let s := applyModes s (if onBulk s then modesHeldBulk else modesHeldPack)
  let s := if onBulk s then s else warpHold s
  let s := { s with aon := { s.aon with qualifying := onBulk s } }
  if onBulk s then s else dramLost s

/-- Entry to DARK (T1, T5, T20, T22). -/
def enterDark (s : State) : State :=
  let s := checkpointCells (stopArrays (dropRestore (abandonReload s)))
  let s := powerDown { s with aon := { s.aon with hold := .dark }, nand := { s.nand with dramSr := true } }
  let s := warpHold (applyModes s modesDark)
  let s := { s with aon := { s.aon with qualifying := onBulk s } }
  if onBulk s then s else dramLost s

/-- To HELD if an image is pending, otherwise to DARK (T20, T5). -/
def enterHeldOrDark (s : State) (held : Bool) : State := if held then enterHeld s else enterDark s

def FaultCause.code : FaultCause → Nat
  | .xtsTest => 1
  | .mapTest => 2
  | .root => 3
  | .rimArea => 4
  | .stripe => 5
  | .noProfile => 6
  | .noFirmware => 7
  | .hpSelfcheck => 8
  | .refclk => 9
  | .noRimCommit => 10
  | .restore => 11
  | .laneHalt => 12
  | .coreDomain => 13

/-- The record under way is the proof of a crypto-erase. -/
def proving (s : State) : Bool := s.nand.tab.any (fun j => j.use = .eraseProof) || s.nand.rimJob.any (fun j => j.use = .eraseProof)

/-- The state FAULT with its causes; no save or restore goes on, and of the records only the proof of a crypto-erase does (R190). -/
def faultMark (s : State) (causes : List FaultCause) : State :=
  let s := if proving s then s else dropRimJob s
  { s with aon := { s.aon with hold := .fault, faults := causes, parkAlarm := false }
           map := { s.map with save := none }
           rst := { s.rst with run := none }
           bat := endRest s.bat
           hp := { s.hp with phase := .idle } }

/-- The pins in FAULT: as SERVE when HP is healthy; BATSW_EN stays as it was (R103, R407). -/
def faultPins (s : State) : State :=
  { s with pins := { (if s.aon.hpOk then pinsHost s.pins else pinsRest s.pins) with batsw := s.pins.batsw } }

/-- The SERVE set of a FAULT; with REFCLK absent no PLL-clocked domain runs but HP, which is on the host's DCK (R52, R86). -/
def modesFault (s : State) (d : Dom) : DMode :=
  if s.aon.boot.noRefclk then
    (if d = 0 then .on else if d = 1 ∧ enabled s 1 then .on else if d = 7 ∧ s.aon.hpOk then .on else .off)
  else modesServe s d

/-- Entry to FAULT (T4, T13, T18, T19): one FAULT_ENTRY per cause in ascending order, the SERVE set stays ON, HP serves
the host when it is healthy (R45, R52, R387); an asserted droop counts as arriving now (R393, T20). A TENANT COMMIT that waits at T19 goes
on, since T19 is no takeover (R194), unless MAP is out: then it is abandoned with 311 (DESIGN CHOICE, assumption log entry 25). -/
def enterFault (s : State) (causes : List FaultCause) (tno : Nat) : State :=
  let s := dropRestore (if isOn s 8 then s else abandonReload s)
  let s := faultMark (stopArrays s) causes
  let s := faultPins (applyModes (causes.foldl (fun s c => logEv s 0 .faultEntry c.code tno) s) modesFault)
  if s.pins.bulk = .droop then enterHeldOrDark s (s.aon.img = .pending) else s

/-- T19: SERVE to FAULT when the save path becomes unarmable (R44). In FAULT a new cause is logged and changes nothing (R397). -/
def unarm (s : State) (c : FaultCause) : State :=
  if s.aon.hold = .serve then enterFault s [c] 19
  else if s.aon.hold = .fault ∧ !(c ∈ s.aon.faults) then logEv s 0 .armedLost c.code
  else s

/-- T19 with cause STRIPE when fewer dies remain than the minimum stripe (R44, R158). -/
def checkStripe (s : State) : State :=
  if s.aon.hold = .serve ∧ s.nand.prov ≠ .running ∧ (usableDies s).length < s.nand.profile.minStripe then
    unarm s .stripe
  else s

/-- The lanes of the save set are whole (R25, R69). -/
def coreSaveLane (n : LaneId) : Bool :=
  let core (d : Nat) : Bool := d = 0 || (2 ≤ d && d ≤ 11 && d ≠ 5)
  core (laneEnds n).1 && core (laneEnds n).2

/-- What keeps an armed path from arming again at an entry to SERVE (R44, R69): the rim area, the stripe, a lane, MAP or XTS. -/
def armLoss (s : State) : Option FaultCause :=
  if s.nand.rimDead then some .rimArea
  else if s.nand.prov ≠ .running ∧ (usableDies s).length < s.nand.profile.minStripe then some .stripe
  else if (allFin 87).any (fun n => coreSaveLane n && (laneOf s n).halted) then some .laneHalt
  else if modeOf s 8 = .failed ∨ modeOf s 11 = .failed then some .coreDomain
  else none

/-- What a host reset does to the image (R84): the captured set, the continuity flag and the RCD's words go, TRACK falls to NONE. -/
def hostReset (s : State) : State :=
  let s := { s with
    hp := { s.hp with rcd := [], training := [], capture := [], pda := [], enums := [], mrcapOvf := false, rows := [], selfRef := [] }
    aon := { s.aon with cont := false }
    nand := { s.nand with dram := { base := .unknown (s.free + 1), segs := [] }, dramSr := false }
    free := s.free + 1 }
  if s.aon.img = .track then dropImage s else s

/-- Entry to SERVE (T3, T11, T16): coverage is recomputed (R121), the PARK alarm ends (R122); a DRST_L that stands low is forwarded from
now on (R84), and a path that was lost meanwhile makes T19 (R44). -/
def enterServe (s : State) : State :=
  let was := ready s
  let s := { s with aon := { s.aon with hold := .serve, parkAlarm := false, qualifying := false }
                    pins := { pinsHost s.pins with batsw := false }
                    hp := { s.hp with phase := .idle } }
  let s := if !was && !s.pins.drstHigh then hostReset s else s
  let s := recomputeCover (applyModes s modesServe)
  match armLoss s with
  | some c => unarm s c
  | none => s

/-! ## Takeovers -/

/-- Every logical rank of both subchannels is in self-refresh (R100). -/
def allSelfRef (s : State) : Bool :=
  [Sub.a, Sub.b].all (fun x => (allFin 16).all (fun r => geoNR s.map.geom ≤ r.val || (x, r) ∈ s.hp.selfRef))

/-- MAP applies a snoop record (R90, R91): one granule, or every granule of a bank. Captured mode registers and self-refresh changes
(R51) mark nothing. -/
def applySnoop (s : State) (x : Snoop) : State :=
  match x with
  | .granule g => setDirty s [(g, g + 1)]
  | .whole k =>
    let b := bankIndex s.map.geom (subNum k.sub) k.rank.val k.bank.bg.val k.bank.ba.val * geoPerBank s.map.geom
    setDirty s [(b, b + geoPerBank s.map.geom)]
  | .capture _ _ _ _ | .selfRefresh _ _ _ => s

/-- The records of a flit of lane HP→MAP; a poisoned one has set every bit already (R107). -/
def applyFlit (s : State) (f : Flit) : State :=
  if f.poison then s
  else match f.payload with
    | .snoop l => l.foldl applySnoop s
    | _ => s

/-- HP packs up to 15 records into each flit of lane 0 while it has a credit (R49, R90). With MAP gone nothing takes them. -/
def packSnoops (s : State) : State :=
  let go (s : State) (_ : Nat) : State :=
    let l := laneOf s 0
    if s.hp.snoop = [] ∨ l.credits = 0 ∨ l.halted = true then s
    else
      let f : Flit := { kind := .data, last := true, poison := false, tag := 0, payload := .snoop (s.hp.snoop.take 15) }
      setLane { s with hp := { s.hp with snoop := s.hp.snoop.drop 15 } } 0 (fun l =>
        { l with credits := l.credits - 1, flight := l.flight ++ [f], outcome := .sent })
  if laneUp s 0 then (List.range 32).foldl go s else { s with hp := { s.hp with snoop := [] } }

/-- A record goes into HP's outgoing buffer (R90). -/
def snoopPut (s : State) (x : Snoop) : State := packSnoops { s with hp := { s.hp with snoop := s.hp.snoop ++ [x] } }

/-- MAP applies every record that is in flight, on the lane and in HP's buffer (R90, R98, R106). -/
def flushSnoops (s : State) : State :=
  let l := laneOf s 0
  let s := (l.queue ++ l.flight).foldl applyFlit s
  let s := s.hp.snoop.foldl applySnoop s
  setLane { s with hp := { s.hp with snoop := [] } } 0 (fun l =>
    { l with queue := [], flight := [], credits := if laneUp s 0 then laneDepth 0 else l.credits })

/-- A new save (R109, R111): what is dirty now, per tenant in save order. A full save takes in channels that wait for
one (R56). -/
def newSave (s : State) (planned : Bool) : State :=
  let full := s.aon.img = .none
  let s := if full then endWaiting s else s
  let s := { s with nand := { s.nand with dies := s.nand.dies.map (fun d => { d with failed := false }) } }
  let owed := ((saveOrder s).map (fun t => (t, dirtyOf s t))).filter (fun p => p.2 ≠ [])
  { s with map := { s.map with
      eRem := s.bat.eavail, eStale := false
      save := some
        { planned := planned, full := full, seq := topSeq s + 1, phase := .takeover, todo := owed, plaitNo := 0
          lastDie := none, open_ := [], done := [], stop := false, partial_ := false, skips := []
          owed := owed, eFix0 := s.map.eFix + mergeEnergy s, eG0 := s.map.eg, eStart := s.bat.loadJ, eTakeover := s.bat.loadJ
          eStream := s.bat.loadJ, ePipe := s.bat.loadJ, logCopy := none, logWritten := true } } }

/-- The pack takes over: the estimator notes the newest sample and the current from before the step, a REST window ends, the charger is
OFF (R109, R211, R222). -/
def assertBatsw (s : State) : State :=
  { s with pins := { s.pins with batsw := true }
           bat := { endRest s.bat with
                               chg := .off, eod := false
                               probe := match newest s.bat with
                                 | some x => some { before := x.cells, after := [], dI := bulkLoad s - chargeCurrent s.bat
                                                    z0 := s.bat.cells.map (·.z) }
                                 | none => none }
           aon := { s.aon with hwFloor := false }
           free := s.free + 1 }

/-- The start of a save (T7, T9, T10): READY falls, the domains take the SAVE column, continuity begins (R24). An
unplanned one enters at the cut, with ALERT_L low, and leaves the RCD's training modes; without host DCK Close runs on PLL_M; a planned
one enters at Switch (R88, R98, R100, R106, R107, R109). -/
def startSave (s : State) (planned : Bool) (cause : Cause) : State :=
  let s := flushSnoops (dropRimJob (stopArrays (dropRestore (abandonReload s))))
  let s := newSave s planned
  let s := assertBatsw s
  let s := { s with aon := { s.aon with hold := .save, cause := cause, cont := true, failedSave := false }
                    hp := { s.hp with phase := if planned then .switch_ else .burstDrain, training := [] }
                    pins := { pinsPort s.pins with alertHeld := !planned
                                                   qck := if s.hp.dckAbsent && !planned then .pllM else s.pins.qck } }
  applyModes s modesSave

/-- The tenants whose granules a restore writes as zeros (R166). A slot that is empty because its blob failed its CRC at BOOT is not among
them: R195 says that its copies restore as `lost` (DEDUCED, assumption log entry 75). -/
def zeroedTenants (s : State) (r : Rim) : List Tenant :=
  (allFin 256).filter (fun t =>
    r.volatile_.any (· = t) || r.revoked.any (· = t) || r.erased.any (· = t) ||
    (!slotLoaded (attrOf s t) && !s.ten.keyloss.any (· = t)) || s.ten.jobs.any (fun j => j.t = t && j.phase = .zeroize))

/-- The record chosen at image derivation (R161, R163). -/
def chosenRim (s : State) : Option Rim :=
  match s.nand.chosen with
  | some q => s.nand.rims.find? (fun r => r.seq = q)
  | none => none

/-- TRIGGER + s x ARG ms of the stake that asked for the restore, s being the active table's stagger index; 0 without one (R274). -/
def streamNotBefore (s : State) : Nat :=
  match s.rst.req.bind (·.stagger) with
  | some p => p.1 + ((activeTable s).map (·.stagger)).getD 0 * p.2 * 1000000
  | none => 0

/-- The short restore's conditions (R164). -/
def shortRestore (s : State) (r : Rim) : Bool :=
  s.aon.cont && r.type = .save && r.cont && !r.partial_ && !r.subskip && !s.aon.stale

/-- T15: the restore takes the DRAM over (R29, R100, R164, R166, R168). -/
def startRestore (s : State) : State :=
  match chosenRim s with
  | none => s
  | some r =>
    let short := shortRestore s r
    let s := { s with
      aon := { s.aon with hold := .restore }
      hp := { s.hp with phase := .switch_ }
      pins := pinsPort s.pins
      rst := { s.rst with
        run := some
          { short := short, rim := r, stale := s.aon.stale, rimfb := s.nand.rimfb, loaded := short, takeoverDone := false
            streaming := false, streamDone := short, zeroDone := false, sreDone := false, committed := none
            written := [], zeroed := zeroedTenants s r, failed := [], older := [], lost := [], zeroCount := 0, imageLost := false
            notBefore := streamNotBefore s } } }
    applyModes s modesSave

/-- Begin the commit of a rim record on both rings (R142). -/
def startRim (s : State) (rim : Rim) (use : RimUse) : State :=
  let copy (d : Die) : RimCopy := { die := d, page := none, programmed := false, passed := false, attempts := 0 }
  let job : RimJob := { rim := rim, use := use, a := copy s.nand.ringA.die, b := copy s.nand.ringB.die, dwell := false }
  { s with nand := { s.nand with rimJob := some job } }

/-- The tenants with a bit in a rim bitmap, by a test on their attribute word. -/
def tenantsWith (s : State) (p : Word → Bool) : List Tenant := (allFin 256).filter (fun t => p (attrOf s t))

/-- A record that carries no image of its own: the fields that every record takes from the state (R140). -/
def blankRim (s : State) (type : RecType) : Rim :=
  let kw := stripe s (usableDies s).length
  { type := type, subskip := false, cont := false, partial_ := false, seq := topSeq s + 1, prevSeq := 0
    warp := s.warp.ns, geom := s.map.geom, grans := 0, plaits := 0, layers := 0
    ndieM1 := (usableDies s).length - 1, cause := .none, k := kw.1, widthM1 := kw.2 - 1, bbtGen := s.nand.bbtGen
    logFirst := 0, usedDies := [], volatile_ := tenantsWith s attrVolatile, revoked := tenantsWith s attrDisabled
    erased := (allFin 256).filter (fun t => attrSlot (attrOf s t) = 3 || s.ten.jobs.any (fun j => j.t = t && j.phase = .proof)), tenants := []
    dirA := none, dirB := none, maps := [], dir := [], ringDies := (s.nand.ringA.die, s.nand.ringB.die), log := none, capTable := []
    tenMap := s.ten.map, attrs := s.ten.attr, layerSeqs := [], baseSeqs := [], base := [], checkpoint := s.nand.groups
    copyA := none, copyB := none }

/-- A record that repeats the directory of an earlier one, with the tenant record of now (R34, R140, R190, R340). A tenant that is no
longer saved leaves its list (R183). -/
def reuseRim (s : State) (type : RecType) (r : Rim) : Rim :=
  { blankRim s type with
    prevSeq := r.seq, geom := r.geom, layers := r.layerSeqs.length, logFirst := r.logFirst, usedDies := r.usedDies, log := r.log
    dirA := r.dirA, dirB := r.dirB, maps := r.maps, dir := r.dir.map (fun t => { t with reused := true })
    capTable := r.capTable, layerSeqs := r.layerSeqs, baseSeqs := r.baseSeqs, base := r.base, tenants := r.tenants.filter (saved s) }

/-! ## Triggers (R27, R31, R42) -/

/-- R175: a trigger after the RESTORED record and before READY = 1. The handback ends where it is, and DQ goes back to the port (R106);
a SAVE record with GRANS = 0 that builds on the RESTORED record closes it. What else that record carries the spec leaves open: the image
and the bitmaps of now (assumption log entry 66). -/
def cutHandback (s : State) (r : RestoreRun) (c : Cause) : State :=
  let s := assertBatsw { s with hp := { s.hp with phase := .idle }, pins := { s.pins with dqswA := true, dqswB := true, port := false } }
  let base := (imageRim s).getD r.rim
  startRim s { reuseRim s .save base with prevSeq := r.committed.getD 0, cause := c } .zeroSave

/-- An unplanned trigger (T5, T7, T8, T10, T17, T20, T22); in SAVE, HELD and DARK it is only logged. In T5 the relation counts as derived
once it has been derived or set since the power-on reset, so a second BOOT keeps the first one's (DESIGN CHOICE, assumption log entry 67). -/
def unplanned (s : State) (c : Cause) : State :=
  let s := logEv { s with aon := { s.aon with trigAt := some s.aon.us } } 0 .trigger c.code
  match s.aon.hold with
  | .boot => enterHeldOrDark s (s.aon.img = .pending || !s.aon.imgKnown)
  | .serve =>
    if s.nand.prov = .running then enterDark s
    else if s.aon.img = .pending then enterHeld s
    else startSave s false c
  | .park =>
    startSave (logEv { s with aon := { s.aon with superseded := some s.aon.cause } } 0 .superseded s.aon.cause.code) false c
  | .restore =>
    match s.rst.run with
    | some r =>
      if s.nand.rimJob.any (fun j => j.use = .zeroSave) then s
      else if r.committed.isSome then cutHandback s r c
      else enterHeld s
    | none => enterHeld s
  | .fault => enterHeldOrDark s (s.aon.img = .pending)
  | .dark | .save | .held => s

/-- HP observes host self-refresh entry (R29, R100): T9 in PARK; T15 in SERVE while a request waits with
`img=PENDING`. -/
def observeSelfRef (s : State) : State :=
  if !allSelfRef s then s
  else if s.aon.hold = .park then startSave s true s.aon.cause
  else if s.aon.hold = .serve ∧ s.rst.req.isSome ∧ s.aon.img = .pending then startRestore s
  else s

/-- The outcome of a planned request (R32-R34, R42, R159). -/
inductive ReqResult
  | accepted | again | noSave | refused (code : Nat)
  deriving DecidableEq, Repr

/-- A planned PARK (T6, R17, R33, R42, R122). ARMED reads 1 at its acceptance (R17): a path that is not armed, as while provisioning runs
(R108, R152), refuses it (assumption log entry 28). -/
def parkRequest (s : State) (c : Cause) : State × ReqResult :=
  match s.aon.hold with
  | .park => (s, .again)
  | .serve =>
    if s.rst.req.isSome then (s, .refused 302)
    else if s.aon.img = .pending then (s, .noSave)
    else if !armed s then (s, .refused 301)
    else
      let s := stopArrays s
      let s := recomputeCover { s with aon := { s.aon with hold := .park, cause := c, superseded := none } }
      let low := s.map.cover ≠ some 7
      let s := if low then sendHoldAlarm { s with aon := { s.aon with parkAlarm := true } } 1 else s
      let s := writeArea { s with bat := { s.bat with stored := s.bat.packRec, storedAt := some s.aon.us } } .pack
      (observeSelfRef s, .accepted)
  | _ => (s, .refused 301)

/-- A RESTORE request (R27, R34, R159, R160). A stake that meets a verb's request lends it its stagger (R277). -/
def restoreRequest (s : State) (source : Cause) (session : Option Sess) (stagger : Option (Nat × Nat)) : State × ReqResult :=
  match s.aon.hold with
  | .park => (s, .refused 302)
  | .serve =>
    if s.aon.img ≠ .pending then (s, .refused 308)
    else if s.rst.req.isSome then
      (match stagger with
        | some _ => { s with rst := { s.rst with req := s.rst.req.map (fun r => { r with stagger := r.stagger.or stagger }) } }
        | none => s, .again)
    else
      match chosenRim s with
      | none => (s, .refused 308)
      | some r =>
        if r.geom ≠ s.map.geom then (s, .refused 309)
        else
          let s := { s with rst := { s.rst with req := some { source := source, session := session, stagger := stagger } } }
          (noteIssue (observeSelfRef s) session .restore, .accepted)
  | _ => (s, .refused 301)

end Sys2Proof.Machine
end

