-- ==== Sys2Proof/Machine/KeyWrap.lean ====
section
/-! DEFINITION. The key wrap of RFC 3394 (R185, R186, R192, R297, R372), over the block cipher that Config leaves open: A stands for the
RFC's integrity register, R for its registers of 64 bits. -/

namespace Sys2Proof.Machine

/-- The 64-bit blocks of a byte string, the first byte highest; a rest of fewer than eight bytes makes none. -/
def blocks64 : List Byte → List DWord
  | a :: b :: c :: d :: e :: f :: g :: h :: t => (a ++ b ++ c ++ d ++ e ++ f ++ g ++ h) :: blocks64 t
  | _ => []

def bytes64 (x : DWord) : List Byte :=
  [x.extractLsb' 56 8, x.extractLsb' 48 8, x.extractLsb' 40 8, x.extractLsb' 32 8, x.extractLsb' 24 8, x.extractLsb' 16 8, x.extractLsb' 8 8,
   x.extractLsb' 0 8]

/-- One step of the wrap: A and a register through the cipher, the step number into A. -/
def wrapStep (kek : List Byte) (t : Nat) (a r : DWord) : DWord × DWord :=
  let b := Config.aesBlock kek (a ++ r)
  (b.extractLsb' 64 64 ^^^ BitVec.ofNat 64 t, b.extractLsb' 0 64)

/-- The step undone. -/
def unwrapStep (kek : List Byte) (t : Nat) (a r : DWord) : DWord × DWord :=
  let b := (Config.aesBlock kek).symm ((a ^^^ BitVec.ofNat 64 t) ++ r)
  (b.extractLsb' 64 64, b.extractLsb' 0 64)

/-- One pass of the wrap over the registers, the steps numbered from `t`. -/
def wrapPass (kek : List Byte) : Nat → DWord → List DWord → DWord × List DWord
  | _, a, [] => (a, [])
  | t, a, r :: l =>
    let x := wrapStep kek t a r
    let y := wrapPass kek (t + 1) x.1 l
    (y.1, x.2 :: y.2)

/-- The pass undone, the last register first. -/
def unwrapPass (kek : List Byte) : Nat → DWord → List DWord → DWord × List DWord
  | _, a, [] => (a, [])
  | t, a, r :: l =>
    let y := unwrapPass kek (t + 1) a l
    let x := unwrapStep kek t y.1 r
    (x.1, x.2 :: y.2)

/-- The first `m` passes over `n` registers. -/
def wrapPasses (kek : List Byte) (n : Nat) : Nat → DWord × List DWord → DWord × List DWord
  | 0, x => x
  | m + 1, x =>
    let y := wrapPasses kek n m x
    wrapPass kek (n * m + 1) y.1 y.2

def unwrapPasses (kek : List Byte) (n : Nat) : Nat → DWord × List DWord → DWord × List DWord
  | 0, x => x
  | m + 1, x => unwrapPasses kek n m (unwrapPass kek (n * m + 1) x.1 x.2)

/-- A key wrapped under a key-encryption key: six passes from A = A6A6A6A6A6A6A6A6h; A stands before the registers. -/
def keyWrap (kek key : List Byte) : List Byte :=
  let r := blocks64 key
  let x := wrapPasses kek r.length 6 (0xA6A6A6A6A6A6A6A6, r)
  (x.1 :: x.2).flatMap bytes64

/-- The key, or none where the wrapped key is no whole number of blocks or the integrity check fails. -/
def keyUnwrap (kek wrapped : List Byte) : Option (List Byte) :=
  match blocks64 wrapped with
  | [] => none
  | a :: r =>
    let x := unwrapPasses kek r.length 6 (a, r)
    if wrapped.length % 8 = 0 ∧ x.1 = 0xA6A6A6A6A6A6A6A6 then some (x.2.flatMap bytes64) else none

end Sys2Proof.Machine
end

