-- ==== Sys2Proof/Machine/Options.lean ====
section
/-! DEFINITION. The option area and the protection block as records of the code flash (R71-R75, R361). -/

namespace Sys2Proof.Machine

/-! ## The option record (R72) -/

/-- Place of a field: byte offset, high and low bit of the 32 bits there. -/
def optPlace : OptKey → Nat × Nat × Nat
  | .nodeId => (0x0C, 9, 0)
  | .keeperCap => (0x0E, 8, 8)
  | .join => (0x0E, 7, 6)
  | .dataRate => (0x0E, 5, 3)
  | .nomRate => (0x0E, 2, 0)
  | .consRate => (0x10, 2, 0)
  | .fallback => (0x12, 1, 1)
  | .bank => (0x12, 0, 0)
  | .enN => (0x14, 9, 2)
  | .enShb => (0x14, 1, 1)
  | .enChg => (0x14, 0, 0)
  | .anonOk => (0x16, 12, 12)
  | .ichg => (0x16, 11, 7)
  | .cells => (0x16, 3, 2)
  | .chem => (0x16, 1, 0)
  | .cfgWp => (0x18, 1, 1)
  | .optWp => (0x18, 0, 0)
  | .arbFloor => (0x1C, 31, 0)

/-- The fields in the order of R72. -/
def optOrder : List OptKey :=
  [.nodeId, .keeperCap, .join, .dataRate, .nomRate, .consRate, .fallback, .bank, .enN, .enShb, .enChg, .anonOk, .ichg
  , .cells, .chem, .cfgWp, .optWp, .arbFloor]

/-- The verb's word for a field (R321). -/
def optName : OptKey → String
  | .nodeId => "node_id"
  | .keeperCap => "keeper_cap"
  | .join => "join"
  | .nomRate => "nom_rate"
  | .dataRate => "data_rate"
  | .consRate => "cons_rate"
  | .fallback => "fallback"
  | .bank => "bank"
  | .enN => "en_n"
  | .enShb => "en_shb"
  | .enChg => "en_chg"
  | .anonOk => "anon_ok"
  | .ichg => "ichg"
  | .cells => "cells"
  | .chem => "chem"
  | .cfgWp => "cfg_wp"
  | .optWp => "opt_wp"
  | .arbFloor => "arb_floor"

/-- The largest code that the field's bits hold. -/
def optMax (k : OptKey) : Nat :=
  let p := optPlace k
  2 ^ (p.2.1 - p.2.2 + 1) - 1

/-- A code that R72 reserves. -/
def optReserved (k : OptKey) (v : Nat) : Bool :=
  match k with
  | .dataRate => v = 7
  | .nomRate => 5 ≤ v
  | .consRate => v = 7
  | .ichg => v = 0 || 21 ≤ v
  | .chem => 2 ≤ v
  | _ => false

/-- The factory default of a field (R72). -/
def optDefault : OptKey → Nat
  | .nodeId => 0x3FF
  | .join => 1
  | .fallback | .enShb | .enChg | .anonOk => 1
  | .enN => 0xFF
  | .ichg => 5
  | _ => 0

def optGet (r : List Byte) (k : OptKey) : Nat :=
  let p := optPlace k
  bitsOf (leAt r p.1 4) p.2.1 p.2.2

/-- Change bytes of a record from an offset. -/
def bytesSet (r : List Byte) (off : Nat) (v : List Byte) : List Byte := r.take off ++ v ++ r.drop (off + v.length)

def optPut (r : List Byte) (k : OptKey) (v : Nat) : List Byte :=
  let p := optPlace k
  let w := leAt r p.1 4
  let old := bitsOf w p.2.1 p.2.2
  bytesSet r p.1 (leBytes 4 (w - old * 2 ^ p.2.2 + v * 2 ^ p.2.2))

/-- Reserved bits: byte offset, high and low bit. -/
def optReservedBits : List (Nat × Nat × Nat) :=
  [(0x06, 15, 0), (0x0C, 15, 10), (0x0E, 15, 9), (0x10, 15, 3), (0x12, 15, 2), (0x14, 15, 10), (0x16, 15, 13)
  , (0x16, 6, 4), (0x18, 31, 2)]

def optReservedSet (r : List Byte) : Bool :=
  optReservedBits.any (fun p => bitsOf (leAt r p.1 4) p.2.1 p.2.2 ≠ 0) || (bytesAt r 0x20 0xDC).any (· ≠ 0)

/-- Seal a record: SEQ and CRC. -/
def optSeal (r : List Byte) (seq : Nat) : List Byte :=
  let r := bytesSet r 0x08 (leBytes 4 seq)
  bytesSet r 0xFC (leBytes 4 (crc32 (r.take 0xFC)).toNat)

/-- The factory record, sealed with SEQ 0. -/
def optFactory : List Byte :=
  optSeal (optOrder.foldl (fun r k => optPut r k (optDefault k))
    (leBytes 4 0x5A484F41 ++ leBytes 4 1 ++ List.replicate 248 0)) 0

/-- The options that a record gives (R74): a reserved code takes its default. -/
def optDecode (r : List Byte) : Options :=
  let g (k : OptKey) : Nat := let v := optGet r k; if optReserved k v then optDefault k else v
  { nodeId := BitVec.ofNat 10 (g .nodeId), keeperCap := g .keeperCap = 1, join := BitVec.ofNat 2 (g .join)
    dataRate := BitVec.ofNat 3 (g .dataRate), nomRate := BitVec.ofNat 3 (g .nomRate), consRate := BitVec.ofNat 3 (g .consRate)
    fallback := g .fallback = 1, bank := if g .bank = 1 then .b else .a, enN := BitVec.ofNat 8 (g .enN)
    enShb := g .enShb = 1, enChg := g .enChg = 1, anonOk := g .anonOk = 1, ichg := BitVec.ofNat 5 (g .ichg)
    cells := BitVec.ofNat 2 (g .cells), chem := BitVec.ofNat 2 (g .chem), cfgWp := g .cfgWp = 1, optWp := g .optWp = 1
    arbFloor := BitVec.ofNat 32 (g .arbFloor) }

/-! ## The two copies (R73) -/

/-- Sector of copy A or B. -/
def optSector (b : Bool) : Nat := if b then 497 else 496
def optCopy (s : State) (b : Bool) : List Byte := flashBytes s (optSector b * 0x4000) 256

/-- A copy whose words all read erased holds nothing. -/
def copyErased (l : List Byte) : Bool := l.all (· = 0xFF)

def optValid (s : State) (b : Bool) : Bool :=
  let r := optCopy s b
  !flashBad s (optSector b * 0x4000) 256 && leAt r 0 4 = 0x5A484F41 && leAt r 4 2 = 1 && leAt r 8 4 ≠ 0xFFFFFFFF &&
  leAt r 0xFC 4 = (crc32 (r.take 0xFC)).toNat

/-- The copy that a load selects: false = A (R73). -/
def optChoice (s : State) : Option Bool :=
  match optValid s false, optValid s true with
  | true, true => some (leAt (optCopy s false) 8 4 < leAt (optCopy s true) 8 4)
  | true, false => some false
  | false, true => some true
  | false, false => none

/-- The record that a load selects, with its SEQ: the factory record when no copy is valid. -/
def optRecord (s : State) : List Byte :=
  match optChoice s with
  | some b => optCopy s b
  | none => optFactory

def optRecordSeq (s : State) : Nat := leAt (optRecord s) 8 4

/-- The option load (R71, R73, R74): the latches take the selected copy; a damaged copy, each reserved code and non-zero
reserved bits are logged. -/
def loadOptions (s : State) : State :=
  let choice := optChoice s
  let r := optRecord s
  let damaged (b : Bool) : Bool := !optValid s b && !copyErased (optCopy s b)
  let s := { s with aon := { s.aon with
      opt := optDecode r, optSeq := leAt r 8 4
      optSel := match choice with
        | some false => .a
        | some true => .b
        | none => .dflt } }
  let s := if damaged false then logEv s 0 .optInvalid 0 else s
  let s := if damaged true then logEv s 0 .optInvalid 1 else s
  let s := if choice.isNone then logEv s 0 .optDefault else s
  let s := ((optOrder.zipIdx).filter (fun p => optReserved p.1 (optGet r p.1))).foldl
    (fun s p => logEv s 0 .optReservedCode p.2) s
  if optReservedSet r then logEv s 0 .optReservedBits else s

/-- The operations of a write of the option area (R75): the copy that a load would not select is erased and verified in
EV-MARGIN, programmed with SEQ + 1, and read back in PV-MARGIN (R359). -/
def optWriteOps (s : State) (r : List Byte) : List CflOp :=
  let n := optSector (match optChoice s with
    | some b => !b
    | none => false)
  [.erase n, .margin n .ev] ++ programOps (n * 0x4000) (optSeal r (optRecordSeq s + 1)) ++ [.margin n .pv]

/-! ## The protection record (R361) -/

def protSector (b : Bool) : Nat := if b then 499 else 498
def protCopy (s : State) (b : Bool) : List Byte := flashBytes s (protSector b * 0x4000) 128

def protValid (s : State) (b : Bool) : Bool :=
  let r := protCopy s b
  !flashBad s (protSector b * 0x4000) 128 && leAt r 0 4 = 0x5A505254 && leAt r 4 2 = 1 && leAt r 8 4 ≠ 0xFFFFFFFF &&
  leAt r 0x7C 4 = (crc32 (r.take 0x7C)).toNat

def protChoice (s : State) : Option Bool :=
  match protValid s false, protValid s true with
  | true, true => some (leAt (protCopy s false) 8 4 < leAt (protCopy s true) 8 4)
  | true, false => some false
  | false, true => some true
  | false, false => none

/-- A protection record. -/
def protRecord (seq : Nat) (map : BitVec 448) (pwd : List Byte) : List Byte :=
  let r := leBytes 4 0x5A505254 ++ leBytes 4 1 ++ leBytes 4 seq ++ leBytes 4 0 ++ leBytes 56 map.toNat ++
    (pwd ++ List.replicate 16 0).take 16 ++ List.replicate 36 0
  r ++ leBytes 4 (crc32 r).toNat

/-- CFL takes the valid record of the higher SEQ when D03 comes up; with none it protects every bank sector and takes the
all-zero password (R361). -/
def loadProtection (s : State) : State :=
  match protChoice s with
  | some b =>
    let r := protCopy s b
    { s with cfl := { s.cfl with prot := BitVec.ofNat 448 (leAt r 0x10 56), pwd := bytesAt r 0x48 16, protSeq := leAt r 8 4
                                 protSel := some (protSector b) } }
  | none =>
    logEv { s with cfl := { s.cfl with prot := BitVec.allOnes 448, pwd := List.replicate 16 0, protSeq := 0, protSel := none } }
      3 .protInvalid

/-- The operations that put a new record into the other sector. -/
def protWriteOps (s : State) (map : BitVec 448) (pwd : List Byte) : List CflOp :=
  let n := match protChoice s with
    | some false => 499
    | _ => 498
  [.erase n, .margin n .ev] ++ programOps (n * 0x4000) (protRecord (s.cfl.protSeq + 1) map pwd) ++ [.margin n .pv]

end Sys2Proof.Machine
end

