-- ==== Sys2Proof/Machine/Firmware.lean ====
section
/-! DEFINITION. Firmware images: headers, splints, the receipt area, stages, the floor, and the management reset (R79, R82,
R83, R350, R362, R369-R381). -/

namespace Sys2Proof.Machine

/-! ## The config store (R349, R356) -/

/-- Size of the config-store sectors that are erased (R356): the second copies, the unwritten ones and the two reserved sectors. -/
def cfgFree (s : State) : Nat :=
  (2 + allAreas.foldl (fun n a =>
    let x := areaOf s a
    let p := a.sectors
    n + (if !x.written then p.1 else 0) + (if x.otherErased then p.2 - p.1 else 0)) 0) * 16384

/-! ## The bit-clear region (R352, R376, R381) -/

/-- A record reads cleared when 32 or more of its bits read 0 (R376). -/
def recordCleared (v : DWord) : Bool := 32 ≤ ((List.range 64).filter (fun i => !v.getLsbD i)).length

/-- Word index of a receipt record at an offset from 0x0078_4000. -/
def receiptWord (off : Nat) : Nat := (0x784000 + off) / 8
def receiptCleared (s : State) (off : Nat) : Bool := recordCleared (wordAt s (receiptWord off))

def recOpen : Nat := 0x0000
def recDigest : Nat := 0x0008
def recVerified : Nat := 0x0040
def recFailed : Nat := 0x0048
def recClosed : Nat := 0x0050
def recErased (sector g : Nat) : Nat := 0x0100 + 0x78 * sector + 0x28 * g
def recReceived (sector g j : Nat) : Nat := recErased sector g + 0x08 * (1 + j)

/-- The thermometer count: the index of the first record that reads set (R381). -/
def thermoCount (s : State) : Nat :=
  ((List.range 2048).find? (fun i => !recordCleared (wordAt s (0x780000 / 8 + i)))).getD 2048

/-- The effective floor (R79). -/
def floorOf (s : State) : Nat := max s.aon.opt.arbFloor.toNat (thermoCount s)

/-! ## Headers (R370, R372) -/

def otherBank : Bank → Bank
  | .a => .b
  | .b => .a
def bankText : Bank → String
  | .a => "A"
  | .b => "B"
/-- First sector of a bank (R345). -/
def bankSector : Bank → Nat
  | .a => 0
  | .b => 224

/-- The target bank of a staging (R369). -/
def targetBank (s : State) : Bank := if recovering s then otherBank s.aon.opt.bank else otherBank s.aon.bank

def hdrOf (s : State) (b : Bank) : List Byte :=
  match b with
  | .a => s.store.hdrA
  | .b => s.store.hdrB
def setHdr (s : State) (b : Bank) (h : List Byte) : State :=
  match b with
  | .a => { s with store := { s.store with hdrA := h } }
  | .b => { s with store := { s.store with hdrB := h } }

def hdrSvn (h : List Byte) : Nat := leAt h 0x0C 2
def hdrLen (h : List Byte) : Nat := leAt h 0x10 4
/-- TOTAL (R370). -/
def hdrTotal (h : List Byte) : Nat := ceilDiv (hdrLen h) 4096
def hdrId (h : List Byte) : List Byte := (Config.sha384 h).take 8
/-- The firmware level as text. -/
def hdrVer (h : List Byte) : String :=
  decText (leAt h 0x0B 1) ++ "." ++ decText (leAt h 0x0A 1) ++ "." ++ decText (leAt h 0x08 2)

/-- The image key (R346, R371). -/
def imageKey (h : List Byte) : Option (List Byte) := keyUnwrap Config.classKey (bytesAt h 0x30 40)
/-- K_splint (R371). -/
def splintKey (h : List Byte) : List Byte := ((imageKey h).map (fun k => (Config.hkdfSha384 k (ascii "ZH-SPLINT")).take 32)).getD []

def hdrMagicOk (h : List Byte) : Bool := leAt h 0 4 = 0x5A465748
def hdrVersionOk (h : List Byte) : Bool := leAt h 4 2 = 1 && hdrSvn h ≤ 2048
/-- This member is the 960 (R370). -/
def hdrFamilyOk (h : List Byte) : Bool := leAt h 6 2 = 0x0960
def hdrSizeOk (h : List Byte) : Bool :=
  let n := hdrLen h
  n % 64 = 0 && 64 ≤ n && n ≤ 3670016 && leAt h 0x14 4 % 4 = 0 && leAt h 0x14 4 < n && leAt h 0x0E 2 < 4 &&
  (bytesAt h 0x24 12).all (· = 0) && (bytesAt h 0x98 0xE8).all (· = 0) && (bytesAt h 0x1E0 32).all (· = 0)
def hdrSignatureOk (h : List Byte) : Bool :=
  Config.ecdsaVerify (leAt h 0x0E 1 % 4) (Config.sha384 (h.take 0x180)) (bytesAt h 0x180 96) && (imageKey h).isSome

/-- The checks of R372 in order: the reason of the first that fails. -/
def hdrReason (s : State) (h : List Byte) : Option Reason :=
  if !hdrMagicOk h then some .magic
  else if !hdrVersionOk h then some .version
  else if !hdrFamilyOk h then some .family
  else if !hdrSizeOk h then some .size
  else if !hdrSignatureOk h then some .signature
  else if hdrSvn h < floorOf s then some .rollback
  else none

/-- The boot ROM's header check (R79). -/
def bootHeaderOk (s : State) (b : Bank) : Bool :=
  let h := hdrOf s b
  hdrMagicOk h && hdrFamilyOk h && hdrSizeOk h && hdrSignatureOk h && floorOf s ≤ hdrSvn h

/-- The bytes of a bank's body. -/
def bankBody (s : State) (b : Bank) (n : Nat) : List Byte := flashBytes s (bankSector b * 0x4000) n
def bankBad (s : State) (b : Bank) (n : Nat) : Bool := flashBad s (bankSector b * 0x4000) n

/-- The body check (R78, R379): the digest over the stored ciphertext, and no uncorrectable word. -/
def bodyDigestOk (s : State) (b : Bank) : Bool :=
  let h := hdrOf s b
  !bankBad s b (hdrLen h) && Config.sha384 (bankBody s b (hdrLen h)) = bytesAt h 0x68 48

/-- The GCM tag (R379). -/
def bodyTagOk (s : State) (b : Bank) : Bool :=
  let h := hdrOf s b
  match imageKey h with
  | some k => Config.gcmTag k (bytesAt h 0x18 12) (h.take 0x58) (bankBody s b (hdrLen h)) = bytesAt h 0x58 16
  | none => false

def Reason.code : Reason → Nat
  | .none => 0
  | .magic => 1
  | .version => 2
  | .family => 3
  | .size => 4
  | .signature => 5
  | .rollback => 6
  | .image => 7
  | .index => 8
  | .length => 9
  | .mac => 10
  | .noHeader => 11
  | .busy => 12
  | .flash => 13

def Reason.text : Reason → String
  | .none => "NONE"
  | .magic => "MAGIC"
  | .version => "VERSION"
  | .family => "FAMILY"
  | .size => "SIZE"
  | .signature => "SIGNATURE"
  | .rollback => "ROLLBACK"
  | .image => "IMAGE"
  | .index => "INDEX"
  | .length => "LENGTH"
  | .mac => "MAC"
  | .noHeader => "NOHEADER"
  | .busy => "BUSY"
  | .flash => "FLASH"

/-! ## Stages (R376, R378) -/

/-- A staging exists (R376). -/
def stagingOpen (s : State) : Bool :=
  receiptCleared s recOpen && !receiptCleared s recClosed &&
  flashBytes s (0x784000 + recDigest) 48 = Config.sha384 (hdrOf s (targetBank s))

/-- The current generation of a bank sector: the highest whose ERASED record is cleared (R376). -/
def generationOf (s : State) (sector : Nat) : Option Nat := [2, 1, 0].find? (fun g => receiptCleared s (recErased sector g))

/-- A splint counts as received (R376). -/
def received (s : State) (idx : Nat) : Bool :=
  match generationOf s (idx / 4) with
  | some g => receiptCleared s (recReceived (idx / 4) g (idx % 4))
  | none => false

def stagedTotal (s : State) : Nat := hdrTotal (hdrOf s (targetBank s))
def stagedGot (s : State) : Nat := ((List.range (stagedTotal s)).filter (received s)).length

inductive Stage | idle | receiving | complete | verified | activating | failed
  deriving DecidableEq, Repr

/-- The stage, derived from the records (R378). -/
def stageOf (s : State) : Stage :=
  if !stagingOpen s then .idle
  else if receiptCleared s recFailed then .failed
  else if receiptCleared s recVerified then (if s.aon.deferred then .activating else .verified)
  else if stagedGot s < stagedTotal s then .receiving
  else .complete

def Stage.code : Stage → Nat
  | .idle => 0
  | .receiving => 1
  | .complete => 2
  | .verified => 3
  | .activating => 4
  | .failed => 5

def Stage.text : Stage → String
  | .idle => "IDLE"
  | .receiving => "RECEIVING"
  | .complete => "COMPLETE"
  | .verified => "VERIFIED"
  | .activating => "ACTIVATING"
  | .failed => "FAILED"

/-- The RECEIPT payload (R375). -/
def receiptBytes (s : State) : List Byte :=
  let st := stageOf s
  let n := if st = .idle then 0 else stagedTotal s
  let got := if st = .idle then 0 else stagedGot s
  let map := (List.range 896).foldl (fun m i => if i < n && !received s i then m + 2 ^ i else m) 0
  [BitVec.ofNat 8 st.code, BitVec.ofNat 8 s.store.reason.code] ++ leBytes 2 got ++ leBytes 2 n ++ [0, 0] ++
    (if st = .idle then List.replicate 8 0 else bytesAt (hdrId (hdrOf s (targetBank s))) 0 8) ++ leBytes 112 map

/-- Send a RECEIPT to the source of the most recent HEADER message (R375). -/
def sendReceipt (s : State) : State :=
  match s.store.distributor with
  | some n =>
    let s' := sendMessage s (makeId 4 2 s.aon.opt.nodeId.toNat n.toNat) (receiptBytes s)
    { s' with store := { s'.store with lastReceipt := s'.aon.us, receiptDue := false } }
  | none => s

def setReason (s : State) (r : Reason) : State := { s with store := { s.store with reason := r } }

/-! ## The management reset (R63, R66, R82, R83) -/

def ResetCause.code : ResetCause → Nat
  | .powerOn => 0
  | .warm => 1
  | .mgmtWatchdog => 2
  | .mgmtRequest => 3
  | .activate => 4

def ResetCause.text : ResetCause → String
  | .powerOn => "POWER_ON"
  | .warm => "WARM"
  | .mgmtWatchdog => "MGMT_WATCHDOG"
  | .mgmtRequest => "MGMT_REQUEST"
  | .activate => "ACTIVATE"

/-- In SAVE MAP receives the last of its queued descriptors before MGMT to MAP, lane 51, is reset (R66): the reset finds none to
discard. -/
def deliverDescriptors (s : State) : State := setLane s 51 (fun l => { l with waiting := [], flight := [], queue := [] })

/-- D02 and every lane that touches it; sessions end; the watchdog is disarmed; the fetch key, the unlock latch and every
unlock clear; code-flash work of the firmware is lost except the operation under way (R63, R83, R346, R362, R390). The cause
and an event are recorded (R82). The boot ROM repeats its checks. -/
def managementReset (s : State) (cause : ResetCause) : State :=
  let s := looseCfl (closeSessions (resetLanesOf (if s.aon.hold = .save then deliverDescriptors s else s) 2))
  let s := { s with
    aon := { s.aon with
      rst := cause, wdArmed := false
      checkpoint := if s.bat.cells = [] then s.aon.checkpoint else some s.bat.cells
      boot := { s.aon.boot with header := false, body := false, firmware := false, trying := s.aon.opt.bank, second := false } }
    mg := { s.mg with running := false, halted := false, announce := true }
    cfl := { s.cfl with key := none, latch := false, fetched := none }
    bat := { s.bat with probe := none }
    map := { s.map with reload := none }
    store := { s.store with verifyWaiters := [] } }
  logEv s 0 .resetDone cause.code

/-- The sessions reopen at VIEW, after a management reset with the notice of its cause (R83, R291). -/
def reopenSessions (s : State) : State :=
  let s := openSessions s
  if s.mg.announce then
    noticeAll { s with mg := { s.mg with announce := false } } (EVT [("rst", .kw s.aon.rst.text)])
  else s

/-! ## Unlocks (R362) -/

/-- The latch stays set while any session holds an unlock. -/
def relatch (s : State) : State := { s with cfl := { s.cfl with latch := s.mg.ses.toList.any (fun q => q.isOpen && q.unlock) } }

/-- End a session's unlock. -/
def dropUnlock (s : State) (k : Sess) : State := relatch (setSes s k (fun q => { q with unlock := false }))

end Sys2Proof.Machine
end

