-- ==== Sys2Proof/Machine/Host.lean ====
section
/-! DEFINITION. The host's DDR5 commands and the host path (R16, R37, R81, R84, R87-R91, R96, R99-R107). -/

namespace Sys2Proof.Machine

/-- What a meaning answers. -/
abbrev Out := Host.Outcome State Fault Refusal

/-- A host command is forwarded exactly while READY = 1 (R37, R89). -/
def onForward (s : State) (f : State → State) : State := if ready s then f s else s

/-- ALERT_L is low (R88, R401). -/
def alertLow (s : State) : Bool :=
  s.pins.alertHeld || (ready s && (!s.pins.qalertA || !s.pins.qalertB || s.pins.parityAlert))

/-! ## Rows -/

def bankKey (sub : Sub) (rank : Rank) (bank : BankAddr) : BankKey := { sub := sub, rank := rank, bank := bank }

def openRow (s : State) (k : BankKey) (row : BitVec 18) : State :=
  { s with hp := { s.hp with rows := put k row s.hp.rows } }

/-- Close the rows that satisfy a test. -/
def closeRows (s : State) (p : BankKey → Bool) : State :=
  { s with hp := { s.hp with rows := s.hp.rows.filter (fun x => !p x.1) } }

/-! ## Writes -/

/-- The snoop record of a granule, unless the recent-index filter holds it (R90). The filter keeps 16 indices; when it is full the oldest
one inserted goes, and a hit changes nothing (DESIGN CHOICE, assumption log entry 68). -/
def snoopGranule (s : State) (g : Nat) : State :=
  if g ∈ s.hp.filter then s
  else snoopPut { s with hp := { s.hp with filter := (g :: s.hp.filter).take 16 } } (.granule g)

/-- A forwarded WRITE (R16, R24, R90, R91, R94): it ends continuity and leaves its data in the granule of the open row. With no
open row, every granule of the bank is marked, and what the bank holds is unknown. Outside the geometry word, or without a valid one, R94
gives no granule: the WRITE marks none and the contents stay (DESIGN CHOICE, assumption log entry 69). -/
def forwardWrite (s : State) (k : BankKey) (data : Nat) : State :=
  let s := { s with aon := { s.aon with cont := false } }
  let w := s.map.geom
  match look k s.hp.rows with
  | some row =>
    if geoValid w ∧ coordOk w (subNum k.sub) k.rank.val k.bank.bg.val k.bank.ba.val row.toNat = true then
      let g := gidxOf w (subNum k.sub) k.rank.val k.bank.bg.val k.bank.ba.val row.toNat
      snoopGranule { s with nand := { s.nand with dram := s.nand.dram.setRange g (g + 1) (.data data) } } g
    else s
  | none =>
    if geoValid w ∧ coordOk w (subNum k.sub) k.rank.val k.bank.bg.val k.bank.ba.val 0 = true then
      let b := bankIndex w (subNum k.sub) k.rank.val k.bank.bg.val k.bank.ba.val * geoPerBank w
      let s := { s with
        nand := { s.nand with dram := s.nand.dram.setRange b (b + geoPerBank w) (.unknown (s.free + 1)) }
        free := s.free + 1 }
      logEv (snoopPut s (.whole k)) 7 .writeNoRow
    else logEv s 7 .writeNoRow

/-- A WRITE command, which WRA and WRPA follow by closing the row (R89). -/
def hostWrite (s : State) (sub : Sub) (rank : Rank) (bank : BankAddr) (data : Nat) (close : Bool) : State :=
  onForward s (fun s =>
    let k := bankKey sub rank bank
    let s := forwardWrite s k data
    if close then closeRows s (· = k) else s)

def execAct (sub : Sub) (rank : Rank) (bank : BankAddr) (row : BitVec 18) (s : State) : Out :=
  .next (onForward s (fun s => openRow s (bankKey sub rank bank) row))

def execWr (sub : Sub) (rank : Rank) (bank : BankAddr) (data : Nat) (s : State) : Out :=
  .next (hostWrite s sub rank bank data false)

def execWra (sub : Sub) (rank : Rank) (bank : BankAddr) (data : Nat) (s : State) : Out :=
  .next (hostWrite s sub rank bank data true)

def execWrp (sub : Sub) (rank : Rank) (bank : BankAddr) (data : Nat) (s : State) : Out :=
  .next (hostWrite s sub rank bank data false)

def execWrpa (sub : Sub) (rank : Rank) (bank : BankAddr) (data : Nat) (s : State) : Out :=
  .next (hostWrite s sub rank bank data true)

/-- A READ is forwarded with no HP action (R89). -/
def execRd (_sub : Sub) (_rank : Rank) (_bank : BankAddr) (s : State) : Out := .next s

def execRda (sub : Sub) (rank : Rank) (bank : BankAddr) (s : State) : Out :=
  .next (onForward s (fun s => closeRows s (· = bankKey sub rank bank)))

def execPreab (sub : Sub) (rank : Rank) (s : State) : Out :=
  .next (onForward s (fun s => closeRows s (fun k => k.sub = sub && k.rank = rank)))

/-- PREsb precharges one bank in every bank group (JESD79-5). -/
def execPresb (sub : Sub) (rank : Rank) (ba : Fin 4) (s : State) : Out :=
  .next (onForward s (fun s => closeRows s (fun k => k.sub = sub && k.rank = rank && k.bank.ba = ba)))

def execPrepb (sub : Sub) (rank : Rank) (bank : BankAddr) (s : State) : Out :=
  .next (onForward s (fun s => closeRows s (· = bankKey sub rank bank)))

def execRefab (_sub : Sub) (_rank : Rank) (s : State) : Out := .next s
def execRefsb (_sub : Sub) (_rank : Rank) (_ba : Fin 4) (s : State) : Out := .next s
def execRfmab (_sub : Sub) (_rank : Rank) (s : State) : Out := .next s
def execRfmsb (_sub : Sub) (_rank : Rank) (_ba : Fin 4) (s : State) : Out := .next s

/-! ## Self-refresh (R89, R100) -/

def enterSelfRef (s : State) (sub : Sub) (rank : Rank) : State :=
  let s := snoopPut s (.selfRefresh sub rank true)
  if (sub, rank) ∈ s.hp.selfRef then s
  else { s with hp := { s.hp with selfRef := s.hp.selfRef ++ [(sub, rank)] } }

def execSre (sub : Sub) (rank : Rank) (s : State) : Out :=
  .next (onForward s (fun s => observeSelfRef (enterSelfRef s sub rank)))

def execSrx (sub : Sub) (rank : Rank) (s : State) : Out :=
  .next (onForward s (fun s =>
    let s := snoopPut s (.selfRefresh sub rank false)
    { s with hp := { s.hp with selfRef := s.hp.selfRef.filter (fun x => x ≠ (sub, rank)) }, nand := { s.nand with dramSr := false } }))

def execPde (_sub : Sub) (_rank : Rank) (s : State) : Out := .next s
def execPdx (_sub : Sub) (_rank : Rank) (s : State) : Out := .next s

/-! ## Mode-register capture (R96, R105) -/

def CapEntry.sameKey (a b : CapEntry) : Bool :=
  match a, b with
  | .rank x, .rank y => x.sub = y.sub && x.rank = y.rank && x.key = y.key
  | .device x, .device y => x.sub = y.sub && x.rank = y.rank && x.key = y.key && x.sel = y.sel
  | _, _ => false

def CapEntry.isDevice : CapEntry → Bool
  | .device _ => true
  | .rank _ => false

/-- Keep the latest value of an entry, as the last written; a new one that finds its kind full is not kept, and a
per-device one then reports `mrcap=OVF` (R96, R105). -/
def capture (s : State) (e : CapEntry) : State :=
  let others := s.hp.capture.filter (fun x => !x.sameKey e)
  let known := others.length < s.hp.capture.length
  let count := (s.hp.capture.filter (fun x => x.isDevice = e.isDevice)).length
  let limit := if e.isDevice then 2048 else 8192
  if known ∨ count < limit then { s with hp := { s.hp with capture := others ++ [e] } }
  else if e.isDevice then logEv { s with hp := { s.hp with mrcapOvf := true } } 7 .captureOvf
  else s

/-- A forwarded MRW, VrefCA or VrefCS: for each rank it selects, per device while a selection is in force (R51, R96). -/
def captureWrite (s : State) (sub : Sub) (ranks : List Rank) (key : MrKey) (value : Byte) : State :=
  ranks.foldl (fun s r =>
    let s := snoopPut s (.capture sub r key value)
    match look (sub, r) s.hp.pda with
    | some sel => capture s (.device { sub := sub, rank := r, key := key, sel := sel, value := value })
    | none => capture s (.rank { sub := sub, rank := r, key := key, value := value })) s

def execMrw (sub : Sub) (ranks : List Rank) (mr : Byte) (value : Byte) (s : State) : Out :=
  .next (onForward s (fun s => captureWrite s sub ranks (.mr mr) value))

def execVrefca (sub : Sub) (ranks : List Rank) (value : Byte) (s : State) : Out :=
  .next (onForward s (fun s => captureWrite s sub ranks .vrefca value))

def execVrefcs (sub : Sub) (ranks : List Rank) (value : Byte) (s : State) : Out :=
  .next (onForward s (fun s => captureWrite s sub ranks .vrefcs value))

/-- A host MRW addressed to the RCD: applied to HP's control-word file, not forwarded (R81, R87). Which words enter and leave the CS and
CA training modes is JESD82-511's to say (Config.rcdTraining). -/
def execRcdControlWordWrite (sub : Sub) (addr : Byte) (value : Byte) (s : State) : Out :=
  .next (onForward s (fun s =>
    let t := match Config.rcdTraining addr value % 4 with
      | 1 => drop sub s.hp.training
      | 2 => put sub .cs s.hp.training
      | 3 => put sub .ca s.hp.training
      | _ => s.hp.training
    { s with hp := { s.hp with rcd := put (sub, addr) value s.hp.rcd, training := t } }))

def execMrr (_sub : Sub) (_rank : Rank) (_mr : Byte) (s : State) : Out := .next s

/-- MPC: the operations that enumerate and select devices for per-DRAM addressability are captured (R89). Their codes are
those of JESD79-5: 0110 and an ID enumerates, 0111 and an ID selects, and ID 15 selects every device (assumption log
entry 11). -/
def execMpc (sub : Sub) (ranks : List Rank) (op : Byte) (s : State) : Out :=
  .next (onForward s (fun s =>
    let code := op.toNat / 16
    let id : Byte := op &&& 0x0F
    ranks.foldl (fun s r =>
      if code = 6 then
        { s with hp := { s.hp with enums := if ((sub, r), id) ∈ s.hp.enums then s.hp.enums else s.hp.enums ++ [((sub, r), id)] } }
      else if code = 7 then
        { s with hp := { s.hp with pda := if id = 15 then drop (sub, r) s.hp.pda else put (sub, r) id s.hp.pda } }
      else s) s))

def execNop (_sub : Sub) (s : State) : Out := .next s
def execDes (_sub : Sub) (s : State) : Out := .next s

/-! ## Faults of the host path -/

/-- A CA parity error (R87, R106): the command is blocked, ALERT_L is raised. -/
def execCaParityError (_sub : Sub) (s : State) : Out :=
  .next (onForward s (fun s =>
    logEv { s with hp := { s.hp with parityErrors := s.hp.parityErrors + 1 }
                   pins := { s.pins with parityAlert := true } } 7 .parityBlocked))

/-- Host DCK absent for more than 2 us while a rank is not in self-refresh (R107). -/
def execHostDckAbsent (s : State) : Out :=
  .next (if ready s && !allSelfRef s then logEv { s with hp := { s.hp with dckAbsent := true } } 7 .dckLost else s)

/-- An uncorrectable dirty-map word: all its 64 bits are set (R107). -/
def damageWord (s : State) (w : Nat) : State :=
  logEv { s with map := { s.map with dirty := rsUnion s.map.dirty (rsInter [(64 * w, 64 * w + 64)] (allGranules s)) } } 8 .mapPoison w

/-- MAP_SNOOP_APPLY: MAP takes the oldest flit of lane 0, up to 15 records, and gives its credit back (R49, R90). The access may meet an
uncorrectable word of the map (R107); whether it does is the memory's, a free value. -/
def execMapSnoopApply (s : State) : Out :=
  .next (if runs s 8 then
    let l := laneOf s 0
    let s := match l.queue ++ l.flight with
      | [] => s
      | f :: _ =>
        packSnoops (setLane (applyFlit s f) 0 (fun l =>
          { l with queue := l.queue.drop 1, flight := if l.queue = [] then l.flight.drop 1 else l.flight
                   credits := min (laneDepth 0) (l.credits + 1) }))
    match Config.badMapWord s.free with
    | some w => damageWord { s with free := s.free + 1 } w
    | none => { s with free := s.free + 1 }
  else s)

/-- QALERT_A_L or QALERT_B_L changes level (R401). -/
def execDramAlert (aHigh bHigh : Bool) (s : State) : Out :=
  .next { s with pins := { s.pins with qalertA := aHigh, qalertB := bHigh } }

/-- The host's reset input (R84): forwarded while READY = 1. At its low level the RCD control words return to their defaults, the
capture set and the continuity flag clear, and TRACK falls to NONE with every dirty bit set. -/
def execDrstL (high : Bool) (s : State) : Out :=
  .next (
    let s := { s with pins := { s.pins with drstHigh := high } }
    if !ready s then s
    else
      let s := { s with pins := { s.pins with qrstHigh := high } }
      if high then s
      else
        let was := s.aon.img
        let s := hostReset s
        if was = .track then recomputeCover s else s)

end Sys2Proof.Machine
end

