-- ==== Sys2Proof/Machine/KeySlots.lean ====
section
/-! DEFINITION. The derived keys and the key slots (R181, R184-R186, R192). -/

namespace Sys2Proof.Machine

/-! ## Derived keys (R184, R185) -/

def deviceRoot : List Byte := (Config.hkdfSha384 Config.fusedSecret []).take 32
def kStore : List Byte := Config.hkdfSha384 deviceRoot (ascii "ZH-KSTORE")
/-- KEK_t. -/
def importKey (otk : List Byte) (t : Tenant) : List Byte :=
  (Config.hmacSha384 otk (ascii "ZH-IMPORT" ++ [BitVec.ofNat 8 t.val])).take 32

/-- The check code of a key: bytes 0-2 of AES-256-ECB of zeros under key 1, as six digits (R186). -/
def kcvOf (key : List Byte) : List Byte := (bytes64 ((Config.aesBlock (key.take 32) 0).extractLsb' 64 64)).take 3
def kcvText (l : List Byte) : String := String.ofList (hexDigits 6 (beNat l))

/-! ## Slots -/

def setSlot (s : State) (t : Tenant) (slot : Nat) : State :=
  let a := attrOf s t
  setAttr s t (makeAttr (attrGen a) (attrClass a) (attrVolatile a) (attrDisabled a) slot)

def slotText (a : Word) : String :=
  match attrSlot a with
  | 0 => "EMPTY"
  | 1 => "IMPORTED"
  | 2 => "GENERATED"
  | _ => "ERASED"

/-- Mark every granule of a tenant dirty. -/
def dirtyTenant (s : State) (t : Tenant) : State := setDirty s (tenantGranules s s.ten.map t)

/-- An erase of the tenant is under way, its proof not committed. -/
def jobOf (s : State) (t : Tenant) : Option EraseJob := s.ten.jobs.find? (fun j => j.t = t)

/-- The erase list of a key-store copy that is written now (R192): the bit of a tenant whose proof has committed is clear. -/
def copyErases (s : State) : List Tenant := s.ten.eraseList.filter (fun x => (jobOf s x).isSome)

/-- A key enters a slot (R181, R186): GEN moves on, the blob is held, the XTS slot is loaded, the tenant's granules are dirty. CLASS, VOLATILE
and DISABLED stay. -/
def placeKey (s : State) (t : Tenant) (slot : Nat) (key : List Byte) : State :=
  let a := attrOf s t
  let gen := attrGen a + 1
  let blob : Blob := { wrapped := keyWrap kStore key, gen := gen, kcv := kcvOf key, crcOk := true, slot := slot }
  let s := setAttr s t (makeAttr gen (attrClass a) (attrVolatile a) (attrDisabled a) slot)
  dirtyTenant { s with ten := { s.ten with
    blobs := upd s.ten.blobs t (fun _ => some blob), loaded := insertFin t s.ten.loaded
    eraseList := copyErases s, keyloss := s.ten.keyloss.filter (fun x => x ≠ t) } } t

/-- A key enters a slot, and the key store has it (R186, R192). -/
def installKey (s : State) (t : Tenant) (slot : Nat) (key : List Byte) : State := writeArea (placeKey s t slot key) .keys

/-- A key made on the die (R181, R186). -/
def drawKey (s : State) (t : Tenant) : State := placeKey { s with free := s.free + 1 } t 2 (bytesAt (Config.drbg s.free 64) 0 64)

def generateKey (s : State) (t : Tenant) : State := writeArea (drawKey s t) .keys

/-- Every slot's first key (R181). A slot that holds one already, as where provisioning is repeated, gets a new one in its place: its GEN
counts on (DESIGN CHOICE, assumption log entry 79). -/
def generateAll (s : State) : State := writeArea ((allFin 256).foldl drawKey s) .keys

end Sys2Proof.Machine
end

