-- ==== Sys2Proof/Machine/Rim.lean ====
section
/-! DEFINITION. Strands on their way to the dies, the tables of a record, the commit of a rim record and what follows it: T12, T13, the
RESTORED, DISCARD, FORMAT and FOLD records (R34, R35, R113-R117, R120, R137, R139-R142, R146, R149, R151, R152, R154, R175, R190). -/

namespace Sys2Proof.Machine

/-! ## Strands on their way (R114, R116, R117, R127) -/

def setSave (s : State) (v : Save) : State := { s with map := { s.map with save := some v } }

/-- A strand that waits for its die begins to load once the die is free (R127): its descriptor names the page at the pointer (R134). A die
without a page left takes no more strands in this save. -/
def wakeDie (s : State) (d : Die) (work : Page → Work) : State × Bool :=
  if !dieFree s d || (dieOf s d).failed then (s, false)
  else match nextPage s d with
    | (s, some p) => (setOp s d (.loading (work p)), true)
    | (s, none) => (setDie s d (fun x => { x with failed := true }), false)

def wakeStrand (acc : State × List Strand) (x : Strand) : State × List Strand :=
  if x.st = .waiting then
    let q := wakeDie acc.1 x.die .strand
    (q.1, acc.2 ++ [if q.2 then { x with st := .loading } else x])
  else (acc.1, acc.2 ++ [x])

def wakePlait (acc : State × List OpenPlait) (p : OpenPlait) : State × List OpenPlait :=
  let q := p.strands.foldl wakeStrand (acc.1, [])
  (q.1, acc.2 ++ [{ p with strands := q.2 }])

def wakeTable (acc : State × List TabStrand) (x : TabStrand) : State × List TabStrand :=
  if x.st = .waiting then
    let q := wakeDie acc.1 x.die .table
    (q.1, acc.2 ++ [if q.2 then { x with st := .loading } else x])
  else (acc.1, acc.2 ++ [x])

/-- A plait with an unfinished strand on a die that is out. -/
def OpenPlait.stuck (s : State) (p : OpenPlait) : Bool := p.strands.any (fun x => x.st ≠ .done && x.st ≠ .busy && (dieOf s x.die).failed)

/-- Plaits are abandoned (R116): what their dies were loading is dropped, an array start already made completes, and their granules are
yielded again. -/
def abandonPlaits (s : State) (v : Save) (gone : OpenPlait → Bool) : State :=
  let out := v.open_.filter gone
  let s := out.foldl (fun s p => p.strands.foldl (fun s x =>
    match (dieOf s x.die).op with
    | .loading (.strand _) | .ready (.strand _) => if x.st = .loading ∨ x.st = .ready then setOp s x.die .idle else s
    | _ => s) s) s
  setSave s { v with open_ := v.open_.filter (fun p => !gone p)
                     todo := out.flatMap (fun p => p.plait.parts.map (fun q => (q.tenant, q.set))) ++ v.todo }

/-- One round over the plaits in order, then over the table strands. -/
def wakeOnce (s : State) : State :=
  let s := match s.map.save with
    | some v =>
      let r := v.open_.foldl wakePlait (s, [])
      let v := { v with open_ := r.2 }
      abandonPlaits r.1 v (OpenPlait.stuck r.1)
    | none => s
  match s.nand.tab with
  | some j =>
    let r := j.strands.foldl wakeTable (s, [])
    { r.1 with nand := { r.1.nand with tab := some { j with strands := r.2 } } }
  | none => s

/-- Strands that wait for their die begin to load once it is free (R127). Dies that an abandoned plait has freed are looked at once more. -/
def wakeStrands (s : State) : State := wakeOnce (wakeOnce s)

/-! ## The tables of a record (R119, R137, R139) -/

/-- The dies of the two directory copies: on different channels where two are in use (R137). -/
def directoryDies (s : State) : Option (Die × Die) :=
  match usableDies s with
  | [] => none
  | a :: t =>
    match t.find? (fun d => dieCh d ≠ dieCh a) with
    | some b => some (a, b)
    | none => some (a, t.headD a)

/-- Begin to write the tables of some types and both copies of the directory, over the usable dies in turn from the one after `last`. -/
def startTables (s : State) (use : RimUse) (types : List Nat) (last : Option Die) : State :=
  match directoryDies s with
  | none => s
  | some ab =>
    let dies := match last with
      | some d => (orderAfter d).filter (usable s)
      | none => usableDies s
    let named := types.flatMap (fun t => (List.range (tabLen s t)).map (fun i => (t, i)))
    let body := named.zipIdx.map (fun x => ({ type := x.1.1, idx := x.1.2, die := dies.getD (x.2 % dies.length) 0, st := .waiting
                                              page := none } : TabStrand))
    let dir (i : Nat) (d : Die) : TabStrand := { type := 0, idx := i, die := d, st := .waiting, page := none }
    wakeStrands { s with nand := { s.nand with tab := some { use := use, strands := body ++ [dir 0 ab.1, dir 1 ab.2] } } }

/-- Every strand of the tables is programmed. -/
def TableJob.complete (j : TableJob) : Bool := j.strands.all (fun x => x.st = .done)

/-- The tables that a job has written. -/
def TableJob.tables (j : TableJob) (n : Nat) (type : Nat) : List TableRef :=
  match j.strands.filter (fun x => x.type = type) with
  | [] => []
  | l => [{ type := type, strands := l.filterMap (·.page), crc := Config.tableCrc (n + type), reused := false }]

def TableJob.directory (j : TableJob) (i : Nat) : Option Page :=
  (j.strands.find? (fun x => x.type = 0 && x.idx = i)).bind (·.page)

/-- A record with the tables of a job: those of types 2 to 8 take the place of the ones it reused, and its layer maps are given. -/
def withTables (s : State) (j : TableJob) (r : Rim) (old : Option Rim) (maps : List TableRef) : Rim :=
  let new := [2, 3, 4, 5, 6, 7, 8].flatMap (j.tables s.free)
  let kept := ((old.map (·.dir)).getD []).filter (fun t => !(new.any (fun x => x.type = t.type)) && (t.type ≠ 8 || 58 < maps.length))
  { r with dirA := j.directory 0, dirB := j.directory 1, maps := maps, dir := kept.map (fun t => { t with reused := true }) ++ new }

/-- The lines of a table directory (R137, R139): up to 58 layer maps stand in it themselves. -/
def Rim.directory (r : Rim) : List TableRef := (if r.maps.length ≤ 58 then r.maps else []) ++ r.dir

/-- A directory line of 16 bytes (R137). -/
def TableRef.bytes (t : TableRef) : List Byte :=
  leBytes 8 ((t.strands.head?.map pageWord).getD 0).toNat ++ leBytes 4 t.crc.toNat ++
    [BitVec.ofNat 8 t.type, if t.reused then 1 else 0] ++ leBytes 2 t.strands.length

/-- The dies that hold strands of a record's image (R140 USED_DIES). -/
def imageDies (s : State) (r : Rim) : List Die :=
  (imageLayers s r).foldl (fun acc l => l.plaits.foldl (fun acc p =>
    ((List.range p.strands.length).filterMap (r.locate l p)).foldl (fun acc g => insertFin g.die acc) acc) acc) []

/-- A bitmap of 32 bytes: bit n in byte n / 8 at n mod 8 (R140). -/
def bitmap (l : List Nat) : List Byte :=
  (List.range 32).map (fun i => BitVec.ofNat 8 ((List.range 8).foldl (fun n b => n + (if l.any (· = 8 * i + b) then 2 ^ b else 0)) 0))

def RecType.code : RecType → Nat
  | .save => 1
  | .fold => 2
  | .restored => 3
  | .discard => 4
  | .format => 5

/-- The 4 KiB of a rim record (R140). -/
def Rim.bytes (r : Rim) : List Byte :=
  let flag (b : Bool) (n : Nat) : Nat := if b then n else 0
  let adr (p : Option Page) : List Byte := leBytes 8 ((p.map pageWord).getD 0).toNat
  let body := leBytes 4 0x5A52494D ++ leBytes 2 1 ++
    [BitVec.ofNat 8 (flag r.subskip 4 + flag r.cont 2 + flag r.partial_ 1), BitVec.ofNat 8 r.type.code] ++
    leBytes 8 r.seq ++ leBytes 8 r.prevSeq ++ leBytes 8 r.warp ++ adr r.dirA ++ adr r.dirB ++ leBytes 4 r.geom.toNat ++
    leBytes 4 r.grans ++ leBytes 4 r.plaits ++ [BitVec.ofNat 8 r.cause.code, BitVec.ofNat 8 r.ndieM1] ++ leBytes 2 r.layers ++
    [0, BitVec.ofNat 8 r.widthM1] ++ leBytes 2 r.k ++ leBytes 4 r.bbtGen ++ leBytes 4 r.logFirst.toNat ++ leBytes 2 r.tenants.length ++
    List.replicate 18 0 ++ bitmap (r.usedDies.map (·.val)) ++ bitmap (r.volatile_.map (·.val)) ++ bitmap (r.revoked.map (·.val)) ++
    bitmap (r.erased.map (·.val)) ++ List.replicate 32 0 ++ bytesAt (r.tenants.map (fun t => BitVec.ofNat 8 t.val)) 0 256 0xFF ++
    List.replicate 3580 0
  body ++ leBytes 4 (crc32c body).toNat

/-! ## Saves -/

/-- The granules in the committed plaits of a save (R113). -/
def Save.committed (v : Save) : RangeSet := v.done.foldl (fun acc p => rsUnion acc p.set) []

/-- The stream ends when every granule is yielded, or no new plait may start, and no plait is open: Pipeline is over and the
Tail begins (R119, R123) with its copy of the log (R340). -/
def saveAdvance (s : State) : State :=
  match s.map.save with
  | none => s
  | some v =>
    if v.phase = .stream ∧ (v.todo = [] ∨ v.stop = true) ∧ v.open_ = [] then
      let v := { v with phase := .tail, partial_ := v.partial_ || !v.todo.isEmpty, ePipe := s.bat.loadJ, logCopy := some s.log.copy }
      startTables (setSave s v) .saveRim
        (tailTypes s) v.lastDie
    else s

/-- No new plait starts from now on (R123, R128, R216). -/
def stopPlaits (s : State) : State :=
  match s.map.save with
  | none => s
  | some v => saveAdvance (setSave s { v with stop := true })

/-- Persist tenants that a save has saved in full, in save order (R124): every dirty granule stands in a committed plait, and none of its
granules lies on a skipped subchannel (R107). A tenant that owns no granule is not listed (DESIGN CHOICE, assumption log entry 70). -/
def savedInFull (s : State) (v : Save) : List Tenant :=
  let done := v.committed
  (saveOrder s).filter (fun t =>
    let mine := tenantGranules s s.ten.map t
    mine ≠ [] && (v.owed.filter (fun p => p.1 = t)).all (fun p => rsDiff p.2 done = []) &&
    v.skips.all (fun x => rsInter mine (subGranules s.map.geom x) = []))

/-- The record of a save (R111, R124, R137, R139, R140). -/
def saveRim (s : State) (v : Save) (j : TableJob) : Rim :=
  let old := if v.full then none else imageRim s
  let below := (old.map (·.layerSeqs)).getD []
  let merged := if 65535 ≤ below.length then below.drop 1 else below
  let maps := j.tables s.free 1 ++
    (((old.map (·.maps)).getD []).drop (if 65535 ≤ below.length then 1 else 0)).map (fun t => { t with reused := true })
  let part := v.partial_ || !v.skips.isEmpty || !v.todo.isEmpty
  let log := if v.logWritten then v.logCopy else none
  let r := withTables s j { blankRim s .save with
    seq := v.seq, prevSeq := (old.map (·.seq)).getD 0, subskip := !v.skips.isEmpty, partial_ := part, cont := s.aon.cont && !part
    grans := rsSize v.committed, plaits := v.done.length, layers := merged.length + 1, cause := s.aon.cause
    logFirst := match log with
      | some l => (match l.entries with
        | e :: _ => e.seq
        | [] => 0)
      | none => 0
    tenants := savedInFull s v, log := log, capTable := s.hp.capture, layerSeqs := v.seq :: merged
    baseSeqs := (old.map (·.baseSeqs)).getD [], base := (old.map (·.base)).getD [] } old maps
  { r with dir := if v.logWritten then r.dir else r.dir.filter (fun t => t.type ≠ 5) }

/-- The layer that a save's record commits (R111). An image of 65,535 layers merges the new map with the newest one (R139): its plaits
take numbers after the new ones. -/
def addLayer (s : State) (v : Save) : State :=
  let old := if v.full then none else imageRim s
  let newest := ((old.map (·.layerSeqs)).getD []).head?.bind (fun q => s.nand.layers.find? (fun l => l.seq = q))
  let below := match newest with
    | some l => if 65535 ≤ ((old.map (·.layerSeqs)).getD []).length then
        l.plaits.map (fun p => { p with no := p.no + v.plaitNo }) else []
    | none => []
  { s with nand := { s.nand with layers := { seq := v.seq, plaits := v.done ++ below } :: s.nand.layers } }

/-- Learned energies after a save (R120), from the integral of modelled load, and the post-save check (R128). -/
def learnEnergy (s : State) (v : Save) (n : Nat) : State :=
  let total := s.bat.loadJ - v.eStart
  let stream := v.eStream - v.eTakeover
  let fixed := total - stream
  let tail := s.bat.loadJ - v.ePipe
  let s := if total > (v.eFix0 + v.eG0 * n) * (12 / 10) then logEv s 8 .saveEnergy else s
  { s with map := { s.map with
      eg := if 10000 ≤ n then s.map.eg + (stream / n - s.map.eg) / 4 else s.map.eg
      eFix := s.map.eFix + (fixed - s.map.eFix) / 4
      eTail := s.map.eTail + (tail - s.map.eTail) / 4 } }

/-! ## What every commit does -/

/-- Layers that no retained record names leave the table of layers (R146, R149). -/
def pruneLayers (s : State) : State :=
  let keep := (retained s).flatMap (fun r => r.layerSeqs ++ r.baseSeqs)
  { s with nand := { s.nand with layers := s.nand.layers.filter (fun l => l.seq ∈ keep) } }

/-- A RETIRING group enters the grown table with its cause (R154). -/
def buryGroup (s : State) (g : Group) : State := addGrown (setGroup s { g with role := .grownBad }) g.cause g.die g.plane g.block

/-- Groups of DELTA and BASE data that no map of the retained records names: ERASE_PENDING (R133, R149). A RETIRING group is retired once
settle has moved its last live page, which a FOLD record shows, or no retained record names it (R154, R157). -/
def reclaim (s : State) (fold : Bool) : State :=
  let s := pruneLayers s
  s.nand.groups.foldl (fun s g =>
    match g.role with
    | .delta | .base => if hasLive s g.die g.block then s else setRole s g.die g.block .erasePending
    | .retiring =>
      let moved := fold && (imageRim s).all (fun r => !namedBy s r g.die g.block)
      if moved || !hasLive s g.die g.block then buryGroup s g else s
    | _ => s) s

/-- Crypto-erases whose proof this record is (R189, R190): the erase ends with its notice. Its erase-list bit goes with the next key-store
copy (R192). -/
def proveErases (s : State) (r : Rim) : State :=
  let due := s.ten.jobs.filter (fun j => j.phase = .proof && r.erased.any (· = j.t))
  let s := due.foldl (fun s j =>
    noticeIssuer (logEv s 11 .eraseProof j.t.val r.seq) j.session (.erase j.t)
      (EVT [("", .kw "erase"), ("tenant", .nat j.t.val), ("rseq", .hex 16 r.seq)])) s
  { s with ten := { s.ten with jobs := s.ten.jobs.filter (fun j => !(due.any (fun d => d.t = j.t))) } }

/-- The record stands in both rings (R142): NAND_DIVERGED clears (R151), erased groups are checkpointed FREE (R157), the
retained records move on. The fields that R140 gives "at commit" are those of this instant. -/
def commitRecord (s : State) (r : Rim) : State :=
  let s := s.nand.erased.foldl (fun s x =>
    let g := groupOf s x.1 x.2
    setGroup s { g with role := .free, erases := g.erases + 1, wp := 0 }) s
  let r := { r with checkpoint := s.nand.groups, warp := s.warp.ns, ndieM1 := (usableDies s).length - 1
                    volatile_ := tenantsWith s attrVolatile, cont := r.cont && s.aon.cont }
  let s := { s with
    nand := { s.nand with
      rims := r :: s.nand.rims, rimJob := none, rimfb := false, erased := []
      bbtTab := if r.dir.any (fun t => t.type = 7 && !t.reused) then (s.nand.bbt, s.nand.bbtGen) else s.nand.bbtTab }
    aon := { s.aon with nandDiverged := false, aonLost := false, failedSave := false } }
  let s := logEv s 8 .rimCommitted r.seq r.type.code
  let s := proveErases s r
  if r.type.image then reclaim s (r.type = .fold) else s

/-- T12 (R31, R113, R124, R125): dirty bits of committed plaits and of volatile tenants clear, the image is pending. A partial record ends
continuity. -/
def commitSave (s : State) (r : Rim) : State :=
  match s.map.save with
  | none => s
  | some v =>
    let vol := (tenantsWith s attrVolatile).foldl (fun acc t => rsUnion acc (tenantGranules s s.ten.map t)) []
    let s := addLayer s v
    let r := { r with usedDies := imageDies s r }
    let s := commitRecord s r
    let s := { s with map := { s.map with dirty := rsDiff (rsDiff s.map.dirty v.committed) vol, save := none }
                      hp := { s.hp with filter := [] }
                      aon := { s.aon with img := .pending, imgKnown := true, stale := false, parkAlarm := false
                                          cont := s.aon.cont && !r.partial_ }
                      nand := { s.nand with chosen := some r.seq } }
    enterHeld (learnEnergy s v r.grans)

/-- T13 (R31, R46, R162): no record can be committed; the earlier record stays restorable and is stale. -/
def saveFails (s : State) (c : FaultCause := .noRimCommit) : State :=
  let old := match s.nand.rims.head? with
    | some r => if r.type.image then some r else none
    | none => none
  let s := { s with aon := { s.aon with failedSave := true, stale := old.isSome, img := if old.isSome then .pending else .none }
                    nand := { s.nand with chosen := old.map (·.seq) } }
  enterFault (logEv s 0 .rimFailed) [c] 13

/-- T18 (R31, R176): the image stays pending. R22 lists a restore that ended in FAULT under NONE; R31 and R176 say of T18 that `img` stays
PENDING, and so does the model (DESIGN CHOICE, assumption log entry 71). -/
def restoreFails (s : State) : State := enterFault (logEv s 0 .restoreDropped) [.restore] 18

/-! ## Other records -/

/-- What the acceptance of a `RESTORE DISCARD` does at once (R35, R56, R175, R326): `img=NONE`, every dirty bit set, a waiting request
dropped. -/
def discardImage (s : State) : State :=
  let s := dropRestore s
  recomputeCover (reseedEg (dropImage { s with aon := { s.aon with stale := false }, nand := { s.nand with chosen := none } }))

/-- Its DISCARD record commits and the answer follows (R309). -/
def commitDiscard (s : State) (r : Rim) (session : Option Sess) : State :=
  answerBusy (commitRecord s r) session .discard (OK [("img", .kw "NONE"), ("rseq", .hex 16 r.seq)])

/-- Provisioning ends with its FORMAT record, and every slot has its first key (R152, R181). -/
def commitFormat (s : State) (r : Rim) : State :=
  let s := generateAll s
  let s := commitRecord s { r with attrs := s.ten.attr, revoked := tenantsWith s attrDisabled }
  recomputeCover (logEv { s with nand := { s.nand with prov := .done } } 8 .provisioned)

/-- Two lines of a base map name the same strand. -/
def BaseRef.same (a b : BaseRef) : Bool := a.seq = b.seq && a.plait = b.plait && a.strand = b.strand

/-- The record of a fold (R139, R146, R148): its base map names the strands that the closing groups hold, and drops those that hold no
current byte. The oldest layers whose live pages all stand in the base leave the delta layers. -/
def foldRim (s : State) (j : TableJob) : Rim :=
  match imageRim s with
  | none => blankRim s .fold
  | some old =>
    let moved := (s.nand.settle.folds.filter (fun f => f.closing)).flatMap (fun f => f.copied)
    let base := old.base.filter (fun x => !(moved.any x.same)) ++ moved
    let r := { reuseRim s .fold old with base := base }
    let live := liveRefs s r
    let base := base.filter (fun x => live.any x.same)
    let left (q : Nat) : Bool := live.any (fun x => x.seq = q && !(base.any x.same))
    let out := old.layerSeqs.reverse.takeWhile (fun q => !left q)
    let stay := old.layerSeqs.take (old.layerSeqs.length - out.length)
    let gone := (out.reverse ++ old.baseSeqs).filter (fun q => base.any (fun x => x.seq = q))
    let maps := (old.maps.take stay.length).map (fun t => { t with reused := true })
    withTables s j { r with base := base, layerSeqs := stay, baseSeqs := gone, layers := stay.length } (some old) maps

/-- A FOLD record commits its groups (R146, R148, PF5): they are BASE. -/
def commitFold (s : State) (r : Rim) : State :=
  let closing := s.nand.settle.folds.filter (fun f => f.closing)
  let s := closing.foldl (fun s f => setRole s f.die f.block .base) s
  let s := { s with nand := { s.nand with settle := { s.nand.settle with folds := s.nand.settle.folds.filter (fun f => !f.closing) } } }
  commitRecord s { r with usedDies := imageDies s r }

/-- The record of a restore commits during handback (R34, R165). -/
def commitRestored (s : State) (r : Rim) : State :=
  let s := commitRecord s r
  match s.rst.run with
  | some run => { s with rst := { s.rst with run := some { run with committed := some r.seq } } }
  | none => s

/-- A SAVE record with GRANS = 0 closes an unplanned trigger during handback (R175): T17 with `img=PENDING`. -/
def commitZero (s : State) (r : Rim) : State :=
  let s := commitRecord s r
  enterHeld { s with aon := { s.aon with img := .pending, imgKnown := true }, nand := { s.nand with chosen := some r.seq } }

/-- The proof of a crypto-erase in SERVE or FAULT with `img` NONE or TRACK (R190): a FOLD record that commits no group and whose only new
table is the tenant record. -/
def startProof (s : State) : State :=
  let due := s.ten.jobs.any (fun j => j.phase = .proof)
  if due ∧ s.nand.rimJob = none ∧ s.nand.tab = none ∧ (s.aon.hold = .serve ∨ s.aon.hold = .fault) ∧ s.aon.img ≠ .pending ∧
      !s.nand.rimDead then startTables s .eraseProof [3] none
  else s

/-- T11: the park ends without a save. A proof that the save would have been is committed now (R190). -/
def endPark (s : State) : State :=
  let s := logEv s 0 .parkEnded
  startProof <| noticeGeneral (enterServe { s with aon := { s.aon with cause := .none } })
    (EVT [("state", .kw "SERVE")])

/-- The proof of a crypto-erase stands with its new tenant record (R190). -/
def proofRim (s : State) (j : TableJob) : Rim :=
  match imageRim s with
  | some r => withTables s j (reuseRim s .fold r) (some r) (r.maps.map (fun t => { t with reused := true }))
  | none => withTables s j (blankRim s .fold) none []

/-- A rim record commits (R142). -/
def rimCommits (s : State) (j : RimJob) : State :=
  let r := { j.rim with copyA := j.a.page, copyB := j.b.page, ringDies := (s.nand.ringA.die, s.nand.ringB.die) }
  match j.use with
  | .saveRim => commitSave s r
  | .restoredRim => commitRestored s r
  | .foldRim => commitFold s r
  | .formatRim => commitFormat s r
  | .discardRim k => commitDiscard s r k
  | .eraseProof => commitRecord s r
  | .zeroSave => commitZero s r

/-- No rim can be written (R44, R127, R176, R190): T13 for a save, T18 for a restore, T17 for the record of R175, and T19
with cause RIM_AREA in SERVE. -/
def rimImpossible (s : State) (use : RimUse) : State :=
  let s := { s with nand := { s.nand with rimJob := none, tab := none } }
  let lost (s : State) : State := unarm { s with nand := { s.nand with rimDead := true } } .rimArea
  match use with
  | .saveRim => saveFails s
  | .restoredRim => restoreFails s
  | .zeroSave => enterHeld { s with aon := { s.aon with img := .pending } }
  | .discardRim k => answerBusy (lost s) k .discard (OK [("img", .kw "NONE"), ("rseq", .kw "none")])
  | .formatRim => lost { s with nand := { s.nand with prov := .never } }
  | .foldRim | .eraseProof => lost s

/-- The tables of a FOLD record or of a proof stand: the rim commit begins (R148, R190). A save's tail ends with its own command. -/
def tablesReady (s : State) : State :=
  match s.nand.tab with
  | none => s
  | some j =>
    if !j.complete then s
    else
      let q := { s with nand := { s.nand with tab := none }, free := s.free + 9 }
      match j.use with
      | .foldRim => startRim q (foldRim s j) .foldRim
      | .eraseProof => startRim q (proofRim s j) .eraseProof
      | _ => s

/-! ## The steps of R142 -/

def ringOf (s : State) (copyB : Bool) : Ring := if copyB then s.nand.ringB else s.nand.ringA
def setRing (s : State) (copyB : Bool) (r : Ring) : State :=
  if copyB then { s with nand := { s.nand with ringB := r } } else { s with nand := { s.nand with ringA := r } }

/-- A ring goes to a die (R136, R141): it begins with the group held back there, and the config store records its place. -/
def placeRing (s : State) (copyB : Bool) (d : Die) : State :=
  let q := startRing (freeRing s (ringOf s copyB)) d
  logEv (writeArea (setRing q.1 copyB q.2) .cfg) 8 .ringMoved d.val

/-- Move one ring (R141): none when no die is left. -/
def moveRing (s : State) (copyB : Bool) : Option State :=
  (relocateTo s (ringOf s copyB).die (ringOf s !copyB).die).map (placeRing s copyB)

/-- Move both rings at once (R127, R141). -/
def moveBoth (s : State) : Option State := (relocatePair s).map (fun p => placeRing (placeRing s false p.1) true p.2)

def freshCopy (d : Die) (attempts : Nat) : RimCopy := { die := d, page := none, programmed := false, passed := false, attempts := attempts }

def setCopy (j : RimJob) (copyB : Bool) (c : RimCopy) : RimJob := if copyB then { j with b := c } else { j with a := c }
def getCopy (j : RimJob) (copyB : Bool) : RimCopy := if copyB then j.b else j.a

/-- A copy starts again, at its ring's die of now. -/
def againCopy (s : State) (copyB : Bool) (attempts : Nat) : State :=
  match s.nand.rimJob with
  | some j =>
    { s with nand := { s.nand with rimJob := some { setCopy j copyB (freshCopy (ringOf s copyB).die attempts) with dwell := false } } }
  | none => s

/-- One copy's ring moves, and the copy is programmed there (R142). -/
def relocateCopy (s : State) (copyB : Bool) : State :=
  match s.nand.rimJob with
  | none => s
  | some j =>
    match moveRing s copyB with
    | some s => againCopy s copyB 0
    | none => rimImpossible s j.use

/-- Both copies' dies have failed: both rings move together (R127, R141). -/
def relocateBoth (s : State) : State :=
  match s.nand.rimJob with
  | none => s
  | some j =>
    match moveBoth s with
    | some s => againCopy (againCopy s false 0) true 0
    | none => rimImpossible s j.use

/-- A copy fails (R142): written again to the next page of its ring, or, at the second attempt, on the die its ring moves
to. The other copy stands. -/
def copyFails (s : State) (j : RimJob) (copyB : Bool) : State :=
  if (getCopy j copyB).attempts = 0 then againCopy s copyB 1 else relocateCopy s copyB

/-- Both copies fail: those at their second attempt move, together if both are. -/
def copiesFail (s : State) (j : RimJob) : State :=
  if j.a.attempts ≠ 0 ∧ j.b.attempts ≠ 0 then relocateBoth s
  else
    let s := copyFails s j false
    match s.nand.rimJob with
    | some j => copyFails s j true
    | none => s

/-- The copies that are still to be programmed take the next page of their rings, once their die is free (R142). A ring without a page
cannot take the copy. -/
def queueCopy (s : State) (copyB : Bool) : State :=
  match s.nand.rimJob with
  | none => s
  | some j =>
    let c := getCopy j copyB
    if c.programmed || c.page.isSome || !dieFree s c.die then s
    else match (ringOf s copyB).next s.nand.profile.wls with
      | some p =>
        setOp { s with nand := { s.nand with rimJob := some (setCopy j copyB { c with page := some p }) } } c.die (.ready (.rim copyB p))
      | none => relocateCopy s copyB

def queueRim (s : State) : State := queueCopy (queueCopy s false) true

/-- A ring's page has taken a copy (R141). -/
def useRingPage (s : State) (copyB : Bool) (seq : Nat) (p : Page) : State :=
  let s := advancePage s p
  setRing s copyB ((ringOf s copyB).advance s.nand.profile.wls seq)

/-- RIM_PROGRAM_DONE (R142). -/
def rimProgramDone (s : State) (copyB pass : Bool) : State :=
  match s.nand.rimJob with
  | none => s
  | some j =>
    let c := getCopy j copyB
    match c.page with
    | none => s
    | some p =>
      if c.programmed ∨ (dieOf s c.die).op ≠ .busy (.rim copyB p) then s
      else
        let s := setOp (useRingPage s copyB j.rim.seq p) c.die .idle
        if pass then
          let j := setCopy j copyB { c with programmed := true }
          { s with nand := { s.nand with rimJob := some { j with dwell := j.a.programmed && j.b.programmed } } }
        else copyFails s j copyB

/-- RIM_DWELL_EXPIRY (R142): the wait ends and the margin reads begin. -/
def rimDwellEnd (s : State) : State :=
  match s.nand.rimJob with
  | none => s
  | some j => { s with nand := { s.nand with rimJob := some { j with dwell := false } } }

/-- A copy passes its margin reads: every read decodes with at most MARGIN_BITS corrected bits and the CRC matches (R142). -/
def marginPasses (p : Profile) : MarginRead → Bool
  | .decoded bits crcOk => bits ≤ p.marginBits && crcOk
  | .failed => false

/-- RIM_MARGIN_READ_DONE (R142): a copy that has passed stands; the rim commits at the instant both have. -/
def rimMarginDone (s : State) (a b : MarginRead) : State :=
  match s.nand.rimJob with
  | none => s
  | some j =>
    if j.dwell || !j.a.programmed || !j.b.programmed then s
    else
      let okA := j.a.passed || marginPasses s.nand.profile a
      let okB := j.b.passed || marginPasses s.nand.profile b
      let j := { j with a := { j.a with passed := okA }, b := { j.b with passed := okB } }
      if okA && okB then rimCommits s j
      else
        let s := { s with nand := { s.nand with rimJob := some j } }
        if okA then copyFails s j true else if okB then copyFails s j false else copiesFail s j

end Sys2Proof.Machine
end

