-- ==== Sys2Proof/Machine/Cfl.lean ====
section
/-! DEFINITION. Code-flash operations one at a time, the writes the firmware makes of them, fetches and scrubs (R75, R347,
R348, R353-R360, R364, R368, R376-R381). -/

namespace Sys2Proof.Machine

/-! ## What each use writes -/

/-- The body words of a splint's place in the target bank: offset and bytes (R369). -/
def splintOff (s : State) (idx : Nat) : Nat := bankSector (targetBank s) * 0x4000 + 4096 * idx

/-- Clear a record: program it to zero (R376). -/
def clearOp (w : Nat) : CflOp := .program w 0

/-- The steps of R377 for an accepted splint, from what the bank holds now. -/
def splintOps (s : State) (idx : Nat) (data : List Byte) : List CflOp :=
  let sector := idx / 4
  let phys := bankSector (targetBank s) + sector
  let off := splintOff s idx
  let write (g : Nat) : List CflOp := programOps off data ++ [.margin phys .pv, clearOp (receiptWord (recReceived sector g (idx % 4)))]
  let wipe (g : Nat) : List CflOp := [.erase phys, .margin phys .ev, clearOp (receiptWord (recErased sector g))]
  match generationOf s sector with
  | none => wipe 0 ++ write 0
  | some g =>
    let now := flashBytes s off 4096
    if now.all (· = 0xFF) && !flashBad s off 4096 then write g
    else if now.take data.length = data && !flashBad s off 4096 then [clearOp (receiptWord (recReceived sector g (idx % 4)))]
    else if g = 2 then [clearOp (receiptWord recFailed)]
    else wipe (g + 1) ++ write (g + 1)

/-- Step 4 of R377 after a program that ended in FAIL or TIMEOUT. -/
def splintRetry (s : State) (idx : Nat) (data : List Byte) : List CflOp :=
  let sector := idx / 4
  let phys := bankSector (targetBank s) + sector
  let g := (generationOf s sector).getD 0
  if 2 ≤ g then [clearOp (receiptWord recFailed)]
  else
    [.erase phys, .margin phys .ev, clearOp (receiptWord (recErased sector (g + 1)))] ++ programOps (splintOff s idx) data ++
      [.margin phys .pv, clearOp (receiptWord (recReceived sector (g + 1) (idx % 4)))]

/-- Sectors that a scrub reads (R360, R321): regions A, B, CFG, BITCLR, OPT and ALL are codes 0 to 5. ALL takes in the protection
block. -/
def scrubSectors (region : Nat) : List Nat :=
  match region with
  | 0 => List.range 224
  | 1 => (List.range 224).map (· + 224)
  | 2 => (List.range 32).map (· + 448)
  | 3 => (List.range 16).map (· + 480)
  | 4 => [496, 497]
  | _ => List.range 500

def regionText : Nat → String
  | 0 => "A"
  | 1 => "B"
  | 2 => "CFG"
  | 3 => "BITCLR"
  | 4 => "OPT"
  | _ => "ALL"

/-- Change the record of options by the keys of one line. -/
def optApply (r : List Byte) (keys : List (OptKey × Nat)) : List Byte := keys.foldl (fun r k => optPut r k.1 k.2) r

def bankCode : Bank → Nat
  | .a => 0
  | .b => 1

/-- A write of the option area would set SEQ to 0xFFFF_FFFF (R75). -/
def optFull (s : State) : Bool := optRecordSeq s + 1 = 0xFFFFFFFF

/-- The job writes the option area. -/
def CflUse.writesOptions : CflUse → Bool
  | .optSet _ | .activate _ => true
  | _ => false

/-- The operations of a job, laid out when it reaches the head, and the state with what its start does. -/
def planOps (s : State) (use : CflUse) : State × List CflOp :=
  match use with
  | .optSet keys => (s, optWriteOps s (optApply (optRecord s) keys))
  | .protect first last on =>
    let map := (List.range 448).foldl (fun m n => if first ≤ n ∧ n ≤ last then (if on then m ||| (1#448 <<< n) else m &&& ~~~(1#448 <<< n)) else m) s.cfl.prot
    (s, protWriteOps s map s.cfl.pwd)
  | .password pwd => (s, protWriteOps s s.cfl.prot pwd)
  | .scrub region => ({ s with cfl := { s.cfl with scrubbed := 0, scrubWeak := 0, refreshed := 0, scrubFound := [] } },
      (scrubSectors region).flatMap (fun n => [.margin n .pv, .margin n .ev]))
  | .splint idx data => (s, splintOps s idx data)
  | .openStaging hdr =>
    let digest := Config.sha384 hdr
    (s, [.erase 481, .erase 482] ++ (List.range 6).map (fun i => .program (receiptWord (recDigest + 8 * i)) (BitVec.ofNat 64 (leAt digest (8 * i) 8)))
        ++ [clearOp (receiptWord recOpen)])
  | .verdict pass => (s, [clearOp (receiptWord (if pass then recVerified else recFailed))])
  | .abort => (s, [clearOp (receiptWord recClosed)])
  | .activate _ =>
    (s, optWriteOps s (optApply (optRecord s) [(.bank, bankCode (targetBank s))]) ++ [clearOp (receiptWord recClosed)])
  | .thermo =>
    let n := thermoCount s
    (s, (List.range (hdrSvn (hdrOf s s.aon.bank) - n)).map (fun i => clearOp (0x780000 / 8 + n + i)))
  | .refresh | .loose => (s, [])

/-! ## How a job ends -/

def CflStatus.text : CflStatus → String
  | .ok => "OK"
  | .fail => "FAIL"
  | .progConflict => "PROG_CONFLICT"
  | .protected_ => "PROTECTED"
  | .timeout => "TIMEOUT"

/-- 506 with its fields (R356). -/
def flashErr (st : CflStatus) (pulses : Nat) : Line := ERR 506 [("status", .kw st.text), ("pulses", .nat pulses)]

/-- The fields of a header's answer (R372). -/
def stageFields (s : State) : List (String × Val) :=
  let h := hdrOf s (targetBank s)
  [("stage", .kw (stageOf s).text), ("ver", .kw (hdrVer h)), ("total", .nat (hdrTotal h))]

/-- A job joins the queue, in order of acceptance (R326, R357). -/
def pushJob (s : State) (use : CflUse) (session : Option Sess) : State :=
  let j : CflJob := { use := use, session := session, planned := false, ops := [], redo := [], retried := false }
  { s with cfl := { s.cfl with jobs := s.cfl.jobs ++ [j] } }

def isScrub (j : CflJob) : Bool :=
  match j.use with
  | .scrub _ => true
  | _ => false

/-- An activation of a VERIFIED image (R322, R380): the floor again, then at once in SERVE, FAULT and the recovery set, deferred until
SERVE elsewhere. The session is busy with it. -/
def activateReq (s : State) (k : Sess) : State :=
  if hdrSvn (hdrOf s (targetBank s)) < floorOf s then
    pushJob (answerBusy s (some k) .activate (ERR 505)) (.verdict false) none
  else if optFull s then answerBusy s (some k) .activate (ERR 402)
  else if recovering s then pushJob s (.activate true) (some k)
  else if s.aon.hold = .serve ∨ s.aon.hold = .fault then pushJob s (.activate false) (some k)
  else
    let s := sendReceipt { s with aon := { s.aon with deferred := true } }
    answerBusy s (some k) .activate (OK [("bank", .kw (bankText (targetBank s))), ("effective", .kw "SERVE")])

/-- The activation's last act (R80, R380): in the recovery set the image waits for RESET WARM; otherwise the management reset. -/
def finishActivation (s : State) (session : Option Sess) (recovery : Bool) : State :=
  let bank := bankText (targetBank s)
  let s := { s with aon := { s.aon with deferred := false, activated := true } }
  if recovery then
    sendReceipt (answerBusy s session .activate (OK [("bank", .kw bank), ("effective", .kw "WARM")]))
  else
    let s := sendReceipt (answerBusy s session .activate (OK [("bank", .kw bank), ("effective", .kw "NOW")]))
    let b := targetBank s
    managementReset { s with aon := { s.aon with opt := { s.aon.opt with bank := b, fallback := optGet (optRecord s) .fallback = 1 } } } .activate

/-- A job whose operations have all ended OK. -/
def finishJob (s : State) (j : CflJob) : State :=
  match j.use with
  | .optSet _ =>
    answerBusy s j.session .flashJob (OK [("optseq", .nat (optRecordSeq s)), ("effective", .kw "BOOT")])
  | .protect first last on =>
    answerBusy (loadProtection s) j.session .flashJob (OK [("first", .nat first), ("last", .nat last), ("state", boolVal on)])
  | .password _ => answerBusy (loadProtection s) j.session .flashJob (OK [("prot", .kw "UNLOCKED")])
  | .scrub region =>
    answerBusy s j.session .flashJob
      (OK [("region", .kw (regionText region)), ("checked", .nat s.cfl.scrubbed), ("weak", .nat s.cfl.scrubWeak)
        , ("refreshed", .nat s.cfl.refreshed)])
  | .splint idx _ =>
    if receiptCleared s recFailed then
      sendReceipt (logEv (answerBusy s j.session .flashJob (flashErr s.cfl.status s.cfl.pulses)) 3 .genExhausted)
    else
      let s := answerBusy s j.session .flashJob
        (OK [("idx", .nat idx), ("got", .nat (stagedGot s)), ("total", .nat (stagedTotal s))])
      let s := { s with store := { s.store with receiptDue := true } }
      if stageOf s = .complete then sendReceipt s else s
  | .openStaging _ => sendReceipt (answerBusy (setReason s .none) j.session .flashJob (OK (stageFields s)))
  | .verdict pass =>
    let s := sendReceipt (if pass then s else logEv s 3 .verifyFail)
    let waiting := s.store.verifyWaiters
    let s := { s with store := { s.store with verifyWaiters := [] } }
    if pass then waiting.foldl activateReq s else waiting.foldl (fun s k => answerBusy s (some k) .activate (ERR 505)) s
  | .abort =>
    sendReceipt (answerBusy { s with aon := { s.aon with deferred := false } } j.session .flashJob (OK [("stage", .kw (stageOf s).text)]))
  | .activate recovery => finishActivation s j.session recovery
  | .thermo => { s with aon := { s.aon with activated := false } }
  | .refresh => if (protChoice s).map protSector = s.cfl.protSel then s else loadProtection s
  | .loose => s

/-- A job that ends in a status other than OK (R356, R368, R377, R385). -/
def failJob (s : State) (j : CflJob) (st : CflStatus) (pulses : Nat) : State :=
  match j.use with
  | .optSet _ | .protect _ _ _ | .password _ | .scrub _ | .abort => answerBusy s j.session .flashJob (flashErr st pulses)
  | .splint _ _ =>
    let s := answerBusy s j.session .flashJob (if st = .protected_ then ERR 506 [("status", .kw st.text)] else flashErr st pulses)
    if j.session.isNone then setReason s .flash else s
  | .openStaging _ => sendReceipt (setReason (answerBusy s j.session .flashJob (flashErr st pulses)) .flash)
  | .verdict _ => s.store.verifyWaiters.foldl (fun s k => answerBusy s (some k) .activate (flashErr st pulses))
      { s with store := { s.store with verifyWaiters := [] } }
  | .activate _ => answerBusy s j.session .activate (flashErr st pulses)
  | .thermo => logEv s 3 .thermoFail
  | .refresh =>
    let scrubs := s.cfl.jobs.filter isScrub
    scrubs.foldl (fun s x => answerBusy s x.session .flashJob (flashErr st pulses))
      { s with cfl := { s.cfl with jobs := s.cfl.jobs.filter (fun x => !isScrub x) } }
  | .loose => s

/-- A queued write of the option area that finds the sequence exhausted when its turn comes is refused then (R75). -/
def refuseFull (s : State) (j : CflJob) : State :=
  answerBusy s j.session (match j.use with
    | .activate _ => .activate
    | _ => .flashJob) (ERR 402)

/-- Lay out the job at the head; one without operations ends at once. -/
def pumpJobs : Nat → State → State
  | 0, s => s
  | n + 1, s =>
    match s.cfl.jobs with
    | [] => s
    | j :: rest =>
      if j.planned then
        (if j.ops = [] then pumpJobs n (finishJob { s with cfl := { s.cfl with jobs := rest } } j) else s)
      else if j.use.writesOptions && optFull s then pumpJobs n (refuseFull { s with cfl := { s.cfl with jobs := rest } } j)
      else
        let q := planOps s j.use
        if q.2 = [] then pumpJobs n (finishJob { q.1 with cfl := { q.1.cfl with jobs := rest } } j)
        else { q.1 with cfl := { q.1.cfl with jobs := { j with planned := true, ops := q.2, redo := q.2 } :: rest } }

/-- Lay out what the queue now begins with. -/
def pump (s : State) : State := pumpJobs (s.cfl.jobs.length + 4) s

def startJob (s : State) (use : CflUse) (session : Option Sess) : State := pump (pushJob s use session)

/-! ## Fetches (R346-R348, R368) -/

def xorBytes : List Byte → List Byte → List Byte
  | a :: t, b :: u => (a ^^^ b) :: xorBytes t u
  | l, [] => l
  | [], _ => []

/-- A 64-byte line of the running bank, decrypted in counter mode (R347). -/
def decryptLine (s : State) (b : Bank) (o : Nat) : List Byte :=
  let h := hdrOf s b
  let raw := flashBytes s (bankSector b * 0x4000 + o) 64
  (List.range 4).flatMap (fun i =>
    xorBytes ((raw.drop (16 * i)).take 16) (Config.aesCtr ((imageKey h).getD []) (bytesAt h 0x18 12) (2 + (o + 16 * i) / 16)))

/-- The area of a config-store sector (R349). -/
def areaAt (n : Nat) : Option Area :=
  if n < 452 then some .keys
  else if n < 458 then some .ten
  else if n < 462 then some .gbbt
  else if n < 466 then some .fbbt
  else if n < 468 then some .cfg
  else if n < 470 then some .sec
  else if n < 472 then some .hdr
  else if n < 474 then some .pack
  else if n < 476 then some .rep
  else if n < 478 then some .time
  else none

/-- First sector of an area. -/
def Area.first : Area → Nat
  | .keys => 448
  | .ten => 452
  | .gbbt => 458
  | .fbbt => 462
  | .cfg => 466
  | .sec => 468
  | .hdr => 470
  | .pack => 472
  | .rep => 474
  | .time => 476

/-- A copy of an area (R350): its header and its content. The content stands in the state's own fields; how the bytes of it are laid out
is a free value (assumption log entry 21). -/
def copyByte (a : Area) (seq o : Nat) : Byte :=
  let room := a.sectors.1 * 0x4000 - 32
  let len := Config.areaLen a.code seq % (room + 1)
  let content := (List.range len).map (Config.areaByte a.code seq)
  let header := leBytes 4 0x5A434653 ++ leBytes 4 a.code ++ leBytes 8 seq ++ leBytes 4 len ++ leBytes 4 (crc32c content).toNat ++
    List.replicate 8 0
  (header ++ content).getD o 0xFF

/-- A byte of the config store: the current copy of its area, the copy before it where that is not erased yet, or an erased one. -/
def areaCell (s : State) (i : Nat) : Byte :=
  match areaAt (i / 0x4000) with
  | none => 0xFF
  | some a =>
    let x := areaOf s a
    let o := i - a.first * 0x4000
    let size := a.sectors.1 * 0x4000
    if !x.written then 0xFF
    else if a = .fbbt ∨ (o / size = 1) = (x.second = true) then copyByte a x.seq (o % size)
    else if x.otherErased then 0xFF
    else copyByte a (x.seq - 1) (o % size)

/-- A data read returns the stored bytes; in the protection block, the PROT bitmap and zeros in place of the password; reserved
sectors read all ones (R345, R348). -/
def dataLine (s : State) (a : Nat) : List Byte :=
  if 500 * 0x4000 ≤ a then List.replicate 64 0xFF
  else if 448 * 0x4000 ≤ a ∧ a < 480 * 0x4000 then (List.range 64).map (fun i => areaCell s (a + i))
  else
    let raw := flashBytes s a 64
    if a / 0x4000 = 498 ∨ a / 0x4000 = 499 then
      (raw.zipIdx).map (fun p =>
        let i := a % 0x4000 + p.2
        if 0x48 ≤ i ∧ i < 0x58 then 0
        else if 0x10 ≤ i ∧ i < 0x48 then BitVec.ofNat 8 (s.cfl.prot.toNat / 2 ^ (8 * (i - 0x10)))
        else p.1)
    else raw

/-- What a read finds: a line of 64 bytes, a fetch fault, or a poisoned line. -/
def fetchLine (s : State) (kind : FetchKind) (addr : Nat) : FetchResult :=
  let a := addr / 64 * 64
  match kind with
  | .instruction =>
    match s.cfl.key with
    | none => .fault
    | some b =>
      let base := bankSector b * 0x4000
      if a < base ∨ base + 224 * 0x4000 ≤ a then .fault
      else if flashBad s a 64 then .poison
      else .line (decryptLine s b (a - base))
  | .dataRead => if flashBad s a 64 then .poison else .line (dataLine s a)

/-- Deliver one read; how many errors its ECC corrected is the array's, a free value (R345). A poisoned
instruction line halts the core (R368). -/
def deliver (s : State) (kind : FetchKind) (addr : Nat) : State :=
  let r := fetchLine s kind addr
  let s := { s with cfl := { s.cfl with fetched := some r, corrected := s.cfl.corrected + Config.correctedErrors s.free }, free := s.free + 1 }
  match r with
  | .poison =>
    let s := logEv s 3 .fetchFault (addr / 64 * 64)
    if kind = .instruction then { s with mg := { s.mg with halted := true } } else s
  | _ => s

/-- The end of an operation lets the waiting reads through (R357). -/
def releaseReads (s : State) : State :=
  let l := s.cfl.waiting
  l.foldl (fun s p => deliver s p.1 p.2) { s with cfl := { s.cfl with waiting := [] } }

/-! ## The end of an operation -/

def replaceHead (s : State) (j : CflJob) : State :=
  { s with cfl := { s.cfl with jobs := match s.cfl.jobs with
      | _ :: t => j :: t
      | [] => [] } }

/-- The header of a staging goes into its HDR slot once sectors 481 and 482 are erased, before DIGEST (R376). -/
def stageHeader (s : State) (j : CflJob) : State :=
  match j.use, j.ops with
  | .openStaging hdr, .erase 482 :: _ => writeArea (setHdr s (targetBank s) hdr) .hdr
  | _, _ => s

/-- An operation ends with a status (R356, R368): the next one follows; a FAIL or TIMEOUT lets the write be made once more; a splint
goes to step 4 of R377. With a warm reset due, nothing follows (R85). -/
def endOp (s : State) (st : CflStatus) (pulses : Nat) : State :=
  let s := { s with cfl := { s.cfl with status := st, pulses := pulses } }
  match s.cfl.jobs with
  | [] => s
  | j :: rest =>
    if s.cfl.warmDue then { s with cfl := { s.cfl with jobs := [] } } else
    let popped := { s with cfl := { s.cfl with jobs := rest } }
    let wasProgram := match j.ops with
      | .program _ _ :: _ => true
      | .margin _ _ :: _ => true
      | _ => false
    let s := match st with
      | .ok => if j.ops.length ≤ 1 then finishJob popped j else replaceHead (stageHeader s j) { j with ops := j.ops.tail }
      | .fail | .timeout =>
        match j.use with
        | .splint idx data =>
          if wasProgram then replaceHead s { j with ops := splintRetry s idx data }
          else if j.retried then failJob popped j st pulses
          else replaceHead s { j with retried := true }
        | _ => if j.retried || j.redo = [] then failJob popped j st pulses else replaceHead s { j with ops := j.redo, retried := true }
      | _ => failJob popped j st pulses
    releaseReads (pump s)

/-- The soft warning (R354, R355) and `maxpulse=`. -/
def notePulses (s : State) (isProgram : Bool) (addr pulses : Nat) : State :=
  let level := if isProgram then 8 else 5
  let s := if isProgram then { s with cfl := { s.cfl with maxpulse := max s.cfl.maxpulse pulses } } else s
  if level ≤ pulses then logEv { s with cfl := { s.cfl with warn8 := s.cfl.warn8 + 1 } } 3 .flashWarn addr pulses else s

/-- A word program ends (R353, R354): refused without a pulse, verified, or FAIL after 12 pulses. -/
def programEnds (pulses : Nat) (pass : Bool) (s : State) : State :=
  match currentOp s with
  | some (.program w v) =>
    if programRefused s w then endOp s .protected_ 0
    else if programConflict s w v then endOp s .progConflict 0
    else
      let s := notePulses (advanceCount s w) true (8 * w) pulses
      if pass then endOp (setWord s w v) .ok pulses
      else endOp (logEv (spoilWord s w) 3 .flashFail (8 * w) pulses) .fail pulses
  | _ => s

/-- A sector erase ends (R345, R352, R355). -/
def eraseEnds (pulses : Nat) (pass : Bool) (s : State) : State :=
  match currentOp s with
  | some (.erase n) =>
    if eraseRefused s n then endOp s .protected_ 0
    else
      let s := notePulses s false (n * 0x4000) pulses
      if pass then endOp (wipeSector s n) .ok pulses
      else endOp (logEv (spoilSector s n) 3 .flashFail (n * 0x4000) pulses) .fail pulses
  | _ => s

/-- The operation timer expires (R358, R364). -/
def operationExpires (s : State) : State :=
  match currentOp s with
  | some (.program w v) =>
    if programRefused s w then endOp s .protected_ 0
    else if programConflict s w v then endOp s .progConflict 0
    else endOp (logEv (spoilWord (advanceCount s w) w) 3 .flashTimeout (8 * w)) .timeout 0
  | some (.erase n) =>
    if eraseRefused s n then endOp s .protected_ 0
    else endOp (logEv (spoilSector s n) 3 .flashTimeout (n * 0x4000)) .timeout 0
  | _ => s

/-! ## Scrubbing (R360) -/

/-- The sector belongs to the current copy of its area. -/
def inCurrentCopy (s : State) (a : Area) (n : Nat) : Bool :=
  let x := areaOf s a
  x.written && (a = .fbbt || ((n - a.first) / a.sectors.1 = 1) = x.second)

/-- Erase a sector again (R359, R360). -/
def wipeOps (n : Nat) : List CflOp := [.erase n, .margin n .ev]

/-- Erase a sector and program again what it held, corrected. -/
def rewriteOps (s : State) (n : Nat) : List CflOp :=
  wipeOps n ++ ((s.cfl.words.filter (fun p => p.1 / sectorWords = n)).map (fun p => .program p.1 p.2)) ++ [.margin n .pv]

/-- The session of a scrub holds an unlock (R360, R362). -/
def unlocked (s : State) (session : Option Sess) : Bool :=
  match session with
  | some k => (getSes s k).unlock
  | none => false

/-- What a weak sector leads to (R360): the refreshed state, and the operations that follow. A sector under protection is refreshed only
under an unlock of the scrub's session, and the selected option sector only while its sequence can go on (R75). -/
def refreshSector (s : State) (session : Option Sess) (n : Nat) : State × List CflOp :=
  let count (s : State) : State := { s with cfl := { s.cfl with refreshed := s.cfl.refreshed + 1 } }
  if n < 448 then
    let b : Bank := if n < 224 then .a else .b
    if s.cfl.key = some b ∨ s.aon.bank = b ∧ s.mg.running = true ∨ (s.cfl.prot.getLsbD n && !unlocked s session) = true then (s, [])
    else
      let s := count s
      (if bodyDigestOk s b then s else logEv s 3 .digestMismatch, rewriteOps s n)
  else if n < 480 then
    match areaAt n with
    | some a => if inCurrentCopy s a n then (writeArea (count s) a, []) else (count s, wipeOps n)
    | none => (count s, wipeOps n)
  else if n < 496 then (s, [])
  else if n < 498 then
    if optChoice s = some (decide (n = 497)) then (if optFull s then (s, []) else (count s, optWriteOps s (optRecord s))) else (count s, wipeOps n)
  else if n < 500 then
    if s.cfl.protSel = some n then (count s, protWriteOps s s.cfl.prot s.cfl.pwd) else (count s, wipeOps n)
  else (s, [])

/-- Words that a verifying margin read is about: after a program those of the splint, of all the sector otherwise. -/
def marginMatters (s : State) (use : CflUse) (mode : ReadMode) (n w : Nat) : Bool :=
  match use, mode with
  | .splint idx _, .pv => splintOff s idx / 8 ≤ n * sectorWords + w && n * sectorWords + w < splintOff s idx / 8 + 512
  | _, _ => true

/-- A scrub has read a sector in both margin modes (R360): its weak words are those that either read found. The refresh and the writes of
others run before the next sector (R367). -/
def scrubSector (s : State) (j : CflJob) (n : Nat) (rest : List CflOp) (weak : List Nat) : State :=
  let all := weak.foldl (fun l w => insertNat w l) s.cfl.scrubFound
  let s := { s with cfl := { s.cfl with scrubbed := s.cfl.scrubbed + sectorWords, scrubWeak := s.cfl.scrubWeak + all.length, scrubFound := [] } }
  let q := if all = [] then (s, []) else refreshSector s j.session n
  let fix : List CflJob := if q.2 = [] then []
    else [{ use := .refresh, session := none, planned := true, ops := q.2, redo := q.2, retried := false }]
  let others := q.1.cfl.jobs.tail
  if rest = [] ∧ fix = [] then finishJob { q.1 with cfl := { q.1.cfl with jobs := others } } j
  else { q.1 with cfl := { q.1.cfl with jobs := fix ++ others ++ [{ j with ops := rest }] } }

/-- MARGIN_READ_DONE (R359, R360): a scrub counts and refreshes; after a write or an erase, a weak word fails the write as FAIL does
(R350, R368). Words are numbered within the sector. -/
def execMarginReadDone (weak : List Nat) (s : State) : Out :=
  .next (match s.cfl.jobs with
    | j :: _ =>
      match j.ops with
      | .margin n mode :: rest =>
        let s := { s with cfl := { s.cfl with weak := weak.foldl (fun l w => insertNat (n * sectorWords + w) l) s.cfl.weak } }
        match j.use with
        | .scrub _ =>
          let s := { s with cfl := { s.cfl with status := .ok } }
          releaseReads (pump (match mode with
            | .pv => replaceHead { s with cfl := { s.cfl with scrubFound := weak.foldl (fun l w => insertNat w l) [] } } { j with ops := rest }
            | .ev => scrubSector s j n rest weak))
        | use =>
          if weak.any (marginMatters s use mode n) then endOp (logEv s 3 .flashFail (n * 0x4000)) .fail 0 else endOp s .ok 0
      | _ => s
    | [] => s)

/-! ## FLASH_FETCH -/

/-- FLASH_FETCH (R347, R348, R357): a read waits while an operation runs; D03 answers only while it is ON. -/
def execFlashFetch (kind : FetchKind) (addr : Nat) (s : State) : Out :=
  .next (if !isOn s 3 then s
    else if (currentOp s).isSome then { s with cfl := { s.cfl with waiting := s.cfl.waiting ++ [(kind, addr)] } }
    else deliver s kind addr)

end Sys2Proof.Machine
end

