-- ==== Sys2Proof/Machine/VerbBase.lean ====
section
/-! DEFINITION. What every verb shares: privilege, states, the order of refusals, guarded writes (R288, R295, R305, R351,
R435). -/

namespace Sys2Proof.Machine

/-- The hold states of R305's abbreviations. -/
def SV : HoldState := .serve
def PK : HoldState := .park
def SA : HoldState := .save
def RS : HoldState := .restore
def FT : HoldState := .fault
/-- "All": the six states with sessions. -/
def anyState : List HoldState := [.boot, .serve, .park, .save, .restore, .fault]

def Priv.rank : Priv → Nat
  | .view => 0
  | .run => 1
  | .keep => 2

def Priv.text : Priv → String
  | .view => "VIEW"
  | .run => "RUN"
  | .keep => "KEEP"

/-- The refusal of a line below the verb's level (R295). -/
def privError (s : State) (k : Sess) (need : Priv) : Option Nat :=
  if need.rank ≤ (getSes s k).priv.rank then none
  else match need with
    | .keep => some 202
    | _ => some 201

/-- The first refusal that applies, in the order given. -/
def firstOf : List (Bool × Nat) → Option Nat
  | [] => none
  | (b, c) :: t => if b then some c else firstOf t

/-- A verb's frame (R435): privilege, 206 for a form restricted to S0, the states, then the verb's own refusals in order, then its
effect. -/
def verb (k : Sess) (need : Priv) (s0Only : Bool) (states : List HoldState) (refusals : State → List (Bool × Nat))
    (f : Verb) : Verb := fun s =>
  match privError s k need with
  | some c => err s c
  | none =>
    if s0Only && k ≠ 0 then err s 206
    else if !(s.aon.hold ∈ states) then err s 301
    else match firstOf (refusals s) with
      | some c => err s c
      | none => f s

/-- Answer +OK with fields. -/
def okAns (s : State) (fields : List (String × Val)) : State × Reply := ans s (OK fields)

/-- Set a session's waiting state first, for verbs whose work continues (R300). -/
def waitFor (s : State) (k : Sess) (b : Busy) : State := setSes s k (fun q => { q with busy := some b })

/-- Work that continues after acceptance (R300): the session is busy with `b` until `answerBusy`, which may come at once. -/
def workOn (s : State) (k : Sess) (b : Busy) (f : State → State) : State × Reply :=
  let s' := f (waitFor s k b)
  match (getSes s' k).busy with
  | some x => (s', .wait x)
  | none => (s', .done)

/-- With CFG_WP = 1 a verb that writes CFG, SEC or TEN needs the session's unlock (R351). -/
def cfgGuard (s : State) (k : Sess) : Bool := s.aon.opt.cfgWp && !(getSes s k).unlock

/-- A verb that stores a setting in CFG (R349): 209 last, then the setting and the area write. -/
def storesCfg (s : State) : State := writeArea s .cfg

def natVal (n : Nat) : Val := .nat n
def tenantOf (t : Nat) : Tenant := Fin.ofNat 256 t

/-- Fields of the keys given, with their values. -/
def given (l : List (String × Option Val)) : List (String × Val) := l.filterMap (fun p => p.2.map (fun v => (p.1, v)))

/-! ## Staged uploads (R314) -/

/-- What a session has staged for an upload. -/
def staged (s : State) (k : Sess) (kind : UploadKind) : List Byte :=
  match (getSes s k).uploads.find? (fun u => u.kind = kind) with
  | some u => u.bytes
  | none => []

def setStaged (s : State) (k : Sess) (kind : UploadKind) (l : List Byte) : State :=
  setSes s k (fun q => { q with uploads := q.uploads.filter (fun u => u.kind ≠ kind) ++ (if l = [] then [] else [{ kind := kind, bytes := l }]) })

/-- A piece is out of sequence. -/
def pieceOut (s : State) (k : Sess) (kind : UploadKind) (off : Nat) : Bool := off ≠ 0 && off ≠ (staged s k kind).length
/-- A piece has 1 to 192 bytes. -/
def pieceLen (data : List Byte) : Bool := data.length = 0 || 192 < data.length

/-- A piece joins the staging; one at offset 0 starts it anew. -/
def stagePiece (s : State) (k : Sess) (kind : UploadKind) (off : Nat) (data : List Byte) : State :=
  setStaged s k kind ((if off = 0 then [] else staged s k kind) ++ data)

end Sys2Proof.Machine
end

