-- ==== Sys2Proof/Machine/Keys.lean ====
section
/-! DEFINITION. Keys, crypto-erase and their verbs (R184-R195, R312). -/

namespace Sys2Proof.Machine

/-! ## The XTS engine (R20, R114, R187) -/

/-- The key of a tenant's XTS slot: both halves zero while it holds none (R186, R189). -/
def xtsKey (s : State) (t : Tenant) : List Byte :=
  match (if s.ten.loaded.any (· = t) then s.ten.blobs[t.val] else none) with
  | some b => (keyUnwrap kStore b.wrapped).getD []
  | none => List.replicate 64 0

/-- XTS data units of a stored granule (R187). -/
def xtsUnits (s : State) : Nat := storedG s / 4096

/-- The tweak of a data unit: gidx x 512 + u, as 16 bytes, least significant first (R187). -/
def xtsTweak (gidx u : Nat) : List Byte := leBytes 16 (gidx * 512 + u)

/-- The packed 40-bit stream of a granule (R20): all zero for a zero granule (R166), else the bytes that its token stands for (assumption log
entry 8). -/
def packedStream (s : State) (c : Content) : List Byte :=
  match c with
  | .zero => List.replicate (storedG s) 0
  | .data n => bytesAt (Config.granuleBytes false n) 0 (storedG s)
  | .unknown n => bytesAt (Config.granuleBytes true n) 0 (storedG s)

/-- The stored bytes of a granule: its data units encrypted under the tenant's key (R187). -/
def sealedGranule (s : State) (t : Tenant) (gidx : Nat) (c : Content) : List Byte :=
  (List.range (xtsUnits s)).flatMap (fun u =>
    bytesAt (Config.xtsEncrypt (xtsKey s t) (xtsTweak gidx u) (bytesAt (packedStream s c) (4096 * u) 4096)) 0 4096)

/-- The bytes of strand `i` of a plait: its granules one after the other, the unused end filled with 0xFF (R114). -/
def strandData (s : State) (p : Plait) (i : Nat) : List Byte :=
  bytesAt (p.parts.flatMap (fun q => (granulesOf [q]).flatMap (fun g => sealedGranule s q.tenant g (p.contents.get g))))
    (i * strandBytes s) (strandBytes s) 0xFF

/-! ## Crypto-erase (R189-R192) -/

def setJob (s : State) (j : EraseJob) : State :=
  { s with ten := { s.ten with jobs := s.ten.jobs.filter (fun x => x.t ≠ j.t) ++ [j] } }

/-- An erase that has not been answered. -/
def eraseRuns (s : State) (t : Tenant) : Bool :=
  match jobOf s t with
  | some j => j.phase ≠ .proof
  | none => false

/-- The outcome of the tenant's last erase. -/
def kdestroyText (s : State) (t : Tenant) : String :=
  match look t s.ten.kdestroy with
  | some false => "FAIL"
  | _ => "VERIFIED"

/-- Granules of the tenant are still in XTS: a strand of their plait is not loaded yet (R189, R194). -/
def keyInFlight (s : State) (t : Tenant) : Bool :=
  s.map.save.any (fun v => v.open_.any (fun p =>
    p.plait.parts.any (fun q => q.tenant = t) && p.strands.any (fun x => x.st = .waiting || x.st = .loading)))

/-- KEY_ZEROIZE (R189, R194, R195): once the tenant's granules have left XTS both key halves are zero, or the slot is unusable until the
next BOOT and the tenant DISABLED. -/
def execKeyZeroize (t : Tenant) (readBackZero : Bool) (s : State) : Out :=
  .next (match jobOf s t with
    | some j =>
      if j.phase ≠ .zeroize ∨ keyInFlight s t = true then s
      else
        let s := setSlot s t 3
        let s := { s with ten := { s.ten with loaded := s.ten.loaded.filter (fun x => x ≠ t) } }
        let s := setJob s { j with phase := .keyStore, zeroFail := !readBackZero }
        if readBackZero then recomputeCover s
        else
          let a := attrOf s t
          let s := setAttr s t (makeAttr (attrGen a) (attrClass a) (attrVolatile a) true 3)
          recomputeCover (logEv { s with ten := { s.ten with unusable := insertFin t s.ten.unusable } } 11 .zeroizeFail t.val)
    | none => s)

/-- KEY_STORE_WRITE_DONE (R189, R192): the new copy lacks the blob and carries the erase-list bit; the old copy is still there. -/
def execKeyStoreWriteDone (t : Tenant) (s : State) : Out :=
  .next (match jobOf s t with
    | some j =>
      if j.phase ≠ .keyStore then s
      else
        let s := writeArea s .keys
        let s := setArea s .keys { areaOf s .keys with otherErased := false }
        let s := { s with ten := { s.ten with blobs := upd s.ten.blobs t (fun _ => none), eraseList := insertFin t (copyErases s) }
                          aon := { s.aon with erases := s.aon.erases.filter (fun x => x ≠ t) } }
        setJob s { j with phase := .oldCopy }
    | none => s)

/-- The answer of an erase (R189, R195). -/
def answerErase (s : State) (j : EraseJob) (verified : Bool) : State :=
  let fields : List (String × Val) :=
    [("tenant", .nat j.t.val), ("slot", .kw "ERASED"), ("gen", .nat (attrGen (attrOf s j.t)))
    , ("kdestroy", .kw (if verified then "VERIFIED" else "FAIL"))]
  answerBusy s j.session (.keyErase j.t)
    (if j.zeroFail then ERR 503 else if verified then OK fields else ERR 504 [("kdestroy", .kw "FAIL")])

/-- OLD_COPY_ERASE_DONE (R189, R190, R192, R195): verified, or erased again up to three times; then the answer and the proof, unless that
stands already. -/
def execOldCopyEraseDone (t : Tenant) (verified : Bool) (s : State) : Out :=
  .next (match jobOf s t with
    | some j =>
      if j.phase ≠ .oldCopy then s
      else if !verified && j.tries < 2 then setJob s { j with tries := j.tries + 1 }
      else
        let s := setArea s .keys { areaOf s .keys with otherErased := verified }
        let s := { s with ten := { s.ten with oldDirty := !verified, kdestroy := put t verified s.ten.kdestroy } }
        let s := if verified then s else logEv s 3 .keyCopyFail t.val
        let s := if j.proven then { s with ten := { s.ten with jobs := s.ten.jobs.filter (fun x => x.t ≠ t) } }
          else setJob s { j with phase := .proof }
        startProof (answerErase s j verified)
    | none => s)

/-- ERASE_RESUME (R192): at firmware start an erase recorded in AON restarts at Key store write; a set erase-list bit repeats Old copy
erase while a copy is not verified, and then the proof, unless a record carries the bit. -/
def resumeErases (s : State) : State :=
  let s := { s with ten := { s.ten with jobs := [] } }
  let s := s.aon.erases.foldl (fun s t =>
    setJob (setSlot s t 3) { t := t, phase := .keyStore, session := none, tries := 0, zeroFail := false, proven := false }) s
  let due := s.ten.eraseList.filter (fun t => !(t ∈ s.aon.erases))
  let s := due.foldl (fun s t =>
    let proven := s.nand.rims.any (fun r => r.erased.any (· = t))
    let s := setSlot s t 3
    if !(areaOf s .keys).otherErased || s.ten.oldDirty then
      setJob s { t := t, phase := .oldCopy, session := none, tries := 0, zeroFail := false, proven := proven }
    else if proven then s
    else setJob s { t := t, phase := .proof, session := none, tries := 0, zeroFail := false, proven := false }) s
  startProof s

/-! ## Verbs (R312) -/

/-- The owner transport key, as the firmware unwraps it (R185). -/
def ownerKey (s : State) : Option (List Byte) := s.ten.otk.bind (keyUnwrap kStore)

/-- The new OTK of a `KEY OWNER`: 32 bytes, plain or under the current one (R185). -/
def newOwner (s : State) (plain : Bool) (blob : List Byte) : Option (List Byte) :=
  (if plain then some blob else (ownerKey s).bind (fun o => keyUnwrap o blob)).filter (fun k => k.length = 32)

/-- `KEY OWNER` (R185, R312). The 72 bytes that R312 gives a wrapped value are those of a tenant key (R186): RFC 3394 wraps 256 bits in
40 bytes (DEDUCED, assumption log entry 52). -/
def keyOwnerVerb (k : Sess) (plain : Bool) (blob : List Byte) : Verb :=
  verb k .keep plain [SV, FT]
    (fun s => [(blob.length ≠ (if plain then 32 else 40), 101), (!plain && s.ten.otk.isSome && (newOwner s plain blob).isNone, 109)
              , (cfgGuard s k, 209), (!plain && s.ten.otk.isNone, 413)])
    (fun s =>
      okAns (writeArea { s with ten := { s.ten with otk := (newOwner s plain blob).map (keyWrap kStore) } } .sec) [("owner", .kw "SET")])

/-- The key that a `KEY LOAD` carries: none when the check of RFC 3394 fails or key 1 equals key 2 (R186). -/
def loadedKey (s : State) (t : Tenant) (blob : List Byte) : Option (List Byte) :=
  match ownerKey s with
  | none => none
  | some o =>
    match keyUnwrap (importKey o t) blob with
    | some key => if key.take 32 = key.drop 32 then none else some key
    | none => none

def keyAnswer (s : State) (t : Tenant) : State × Reply :=
  okAns s [("tenant", .nat t.val), ("gen", .nat (attrGen (attrOf s t)))
  , ("kcv", .kw (match s.ten.blobs[t.val] with
      | some b => kcvText b.kcv
      | none => "none"))]

def keyLoadVerb (k : Sess) (t : Nat) (blob : List Byte) : Verb :=
  verb k .run false [SV, FT]
    (fun s =>
      let x := tenantOf t
      [(t < 256 && eraseRuns s x, 300), (256 ≤ t || blob.length ≠ 72, 101), (s.ten.otk.isSome && (loadedKey s x blob).isNone, 109)
      , (slotLoaded (attrOf s x), 312), (65535 ≤ attrGen (attrOf s x), 409), (s.ten.otk.isNone, 413)])
    (fun s =>
      let x := tenantOf t
      keyAnswer (recomputeCover (installKey s x 1 ((loadedKey s x blob).getD []))) x)

def keyGenVerb (k : Sess) (t : Nat) : Verb :=
  verb k .run false [SV, FT]
    (fun s =>
      let x := tenantOf t
      [(t < 256 && eraseRuns s x, 300), (256 ≤ t, 101), (slotLoaded (attrOf s x), 312), (65535 ≤ attrGen (attrOf s x), 409)])
    (fun s => let x := tenantOf t; keyAnswer (recomputeCover (generateKey s x)) x)

/-- `KEY ERASE` (R189, R194). -/
def keyEraseVerb (k : Sess) (t : Nat) : Verb :=
  verb k .keep false [SV, PK, SA, FT] (fun _ => [(256 ≤ t, 101)])
    (fun s =>
      let x := tenantOf t
      let a := attrOf s x
      let fields (slot kd : String) : List (String × Val) :=
        [("tenant", .nat t), ("slot", .kw slot), ("gen", .nat (attrGen a)), ("kdestroy", .kw kd)]
      if eraseRuns s x then okAns s (fields "ERASED" "PENDING")
      else if attrSlot a = 0 then okAns s (fields "EMPTY" "VERIFIED")
      else if attrSlot a = 3 then okAns s (fields "ERASED" (kdestroyText s x))
      else
        workOn s k (.keyErase x) (fun s =>
          let s := noteIssue s (some k) (.erase x)
          setJob { s with aon := { s.aon with erases := insertFin x s.aon.erases } }
            { t := x, phase := .zeroize, session := some k, tries := 0, zeroFail := false, proven := false }))

def keyShowVerb (k : Sess) (t : Nat) : Verb :=
  verb k .view false anyState (fun _ => [(256 ≤ t, 101)])
    (fun s =>
      let x := tenantOf t
      let a := attrOf s x
      okAns s [("tenant", .nat t), ("slot", .kw (slotText a)), ("gen", .nat (attrGen a))
      , ("kcv", .kw (if slotLoaded a then (match s.ten.blobs[x.val] with
          | some b => kcvText b.kcv
          | none => "none") else "none"))])

def execKeyOwner (k : Sess) (plain : Bool) (blob : List Byte) (s : State) : Out :=
  .next (onVerb s k (.keyOwner k plain blob) false (keyOwnerVerb k plain blob))
def execKeyLoad (k : Sess) (t : Nat) (blob : List Byte) (s : State) : Out :=
  .next (onVerb s k (.keyLoad k t blob) false (keyLoadVerb k t blob))
def execKeyGen (k : Sess) (t : Nat) (s : State) : Out := .next (onVerb s k (.keyGen k t) false (keyGenVerb k t))
def execKeyErase (k : Sess) (t : Nat) (s : State) : Out := .next (onVerb s k (.keyErase k t) false (keyEraseVerb k t))
def execKeyShow (k : Sess) (t : Nat) (s : State) : Out := .next (onVerb s k (.keyShow k t) false (keyShowVerb k t))

end Sys2Proof.Machine
end

