-- ==== Sys2Proof/Machine/Save.lean ====
section
/-! DEFINITION. Takeovers and saves, the waits, the settle engine and the NAND's own events (R28-R30, R98, R107, R108,
R111-R128, R134-R136, R141-R158, R160, R179). -/

namespace Sys2Proof.Machine

/-! ## Plaits (R112, R114, R115, R123) -/

/-- Take up to `k` granules off the front of what is left, as plait parts (R112, R188). -/
def takeParts (s : State) : Nat → List (Tenant × RangeSet) → List PlaitPart × List (Tenant × RangeSet)
  | _, [] => ([], [])
  | k, (t, r) :: rest =>
    if k = 0 then ([], (t, r) :: rest)
    else
      let q := rsTake r k
      let part : PlaitPart := { tenant := t, gen := attrGen (attrOf s t), set := q.1 }
      if q.2 = [] then
        let w := takeParts s (k - rsSize q.1) rest
        (part :: w.1, w.2)
      else ([part], (t, q.2) :: rest)

/-- Whether a new plait may start (R123, R127, R128, R216): energy not below the floor, no cell at end of discharge or below the hardware
floor, strands beyond the tail tables, and dies enough. -/
def plaitAllowed (s : State) (v : Save) : Bool :=
  !v.stop && eFloor s ≤ s.map.eRem && !s.bat.eod && !s.aon.hwFloor && hTail s < hFree s &&
  s.nand.profile.minStripe ≤ (usableDies s).length

/-- The dies of the stripe (R42, R108, R114, R127): the usable dies that the descriptors hold and that no fold or erase holds, in plait
order from the one after the last strand of the plait before. -/
def stripeDies (s : State) (v : Save) : List Die :=
  let order := match v.lastDie with
    | some d => orderAfter d
    | none => plaitOrder
  order.filter (fun d => usable s d && s.map.descDies.any (· = d) && !(dieOf s d).op.settling)

/-- The save-order index of a granule: how many owed granules stand before it (R112, R115). -/
def saveIndex : List (Tenant × RangeSet) → Tenant → Nat → Nat
  | [], _, _ => 0
  | (t, r) :: rest, u, g => if t = u then rsSize (rsClip r 0 g) else rsSize r + saveIndex rest u g

/-- The save-order index of a plait's first granule (R115 FIRST). -/
def firstIndex (v : Save) (parts : List PlaitPart) : Nat :=
  match parts with
  | [] => 0
  | q :: _ => saveIndex v.owed q.tenant ((q.set.head?.map (·.1)).getD 0)

/-- Start one plait of the next granules on the next W dies (R114, R115). Its contents are what the DRAM holds as they are read. While the
firmware's E_rem has stopped, MAP lowers its own copy by e_g for each granule (R215). -/
def beginPlait (s : State) (v : Save) : State :=
  let dies := stripeDies s v
  if dies.length = 0 then s
  else
    let kw := stripe s dies.length
    let q := takeParts s kw.1 v.todo
    let n := q.1.foldl (fun n p => n + rsSize p.set) 0
    let chosen := (List.range kw.2).map (fun i => dies.getD (i % dies.length) 0)
    let p : Plait := { no := v.plaitNo, first := firstIndex v q.1, parts := q.1, strands := chosen.map (fun _ => none), contents := s.nand.dram }
    let v := { v with
      todo := q.2, plaitNo := v.plaitNo + 1, lastDie := chosen.getLast?.or v.lastDie
      open_ := v.open_ ++ [{ plait := p, strands := chosen.map (fun d => { die := d, st := .waiting, page := none }) }]
      eStream := s.bat.loadJ }
    let s := if s.map.eStale then { s with map := { s.map with eRem := s.map.eRem - s.map.eg * n } } else s
    wakeStrands (setSave s v)

/-- Fewer usable dies than the minimum stripe in a save (R128): no new plait, with an event. -/
def stripeShort (s : State) : State :=
  match s.map.save with
  | some v =>
    if (usableDies s).length < s.nand.profile.minStripe ∧ !v.stop then stopPlaits (logEv s 8 .stripeShort) else s
  | none => s

/-- PLAIT_START (R123): skip what is no longer to be saved (R112), then start a plait or go to the tail. -/
def execPlaitStart (s : State) : Out :=
  .next (match s.map.save with
    | none => s
    | some v =>
      if v.phase ≠ .stream then s
      else
        let v := { v with todo := v.todo.filter (fun p => saved s p.1) }
        if v.todo = [] then saveAdvance (setSave s v)
        else if plaitAllowed s v then beginPlait s v
        else stopPlaits (stripeShort (setSave s v)))

/-! ## Strands (R115-R117, R134) -/

/-- Change the first entry that satisfies a test. -/
def changeFirst {α : Type} (p : α → Bool) (f : α → α) : List α → List α
  | [] => []
  | x :: t => if p x then f x :: t else x :: changeFirst p f t

/-- The first strand on a die in a given state, over the open plaits in order, changes. -/
def changeStrand (d : Die) (old : StrandSt) (f : Strand → Strand) (l : List OpenPlait) : List OpenPlait :=
  let hit (x : Strand) : Bool := x.die = d && x.st = old
  changeFirst (fun p => p.strands.any hit) (fun p => { p with strands := changeFirst hit f p.strands }) l

def stepSave (s : State) (d : Die) (old new : StrandSt) (page : Option Page) : State :=
  match s.map.save with
  | some v => setSave s { v with open_ := changeStrand d old (fun x => { x with st := new, page := page }) v.open_ }
  | none => s

def stepTable (s : State) (d : Die) (old new : StrandSt) (page : Option Page) : State :=
  match s.nand.tab with
  | some j =>
    { s with nand := { s.nand with tab := some { j with
        strands := changeFirst (fun x => x.die = d && x.st = old) (fun x => { x with st := new, page := page }) j.strands } } }
  | none => s

/-- STRAND_LOAD_DONE (R117): the die holds its data and waits for an owned slot. -/
def execStrandLoadDone (die : Die) (s : State) : Out :=
  .next (match (dieOf s die).op with
    | .loading (.strand p) => setOp (stepSave s die .loading .ready none) die (.ready (.strand p))
    | .loading (.table p) => setOp (stepTable s die .loading .ready none) die (.ready (.table p))
    | _ => s)

/-- The tag of the strand that a die holds (R114, R115): PAD on a last strand that the granules do not fill. -/
def tagOf (s : State) (v : Save) (d : Die) : Option StrandTag :=
  (v.open_.find? (fun p => p.strands.any (fun x => x.die = d && x.st = .ready))).map (fun p =>
    let i := p.strands.findIdx (fun x => x.die = d && x.st = .ready)
    let n := p.plait.parts.foldl (fun n q => n + rsSize q.set) 0
    { plait := p.plait.no, saveSeq := v.seq, grans := n, widthM1 := p.strands.length - 1, strand := i, table := false
      pad := i + 1 = p.strands.length && n * storedG s % strandBytes s ≠ 0, first := p.plait.first })

/-- A table strand's tag (R115). -/
def tableTag (s : State) (idx : Nat) : StrandTag :=
  { plait := 0, saveSeq := topSeq s + 1, grans := 0, widthM1 := 0, strand := idx % 256, table := true, pad := false, first := 0 }

/-- The table strands of a die that failed go to the next usable die (R116). With none left no record can be written. -/
def tableFailed (s : State) (d : Die) : State :=
  match s.nand.tab with
  | none => s
  | some j =>
    match (orderAfter d).find? (fun x => usable s x && x ≠ d) with
    | none => rimImpossible s j.use
    | some x =>
      wakeStrands { s with nand := { s.nand with tab := some { j with strands := j.strands.map (fun y =>
        if y.die = d ∧ y.st ≠ .done then { y with die := x, st := .waiting } else y) } } }

/-- The usable dies have changed: e_g is seeded anew (R120). -/
def diesChanged (s : State) : State := reseedEg s

/-- A strand failed (R116, R127, R128): the die leaves the stripe, its plait is abandoned and its granules are written again as a new
plait, or, below the reserve floor, not at all (R123). -/
def strandFailed (s : State) (die : Die) : State :=
  let s := diesChanged (setDie s die (fun d => { d with failed := true, op := .idle }))
  let s := logEv s (dieDom die) .strandFail die.val
  match s.map.save with
  | none => tableFailed s die
  | some v =>
    let hit (p : OpenPlait) : Bool := p.strands.any (fun x => x.die = die && x.st ≠ .done)
    saveAdvance (wakeStrands (stripeShort (tableFailed (abandonPlaits s v hit) die)))

/-- The die's array work starts (R117, R134, R151). A program descriptor that is not at the write pointer of an open group is refused with
PAGE_CONFLICT, which MAP takes for a program failure. -/
def startWork (s : State) (d : Die) : State :=
  match (dieOf s d).op with
  | .ready (.strand p) =>
    if atPointer s p then
      let s := match s.map.save.bind (fun v => tagOf s v d) with
        | some t => tagPage s p t
        | none => s
      diverge (setOp (stepSave s d .ready .busy none) d (.busy (.strand p)))
    else strandFailed s d
  | .ready (.table p) =>
    if atPointer s p then diverge (setOp (stepTable (tagPage s p (tableTag s p.page)) d .ready .busy none) d (.busy (.table p)))
    else strandFailed s d
  | .ready w => diverge (setOp s d (.busy w))
  | _ => s

/-! ## Owned slots (R117, R135, R136, R141, R142, R147) -/

def DieOp.isReady : DieOp → Bool
  | .ready _ => true
  | _ => false

def DieOp.isRim : DieOp → Bool
  | .ready (.rim _ _) => true
  | _ => false

/-- A fold or erase occupies the channel (R43, R147). -/
def channelBusy (s : State) (c : Nat) : Bool := (allFin 256).any (fun d => dieCh d = c && (dieOf s d).op.settling)

/-- The group that is erased next on a die: a ring group that is due (R141), else the first ERASE_PENDING one in the erase order (R135). -/
def eraseNext (s : State) (d : Die) : Option Nat :=
  let due := [s.nand.ringA, s.nand.ringB].findSome? (fun r => if r.die = d then r.due (oldestRetained s) else none)
  due.or ((firstGroup (s.nand.groups.filter (fun g =>
    g.die = d && g.role = .erasePending && !(s.nand.erased.any (fun x => x.1 = d && x.2 = g.block))))).map (·.block))

/-- In SERVE each channel without fold or erase work erases one group (R136, R147), in WIDE none (R269). -/
def queueErases (s : State) : State :=
  if s.aon.hold ≠ .serve ∨ s.warp.state = .wide then s
  else
    (List.range 8).foldl (fun s c =>
      if channelBusy s c then s
      else
        match (usableDies s).find? (fun d => dieCh d = c && dieFree s d && (eraseNext s d).isSome) with
        | some d => (match eraseNext s d with
          | some b => setOp s d (.ready (.erase b))
          | none => s)
        | none => s) s

/-- The dies that confirm in this slot: at most SMAX, in die order (R117, R127); in WIDE no fold and no erase (R269). The two copies of a
record go together (R142), one after the other only where the table admits one start a slot (DESIGN CHOICE, assumption log entry 72). -/
def slotPick (s : State) : List Die :=
  let may (o : DieOp) : Bool := o.isReady && !(o.settling && s.warp.state = .wide)
  let l := (plaitOrder.filter (fun d => may (dieOf s d).op && (modeOf s (dieDom d).val).powered)).take (slotMax s)
  match s.nand.rimJob with
  | some j =>
    if !j.a.programmed && !j.b.programmed && slotMax s ≠ 1 && (l.filter (fun d => (dieOf s d).op.isRim)).length = 1 then
      l.filter (fun d => !(dieOf s d).op.isRim)
    else l
  | none => l

/-- SLOT_OPEN_TOKEN (R117, R147, R165): WARP's token reaches the channels, and the dies that hold their work confirm their array starts. In
SERVE a relocated ring takes its further groups (R136). A fold that still waits when SETTLE has ended does not start (R145). -/
def execSlotOpenToken (s : State) : Out :=
  .next (if runs s 6 then
    let s := if s.nand.settle.running then s else stopSettle s
    let s := if s.aon.hold = .serve then fillRing (fillRing s false) true else s
    let s := queueErases (queueRim s)
    (slotPick s).foldl startWork s
  else s)

/-- A plait with every strand programmed enters the layer, with its pages (R114, R116). -/
def closePlaits (s : State) : State :=
  match s.map.save with
  | none => s
  | some v =>
    let full (p : OpenPlait) : Bool := p.strands.all (fun x => x.st = .done)
    let done := (v.open_.filter full).map (fun p => { p.plait with strands := p.strands.map (·.page) })
    setSave s { v with open_ := v.open_.filter (fun p => !full p), done := v.done ++ done }

/-- STRAND_PROGRAM_DONE (R116, R158): a program that failed retires its group. -/
def execStrandProgramDone (die : Die) (status : ProgStatus) (s : State) : Out :=
  .next (match (dieOf s die).op with
    | .busy (.strand p) =>
      let s := setOp (advancePage s p) die .idle
      (match status with
       | .pass => saveAdvance (wakeStrands (closePlaits (stepSave s die .busy .done (some p))))
       | .fail plane => strandFailed (retire s causeProg die plane.val p.block) die)
    | .busy (.table p) =>
      let s := setOp (advancePage s p) die .idle
      (match status with
       | .pass => tablesReady (wakeStrands (stepTable s die .busy .done (some p)))
       | .fail plane => strandFailed (retire s causeProg die plane.val p.block) die)
    | _ => s)

/-! ## Dies that hang or are lost (R116, R141, R158) -/

def foldOf (s : State) (d : Die) : Option FoldDie := s.nand.settle.folds.find? (fun f => f.die = d)

def setFold (s : State) (f : FoldDie) : State :=
  { s with nand := { s.nand with settle := { s.nand.settle with
      folds := f :: s.nand.settle.folds.filter (fun g => g.die ≠ f.die) } } }

def dropFold (s : State) (d : Die) : State :=
  { s with nand := { s.nand with settle := { s.nand.settle with folds := s.nand.settle.folds.filter (fun g => g.die ≠ d) } } }

/-- The work of a die is abandoned: a strand's plait and a table strand are written again, a rim copy fails, a fold's destination is given
up. An erase leaves its group ERASE_PENDING. -/
def abandonDie (s : State) (d : Die) : State :=
  match (dieOf s d).op with
  | .loading (.strand _) | .ready (.strand _) | .busy (.strand _)
  | .loading (.table _) | .ready (.table _) | .busy (.table _) => strandFailed s d
  | .ready (.rim b _) | .busy (.rim b _) =>
    let s := setOp s d .idle
    (match s.nand.rimJob with
     | some j => copyFails s j b
     | none => s)
  | .ready .fold | .busy .fold =>
    (match foldOf s d with
     | some f => setRole (dropFold (setOp s d .idle) d) d f.block .erasePending
     | none => setOp s d .idle)
  | .idle => s
  | _ => setOp s d .idle

/-- DIE_TIMEOUT (R116, R158): an ONFI RESET goes to a die whose R/B stays busy in any operation; its plait is rewritten. -/
def execDieTimeout (die : Die) (s : State) : Out :=
  .next (
    let x := dieOf s die
    if x.present && !x.fenced && !x.resetSent then
      let s := logEv (setDie s die (fun d => { d with resetSent := true })) (dieDom die) .dieFenced die.val 1
      abandonDie s die
    else s)

/-- One ring on a die that is lost moves (R141); a commit that was using it starts that copy again (R142). -/
def loseRing1 (s : State) (die : Die) (copyB : Bool) : State :=
  if (ringOf s copyB).die ≠ die then s
  else
    match s.nand.rimJob with
    | some _ => relocateCopy s copyB
    | none =>
      if s.nand.prov ≠ .done then s
      else
        match moveRing s copyB with
        | some s => s
        | none => unarm { s with nand := { s.nand with rimDead := true } } .rimArea

/-- The rings on a die that is lost move (R141). -/
def loseRingDie (s : State) (die : Die) : State := loseRing1 (loseRing1 s die false) die true

/-- The rings on the dies of a channel that is no longer in use move (R141, R388). -/
def moveRings (s : State) (d : Dom) : State :=
  [s.nand.ringA.die, s.nand.ringB.die].foldl (fun s x => if dieDom x = d then loseRingDie s x else s) s

/-- No NAND channel is readable while a restore still needs the NAND: T18 (R31, R176). -/
def checkReadPath (s : State) : State :=
  match s.rst.run with
  | some r =>
    if s.aon.hold = .restore ∧ !r.streamDone ∧ !(plaitOrder.any (readable s)) then restoreFails s else s
  | none => s

/-- DIE_RESET_RETRY (R158): after the second RESET a die that still holds R/B busy is fenced. -/
def execDieResetRetry (die : Die) (stillBusy : Bool) (s : State) : Out :=
  .next (
    if !(dieOf s die).resetSent then s
    else if stillBusy then
      let s := setDie s die (fun d => { d with fenced := true, resetSent := false, op := .idle })
      let s := logEv (dropFold s die) (dieDom die) .dieFenced die.val
      saveAdvance (checkReadPath (checkStripe (stripeShort (loseRingDie (diesChanged s) die))))
    else wakeStrands (setDie s die (fun d => { d with resetSent := false, op := .idle })))

/-- A channel is out (R56, R67, R116, R120, R128): what its dies were doing is abandoned, its rings move, coverage and the stripe are judged
anew. -/
def channelLost (s : State) (d : Dom) : State :=
  let s := ((allFin 256).filter (fun x => dieDom x = d)).foldl abandonDie s
  saveAdvance (checkReadPath (checkStripe (stripeShort (recomputeCover (diesChanged (moveRings s d))))))

/-- TAIL_DONE (R119, R137, R344): the tables stand as TABLE strands, and the rim commit begins. A log copy that could not be written is left
out. -/
def execTailDone (logWritten : Bool) (s : State) : Out :=
  .next (match s.map.save, s.nand.tab with
    | some v, some j =>
      if v.phase ≠ .tail ∨ !j.complete then s
      else
        let s := if logWritten then s else logEv s 0 .logCopyBad
        let v := { v with phase := .commit, logWritten := logWritten }
        let r := saveRim s v j
        startRim { setSave s v with nand := { s.nand with tab := none }, free := s.free + 9 } r .saveRim
    | _, _ => s)

/-! ## Phases of a takeover (R98, R100, R168) -/

/-- The phase moves on when it is the present one and a save or a restore owns the flow. -/
def takePhase (s : State) (p : TakePhase) (f : State → State) : State :=
  if s.hp.phase = p ∧ (s.aon.hold = .save ∨ s.aon.hold = .restore) then f s else s

def setPhase (s : State) (p : TakePhase) : State := { s with hp := { s.hp with phase := p } }

def execBurstDrainEnd (s : State) : Out := .next (takePhase s .burstDrain (fun s => setPhase s .close))

/-- Close ends: PREab and SRE have gone to every rank. -/
def execCloseEnd (s : State) : Out :=
  .next (takePhase s .close (fun s =>
    let all := [Sub.a, Sub.b].flatMap (fun x => ((allFin 16).filter (fun r => r.val < geoNR s.map.geom)).map (fun r => (x, r)))
    { setPhase s .switch_ with hp := { s.hp with phase := .switch_, rows := [], selfRef := all } }))

/-- Switch ends: both subchannels' DQ stand at the port side (R103). -/
def execSwitchEnd (s : State) : Out :=
  .next (takePhase s .switch_ (fun s =>
    { setPhase s .clock with pins := { s.pins with dqswA := true, dqswB := true } }))

def execClockHandoverEnd (s : State) : Out :=
  .next (takePhase s .clock (fun s =>
    { setPhase s .portStart with pins := { s.pins with qck := .pllM, qca := .port } }))

/-- Port start ends: SRX sent, the port mode set written; the port's drivers are on (R98, R101, R103). -/
def execPortStartEnd (s : State) : Out :=
  .next (takePhase s .portStart (fun s =>
    { s with hp := { s.hp with phase := .retrain, selfRef := [] }, nand := { s.nand with dramSr := false }
             pins := { s.pins with port := true, qrstHigh := true } }))

/-- MAP skips the granules of subchannels whose port does not train (R107). -/
def skipSub (s : State) (sub : Sub) : State :=
  match s.map.save with
  | none => s
  | some v =>
    let g := subGranules s.map.geom sub
    setSave s { v with todo := (v.todo.map (fun p => (p.1, rsDiff p.2 g))).filter (fun p => p.2 ≠ []), partial_ := true
                       skips := v.skips ++ [sub] }

def retrainEvents (s : State) (aOk bOk : Bool) : State :=
  let s := { s with map := { s.map with dqFailA := !aOk, dqFailB := !bOk } }
  let s := if aOk then s else logEv s 9 .retrainFail 0
  if bOk then s else logEv s 10 .retrainFail 1

/-- PORT_RETRAIN_DONE (R98, R107, R168, R176). -/
def retrained (s : State) (aOk bOk : Bool) : State :=
  let s := retrainEvents s aOk bOk
  if s.aon.hold = .restore then
    if aOk && bOk then
      match s.rst.run with
      | some r => { setPhase s .owned with rst := { s.rst with run := some { r with takeoverDone := true } } }
      | none => s
    else restoreFails s
  else
    let s := if aOk then s else skipSub s .a
    let s := if bOk then s else skipSub s .b
    match s.map.save with
    | some v =>
      if v.todo = [] then
        saveAdvance (setSave (setPhase s .owned) { v with phase := .stream, eTakeover := s.bat.loadJ, eStream := s.bat.loadJ })
      else setPhase s .firstGranule
    | none => s

def execPortRetrainDone (aOk bOk : Bool) (s : State) : Out := .next (takePhase s .retrain (fun s => retrained s aOk bOk))

/-- The first granule's first flit enters XTS to Nn: Takeover ends and the granule stream runs (R98, R119). -/
def execFirstGranule (s : State) : Out :=
  .next (takePhase s .firstGranule (fun s =>
    let s := setPhase s .owned
    match s.map.save with
    | some v => setSave s { v with phase := .stream, eTakeover := s.bat.loadJ, eStream := s.bat.loadJ }
    | none => s))

/-! ## Waits -/

/-- T11 (R30, R31): the park wait limit expires. -/
def execParkWaitExpiry (s : State) : Out := .next (if s.aon.hold = .park then endPark s else s)

/-- A waiting RESTORE request is dropped with its notice (R160, R291). -/
def execRestoreWaitExpiry (s : State) : Out :=
  .next (match s.rst.req with
    | none => s
    | some q =>
      if s.aon.hold = .serve then
        noticeIssuer (logEv { s with rst := { s.rst with req := none } } 0 .restoreExpired) q.session .restore
          (EVT [("req", .kw "RESTORE"), ("", .kw "expired")])
      else s)

/-- Granules whose owner differs between two maps (R179). -/
def changedOwners (s : State) (old new : List DWord) : RangeSet :=
  (allFin 256).foldl (fun acc t => rsUnion acc (rsDiff (tenantGranules s new t) (tenantGranules s old t))) []

/-- MAP takes the descriptors that the firmware loads: classes and usable dies (R108, R182). -/
def takeDescriptors (s : State) : State :=
  let s := loadClasses s
  { s with map := { s.map with descriptors := true, descDies := usableDies s } }

/-- DESCRIPTOR_RELOAD_DONE (R108, R179): in one MAP clock the new descriptors take effect and the granules whose owner changed become
dirty; TENANT COMMIT is answered. -/
def execDescriptorReloadDone (s : State) : Out :=
  .next (
    if !isOn s 8 ∨ !s.mg.running then s
    else
      let s := takeDescriptors s
      match s.map.reload with
      | none => s
      | some r =>
        let changed := changedOwners s s.ten.map r.map
        let s := setDirty { s with ten := { s.ten with map := r.map }
                                   map := { s.map with reload := none } } changed
        let s := match r.session with
          | some k => setSes s k (fun q => { q with adds := [], dels := [] })
          | none => s
        answerBusy (recomputeCover s) r.session .commit
          (OK [("changed", .nat (rsSize changed)), ("entries", .nat r.map.length)]))

/-- COVER_RECOMPUTE (R121). -/
def execCoverRecompute (s : State) : Out := .next (if s.mg.running then recomputeCover s else s)

/-! ## Settling (R145-R150) -/

/-- Groups of usable dies that are not bad: the usable groups of the thresholds. -/
def usableGroups (s : State) : Nat :=
  (usableDies s).foldl (fun n d => n + (s.nand.profile.blocks - (s.nand.groups.filter (fun g =>
    g.die = d && (g.role = .grownBad || g.role = .factoryBad))).length)) 0

/-- FREE groups of the usable dies. -/
def freeGroups (s : State) : Nat := (usableDies s).foldl (fun n d => n + freeCount s d) 0

/-- FREE groups stand below a percentage. -/
def freeBelow (s : State) (pct : Nat) : Bool := freeGroups s * 100 < pct * usableGroups s

/-- Delta layers of the image. -/
def layerCount (s : State) : Nat := match imageRim s with
  | some r => r.layerSeqs.length
  | none => 0

/-- SETTLE may run (R145, R152): SERVE, which runs on bulk power (R52), `img=TRACK`, a NAND channel ON, provisioning done. -/
def settleAllowed (s : State) : Bool :=
  s.aon.hold = .serve && s.aon.img = .track && (usableDies s).length ≠ 0 && s.nand.prov ≠ .running

/-- Current pages of a BASE group in a record's base map. -/
def baseLive (r : Rim) (d : Die) (b : Nat) : List BaseRef := r.base.filter (fun x => inGroup x.page d b)

/-- The current pages that settle moves on a die and no fold holds yet (R146): those of the delta layers, oldest layer first and in page
order, then those of a BASE group whose current pages have fallen below 25 %. -/
def foldSources (s : State) (d : Die) : List BaseRef :=
  match imageRim s with
  | none => []
  | some r =>
    let held := s.nand.settle.folds.flatMap (fun f => f.taking ++ f.copied)
    let here := (liveRefs s r).filter (fun x => x.page.die = d && !(held.any x.same))
    let delta := r.layerSeqs.reverse.flatMap (fun q => here.filter (fun x => x.seq = q && !(r.base.any x.same)))
    let sparse (b : Nat) : Bool := (groupOf s d b).role = .base && (baseLive r d b).length * 4 < 3 * s.nand.profile.wls
    delta ++ here.filter (fun x => r.base.any x.same && sparse x.page.block)

/-- Start the next fold program on a die: its BASE_OPEN group takes up to three pages in the next TLC word line (R146). -/
def startFold (s : State) (d : Die) : State :=
  let take := (foldSources s d).take 3
  match openGroup s d .baseOpen with
  | (s, some g) =>
    let f := match foldOf s d with
      | some f => { f with busy := true, taking := take }
      | none => { die := d, block := g.block, wp := g.wp, read := 0, busy := true, taking := take, copied := [], closing := false }
    if f.closing ∨ s.nand.profile.wls ≤ f.wp then s
    else setFold (setOp s d (.ready .fold)) f
  | (s, none) => s

/-- A fold's group is full and every word line has passed its margin read (R148). -/
def FoldDie.full (f : FoldDie) (wls : Nat) : Bool := !f.busy && !f.closing && wls ≤ f.wp && wls ≤ f.read

/-- MAP writes the changed tables and commits a FOLD record for the groups that are ready, once no other record is under way (R148). -/
def closeFolds (s : State) : State :=
  let wls := s.nand.profile.wls
  if s.aon.hold ≠ .serve ∨ s.nand.rimJob ≠ none ∨ s.nand.tab ≠ none ∨ !(s.nand.settle.folds.any (fun f => f.full wls)) then s
  else
    let s := { s with nand := { s.nand with settle := { s.nand.settle with
      folds := s.nand.settle.folds.map (fun f => if f.full wls then { f with closing := true } else f) } } }
    startTables s .foldRim ([2, 6] ++ (if s.nand.bbtGen = s.nand.bbtTab.2 then [] else [7]) ++ (if 58 < layerCount s then [8] else []))
      none

/-- While SETTLE runs, each channel without fold or erase work starts one fold on its first idle die with live pages left, in WIDE none
(R269). Once SETTLE may not run any more, it stops (R145). -/
def nextFolds (s : State) : State :=
  if !s.nand.settle.running then s
  else if !settleAllowed s then stopSettle s
  else if s.warp.state = .wide then closeFolds s
  else
    closeFolds ((List.range 8).foldl (fun s c =>
      if channelBusy s c then s
      else
        match (usableDies s).find? (fun d => dieCh d = c && dieFree s d && foldSources s d ≠ [] &&
            ((foldOf s d).all (fun f => f.wp < s.nand.profile.wls))) with
        | some d => startFold s d
        | none => s) s)

/-- SETTLE starts (R145, R330). -/
def startSettle (s : State) : State :=
  nextFolds (logEv { s with nand := { s.nand with settle := { s.nand.settle with running := true } } } 8 .foldStarted)

def execSettleAutoStart (s : State) : Out :=
  .next (if settleAllowed s && !s.nand.settle.running &&
      (freeBelow s s.nand.settle.startFree || s.nand.settle.startLayers < layerCount s) then startSettle s else s)

def execSettleAutoStop (s : State) : Out :=
  .next (if s.nand.settle.running && !freeBelow s s.nand.settle.stopFree && layerCount s ≤ s.nand.settle.stopLayers then
    stopSettle s else s)

/-- FOLD_PROGRAM_DONE (R146, R157, R158): the word line's three pages hold what it took; a program that fails retires the group and abandons
the fold. The word line completes even after SETTLE has stopped. -/
def execFoldProgramDone (die : Die) (status : ProgStatus) (s : State) : Out :=
  .next (match (dieOf s die).op, foldOf s die with
    | .busy .fold, some f =>
      let s := setOp s die .idle
      (match status with
       | .pass =>
         let new := f.taking.zipIdx.map (fun x => { x.1 with page := { die := die, block := f.block, page := 3 * f.wp + x.2 } })
         let s := setGroup s { groupOf s die f.block with role := .baseOpen, wp := f.wp + 1 }
         wakeStrands (nextFolds (setFold s { f with wp := f.wp + 1, busy := false, taking := [], copied := f.copied ++ new }))
       | .fail plane => wakeStrands (nextFolds (dropFold (retire s causeProg die plane.val f.block) die)))
    | _, _ => s)

/-- How many word lines may be margin-read: those PAIR_DIST below the last programmed one, all of a full group (R148). -/
def foldReadable (s : State) (f : FoldDie) : Nat :=
  if s.nand.profile.wls ≤ f.wp then s.nand.profile.wls else f.wp - s.nand.profile.pairDist

/-- A fold's destination fails its margin read (R157): it is abandoned, and a second failure of the same group retires it. -/
def foldMarginFailed (s : State) (f : FoldDie) (plane : Nat) : State :=
  let key := (f.die, f.block)
  let again := s.nand.settle.marginFailed.any (fun x => x = key)
  let s := dropFold s f.die
  if again then retire s causeMargin f.die plane f.block
  else setRole { s with nand := { s.nand with settle := { s.nand.settle with marginFailed := key :: s.nand.settle.marginFailed } } } f.die f.block
    .erasePending

/-- FOLD_MARGIN_READ_DONE (R148, R157): the next word line has been read at both offsets. These reads wait while SETTLE does not run. When every word line has passed, a FOLD record commits the group. -/
def execFoldMarginReadDone (die : Die) (found : FoldRead) (s : State) : Out :=
  .next (match foldOf s die with
    | none => s
    | some f =>
      if s.aon.hold ≠ .serve ∨ !s.nand.settle.running ∨ foldReadable s f ≤ f.read ∨ f.closing = true then s
      else if found.bits.any (· ≤ s.nand.profile.marginBits) then closeFolds (setFold s { f with read := f.read + 1 })
      else nextFolds (foldMarginFailed s f found.plane.val))

/-! ## Erases and reads (R134, R135, R141, R154, R155, R158, R167) -/

/-- A group's erase has completed. A ring group may take records again (R141); any other becomes FREE at the next checkpoint (R157). At the
erase limit it is retired (R135); the spec names no plane there, and the model enters plane 0 (DESIGN CHOICE, assumption log entry 73). -/
def groupErased (s : State) (die : Die) (block : Nat) : State :=
  let s := forgetGroup s die block
  let g := groupOf s die block
  let worn := 10 * s.nand.profile.pslcPe ≤ g.erases + 1
  if g.role = .rim then
    let copyB := !(s.nand.ringA.die = die && s.nand.ringA.blocks.any (· = block))
    let s := setGroup s { g with erases := g.erases + 1, wp := 0 }
    if worn then
      let r := ringOf s copyB
      let i := r.blocks.findIdx (· = block)
      retire (setRing s copyB { r with blocks := r.blocks.eraseIdx i, tops := r.tops.eraseIdx i, cur := if i < r.cur then r.cur - 1 else r.cur })
        causeWear die 0 block
    else setRing s copyB ((ringOf s copyB).erased s.nand.profile.wls block)
  else if worn then retire s causeWear die 0 block
  else { s with nand := { s.nand with erased := s.nand.erased ++ [(die, block)] } }

/-- A ring group that cannot be erased leaves its ring. -/
def ringWithout (s : State) (die : Die) (block : Nat) : State :=
  let go (s : State) (copyB : Bool) : State :=
    let r := ringOf s copyB
    let i := r.blocks.findIdx (· = block)
    if r.die = die ∧ i < r.blocks.length then
      setRing s copyB { r with blocks := r.blocks.eraseIdx i, tops := r.tops.eraseIdx i, cur := if i < r.cur then r.cur - 1 else r.cur }
    else s
  go (go s false) true

/-- BLOCK_ERASE_DONE (R134, R135, R157, R158): the erase that a die was about has ended; one that fails retires its group. -/
def execBlockEraseDone (die : Die) (block : Nat) (status : ProgStatus) (s : State) : Out :=
  .next (if (dieOf s die).op ≠ .busy (.erase block) then s
    else
      let s := setOp s die .idle
      wakeStrands (nextFolds (match status with
        | .pass => groupErased s die block
        | .fail plane => retire (ringWithout s die block) causeErase die plane.val block)))

/-- The wear marks of a decode: retry depth and corrected bits. -/
def noteWear (s : State) (die : Die) (depth bits : Nat) : State :=
  setDie s die (fun d => { d with maxRetry := max d.maxRetry depth, maxCorr := max d.maxCorr bits })

/-- NAND_READ_DONE (R155, R167, R176): wear events, retirement, and in a restore the copy that failed. -/
def execNandReadDone (page : Page) (plane : Fin 4) (gidx seq : Nat) (result : ReadResult) (s : State) : Out :=
  .next (
    let p := s.nand.profile
    let die := page.die
    if !(dieOf s die).present then s
    else
      match result with
      | .hard bits =>
        let s := noteWear s die 0 bits
        let s := if p.warnBits < bits then logEv s (dieDom die) .wear die.val bits else s
        if p.retireBits < bits then retire s causeLdpc die plane.val page.block else s
      | .retry depth bits =>
        let s := noteWear s die depth bits
        let s := if p.warnBits < bits ∨ p.retryWarn ≤ depth then logEv s (dieDom die) .wear die.val bits depth else s
        if p.retireBits < bits then retire s causeLdpc die plane.val page.block else s
      | .fail =>
        let s := noteWear s die p.retryN 0
        let s := logEv s (dieDom die) .granuleRead die.val gidx
        let s := retire s causeRead die plane.val page.block
        match s.rst.run with
        | some r =>
          if r.streaming then { s with rst := { s.rst with run := some { r with failed := r.failed ++ [(gidx, seq)] } } } else s
        | none => s)

/-! ## Rim commits -/

def execRimProgramDone (copyB pass : Bool) (s : State) : Out := .next (rimProgramDone s copyB pass)
def execRimDwellExpiry (s : State) : Out := .next (rimDwellEnd s)

/-- A proof that waits, and a fold that is ready, follow the record before them (R148, R190). -/
def execRimMarginReadDone (a b : MarginRead) (s : State) : Out := .next (closeFolds (startProof (rimMarginDone s a b)))

end Sys2Proof.Machine
end

