-- ==== Sys2Proof/Machine/Restore.lean ====
section
/-! DEFINITION. Restores and the handback (R97, R102, R163-R176). -/

namespace Sys2Proof.Machine

def setRun (s : State) (r : RestoreRun) : State := { s with rst := { s.rst with run := some r } }

/-- The run, in state RESTORE. -/
def withRun (s : State) (f : RestoreRun → State) : State :=
  match s.rst.run with
  | some r => if s.aon.hold = .restore then f r else s
  | none => s

/-! ## Load -/

/-- The retained record other than the chosen one, if it carries an image (R163). -/
def otherRim (s : State) (r : Rim) : Option Rim := (retained s).find? (fun x => x.seq ≠ r.seq)

/-- The record can be used (R163): a directory copy that can be read passes, and no layer map, nor their index, nor the base map, nor the
tenant record fails in both places. -/
def recordPasses (s : State) (badDirs : List (Nat × Bool)) (badTables : List (Nat × Nat)) (r : Rim) : Bool :=
  let dir (copyB : Bool) (p : Option Page) : Bool :=
    p.any (fun p => readable s p.die) && !(badDirs.any (fun x => x.1 = r.seq && x.2 = copyB))
  (dir false r.dirA || dir true r.dirB) && [1, 2, 3, 8].all (fun t => !(badTables.any (fun x => x.1 = r.seq && x.2 = t)))

/-- Neither retained record passes in a restore (R163, R176): `img=NONE` at once. The run goes on and zeroes every granule (DESIGN CHOICE,
assumption log entry 19). -/
def loadLost (s : State) (run : RestoreRun) : State :=
  let top := topSeq s
  let s := dropImage { s with nand := { s.nand with imgloss := some top, chosen := none } }
  let r := { run.rim with layerSeqs := [], baseSeqs := [], base := [] }
  setRun (logEv s 8 .imageLost top) { run with rim := r, imageLost := true, loaded := true, written := [] }

/-- RESTORE_LOAD_DONE (R163, R168, R176): the record's directory and tables pass, or the other retained record takes over, or the
image is lost. -/
def execRestoreLoadDone (badDirs : List (Nat × Bool)) (badTables : List (Nat × Nat)) (s : State) : Out :=
  .next (withRun s (fun r =>
    if r.loaded then s
    else if recordPasses s badDirs badTables r.rim then setRun s { r with loaded := true, written := [] }
    else
      match (otherRim s r.rim).filter (recordPasses s badDirs badTables) with
      | some x =>
        let s := { s with nand := { s.nand with rimfb := true, chosen := some x.seq }, aon := { s.aon with stale := true } }
        setRun (logEv s 8 .recordFallback x.seq)
          { r with rim := x, stale := true, rimfb := true, loaded := true, written := [], zeroed := zeroedTenants s x }
      | none => loadLost s r))

/-! ## Stream -/

/-- The granules of a plait that have a byte on a strand that cannot be read (R114, R167): its die is out, or the record's maps name no page
for it any more. -/
def unreadableIn (s : State) (r : Rim) (l : Layer) (p : Plait) : RangeSet :=
  let sb := strandBytes s
  let sg := storedOf r.geom
  (List.range p.strands.length).foldl (fun acc i =>
    if (r.locate l p i).any (fun g => readable s g.die) then acc else rsUnion acc (strandSet sb sg p i)) []

/-- What a restore has done so far with the copies it has met: the granules still to write, those whose newer copy failed, those that
an older copy supplied, and the DRAM. -/
structure Replay where
  left : RangeSet
  missed : RangeSet
  older : RangeSet
  dram : Contents

/-- A layer's copies that count (R188): their tenant owns the granule in the record's map and their GEN is that of the slot's key; a slot
without a key has none (R195). -/
def validPart (s : State) (r : Rim) (q : PlaitPart) : RangeSet :=
  if slotLoaded (attrOf s q.tenant) && q.gen = attrGen (attrOf s q.tenant) then rsInter q.set (tenantGranules s r.tenMap q.tenant) else []

/-- Replay one layer (R165, R167): its readable valid copies fill granules whose bit is clear. -/
def replayLayer (s : State) (run : RestoreRun) (x : Replay) (l : Layer) : Replay :=
  let bad := (run.failed.filter (fun p => p.2 = l.seq)).foldl (fun acc p => rsAdd acc p.1 (p.1 + 1)) []
  l.plaits.foldl (fun x p =>
    let lostHere := rsUnion bad (unreadableIn s run.rim l p)
    p.parts.foldl (fun x q =>
      let valid := rsInter (validPart s run.rim q) x.left
      let good := rsDiff valid lostHere
      { left := rsDiff x.left good
        missed := rsUnion x.missed (rsInter valid lostHere)
        older := rsUnion x.older (rsInter good x.missed)
        dram := x.dram.copy p.contents good }) x) x

/-- The granules of the zeroed tenants (R166). -/
def zeroedGranules (s : State) (run : RestoreRun) : RangeSet :=
  run.zeroed.foldl (fun acc t => rsUnion acc (tenantGranules s run.rim.tenMap t)) []

/-- The whole replay of a NAND restore (R165-R167). -/
def replayImage (s : State) (run : RestoreRun) : Replay :=
  let start : Replay := { left := rsDiff (allGranules s) (zeroedGranules s run), missed := [], older := [], dram := s.nand.dram }
  (imageLayers s run.rim).foldl (replayLayer s run) start

/-- STREAM_START (R165, R168, R274): after Takeover and Load, at an owned slot, and not before the stagger of a stake. -/
def execStreamStart (s : State) : Out :=
  .next (withRun s (fun r =>
    if r.takeoverDone && r.loaded && !r.streaming && !r.streamDone && r.notBefore ≤ s.warp.ns then
      if plaitOrder.any (readable s) then setRun s { r with streaming := true } else restoreFails s
    else s))

/-- STREAM_END (R165, R167): every granule that some copy supplies is written back. -/
def execStreamEnd (s : State) : Out :=
  .next (withRun s (fun r =>
    if r.streaming && !r.streamDone then
      let x := replayImage s r
      let done := rsDiff (rsDiff (allGranules s) (zeroedGranules s r)) x.left
      setRun { s with nand := { s.nand with dram := x.dram } }
        { r with streaming := false, streamDone := true, written := done, older := x.older, lost := x.left }
    else s))

/-- ZERO_FILL_END (R165, R166, R168): clear granules are zero; the RESTORED record and the handback begin. A short restore zeroes the
granules of the zeroed tenants only. -/
def execZeroFillEnd (s : State) : Out :=
  .next (withRun s (fun r =>
    if r.takeoverDone && r.streamDone && !r.zeroDone then
      let z := zeroedGranules s r
      let fill := if r.short then z else rsUnion z r.lost
      let r' := { r with zeroDone := true, zeroCount := rsSize z }
      let s := setRun { s with nand := { s.nand with dram := s.nand.dram.fill fill .zero }, hp := { s.hp with phase := .dataEnd } } r'
      startRim s (if r.imageLost then blankRim s .discard else reuseRim s .restored r.rim) .restoredRim
    else s))

/-! ## Handback (R102, R169) -/

def handPhase (s : State) (p : TakePhase) (f : State → State) : State :=
  if s.hp.phase = p ∧ s.aon.hold = .restore then f s else s

def execHandbackDataEnd (s : State) : Out := .next (handPhase s .dataEnd (fun s => setPhase s .refresh))
def execHandbackRefreshEnd (s : State) : Out := .next (handPhase s .refresh (fun s => setPhase s .replay))

/-- A value through the replay mask of the config store (R97). VrefCA and VrefCS have no MR address and no mask (assumption log entry 12). -/
def replayByte (s : State) (k : MrKey) (v : Byte) : Byte :=
  match k with
  | .mr a => v &&& s.store.cfg.replayMask.getD a.toNat 0
  | _ => v

def replayValue (s : State) : CapEntry → CapEntry × Byte
  | .rank e => (.rank e, replayByte s e.key e.value)
  | .device e => (.device e, replayByte s e.key e.value)

/-- The entries a handback writes (R97, R170): those only the image's table holds, then the captured set in order of last write. -/
def replaySet (s : State) (r : Rim) : List CapEntry :=
  r.capTable.filter (fun e => !e.isDevice && !(s.hp.capture.any (fun x => x.sameKey e))) ++ s.hp.capture

/-- MODE_REPLAY_DONE (R97, R170). -/
def execModeReplayDone (s : State) : Out :=
  .next (handPhase s .replay (fun s =>
    match s.rst.run with
    | some r => { s with hp := { s.hp with phase := .sre, replayed := (replaySet s r.rim).map (replayValue s) } }
    | none => s))

/-- HANDBACK_SRE_DONE (R102): every rank is in self-refresh. -/
def execHandbackSreDone (s : State) : Out :=
  .next (handPhase s .sre (fun s =>
    let all := [Sub.a, Sub.b].flatMap (fun x => ((allFin 16).filter (fun r => r.val < geoNR s.map.geom)).map (fun r => (x, r)))
    let s := { s with hp := { s.hp with phase := .waitRelease, selfRef := all, rows := [] }, nand := { s.nand with dramSr := true } }
    match s.rst.run with
    | some r => setRun s { r with sreDone := true }
    | none => s))

/-- HANDBACK_RELEASE (R102, R169): only once SRE and Commit have ended; DQ goes to the host side, QCK follows the host's DCK. -/
def execHandbackRelease (s : State) : Out :=
  .next (handPhase s .waitRelease (fun s => withRun s (fun r =>
    if r.sreDone && r.committed.isSome then
      { s with hp := { s.hp with phase := .ready }, pins := pinsRelease s.pins }
    else s)))

/-- Persist tenants not zeroed and absent from TENANT_LIST (R172): those that own a granule (assumption log entry 70). -/
def incompleteTenants (s : State) (run : RestoreRun) : List Tenant :=
  (allFin 256).filter (fun t =>
    !(run.zeroed.any (· = t)) && !(run.rim.tenants.any (· = t)) && tenantGranules s run.rim.tenMap t ≠ [])

/-- The report of a restore (R172). -/
def makeReport (s : State) (run : RestoreRun) : Report :=
  { short := run.short, rseq := run.rim.seq, stale := run.stale, rimfb := run.rimfb, partial_ := run.rim.partial_
    subskip := run.rim.subskip, incomplete := incompleteTenants s run, older := run.older, lost := run.lost
    zeroed := run.zeroCount, zeroTenants := run.zeroed, tenMap := run.rim.tenMap }

/-- `none`, or IDs (R172). -/
def tenantList (l : List Tenant) : Val := if l = [] then .kw "none" else .csv (l.map (·.val))

/-- The fields of `*EVT restore=done` and of RESTORE REPORT (R172). -/
def reportFields (r : Report) : List (String × Val) :=
  [("rsrc", .kw (if r.short then "SHORT" else "NAND")), ("rseq", .hex 16 r.rseq), ("stale", flagVal r.stale)
  , ("rimfb", flagVal r.rimfb), ("partial", flagVal r.partial_), ("subskip", flagVal r.subskip)
  , ("incomplete", tenantList r.incomplete), ("older", .nat (rsSize r.older)), ("lost", .nat (rsSize r.lost))
  , ("zeroed", .nat r.zeroed)]

/-- Granules that the next save rewrites (R171): older, lost, and zero-filled ones of tenants that are persist now. Which map names the
tenant of a zero-filled granule the spec leaves open: that of the record, by which it was zeroed (DESIGN CHOICE, assumption log entry 74). -/
def redirty (s : State) (run : RestoreRun) : RangeSet :=
  let z := (run.zeroed.filter (fun t => !attrVolatile (attrOf s t))).foldl
    (fun acc t => rsUnion acc (tenantGranules s run.rim.tenMap t)) []
  rsUnion (rsUnion run.older run.lost) z

/-- T16 (R31, R171, R172, R292). -/
def finishRestore (s : State) (r : RestoreRun) : State :=
  let rep := makeReport s r
  let dirty := redirty s r
  let s := { s with
    aon := { s.aon with img := .track, stale := false }
    map := { s.map with dirty := dirty }
    hp := { s.hp with filter := [] }
    nand := { s.nand with chosen := none, rimfb := false, dramSr := false }
    rst := { req := none, run := none, report := some rep } }
  let s := if r.imageLost then dropImage s else s
  noticeGeneral (logEv (enterServe s) 0 .noticeSent) (EVT (("restore", .kw "done") :: reportFields rep))

/-- HANDBACK_READY (R102): T16. -/
def execHandbackReady (s : State) : Out :=
  .next (handPhase s .ready (fun s => withRun s (fun r => finishRestore s r)))

end Sys2Proof.Machine
end

