-- ==== Sys2Proof/Machine/Power.lean ====
section
/-! DEFINITION. Supplies, the warden reset, resets, and the entry to BOOT (R52, R63, R68, R70, R71, R76, R77, R82, R84-R86,
R388, R398, R407, R408, R414, R415, R430). -/

namespace Sys2Proof.Machine

/-! ## The power-on reset (R63, R70) -/

/-- An open destination between two word lines. A word line cut off by a loss of power shows at BOOT as an unclean shutdown (R150). -/
def FoldDie.still (f : FoldDie) : FoldDie := { f with busy := false, taking := [], closing := false }

/-- What the NAND holds over a loss of power; sequencing and the DRAM are gone. -/
def coldNand (s : State) : Nand :=
  { s.nand with
    dies := s.nand.dies.map (fun d => { d with op := .idle, failed := false, resetSent := false })
    erased := [], tab := none, rimJob := none, noProfile := false, imgloss := none, rimfb := false, rimDead := false, chosen := none
    settle := { s.nand.settle with running := false, folds := s.nand.settle.folds.map FoldDie.still, marginFailed := [] }
    prov := if s.nand.prov = .running then .never else s.nand.prov
    dram := { base := .unknown (s.free + 1), segs := [] }, dramSr := false }

/-- What the config store keeps of the pack (R204, R212, R316). -/
def coldBattery (b : Battery) : Battery :=
  { Battery.reset with set := b.set, stored := b.stored, storedAt := none, ocvNmc := b.ocvNmc, ocvLfp := b.ocvLfp, retryLeft := b.retryLeft }

/-- Tenant map, attributes, key store, owner key and the outcome of each tenant's last erase (R194) are in the config store; all else of D11
and the firmware is gone. -/
def coldTenants (t : Tenants) : Tenants := { t with loaded := [], unusable := [], jobs := [], keyloss := [] }

/-- Policies that D05 and D06 take from the config store. -/
def coldWarp (w : Warp) : Warp :=
  { Warp.reset with interval := w.interval, delay := w.delay, restmax := w.restmax, tables := w.tables, active := w.active
                    stored := w.stored, storeBad := w.storeBad }

def coldMap (m : MapSt) : MapSt :=
  { MapSt.reset with geom := m.geom, eg := m.eg, eFix := m.eFix, eTail := m.eTail, tabLens := m.tabLens, parkWaitNs := m.parkWaitNs }

/-- The power-on reset reaches everything but the non-volatile arrays and the levels that the outside sets (R63, R411). -/
def powerOnReset (s : State) : State :=
  let s := interruptCfl s
  { State.reset with
    pins := { Pins.start with
      vaon := s.pins.vaon, bulk := s.pins.bulk, bulk11 := s.pins.bulk11, vsb := s.pins.vsb, refclk := s.pins.refclk
      drstHigh := s.pins.drstHigh, qalertA := s.pins.qalertA, qalertB := s.pins.qalertB }
    doms := { Domains.reset with drainNs := s.doms.drainNs }
    map := coldMap s.map, nand := coldNand s, rst := { RestoreSt.reset with report := s.rst.report }, ten := coldTenants s.ten
    bat := coldBattery s.bat, shb := coldShb s.shb, warp := coldWarp s.warp
    mg := { Mgmt.reset with idleNs := s.mg.idleNs, secRun := s.mg.secRun, secKeep := s.mg.secKeep, secBad := s.mg.secBad }
    cfl := { Cfl.reset with words := s.cfl.words, counts := s.cfl.counts, uncorr := s.cfl.uncorr, weak := s.cfl.weak }
    store := { Store.reset with cfg := s.store.cfg, areas := s.store.areas, hdrA := s.store.hdrA, hdrB := s.store.hdrB }
    i3c := { I3c.reset with instance_ := s.i3c.instance_ }
    free := s.free + 1, pending := s.pending }

def execPowerOnReset (s : State) : Out := .next (powerOnReset { s with pins := { s.pins with vaon := false } })
def execWardenParityError (s : State) : Out := .next (powerOnReset s)
def execThermalShutdown (s : State) : Out := .next (powerOnReset s)

def porPhase (s : State) (p : PorPhase) (f : State → State) : State := if s.aon.por = p then f s else s
def setPor (s : State) (p : PorPhase) : State := { s with aon := { s.aon with por := p } }

def execPowerOnResetRelease (s : State) : Out :=
  .next (porPhase s .asserted (fun s => setPor { s with pins := { s.pins with vaon := true } } .rcStart))

def execRcStable (s : State) : Out := .next (porPhase s .rcStart (fun s => setPor s .aonInit))

/-- AON_INIT_DONE (R70, R204, R331, R332): the recorder opens a life with LIFE, SEQ 0, and the fault-retry timer resumes from the
remaining time that the config store holds. -/
def execAonInitDone (s : State) : Out :=
  .next (porPhase s .aonInit (fun s =>
    let s := { s with log := Recorder.empty, aon := { s.aon with retryEnd := s.bat.retryLeft.map (fun n => s.aon.us + n * 1000000) } }
    setPor (logEv s 0 .life s.aon.rst.code) .optionLoad))

/-- OPTION_LOAD (R71, R73, R74): the load, and T1 at its end. -/
def execOptionLoad (s : State) : Out :=
  .next (porPhase s .optionLoad (fun s =>
    let s := setPor (latchEnables (loadOptions s)) .up
    let s := { s with aon := { s.aon with hold := .dark, qualifying := onBulk s } }
    applyModes s modesDark))

/-! ## The crystal (R70, R86, R388) -/

def setXtal (s : State) (x : Xtal) : State := { s with aon := { s.aon with xtal := x } }

/-- The crystal starts with the RC stable (R70). -/
def xtalStarted (s : State) : Bool := s.aon.por ≠ .asserted && s.aon.por ≠ .rcStart

def execCrystalConfirmed (s : State) : Out :=
  .next (if xtalStarted s ∧ s.aon.xtal = .pending then setXtal s .ok else s)

def execCrystalTimeout (s : State) : Out :=
  .next (if xtalStarted s ∧ s.aon.xtal = .pending then logEv (setXtal s .fail) 0 .xtalFail else s)

/-- CRYSTAL_RECHECK (R388): a pass clears the fault. -/
def execCrystalRecheck (pass : Bool) (s : State) : Out :=
  .next (if pass ∧ s.aon.xtal = .fail then setXtal s .ok else s)

/-! ## D06 at wake (R273) -/

/-- Stakes whose trigger passed while WARP was in RET and that are more than 1 s late are MISSED. -/
def wakeStakes (s : State) : State :=
  (allFin 64).foldl (fun s i =>
    let x := s.warp.stakes[i.val]
    if x.state = .armed ∧ x.trigger + 1000000000 < s.warp.ns then
      logEv { s with warp := { s.warp with stakes := upd s.warp.stakes i (fun x => { x with state := .missed }) } } 6 .stakeMissed i.val
    else s) s

/-- Modes of a column, with the stakes judged when D06 comes out of RET; with a failed crystal warp time is WIDE then (R278). -/
def applyWake (s : State) (target : State → Dom → DMode) : State :=
  let slept := modeOf s 6 = .ret
  let s := applyModes s target
  if slept ∧ isOn s 6 then
    wakeStakes (if s.aon.xtal = .fail ∧ s.warp.state ≠ .none then { s with warp := { s.warp with state := .wide } } else s)
  else s

/-! ## Entry to BOOT (T2, T14, T21) -/

/-- A domain before BOOT's enables: core FAILED domains are tried again; an optional one that failed reads FAILED until it is enabled,
or OFF once it is in the run-time disable mask (R64, R388). -/
def bootDomain (s : State) (d : Dom) : DomSt :=
  let x := domOf s d
  if x.mode = .failed ∧ (!optional d ∨ !(enabled s d)) then { DomSt.off with en := x.en } else x

/-- Entry to BOOT (R71, R77, R78, R79, R96, R105, R391): the option load, a fresh boot sequence, and what the last BOOT left is
cleared. -/
def bootEntry (s : State) : State :=
  let s := latchEnables (loadOptions s)
  let s := { s with
    aon := { s.aon with
      hold := .boot, boots := s.aon.boots + 1, boot := { BootSt.start with trying := s.aon.opt.bank }
      cause := .none, superseded := none, wdArmed := false, wdResets := [], mgmtHold := false, fwfb := false, noFirmware := false
      hpOk := false, faults := [], parkAlarm := false, qualifying := false }
    pins := { pinsRest s.pins with qrstHigh := s.aon.cont }
    hp := { s.hp with capture := [], mrcapOvf := false, phase := .idle }
    map := { s.map with dqFailA := false, dqFailB := false, descriptors := false, save := none, reload := none }
    rst := { s.rst with req := none, run := none }
    mg := { s.mg with running := false, halted := false, announce := false }
    cfl := { s.cfl with maxpulse := 0, warn8 := 0 }
    ten := { s.ten with loaded := [], unusable := [], keyloss := [], jobs := [] }
    nand := { s.nand with imgloss := none, rimfb := false, rimDead := false, rimJob := none, chosen := none }
    bat := { s.bat with judged := false, better := none } }
  { s with doms := { s.doms with dom := Vector.ofFn (fun d => bootDomain s d) } }

/-- BULK_STABLE (R31 T2, T14; R76, R85). -/
def execBulkStable (s : State) : Out :=
  .next (if s.aon.por = .up ∧ (s.aon.hold = .dark ∨ s.aon.hold = .held) ∧ onBulk s ∧ s.aon.qualifying then bootEntry s else s)

/-- The warm reset (R63, R82, T21): D01 to D19 and every lane from the start; AON keeps the recorder, the image relation, the
continuity flag and the warp count. -/
def warmReset (s : State) : State :=
  let s := interruptCfl (closeSessions (checkpointCells (stopSettle (dropRestore s))))
  let s := (allFin 87).foldl resetLane (warpHold (dropRxQueues s))
  let s := { s with
    aon := { s.aon with rst := .warm, runDisable := Vector.replicate 20 false }
    doms := { s.doms with dom := Vector.ofFn (fun d => if d = 0 then domOf s 0 else DomSt.off) }
    hp := HostPath.reset
    shb := coldShb s.shb
    bat := endRest { s.bat with probe := none, chg := .off }
    nand := { s.nand with dies := s.nand.dies.map (fun x => { x with op := .idle, resetSent := false }) }
    cfl := { s.cfl with key := none, latch := false, waiting := [], fetched := none } }
  bootEntry (settlePlls (settleLanes (logEv (darkWarp s) 0 .resetDone ResetCause.warm.code)))

/-- A program or an erase is under way in the code flash. -/
def flashBusy (s : State) : Bool :=
  match currentOp s with
  | some (.program _ _) | some (.erase _) => true
  | _ => false

/-- RESET WARM: at once, or after the code-flash program or erase under way (R85). -/
def requestWarm (s : State) : State := if flashBusy s then { s with cfl := { s.cfl with warmDue := true } } else warmReset s

/-- The warm reset that waited for a code-flash operation follows its end (R85). -/
def afterOperation (s : State) : State := if s.cfl.warmDue && s.cfl.jobs = [] then warmReset s else s

/-- WORD_PROGRAM_DONE (R353, R354). -/
def execWordProgramDone (pulses : Nat) (pass : Bool) (s : State) : Out := .next (afterOperation (programEnds pulses pass s))

/-- SECTOR_ERASE_DONE (R345, R352, R355). -/
def execSectorEraseDone (pulses : Nat) (pass : Bool) (s : State) : Out := .next (afterOperation (eraseEnds pulses pass s))

/-- CFL_OPERATION_TIMEOUT (R358, R364). -/
def execCflOperationTimeout (s : State) : Out := .next (afterOperation (operationExpires s))

/-! ## VBULK and the triggers (R27, R41, R52, R76, R85, R422) -/

/-- The HELD and DARK columns for the supply of now. -/
def supplyModes (s : State) : State :=
  match s.aon.hold with
  | .held => if onBulk s then applyWake s modesHeldBulk else warpHold (applyModes s modesHeldPack)
  | .dark => applyModes s modesDark
  | _ => s

/-- VBULK_QUALIFY_REACHED (R52, R76, R85). `at11`: VBULK stands at the charger's resume level of 11.0 V too. -/
def execVbulkQualifyReached (at11 : Bool) (s : State) : Out :=
  .next (
    let fresh := s.pins.bulk ≠ .qualified
    let s := { s with pins := { s.pins with bulk := .qualified, bulk11 := at11 }, aon := { s.aon with batEmpty := false } }
    if s.aon.por = .up ∧ (s.aon.hold = .dark ∨ s.aon.hold = .held) then
      supplyModes { s with aon := { s.aon with qualifying := s.aon.qualifying || fresh } }
    else s)

/-- VBULK_QUALIFY_DROP (R52, R85): the 200 ms start again when VBULK next qualifies; HELD and DARK are on the pack. -/
def execVbulkQualifyDrop (s : State) : Out :=
  .next (
    let s := { s with pins := { s.pins with bulk := .low, bulk11 := false }, aon := { s.aon with qualifying := false } }
    if s.aon.por = .up then supplyModes s else s)

/-- Something samples the unplanned triggers: not while the power-on reset runs, nor in HELD and DARK, where T14 and T2 alone lead on
(R31, R406, R414). -/
def sampled (s : State) : Bool := s.aon.por = .up && s.aon.hold ≠ .dark && s.aon.hold ≠ .held

/-- A trigger that comes near the one that led to HELD or DARK is logged beside it (R42): within the 102 us of R98 (assumption log
entry 64). -/
def nearCut (s : State) (c : Cause) : State :=
  match s.aon.trigAt with
  | some t => if s.aon.por = .up ∧ s.aon.us ≤ t + 102 then logEv s 0 .trigger c.code else s
  | none => s

/-- HOLD_L_LOW (R27, R28, R31, R42). -/
def execHoldLLow (s : State) : Out := .next (if sampled s then unplanned s .pin else nearCut s .pin)

/-- VBULK_DROOP (R27, R31, R41, R52). -/
def execVbulkDroop (s : State) : Out :=
  .next (
    let s := { s with pins := { s.pins with bulk := .droop, bulk11 := false }, aon := { s.aon with qualifying := false } }
    if sampled s then unplanned s .droop else if s.aon.por = .up then supplyModes (nearCut s .droop) else s)

/-! ## Other supplies (R415) -/

/-- A port failure on both subchannels in the middle of a save (R107, R415). -/
def portsFail (s : State) : State :=
  let s := skipSub (skipSub (retrainEvents s false false) .a) .b
  match s.map.save with
  | some v =>
    let s := setPhase s .owned
    saveAdvance (setSave s { v with phase := if v.phase = .takeover then .stream else v.phase })
  | none => s

/-- VDDQ_D_LOW (R24, R415). -/
def execVddqDLow (s : State) : Out :=
  .next (
    let s := logEv (dramLost s) 0 .vddqLow
    match s.aon.hold with
    | .save => portsFail s
    | .restore => restoreFails s
    | _ => s)

/-- A domain is marked FAILED (R67, R330): its lanes are DOWN, DOMAIN_FAILED stands in the log, and PSTATE where it was not FAILED
before. An enable under way has ended. -/
def markFailed (s : State) (d : Dom) (kind : PowerFail) : State :=
  let s := logEv s d .domainFailed (match kind with
    | .powerGood => 0
    | .pllLock => 1)
  let s := setMode s d .failed
  settleLanes (setDom s d (fun x => { x with failKind := some kind, issuer := none, enabling := none }))

/-- VCCQ_N_LOW (R67, R415): every NAND channel that is ON is marked FAILED. -/
def execVccqNLow (s : State) : Out :=
  .next (
    let on := (allFin 20).filter (fun d => 12 ≤ d.val && (modeOf s d.val).powered)
    if on = [] then s
    else
      let s := logEv s 0 .vccqLow
      on.foldl channelLost (settlePlls (on.foldl (fun s d => markFailed s d .powerGood) s)))

/-! ## REFCLK (R68, R86, R388) -/

/-- Every enabled PLL loses lock. -/
def PllSt.unlock (x : PllSt) : PllSt := if x = .off then .off else .locking

/-- Every enabled PLL has lock. -/
def PllSt.lock (x : PllSt) : PllSt := if x = .off then .off else .locked

/-- The PLLs lose lock and every PLL-clocked island stalls. -/
def execRefclkLoss (s : State) : Out :=
  .next (if s.pins.refclk then
    logEv { s with pins := { s.pins with refclk := false }
                   doms := { s.doms with pllF := s.doms.pllF.unlock, pllM := s.doms.pllM.unlock, pllN := s.doms.pllN.unlock } } 0 .refclkStop
  else s)

/-- The PLLs that clock a powered domain relock (R68). -/
def relock (s : State) : State :=
  let s := settlePlls s
  { s with doms := { s.doms with pllF := s.doms.pllF.lock, pllM := s.doms.pllM.lock, pllN := s.doms.pllN.lock } }

/-- REFCLK_RETURN (R68). In the FAULT of cause 9 the warden then makes RESET WARM on S7 (R280, R388). -/
def execRefclkReturn (s : State) : Out :=
  .next (if s.pins.refclk then s
    else
      let s := relock { s with pins := { s.pins with refclk := true } }
      if s.aon.hold = .fault ∧ s.aon.boot.noRefclk then requestWarm s else s)

/-- REFCLK_LOSS_LIMIT (R68): T13 or T18. -/
def execRefclkLossLimit (s : State) : Out :=
  .next (if s.pins.refclk then s
    else match s.aon.hold with
      | .save => saveFails s
      | .restore => restoreFails s
      | _ => s)

/-- REFCLK_ABSENT_BOOT (R86): T4, cause 9, and cause 8 when HP failed its check. -/
def execRefclkAbsentBoot (s : State) : Out :=
  .next (if s.aon.hold = .boot ∧ s.pins.refclk = false then
    let hp : List FaultCause := if s.aon.boot.hpReady && !s.aon.hpOk then [.hpSelfcheck] else []
    enterFault { s with aon := { s.aon with boot := { s.aon.boot with noRefclk := true } }, mg := { s.mg with running := false } } (hp ++ [.refclk]) 4
  else s)

/-! ## Temperature (R430) -/

def execTjAlarm (degrees : Int) (s : State) : Out :=
  .next (
    let was := s.aon.tjHigh
    let s := { s with aon := { s.aon with tj := degrees, tjHigh := was || 105 ≤ degrees } }
    if s.aon.tjHigh ∧ !was then logEv s 0 .tjHigh degrees.toNat else s)

def execTjAlarmEnd (degrees : Int) (s : State) : Out :=
  .next { s with aon := { s.aon with tj := degrees, tjHigh := s.aon.tjHigh && !(degrees ≤ 100) } }

/-! ## VSB (R408, R414) -/

/-- VSB_LOSS: a transfer is abandoned, the dynamic address cleared; the pipes keep their contents but for a partial input line. -/
def execVsbLoss (s : State) : Out :=
  .next (
    let cut (q : Ses) : Ses := { q with line := [], lineErr := none }
    let s := setSes (setSes s 5 cut) 6 cut
    { s with pins := { s.pins with vsb := false }, i3c := { s.i3c with dyn := none, hotJoin := false, reply := [] } })

/-- A new Instance value from the DRBG (R408). -/
def drawInstance (s : State) : State :=
  let q := fresh s
  { q.2 with i3c := { q.2.i3c with instance_ := BitVec.ofNat 16 (leNat (Config.drbg q.1 2)) } }

def execVsbPowerUp (s : State) : Out :=
  .next (if s.pins.vsb then s else drawInstance { s with pins := { s.pins with vsb := true } })

end Sys2Proof.Machine
end

