-- ==== Sys2Proof/Machine/Lanes.lean ====
section
/-! DEFINITION. Lanes one flit at a time, enabling and draining domains, the watchdog and the deferred activation (R48-R51, R55-R67,
R69, R107, R116, R380, R390, R391). -/

namespace Sys2Proof.Machine

/-! ## Flits (R49, R62, R69) -/

/-- FLIT_SEND (R49, R57, R62, R68): a source whose clock stands sends nothing. -/
def execFlitSend (lane : LaneId) (flit : Flit) (s : State) : Out :=
  .next (if runs s (laneSource lane) then sendFlit s lane flit else s)

/-- LANE_CORR (R330): a token of its bucket decides whether an entry stands and the count starts again. -/
def noteCorrected (s : State) (n : LaneId) : State :=
  let l := laneOf s n
  let recorded := (takeToken s.log.buckets (laneSink n) (.named .laneCorr) EvKind.laneCorr.sev 0).1
  let s := setLane s n (fun l => { l with corr := l.corr + 1, corrNew := if recorded then 0 else l.corrNew + 1 })
  logEv s (laneSink n) .laneCorr n.val (l.corrNew + 1)

/-- The die that is being loaded over a lane into a channel. -/
def loadingOn (s : State) (n : LaneId) : Option Die :=
  plaitOrder.find? (fun d => dieDom d = laneSink n && (match (dieOf s d).op with
    | .loading _ => true
    | _ => false))

/-- A flit arrives with POISON = 1 (R50, R69): MAP sets every bit of the dirty map for the host's lane (R107), and a strand's plait is
written again (R116). -/
def notePoison (s : State) (n : LaneId) (f : Flit) : State :=
  let s := setLane s n (fun l => { l with poison := l.poison + 1 })
  let s := logEv s (laneSink n) .lanePoison n.val f.tag.toNat
  if n = 0 then logEv (setAllDirty s) 8 .mapPoison
  else match loadingOn s n with
    | some d => strandFailed s d
    | none => s

/-- FLIT_ARRIVAL (R62, R68, R69): the flit is visible at the sink, checked. -/
def execFlitArrival (lane : LaneId) (check : Secded) (s : State) : Out :=
  .next (if runs s (laneSink lane) then
    match (laneOf s lane).flight with
    | [] => s
    | f :: rest =>
      let f := if check = .uncorrectable then { f with poison := true } else f
      let s := setLane s lane (fun l => { l with flight := rest, queue := l.queue ++ [f] })
      let s := if check = .corrected then noteCorrected s lane else s
      if f.poison then notePoison s lane f else s
  else s)

/-- The queue once a flit's work is over: POP takes the first flit, DONE the one whose TAG the work carries, in whatever order works end
(R49). -/
def Lane.finish (l : Lane) (done : Bool) (tag : BitVec 8) : List Flit :=
  if done then l.queue.eraseP (fun f => f.tag = tag) else l.queue.drop 1

/-- The end of work is told in a STAT flit that echoes the TAG, where a lane leads back (R49, R50). -/
def reportEnd (s : State) (n : LaneId) (tag : BitVec 8) (how : WorkEnd) : State :=
  match statLane n with
  | some b => sendFlit s b { kind := .stat, last := true, poison := false, tag := tag, payload := .outcome how }
  | none => s

/-- CREDIT_RETURN (R49, R50, R62, R68, R69): the flit leaves the queue at POP, or when its work has ended. A counter above the depth
halts the lane. While the source is not ON, the sink works its queue off and no counter stands there. -/
def execCreditReturn (back : Returned) (s : State) : Out :=
  .next (
    let lane := back.lane
    let tag := back.tag
    let l := laneOf s lane
    let done := laneDone lane
    if !runs s (laneSink lane) || l.halted then s
    else if !laneUp s lane then setLane s lane (fun l => { l with queue := l.finish done tag })
    else if laneDepth lane < l.credits + 1 then
      let s := logEv (setLane s lane (fun l => { l with halted := true })) (laneSink lane) .laneHalted lane.val
      if coreSaveLane lane then unarm s .laneHalt else s
    else
      let s' := setLane s lane (fun l => { l.refund with queue := l.finish done tag })
      if done && l.queue.any (fun f => f.tag = tag) then reportEnd s' lane tag back.how else s')

/-! ## Enabling (R55, R56, R67) -/

/-- PLL_LOCK (R48, R55, R68): the PLL of a domain that is coming up, or is up, has lock. -/
def execPllLock (pll : Pll) (s : State) : Out :=
  .next (if s.pins.refclk && (allFin 20).any (fun d => pllOf d = some pll && ((domOf s d).enabling.isSome || (modeOf s d.val).powered)) then
    setPll s pll .locked
  else s)

/-- The firmware programs filter pairs 0 to 15 (R236). -/
def bootFilter (node n : Nat) : Filter :=
  let on (id mask : Nat) : Filter := { en := true, fmt := 0, id := BitVec.ofNat 29 id, mask := BitVec.ofNat 29 mask }
  match n with
  | 0 => on 0 0x1C000000
  | 1 => on 0x04000000 0x1C000000
  | 2 => on 0x08000000 0x1C000000
  | 3 => on (0x0C000000 + node) 0x1C0003FF
  | 4 => on 0x10000000 0x1C000000
  | 5 => on (0x14000000 + node) 0x1FF003FF
  | _ => Filter.off

def programFilters (s : State) : State :=
  { s with shb := { s.shb with
      filters := Vector.ofFn (fun n => if n.val < 16 then bootFilter s.aon.opt.nodeId.toNat n.val else s.shb.filters[n.val]) } }

def domFields (s : State) (d : Dom) : List (String × Val) := [("dom", .kw (domText d)), ("pstate", .kw (domOf s d).mode.text)]

/-- A channel serves plaits at once with `img=NONE`, else from the next full save on (R56). -/
def joinStripe (s : State) (d : Dom) : State :=
  if 12 ≤ d.val then
    recomputeCover (reseedEg (setDom s d (fun x => { x with waiting := s.aon.img ≠ .none })))
  else if d = 5 then programFilters s
  else s

/-- DOMAIN_UP (R55, R56, R63): the lanes are reset and UP, the run-time disable mask loses the domain, and the session has its answer. -/
def execDomainUp (dom : Dom) (s : State) : Out :=
  .next (match (domOf s dom).enabling with
    | none => s
    | some session =>
      if (match pllOf dom with
          | some p => !pllOn s p
          | none => false) then s
      else
        let s := setRunDisable (setEnabled (setMode s dom .on) dom true) dom false
        let s := joinStripe (resetLanesOf s dom) dom
        answerBusy s session (.domainEnable dom) (OK (domFields s dom)))

/-- What the loss of a core domain ends (R31, R44, R107, R116, R176, R387): with MAP or XTS nothing can be protected. -/
def coreLost (s : State) (d : Dom) : State :=
  match s.aon.hold with
  | .boot => if d = 2 then enterFault s [.coreDomain] 4 else s
  | .serve | .fault => if d = 8 ∨ d = 11 then unarm s .coreDomain else s
  | .save =>
    if d = 8 then saveFails s
    else if d = 11 then stopPlaits s
    else if d = 9 then saveAdvance (skipSub s .a)
    else if d = 10 then saveAdvance (skipSub s .b)
    else s
  | .restore => if d = 9 ∨ d = 10 ∨ d = 11 then restoreFails s else s
  | _ => s

/-- DOMAIN_POWER_FAIL (R67): FAILED, with its answer to a waiting enable. -/
def execDomainPowerFail (dom : Dom) (kind : PowerFail) (s : State) : Out :=
  .next (
    let x := domOf s dom
    if dom = 0 ∨ !(x.enabling.isSome || x.mode.powered || (s.aon.hold = .boot && enabled s dom && x.mode ≠ .failed)) then s
    else
      let session := x.enabling
      let s := settlePlls (markFailed s dom kind)
      let s := match session with
        | some k => answerBusy s k (.domainEnable dom) (OK (domFields s dom))
        | none => s
      if 12 ≤ dom.val then channelLost s dom else if optional dom then recomputeCover s else coreLost s dom)

/-! ## Draining (R57, R58) -/

/-- Every lane that touches the domain is empty, every counter equals its depth, and no die of the channel is at work. -/
def drained (s : State) (d : Dom) : Bool :=
  (allFin 256).all (fun x => dieDom x ≠ d || (dieOf s x).op = .idle) &&
  ((allFin 87).filter (touches d)).all (fun n =>
    let l := laneOf s n
    l.count = 0 && l.waiting = [] && (!laneUp s n || (l.credits = laneDepth n && !l.halted)))

/-- Where a disable ends: D05 has RET (R48, R57). -/
def gatedMode (d : Dom) : DMode := if d = 5 then .ret else .off

/-- DRAIN_COMPLETE (R57): the domain is gated and joins the run-time disable mask, with its notice. -/
def execDrainComplete (dom : Dom) (s : State) : Out :=
  .next (if (domOf s dom).mode = .draining ∧ drained s dom = true then
    let s := settlePlls (settleLanes (setMode s dom (gatedMode dom)))
    if 12 ≤ dom.val then channelLost s dom else recomputeCover s
  else s)

/-- DRAIN_LIMIT_EXPIRY (R58): STUCK, with its notice (R291). -/
def execDrainLimitExpiry (dom : Dom) (s : State) : Out :=
  .next (if (domOf s dom).mode = .draining then
    let issuer := (domOf s dom).issuer
    let s := logEv (setMode s dom .stuck) dom .drainLimit
    noticeIssuer s issuer (.drain dom) (EVT (domFields s dom))
  else s)

/-! ## The watchdog and the deferred activation (R378, R380, R390, R391) -/

def execWatchdogKick (s : State) : Out :=
  .next (if s.aon.wdArmed ∧ s.mg.running ∧ s.mg.halted = false then { s with aon := { s.aon with wdKick := s.aon.us } } else s)

/-- WATCHDOG_EXPIRY (R390, R391): a management reset, and at the fourth within 600 s the management hold, in which the boot ROM's
recovery set answers on S0, S5 and S6. -/
def execWatchdogExpiry (s : State) : Out :=
  .next (if s.aon.wdArmed then
    let times := s.aon.wdResets.filter (fun t => s.aon.us < t + 600000000) ++ [s.aon.us]
    let s := managementReset { s with aon := { s.aon with wdResets := times } } .mgmtWatchdog
    if 4 ≤ times.length then
      reopenSessions (logEv { s with aon := { s.aon with mgmtHold := true } } 0 .mgmtHold times.length)
    else s
  else s)

def isActivation (j : CflJob) : Bool :=
  match j.use with
  | .activate _ => true
  | _ => false

/-- DEFERRED_ACTIVATION (R85, R378, R380): in SERVE the floor is checked again, BANK is written and the ACTIVATE reset follows; with the
option sequence exhausted the write is refused (R75). -/
def execDeferredActivation (s : State) : Out :=
  .next (if s.aon.deferred ∧ s.aon.hold = .serve ∧ s.mg.running ∧ !(s.cfl.jobs.any isActivation) then
    if hdrSvn (hdrOf s (targetBank s)) < floorOf s then
      startJob { s with aon := { s.aon with deferred := false } } (.verdict false) none
    else if optFull s then s
    else startJob s (.activate false) none
  else s)

end Sys2Proof.Machine
end

