-- ==== Sys2Proof/Machine/Battery.lean ====
section
/-! DEFINITION. The pack, the charger and the estimator step by step, and the BAT verbs (R123, R196-R223, R275, R314-R316,
R388). -/

namespace Sys2Proof.Machine

/-! ## The charger (R200-R204) -/

def ChgMode.charging : ChgMode → Bool
  | .precharge | .cc | .cv | .maint => true
  | _ => false

/-- The pack may be charged at all (R199, R200, R223). -/
def mayCharge (s : State) : Bool :=
  isOn s 1 && cellCount s ≠ 0 && s.bat.present && (s.bat.result = .id || (s.bat.result = .anon && s.aon.opt.anonOk)) &&
  s.bat.est ≠ .sensefail && (match newest s.bat with
    | some x => (ntcTemp x.ntc).isSome
    | none => false)

/-- The mode that the cell voltages call for (R200). -/
def modeByVoltage (s : State) : ChgMode :=
  match newest s.bat with
  | none => .off
  | some x =>
    if x.cells.any (fun v => v < vPre s * 10) then .precharge
    else if x.cells.any (fun v => vChg s * 10 ≤ v) then .cv
    else .cc

/-- Put the charger into a mode. PAUSED remembers the mode that it interrupts. A charge that starts at a SoC of 99 % or more is marked
(R202); a charge's time starts again after DONE, MAINT or OFF (R203). -/
def setChg (s : State) (m : ChgMode) : State :=
  let before := if s.bat.chg = .paused then s.bat.pausedFrom else s.bat.chg
  { s with bat := { s.bat with
      chg := m
      pausedFrom := if m = .paused then before else s.bat.pausedFrom
      fromFull := if m.charging && !before.charging then 99 / 100 ≤ socOf s else s.bat.fromFull
      chgTime := if m = .off ∨ m = .done ∨ m = .maint then 0 else s.bat.chgTime } }

/-- The end of a charge (R200, R202). -/
def chargeEnds (s : State) : State := setChg s (if s.bat.set.maint then .maint else .done)

/-- The mode that the cell voltages call for; a charge that was marked ends at once in CV (R200, R202). -/
def callMode (s : State) : State :=
  let s := setChg s (modeByVoltage s)
  if s.bat.chg = .cv ∧ s.bat.fromFull then chargeEnds s else s

/-- The charger leaves PAUSED once no cause is left (R200). One that held V_maint goes back to MAINT, as the case of this chapter shows
(DEDUCED, assumption log entry 77). -/
def leavePause (s : State) : State :=
  if s.bat.chg = .paused ∧ s.bat.pauses = [] then
    (if s.bat.pausedFrom = .maint ∧ s.bat.set.maint then setChg s .maint else callMode s)
  else s

/-- Qualify the charger as from OFF (R200, R203, R204): the firmware's setpoint is in force. -/
def qualifyCharger (s : State) : State :=
  if !mayCharge s then setChg s .off
  else if s.aon.retryEnd.isSome ∨ s.bat.locked then setChg s .fault
  else if s.bat.pauses ≠ [] then setChg s .paused
  else callMode s

/-- With D02 ON the firmware writes I_set anew (R200, R201). -/
def writeSetpoint (s : State) : State := if s.mg.running then { s with bat := { s.bat with iset := iSet s } } else s

/-- The charger follows its supply and the pack: OFF when it may not charge, on from OFF when it may, on from PAUSED when nothing holds
it. -/
def followCharger (s : State) : State :=
  let s := writeSetpoint s
  if !mayCharge s then setChg s .off
  else if s.bat.chg = .off ∧ (s.mg.running ∨ s.bat.iset ≠ 0) then qualifyCharger s
  else leavePause s

/-- A charger fault (R203, R204): the retry timer starts in AON and the config store has its time; the third within 24 h locks. -/
def chargerFault (s : State) (cause : Nat) : State :=
  let us := s.bat.set.retryNs / 1000
  let times := s.bat.chgFaults.filter (fun t => s.aon.us < t + 86400000000) ++ [s.aon.us]
  let s := setChg s .fault
  let s := { s with
    bat := { s.bat with chgFaults := times, locked := s.bat.locked || 3 ≤ times.length, retryLeft := some (ceilDiv us 1000000) }
    aon := { s.aon with retryEnd := some (s.aon.us + us) } }
  logEv (writeArea s .pack) 1 .chgFault cause

def execChgPrechargeDone (s : State) : Out := .next (if s.bat.chg = .precharge then setChg s .cc else s)

def execChgCvEntry (s : State) : Out :=
  .next (if s.bat.chg = .cc then (if s.bat.fromFull then chargeEnds (setChg s .cv) else setChg s .cv) else s)

/-- I_cmd is at or below I_taper = C/n (R197, R202). -/
def atTaper (s : State) : Bool := s.bat.icmd * s.bat.set.taper ≤ designCap s

/-- CHARGE_END (R202). -/
def execChargeEnd (s : State) : Out := .next (if s.bat.chg = .cv ∧ atTaper s then chargeEnds s else s)

/-- CHG_RECHARGE (R197, R200). -/
def execChgRecharge (s : State) : Out :=
  .next (if s.bat.chg = .done ∧ socOf s ≤ (s.bat.set.recharge : ℚ) / 100 then setChg s .cc else s)

/-- CHG_PAUSE (R200): each cause is kept; a REST window pauses from DONE too (R220). D01 follows its input in HELD and DARK (R52). -/
def execChgPause (cause : PauseCause) (s : State) : Out :=
  .next (
    let s := { s with bat := { s.bat with pauses := if cause ∈ s.bat.pauses then s.bat.pauses else s.bat.pauses ++ [cause] } }
    let s := if s.bat.chg.charging ∨ s.bat.chg = .done then setChg s .paused else s
    if cause = .bulk then supplyModes { s with pins := { s.pins with bulk11 := false } } else s)

def endPause (s : State) (cause : PauseCause) : State :=
  leavePause { s with bat := { s.bat with pauses := s.bat.pauses.filter (fun c => c ≠ cause) } }

def execChgResume (cause : PauseCause) (s : State) : Out :=
  .next (
    let s := if cause = .bulk then supplyModes { s with pins := { s.pins with bulk11 := true } } else s
    endPause s cause)

/-- A fault that D01 itself finds, in whichever mode the charger is (R203). -/
def chargerTrips (s : State) (cause : Nat) : State := if isOn s 1 ∧ s.bat.chg ≠ .fault then chargerFault s cause else s

def execCellOv (s : State) : Out := .next (chargerTrips s 0)
def execPreTimeout (s : State) : Out := .next (if s.bat.chg = .precharge then chargerFault s 1 else s)

/-- CHG_TIMEOUT (R203): CC and CV for more than 10 h in total. -/
def execChgTimeout (s : State) : Out :=
  .next (if (s.bat.chg = .cc ∨ s.bat.chg = .cv) ∧ 36000000 < s.bat.chgTime then chargerFault s 2 else s)
def execBuck (s : State) : Out := .next (chargerTrips s 3)

/-- The timer has run, or `BAT CLEAR` stops it. -/
def clearRetry (s : State) : State :=
  { s with aon := { s.aon with retryEnd := none }, bat := { s.bat with retryLeft := none } }

def execFaultRetryExpiry (s : State) : Out :=
  .next (if s.aon.retryEnd.isSome then
    let s := clearRetry s
    if s.bat.locked then s else qualifyCharger (setChg s .off)
  else s)

/-! ## The pack (R198, R199) -/

def PackResult.text : PackResult → String
  | .none => "NONE"
  | .anon => "ANON"
  | .mismatch => "MISMATCH"
  | .id => "ID"

def setResult (s : State) (r : PackResult) : State :=
  if s.bat.result = r then s
  else logEv { s with bat := { s.bat with result := r } } 2 .packChange (match r with
    | .none => 0
    | .anon => 1
    | .mismatch => 2
    | .id => 3)

/-- The estimator is stopped. -/
def stopEstimator (s : State) : State := { s with bat := { s.bat with cells := [], eavail := 0, imbalance := false } }

/-- A pack record as new-pack learning starts it (R199). -/
def newRecord (serial cap rsInit cells : Nat) : PackRec :=
  { serial := serial, capMah := cap, q := List.replicate cells (BitVec.ofNat 16 cap), rsInit := rsInit
    bins := List.replicate cells (List.replicate 48 { rser := none, rpol := none, count := 0 })
    cycles := 0, est := .learning, anchorWarp := none }

/-- New-pack learning (R199). -/
def learnPack (s : State) (serial rsInit : Nat) : State :=
  let n := cellCount s
  let q := fresh s
  let cells := (List.range n).map (learningCell q.1)
  let s := q.2
  { s with bat := { s.bat with
      packRec := some (newRecord serial (designCap s) rsInit n), cells := cells, rej := List.replicate n 0
      probeRej := List.replicate n 0, est := .learning, anchored := false, probed := false, anchorUs := s.aon.us
      sinceAnchor := cells.map (fun c => (0, c.z)), firstRestReq := none, restStake := false, cycleRest := 0 } }

/-- The learned state goes on (R199, R212): the filter resumes from its checkpoint. -/
def keepPack (s : State) (r : PackRec) : State :=
  let n := cellCount s
  let q := fresh s
  let cells := match s.aon.checkpoint with
    | some l => if l.length = n then l else (List.range n).map (seededCell q.1)
    | none => (List.range n).map (seededCell q.1)
  let s := q.2
  { s with bat := { s.bat with
      packRec := some r, cells := if s.bat.cells.length = n ∧ n ≠ 0 then s.bat.cells else cells, rej := List.replicate n 0
      probeRej := List.replicate n 0, est := if r.est = .sensefail then .learning else r.est
      anchored := r.est = .anchored || r.est = .unanchored, probed := r.est = .anchored || r.est = .unanchored
      sinceAnchor := if s.bat.sinceAnchor.length = n then s.bat.sinceAnchor else cells.map (fun c => (0, c.z)) } }

/-- PACK_PRESENCE_CHANGE (R199, R222): an absent pack stops the estimator and the charger; a present one is to be read. -/
def execPackPresenceChange (present : Bool) (s : State) : Out :=
  .next (
    let s := { s with bat := { s.bat with present := present, judgedPack := true, readTries := 0 } }
    if present then s
    else
      let s := setResult (stopEstimator { s with bat := { s.bat with pid := none, ring := [] } }) .none
      recomputeCover (setChg s .off))

/-- The fields of the identity record (R198). -/
def packChem (b : List Byte) : Nat := leAt b 0x06 1
def packCells (b : List Byte) : Nat := leAt b 0x07 1
def packSerial (b : List Byte) : Nat := leAt b 0x08 8

/-- MAGIC, FORMAT, CRC, the codes and the ranges of R198 hold. -/
def packRecordOk (b : List Byte) : Bool :=
  leAt b 0x00 4 = 0x5A504143 && leAt b 0x04 2 = 1 && packChem b < 2 && 1 ≤ packCells b && packCells b ≤ 3 &&
  packSerial b ≠ 0 && packSerial b ≠ 0xFFFFFFFFFFFFFFFF && 50 ≤ leAt b 0x10 2 && leAt b 0x10 2 ≤ 20000 &&
  100 ≤ leAt b 0x12 2 && leAt b 0x12 2 ≤ 2000 && leAt b 0x3C 4 = (crc32c (b.take 0x3C)).toNat

/-- The record, clamped to the limits of R197. -/
def packIdOf (b : List Byte) : PackId :=
  let top := if packChem b = 1 then 3650 else 4200
  { chem := packChem b, cells := packCells b, serial := packSerial b, capMah := leAt b 0x10 2, ichgMax := leAt b 0x12 2
    vchgMv := min (leAt b 0x14 2) top, tchgMax := if leAt b 0x16 1 = 0 then 45 else min (leAt b 0x16 1) 45
    rsInit := leAt b 0x18 2 }

def packClamped (b : List Byte) : Bool := (if packChem b = 1 then 3650 else 4200) < leAt b 0x14 2 || 45 < leAt b 0x16 1

/-- A valid record (R199). -/
def packIdentified (s : State) (b : List Byte) : State :=
  let p := packIdOf b
  let s := if packClamped b then logEv s 2 .packClamp else s
  let s := { s with bat := { s.bat with pid := some p } }
  if p.chem ≠ s.aon.opt.chem.toNat ∨ p.cells ≠ cellCount s then setResult (stopEstimator s) .mismatch
  else
    let s := setResult s .id
    match s.bat.packRec, s.bat.stored with
    | some r, _ => if r.serial = p.serial then keepPack s r else
        (match s.bat.stored with
         | some x => if x.serial = p.serial then keepPack s x else learnPack s p.serial p.rsInit
         | none => learnPack s p.serial p.rsInit)
    | none, some x => if x.serial = p.serial then keepPack s x else learnPack s p.serial p.rsInit
    | none, none => learnPack s p.serial p.rsInit

/-- No readable record: ANON (R199, R223). -/
def packAnonymous (s : State) : State :=
  let s := { s with bat := { s.bat with pid := none } }
  learnPack (setResult s .anon) 0 0

/-- PACK_EEPROM_READ (R199): a read that fails is repeated up to three times. -/
def execPackEepromRead (ack : Bool) (bytes : List Byte) (s : State) : Out :=
  .next (if s.bat.present && s.mg.running then
    if ack && packRecordOk bytes then
      recomputeCover (followCharger (packIdentified { s with bat := { s.bat with readTries := 0 } } bytes))
    else if s.bat.readTries < 3 then { s with bat := { s.bat with readTries := s.bat.readTries + 1 } }
    else recomputeCover (followCharger (packAnonymous { s with bat := { s.bat with readTries := 0 } }))
  else s)

/-! ## One estimator step (R206-R208, R223) -/

/-- The voltages of `n` cells. A cell for which the conversion brings none has a free value (assumption log entry 7). -/
def filledCells (s : State) (n : Nat) (l : List Nat) : List Nat := (List.range n).map (fun i => l.getD i (Config.cellReading s.free i))

/-- A conversion with a voltage for every cell. -/
def filled (s : State) (n : Nat) (x : Sample) : Sample := { x with cells := filledCells s n x.cells }

/-- A reading that no pack gives (R223): a cell outside 1.0 to 4.8 V, or the sum more than 150 mV off VBAT. -/
def implausible (x : Sample) : Bool :=
  let sum := x.cells.foldl (· + ·) 0
  x.cells.any (fun v => v < 10000 || 48000 < v) || sum + 1500 < x.vbat || x.vbat + 1500 < sum

def spreadOf (l : List Nat) : Nat := l.foldl max 0 - l.foldl min (l.headD 0)

/-- The update of one cell, and with it the run of rejections (R208, R223). -/
def correctCell (s : State) (r : PackRec) (i : ℚ) (n : Nat) (c : Cell) (v : Nat) (rej : Nat) : Cell × Nat :=
  match updateCell s r n i ((v : ℚ) / 10000) c with
  | some c => (c, 0)
  | none => (c, rej + 1)

/-- One cell: predicted, then updated unless the charger pins the voltage. -/
def stepCell (s : State) (r : PackRec) (i dt : ℚ) (n : Nat) (c : Cell) (v : Nat) (rej : Nat) : Cell × Nat :=
  let c := predictCell s r n i (sigmaI s i) dt c
  if s.bat.chg = .cv ∨ s.bat.chg = .maint then (c, rej) else correctCell s r i n c v rej

/-- 50 rejected updates in a row (R223). -/
def resetRejected (s : State) : State :=
  if s.bat.rej.any (fun n => 50 ≤ n) then
    logEv { s with bat := { s.bat with
      cells := (s.bat.cells.zip s.bat.rej).map (fun p => if 50 ≤ p.2 then { p.1 with pzz := 225 / 10000 } else p.1)
      rej := s.bat.rej.map (fun n => if 50 ≤ n then 0 else n), est := .learning, anchored := false, probed := false } } 2 .estReset
  else s

/-- Discharge of `amp` ampere-seconds joins the cycle count (R212, R213). -/
def countCycles (s : State) (amp : ℚ) : State :=
  match s.bat.packRec with
  | none => s
  | some r =>
    let sum := s.bat.cycleRest + max 0 amp / (36 * ((r.capMah : ℚ) / 1000))
    let n := (⌊sum⌋ : ℤ).toNat
    { s with bat := { s.bat with packRec := some { r with cycles := stored 32 (r.cycles.toNat + n : ℕ) }, cycleRest := sum - n } }

/-- The integral of modelled load at the pack terminals goes on while BATSW_EN is asserted (R120, R205, R213). -/
def addLoad (s : State) (dt : ℚ) : State :=
  if s.pins.batsw then { s with bat := { s.bat with loadJ := s.bat.loadJ + loadPower s * dt } } else s

/-- Prediction, update and the running sums (R207, R208, R213). -/
def stepFilter (s : State) (r : PackRec) (x : Sample) (dt : ℚ) : State :=
  let i := packCurrent s
  let steps := ((s.bat.cells.zip (s.bat.rej ++ List.replicate 3 0)).zip x.cells).zipIdx.map (fun p =>
    stepCell s r i dt p.2 p.1.1.1 p.1.2 p.1.1.2)
  let s := countCycles (addLoad s dt) (i * dt)
  resetRejected { s with
    free := s.free + 1
    bat := { s.bat with
      cells := steps.map (·.1), rej := steps.map (·.2), sinceAnchor := s.bat.sinceAnchor.map (fun p => (p.1 + i * dt, p.2)) } }

/-- CC and CV time (R203). -/
def addChargeTime (s : State) (ms : Nat) : State :=
  if s.bat.chg = .cc ∨ s.bat.chg = .cv then { s with bat := { s.bat with chgTime := s.bat.chgTime + ms } } else s

/-- Granules that the save under way has yielded: those it owed and no longer waits for (R215, R222). -/
def yielded (s : State) : Nat :=
  match s.map.save with
  | some v => (v.owed.map (fun p => rsSize p.2)).sum - (v.todo.map (fun p => rsSize p.2)).sum
  | none => 0

/-- The checkpoint in AON (R212). -/
def storeCheckpoint (s : State) : State :=
  { s with aon := { s.aon with checkpoint := some s.bat.cells, checkGrans := yielded s } }

/-- The imbalance alarm (R197, R223). -/
def noteImbalance (s : State) (x : Sample) : State :=
  let high : Bool := imbLimit s * 10 < spreadOf x.cells
  let was := s.bat.imbalance
  let s := { s with bat := { s.bat with imbalance := high } }
  if high && !was then logEv s 2 .imbalance (spreadOf x.cells) else s

/-- The sense path fails (R223). -/
def senseFails (s : State) : State :=
  if s.bat.est = .sensefail then s
  else recomputeCover (setChg (logEv { s with bat := { s.bat with est := .sensefail } } 2 .senseFail) .off)

/-- A conversion and the loop's command are taken; I_cmd lies between 0 and I_set (R201, R206). -/
def takeSample (s : State) (x : Sample) (icmd : Nat) : State := { s with bat := { pushRing s.bat x with icmd := min icmd s.bat.iset } }

/-- ESTIMATOR_STEP (R206-R208, R214, R217). -/
def execEstimatorStep (sample : Sample) (dtMs : Nat) (icmd : Nat) (s : State) : Out :=
  .next (
    if !(s.mg.running && s.bat.present && s.bat.cells ≠ []) then s
    else
      let x := filled s s.bat.cells.length sample
      let s := takeSample s x icmd
      if implausible x then senseFails s
      else if s.bat.est = .sensefail then s
      else match s.bat.packRec with
        | none => s
        | some r =>
          let s := stepFilter s r x ((dtMs : ℚ) / 1000)
          recomputeCover (followCharger (noteImbalance (storeCheckpoint (addChargeTime s dtMs)) x)))

/-- SENSEFAIL_REQUALIFY (R388). -/
def execSensefailRequalify (s : State) : Out :=
  .next (if s.bat.est = .sensefail then
    recomputeCover (followCharger { s with bat := { s.bat with est := .learning, anchored := false, probed := false } })
  else s)

/-- MARGIN_UPGRADE_HOLD (R217). -/
def execMarginUpgradeHold (s : State) : Out :=
  .next (match s.bat.better with
    | some m => takeMargin s m
    | none => s)

/-! ## The warden's accounts (R206, R210) -/

/-- Rest holds (R210). -/
def resting (s : State) (i : ℚ) : Bool :=
  (s.bat.chg = .off || s.bat.chg = .done || s.bat.chg = .paused || s.bat.chg = .fault) && |i| < 5 / 1000

/-- WARDEN_PACK_SAMPLE (R206, R216): every 10 s while D02 is OFF, until end of discharge. -/
def execWardenPackSample (sample : Sample) (icmd : Nat) (s : State) : Out :=
  .next (
    if s.aon.por ≠ .up ∨ (modeOf s 2).powered ∨ s.aon.batEmpty ∨ !s.bat.present then s
    else
      let x := filled s (cellCount s) sample
      let s := addChargeTime (addLoad (followCharger (takeSample s x icmd)) 10) 10000
      let i := packCurrent s
      let a := s.aon.packAcc
      { s with
        free := s.free + 1
        aon := { s.aon with packAcc :=
          { charge := a.charge + i * 10, gap := a.gap + 10, rest := if resting s i then a.rest + 10 else 0, last := x.cells } } })

/-! ## Anchors (R210, R213) -/

/-- The anchor of one cell at a voltage. -/
def anchorCell (s : State) (v : Nat) : Cell :=
  let z := ocvInv s ((v : ℚ) / 10000) (tableTemp s)
  let slope := ocvSlope s z (tableTemp s)
  { z := z, vp := 0, pzz := (sigmaV / slope) * (sigmaV / slope) + 25 / 1000000, pzv := 0, pvv := 1 / 1000000 }

/-- Q after two anchors that differ by 0.30 or more (R213). -/
def learnCapacity (q charge z0 z1 : ℚ) : ℚ :=
  let dz := z0 - z1
  if |dz| < 30 / 100 then q
  else
    let meas := charge / dz / 3600 * 1000
    q + (meas - q) / 4

/-- The anchor's standard deviation is at most 0.03; on a flat point of the curve it has no bound (R210). -/
def anchorCounts (s : State) (c : Cell) : Bool := ocvSlope s c.z (tableTemp s) ≠ 0 && c.pzz ≤ 9 / 10000

/-- An anchor on every cell. It counts only where its deviation is at most 0.03 on each; otherwise it is an ordinary update of R208, with
its count of rejections. -/
def takeAnchor (s : State) (cells : List Nat) : State :=
  match s.bat.packRec with
  | none => s
  | some r =>
    let l := cells.map (anchorCell s)
    if l.all (anchorCounts s) then
      let q := ((r.q.zip (s.bat.sinceAnchor ++ List.replicate 3 (0, 0))).zip l).map (fun p =>
        stored 16 (learnCapacity (p.1.1.toNat : ℕ) p.1.2.1 p.1.2.2 p.2.z))
      let q := if s.bat.anchored then q else r.q
      let s := { s with bat := { s.bat with
        cells := l, anchored := true, anchorUs := s.aon.us, sinceAnchor := l.map (fun c => (0, c.z))
        firstRestReq := none, restStake := false } }
      let s := estNow s
      { s with bat := { s.bat with packRec := some { r with q := q, est := s.bat.est, anchorWarp := some s.warp.ns } } }
    else
      let i := packCurrent s
      let steps := ((s.bat.cells.zip (s.bat.rej ++ List.replicate 3 0)).zip cells).zipIdx.map (fun p =>
        correctCell s r i p.2 p.1.1.1 p.1.2 p.1.1.2)
      resetRejected { s with free := s.free + 1, bat := { s.bat with cells := steps.map (·.1), rej := steps.map (·.2) } }

/-- REST_ANCHOR (R210). -/
def execRestAnchor (s : State) : Out :=
  .next (match newest s.bat with
    | some x =>
      if packUsable s && s.mg.running && resting s (packCurrent s) then
        recomputeCover (storeCheckpoint (takeAnchor { s with free := s.free + 1 } x.cells))
      else s
    | none => s)

/-- The warden's accounts of the gap; in a save the gap is that of the granules yielded since the checkpoint, each of e_g and t_g (R222). -/
def gapAcc (s : State) : PackAcc :=
  if s.aon.hold = .save then
    let n : ℚ := (yielded s - s.aon.checkGrans : ℕ)
    { charge := n * s.map.eg / packVolts (((newest s.bat).map (·.cells)).getD []), gap := n * granuleTime s, rest := 0, last := [] }
  else s.aon.packAcc

/-- At firmware start the estimator predicts over the gap with the accumulated charge, then anchors if rest held for 20 min (R206,
R222). -/
def resumeEstimator (s : State) : State :=
  let a := gapAcc s
  let cells := match s.aon.checkpoint with
    | some l => if s.bat.cells = [] ∧ s.bat.present then l else s.bat.cells
    | none => s.bat.cells
  let s := { s with bat := { s.bat with cells := cells }, aon := { s.aon with packAcc := { charge := 0, gap := 0, rest := 0, last := [] } } }
  match s.bat.packRec with
  | none => s
  | some r =>
    if a.gap = 0 ∨ cells = [] then s
    else
      let i := a.charge / a.gap
      let s := countCycles { s with bat := { s.bat with
        cells := (cells.zipIdx).map (fun p => predictCell s r p.2 i (sigmaI s i) a.gap p.1)
        sinceAnchor := s.bat.sinceAnchor.map (fun p => (p.1 + a.charge, p.2)) } } a.charge
      if 1200 ≤ a.rest ∧ a.last.length = cells.length then takeAnchor s a.last else s

/-! ## Probes (R211) -/

/-- A measurement within 0.3 to 3 times the table's value. -/
def accepted (meas table : ℚ) : Bool := table * 3 / 10 ≤ meas && meas ≤ table * 3

/-- Five rejected probes in a row on a cell log an event. -/
def noteProbe (s : State) (cell : Nat) (ok : Bool) : State :=
  let n := s.bat.probeRej.getD cell 0
  if ok then { s with bat := { s.bat with probeRej := s.bat.probeRej.set cell 0 } }
  else if 5 ≤ n + 1 then logEv { s with bat := { s.bat with probeRej := s.bat.probeRej.set cell 0 } } 2 .probeRejected cell
  else { s with bat := { s.bat with probeRej := s.bat.probeRej.set cell (n + 1) } }

/-- One cell's r_ser (R211): `m` in 0.1 mOhm. -/
def probeSer (s : State) (cell : Nat) (z m : ℚ) : State :=
  match s.bat.packRec with
  | none => s
  | some r =>
    let old := binSer s r cell (socBin z) (tempBin (packTemp s))
    if accepted m old then
      let r := setBin r cell (socBin z) (tempBin (packTemp s)) (fun b =>
        { b with rser := some (stored 16 (old + (m - old) / 4)), count := stored 8 (b.count.toNat + 1 : ℕ) })
      noteProbe { s with bat := { s.bat with packRec := some r, probed := true } } cell true
    else noteProbe s cell false

def probePol (s : State) (cell : Nat) (z m : ℚ) : State :=
  match s.bat.packRec with
  | none => s
  | some r =>
    let old := binPol s r cell (socBin z) (tempBin (packTemp s))
    if accepted m old then
      let r := setBin r cell (socBin z) (tempBin (packTemp s)) (fun b => { b with rpol := some (stored 16 (old + (m - old) / 4)) })
      noteProbe { s with bat := { s.bat with packRec := some r } } cell true
    else noteProbe s cell false

def milli (v : Nat) : ℚ := (v : ℚ) / 10000

/-- `est=` after a probe: LEARNING may end (R209). -/
def estAfterProbe (s : State) : State := if s.bat.est = .learning then estNow s else s

/-- IMPEDANCE_PROBE (R211): V_a, 1 ms after BATSW_EN. -/
def execImpedanceProbe (after : List Nat) (s : State) : Out :=
  .next (match s.bat.probe with
    | none => s
    | some p =>
      if p.after ≠ [] ∨ !packUsable s then s
      else
        let after := filledCells s p.before.length after
        let dI := loadPower s / packVolts after - p.dI
        let s := { s with free := s.free + 1 }
        if dI < 1 then { s with bat := { s.bat with probe := none } }
        else
          let s := { s with bat := { s.bat with probe := some { p with after := after, dI := dI, z0 := s.bat.cells.map (·.z) } } }
          estAfterProbe (((p.before.zip after).zipIdx).foldl (fun s x =>
            probeSer s x.2 ((s.bat.cells.map (·.z)).getD x.2 0) ((milli x.1.1 - milli x.1.2) / dI * 10000)) s))

/-- POLARISATION_PROBE (R211): V_2, 2 s into a save. -/
def execPolarisationProbe (after2s : List Nat) (s : State) : Out :=
  .next (match s.bat.probe with
    | none => s
    | some p =>
      if p.after = [] ∨ !packUsable s ∨ s.aon.hold ≠ .save then s
      else
        let t := tableTemp s
        let s' := ((p.after.zip (filledCells s p.after.length after2s)).zipIdx).foldl (fun s x =>
          let z := (s.bat.cells.map (·.z)).getD x.2 0
          let dOcv := ocv s (p.z0.getD x.2 0) t - ocv s z t
          probePol s x.2 z ((milli x.1.1 - milli x.1.2 - dOcv) / (p.dI * (1 - expNeg (2 / tau s))) * 10000)) s
        { s' with free := s'.free + 1, bat := { s'.bat with probe := none } })

/-! ## A pack that never rests (R218-R220, R275) -/

/-- Hours since the last anchor. -/
def anchorHours (s : State) : Nat := (s.aon.us - s.bat.anchorUs) / 3600000000

/-- UNANCHORED (R218): 72 h without an anchor; the alarm is one of `alarms`. -/
def execUnanchored (s : State) : Out :=
  .next (if packUsable s ∧ s.bat.est ≠ .unanchored ∧ 72 ≤ anchorHours s then
    recomputeCover (logEv { s with bat := { s.bat with est := .unanchored } } 2 .unanchored)
  else s)

/-- The REST condition's SoC (R219). -/
def aboveParksafe (s : State) : Bool := (s.bat.set.parksafe : ℚ) / 100 ≤ socOf s

/-- The condition under which a REST window is wanted (R219): 168 h without an anchor, and SoC at or above the park-safe threshold. -/
def restWanted (s : State) : Bool := packUsable s && aboveParksafe s && 168 ≤ anchorHours s

/-- REST_REQUEST (R219, R275). -/
def execRestRequest (s : State) : Out :=
  .next (if restWanted s && s.mg.running then
    let s := logEv (noticeAll s (EVT [("bat", .kw "REST_REQUEST")])) 2 .restReq
    let s := { s with bat := { s.bat with
      firstRestReq := some (s.bat.firstRestReq.getD s.aon.us), restStake := s.bat.firstRestReq.isSome && s.bat.restStake } }
    if isOn s 5 then
      fwSend s (makeId 1 1 s.aon.opt.nodeId.toNat 0)
        ([BitVec.ofNat 8 (socPct s), BitVec.ofNat 8 s.bat.est.code] ++ leBytes 2 (min 65535 (anchorHours s)) ++ [0, 0, 0, 0])
    else s
  else s)

/-- A REST window opens (R220): the charger is PAUSED for 30 min. -/
def openRest (s : State) : State :=
  let s := { s with bat := { s.bat with
    restUntil := some (s.aon.us + 1800000000)
    pauses := if PauseCause.rest ∈ s.bat.pauses then s.bat.pauses else s.bat.pauses ++ [.rest] } }
  if s.bat.chg.charging ∨ s.bat.chg = .done then setChg s .paused else s

/-- No REST stake has arrived 24 h after the first request (R219). -/
def stakeMissing (s : State) : Bool := s.bat.firstRestReq.any (fun t => t + 86400000000 ≤ s.aon.us) && !s.bat.restStake

/-- SELF_REST_WINDOW (R219). -/
def execSelfRestWindow (s : State) : Out :=
  .next (if s.aon.hold = .serve ∧ restWanted s ∧ (s.aon.opt.join = 3 ∨ stakeMissing s) then openRest s else s)

def execRestWindowEnd (s : State) : Out :=
  .next (if s.bat.restUntil.isSome then endPause { s with bat := { s.bat with restUntil := none } } .rest else s)

/-- PACK_RECORD_WRITE (R212): at most once in any 24 h. -/
def execPackRecordWrite (s : State) : Out :=
  .next (
    let due := match s.bat.storedAt with
      | some t => t + 86400000000 ≤ s.aon.us
      | none => true
    if s.mg.running && s.bat.packRec.isSome && due then
      writeArea { s with bat := { s.bat with stored := s.bat.packRec, storedAt := some s.aon.us } } .pack
    else s)

/-! ## Energy in a save (R123, R215, R216) -/

/-- E_REM_UPDATE (R215): the firmware's value replaces MAP's copy, which R123 compares before each plait. -/
def execERemUpdate (s : State) : Out :=
  .next (if s.aon.hold = .save ∧ s.mg.running then { s with map := { s.map with eRem := energyWith s 1, eStale := false } } else s)

def execERemStale (s : State) : Out :=
  .next (if s.aon.hold = .save then { s with map := { s.map with eStale := true } } else s)

/-- END_OF_DISCHARGE (R123, R216). -/
def execEndOfDischarge (s : State) : Out :=
  .next (match s.aon.hold with
    | .save => stopPlaits { s with bat := { s.bat with eod := true } }
    | .held | .dark =>
      if s.aon.por = .up ∧ onBulk s = false ∧ s.aon.batEmpty = false then
        logEv { s with aon := { s.aon with batEmpty := true } } 0 .batEmpty
      else s
    | _ => s)

/-- HW_FLOOR_COMPARATOR (R216). -/
def execHwFloorComparator (s : State) : Out :=
  .next (if s.aon.hold = .save then stopPlaits { s with aon := { s.aon with hwFloor := true } } else s)

/-! ## Verbs (R315, R316) -/

def ChgMode.text : ChgMode → String
  | .off => "OFF"
  | .precharge => "PRECHARGE"
  | .cc => "CC"
  | .cv => "CV"
  | .done => "DONE"
  | .maint => "MAINT"
  | .paused => "PAUSED"
  | .fault => "FAULT"

/-- A ratio in tenths of a percent. -/
def permille (x : ℚ) : Int := ⌊x * 1000⌋

def sigmaOf (s : State) : ℚ := ((weakest s).map (fun p => sqrtQ p.2.pzz)).getD 0

/-- `fade=` (R213). -/
def fadeOf (s : State) : ℚ :=
  match s.bat.packRec, weakest s with
  | some r, some (i, _) => if r.capMah = 0 then 0 else 1 - cellQ r i * 1000 / r.capMah
  | _, _ => 0

/-- `zgrow=` (R213): the mean over the bins in use. -/
def zgrowOf (s : State) : ℚ :=
  match s.bat.packRec with
  | none => 0
  | some r =>
    let l := (r.bins.flatMap (fun cell => (cell.zipIdx).filterMap (fun p =>
      let d := defaultSer s r (p.2 % 8) (p.2 / 8)
      if 1 ≤ p.1.count.toNat then some (figure p.1.rser d / d - 1) else none)))
    if l = [] then 0 else l.foldl (· + ·) 0 / l.length

def hundredths (n : Nat) : String := decText (n / 100) ++ "." ++ two (n % 100)

def ntcText (s : State) : String :=
  match newest s.bat with
  | some x => (match x.ntc with
    | .temp _ => "OK"
    | .opened => "OPEN"
    | .shorted => "SHORT")
  | none => "NONE"

def retrySeconds (s : State) : Nat :=
  match s.aon.retryEnd with
  | some t => ceilDiv (t - s.aon.us) 1000000
  | none => 0

def batVerb (k : Sess) : Verb :=
  verb k .view false anyState (fun _ => []) (fun s => okAns s
    [("pack", .kw s.bat.result.text), ("chg", .kw s.bat.chg.text), ("soc", .tenths (permille (socOf s)))
    , ("sigma", .tenths (permille (sigmaOf s))), ("est", .kw s.bat.est.text), ("eavail", .nat (eavailJ s))
    , ("margin", .kw s.bat.margin.text), ("fade", .tenths (permille (fadeOf s))), ("zgrow", .int ⌊zgrowOf s * 100⌋)
    , ("cycles", .kw (hundredths ((s.bat.packRec.map (·.cycles.toNat)).getD 0)))
    , ("cells", .csv (match newest s.bat with
        | some x => x.cells.map (· / 10)
        | none => []))
    , ("temp", .int ((packTemp s).getD 0 / 10)), ("ntc", .kw (ntcText s)), ("retry", .nat (retrySeconds s))])

/-- A setting with one key changed. -/
def putBatKey (b : BatSet) (k : BatKey) (v : Nat) : BatSet :=
  match k with
  | .vchg => { b with vchg := some v }
  | .vmaint => { b with vmaint := some v }
  | .vcut => { b with vcut := some v }
  | .imb => { b with imb := some v }
  | .recharge => { b with recharge := v }
  | .taper => { b with taper := v }
  | .ichg => { b with ichg := some v }
  | .maint => { b with maint := v = 1 }
  | .retry => { b with retryNs := v }
  | .parksafe => { b with parksafe := v }
  | .cap => { b with cap := v }
  | .pmod => { b with pmod := v }

def putBatKeys (b : BatSet) (l : List (BatKey × Nat)) : BatSet := l.foldl (fun b p => putBatKey b p.1 p.2) b

/-- V_chg that a line's settings would give. -/
def vChgWith (s : State) (b : BatSet) : Nat := vChg { s with bat := { s.bat with set := b } }

/-- A value in range (R197, R316), under the settings that the whole line makes. -/
def batKeyOk (s : State) (b : BatSet) (k : BatKey) (v : Nat) : Bool :=
  let lfp := isLfp s
  let packV := match s.bat.pid with
    | some p => if p.vchgMv = 0 then 5000 else p.vchgMv
    | none => 5000
  let packI := match s.bat.pid with
    | some p => p.ichgMax
    | none => 2000
  let within (lo hi : Nat) : Bool := lo ≤ v && v ≤ hi
  match k with
  | .vchg => (if lfp then within 3400 3650 else within 3800 4200) && v % 10 = 0 && v ≤ packV
  | .vmaint => within (if lfp then 3300 else 3600) (vChgWith s b) && v % 10 = 0
  | .vcut => (if lfp then within 2200 2800 else within 2800 3300) && v % 10 = 0
  | .imb => within 20 300 && v % 10 = 0
  | .recharge => within 80 99
  | .taper => within 5 50
  | .ichg => within 100 2000 && v % 10 = 0 && v ≤ packI
  | .maint => v ≤ 1
  | .retry => within 60000000000 86400000000000
  | .parksafe => within 20 90
  | .cap => within 50 20000
  | .pmod => within 1000 60000

def batKeyText : BatKey → String
  | .vchg => "vchg"
  | .vmaint => "vmaint"
  | .vcut => "vcut"
  | .imb => "imb"
  | .recharge => "recharge"
  | .taper => "taper"
  | .ichg => "ichg"
  | .maint => "maint"
  | .retry => "retry"
  | .parksafe => "parksafe"
  | .cap => "cap"
  | .pmod => "pmod"

def batKeyVal (k : BatKey) (v : Nat) : Val :=
  match k with
  | .maint => boolVal (v = 1)
  | .retry => .dur v
  | _ => .nat v

def batSetVerb (k : Sess) (keys : List (BatKey × Nat)) : Verb :=
  verb k .keep false [SV, PK, FT]
    (fun s => [(keys.any (fun p => !batKeyOk s (putBatKeys s.bat.set keys) p.1 p.2), 101), (cfgGuard s k, 209)])
    (fun s =>
      let old := s.bat.set.pmod
      let s := storesCfg { s with bat := { s.bat with set := putBatKeys s.bat.set keys } }
      let s := if s.bat.set.pmod = old then s else reseedAll s
      okAns (recomputeCover (writeSetpoint s)) (keys.map (fun p => (batKeyText p.1, batKeyVal p.1 p.2))))

def batClearVerb (k : Sess) : Verb :=
  verb k .keep false [SV, FT] (fun _ => []) (fun s =>
    let s := clearRetry { s with bat := { s.bat with locked := false, chgFaults := [] } }
    let s := qualifyCharger (setChg s .off)
    okAns s [("chg", .kw s.bat.chg.text)])

def batRestVerb (k : Sess) : Verb :=
  verb k .run false [SV, PK] (fun _ => []) (fun s =>
    okAns (openRest s) [("rest", .kw "ON"), ("until", .nat (s.warp.ns + 1800000000000))])

def chemText (c : Nat) : String := if c = 1 then "LFP" else "NMC"

def batOcvloadVerb (k : Sess) (chem off : Nat) (data : List Byte) : Verb :=
  verb k .keep false [SV, FT]
    (fun s => [(2 ≤ chem || pieceLen data, 101), (pieceOut s k (.ocv chem) off, 113)])
    (fun s =>
      let s := stagePiece s k (.ocv chem) off data
      okAns s [("off", .nat off), ("len", .nat data.length)])

/-- A whole OCV table: 21 SoC points of 4 temperatures, 16 bits each in mV, SoC point by SoC point (R212; assumption log entry 22). -/
def ocvTableOf (l : List Byte) : List Nat := (List.range 84).map (fun i => leAt l (2 * i) 2)

def batOcvloadCommitVerb (k : Sess) (chem : Nat) : Verb :=
  verb k .keep false [SV, FT] (fun _ => [(2 ≤ chem, 101)]) (fun s =>
    let l := staged s k (.ocv chem)
    let s := setStaged s k (.ocv chem) []
    if l.length ≠ 168 then err s 112
    else
      let t := ocvTableOf l
      let s := { s with bat := if chem = 1 then { s.bat with ocvLfp := some t } else { s.bat with ocvNmc := some t } }
      okAns (recomputeCover (writeArea s .pack)) [("chem", .kw (chemText chem))])

def batTableVerb (k : Sess) (cell : Nat) : Verb :=
  verb k .view false anyState (fun s => [(cellCount s ≤ cell, 101)]) (fun s =>
    let r := s.bat.packRec.getD (newRecord 0 (designCap s) 0 (cellCount s))
    let n (x : ℚ) : String := decText ((⌊x⌋ : ℤ)).toNat
    let item (i : Nat) : String :=
      n (binSer s r cell (i % 8) (i / 8)) ++ ":" ++ n (binPol s r cell (i % 8) (i / 8)) ++ ":" ++ decText (binOf r cell (i % 8) (i / 8)).count.toNat
    okAns s [("cell", .nat cell), ("q", .nat (r.q.getD cell 0).toNat), ("bins", .kw (joinWith "," ((List.range 48).map item)))])

def execBat (k : Sess) (s : State) : Out := .next (onVerb s k (.bat k) false (batVerb k))
def execBatSet (k : Sess) (keys : List (BatKey × Nat)) (s : State) : Out := .next (onVerb s k (.batSet k keys) false (batSetVerb k keys))
def execBatClear (k : Sess) (s : State) : Out := .next (onVerb s k (.batClear k) false (batClearVerb k))
def execBatRest (k : Sess) (s : State) : Out := .next (onVerb s k (.batRest k) false (batRestVerb k))
def execBatOcvload (k : Sess) (chem off : Nat) (data : List Byte) (s : State) : Out :=
  .next (onVerb s k (.batOcvload k chem off data) false (batOcvloadVerb k chem off data))
def execBatOcvloadCommit (k : Sess) (chem : Nat) (s : State) : Out :=
  .next (onVerb s k (.batOcvloadCommit k chem) false (batOcvloadCommitVerb k chem))
def execBatTable (k : Sess) (cell : Nat) (s : State) : Out := .next (onVerb s k (.batTable k cell) false (batTableVerb k cell))

end Sys2Proof.Machine
end

