-- ==== Sys2Proof/Machine/Boot.lean ====
section
/-! DEFINITION. The phases of BOOT, the image derivation, T3, T4 and provisioning (R78-R83, R86, R130, R141-R143, R151-R153, R158,
R161-R163, R184, R192, R195, R206, R236, R266, R342, R381, R387). -/

namespace Sys2Proof.Machine

def setBoot (s : State) (f : BootSt → BootSt) : State := { s with aon := { s.aon with boot := f s.aon.boot } }

/-! ## Domains and HP -/

/-- Table 0 of the first BOOT, while the config store holds none (R268). -/
def firstTable (s : State) : State :=
  if s.warp.tables.toList.all (·.isNone) then
    { s with warp := { s.warp with tables := s.warp.tables.set 0 (some (SlotTable.first s.aon.opt.nodeId.toNat)), active := 0 } }
  else s

/-- The count at the first BOOT after AON was lost (R266, R278): the stored count plus 3600 s, or 0, and `warp=NONE`. -/
def startWarp (s : State) : State :=
  let s := firstTable s
  if s.aon.boots ≠ 1 then s
  else
    let s := if s.warp.storeBad then logEv s 6 .warpCountBad else s
    let ns := match s.warp.stored with
      | some n => if s.warp.storeBad then 0 else n + 3600000000000
      | none => 0
    { s with warp := { s.warp with ns := ns, state := .none, unset_ := true } }

/-- BOOT_DOMAINS_UP (R54, R78): needs REFCLK (R86). -/
def execBootDomainsUp (s : State) : Out :=
  .next (if s.aon.hold = .boot ∧ s.aon.boot.domainsUp = false ∧ s.pins.refclk = true then
    let s := relock (applyWake s modesBoot)
    setBoot (holdElection (startWarp (loadProtection s))) (fun b => { b with domainsUp := true })
  else s)

/-- HP_READY (R78, R81, R86): HP_OK depends on the hardware only. -/
def execHpReady (pass : Bool) (s : State) : Out :=
  .next (if s.aon.hold = .boot ∧ s.aon.boot.hpReady = false ∧ (s.aon.boot.domainsUp = true ∨ s.pins.refclk = false) then
    let s := setBoot s (fun b => { b with hpReady := true })
    { s with aon := { s.aon with hpOk := pass }, hp := { s.hp with rcd := [] } }
  else s)

/-! ## The boot ROM (R79, R80) -/

/-- The boot ROM runs on D02, from the domains being up (in BOOT, once HP has answered: its check ends first) or from a management
reset. -/
def romRuns (s : State) : Bool :=
  (modeOf s 2).powered && s.pins.refclk && !s.aon.mgmtHold && !s.aon.noFirmware && !s.mg.running &&
  (s.aon.hold ≠ .boot || (s.aon.boot.domainsUp && s.aon.boot.hpReady)) && !s.aon.boot.noRefclk

/-- No bank passes (R80): the recovery set answers; in BOOT, T4. -/
def noBank (s : State) : State :=
  let s := logEv { s with aon := { s.aon with noFirmware := true } } 0 .noBank
  let s := if s.aon.hold = .boot then
    enterFault s ([.noFirmware] ++ (if s.aon.hpOk then [] else [.hpSelfcheck])) 4 else s
  if s.aon.hold = .held ∨ s.aon.hold = .dark then s else reopenSessions s

/-- A bank fails a check: the other one with FALLBACK = 1, else none (R79). -/
def bankFails (s : State) : State :=
  if !s.aon.boot.second && s.aon.opt.fallback then
    setBoot s (fun b => { b with trying := otherBank b.trying, second := true, header := false })
  else noBank s

/-- D03 must be ON to be read. -/
def execHeaderCheck (s : State) : Out :=
  .next (if romRuns s && !s.aon.boot.header then
    if isOn s 3 && bootHeaderOk s s.aon.boot.trying then setBoot s (fun b => { b with header := true }) else bankFails s
  else s)

/-- BODY_CHECK (R79, R346): a bank that passes is the running one, its key in the fetch-key register. -/
def execBodyCheck (s : State) : Out :=
  .next (if romRuns s && s.aon.boot.header && !s.aon.boot.body then
    let b := s.aon.boot.trying
    if isOn s 3 && bodyDigestOk s b then
      let s := setBoot { s with cfl := { s.cfl with key := some b } } (fun x => { x with body := true })
      let s := { s with aon := { s.aon with bank := b, fwfb := s.aon.boot.second } }
      if s.aon.fwfb then logEv s 2 .bankFallback else s
    else bankFails s
  else s)

/-! ## The firmware (R78, R82, R83) -/

/-- The key store is loaded (R186, R192, R195): an erase-list bit reads ERASED; a blob that fails its CRC is lost. -/
def loadKeys (s : State) : State :=
  let one (s : State) (t : Tenant) : State :=
    let a := attrOf s t
    if s.ten.eraseList.any (· = t) ∨ s.aon.erases.any (· = t) then setSlot s t 3
    else match s.ten.blobs[t.val] with
      | some b =>
        if b.crcOk then
          let s := setSlot s t b.slot
          if s.ten.unusable.any (· = t) then s else { s with ten := { s.ten with loaded := insertFin t s.ten.loaded } }
        else
          let s := setSlot { s with ten := { s.ten with keyloss := insertFin t s.ten.keyloss } } t 0
          logEv s 2 .keyLost t.val
      | none =>
        if slotLoaded a then logEv (setSlot { s with ten := { s.ten with keyloss := insertFin t s.ten.keyloss } } t 0) 2 .keyLost t.val
        else s
  (allFin 256).foldl one s

/-- The pack record is read again: what was learned since it was written is gone, `est=` and the anchor's time were written on change
(R212). -/
def reloadPack (s : State) : State :=
  match s.bat.packRec, s.bat.stored with
  | some r, some x =>
    if r.serial = x.serial then
      { s with bat := { s.bat with packRec := some { x with est := r.est, anchorWarp := r.anchorWarp } } }
    else s
  | _, _ => s

/-- The thermometer at the first firmware start after an activation (R381): raised to the running image's SVN unless a fallback runs. -/
def raiseThermometer (s : State) : State :=
  if s.aon.activated then
    if s.aon.bank = s.aon.opt.bank ∧ s.aon.fwfb = false ∧ thermoCount s < hdrSvn (hdrOf s s.aon.bank) then startJob s .thermo none
    else { s with aon := { s.aon with activated := false } }
  else s

/-- A two-copy area has one erased copy once the firmware runs (R350); the key store's old copy follows R192. -/
def settleAreas (s : State) : State :=
  allAreas.foldl (fun s a => if a = .keys then s else setArea s a { areaOf s a with otherErased := true }) s

/-- FIRMWARE_START (R78, R83, R192, R206, R236, R381, R390). -/
def execFirmwareStart (s : State) : Out :=
  .next (if romRuns s && s.aon.boot.body && !s.aon.boot.firmware then
    let s := setBoot s (fun b => { b with firmware := true })
    let s := { s with mg := { s.mg with running := true, halted := false }
                      aon := { s.aon with wdArmed := true, wdKick := s.aon.us }
                      bat := { s.bat with readTries := 0 } }
    let s := resumeErases (loadKeys (settleAreas (reopenSessions s)))
    let s := resumeEstimator (reloadPack (if isOn s 5 then programFilters s else s))
    raiseThermometer (recomputeCover s)
  else s)

/-- ROOT_AND_SELFTESTS (R78, R92, R184): an invalid geometry word fails the MAP test. -/
def execRootAndSelftests (root xts map : Bool) (s : State) : Out :=
  .next (if s.aon.hold = .boot ∧ s.aon.boot.firmware = true ∧ s.aon.boot.tests = false then
    setBoot s (fun b => { b with tests := true, rootOk := root, xtsOk := xts, mapOk := map && geoValid s.map.geom })
  else s)

/-! ## Image derivation (R130, R143, R151, R158, R161-R163) -/

def targetOf (d : Die) : Fin 64 := Fin.ofNat 64 (dieCh d * 8 + dieTgt d)

/-- What a target's ID says (R130). -/
inductive TargetId | matching | mismatch | absent
  deriving DecidableEq, Repr

/-- The bytes of a 48-bit ID that a mask of one bit per byte compares (R131 IDMASK). -/
def idBits (mask : Byte) (id : BitVec 48) : List Byte :=
  ((List.range 6).filter (fun i => mask.getLsbD i)).map (fun i => id.extractLsb' (8 * i) 8)

/-- A target's ONFI ID against the profile (R130): an invalid profile matches no target. -/
def targetId (p : Profile) (facts : NandFacts) (x : Fin 64) : TargetId :=
  match look x facts.ids with
  | none => .absent
  | some id => if p.valid && !facts.profileBad && idBits p.idMask id = idBits p.idMask p.idBytes then .matching else .mismatch

/-- Identification: the dies of matching targets on the channels that are ON; a fenced die rejoins when it answers its RESET. -/
def identify (s : State) (facts : NandFacts) : State :=
  let p := s.nand.profile
  let dies : Vector DieSt 256 := Vector.ofFn (fun d =>
    let x := dieOf s d
    let x := { x with failed := false, op := .idle, resetSent := false }
    if isOn s (12 + dieCh d) then
      match targetId p facts (targetOf d) with
      | .matching => { x with present := dieLun d < p.luns, mismatch := false, fenced := x.fenced && facts.fenced.any (· = d) }
      | .mismatch => { x with present := dieLun d = 0, mismatch := true, fenced := false }
      | .absent => { x with present := false, mismatch := false, fenced := false }
    else x)
  let out := facts.ids.filter (fun q => targetId p facts q.1 = .mismatch && isOn s (12 + q.1.val / 8))
  let s := { s with nand := { s.nand with dies := dies } }
  let s := out.foldl (fun s q => logEv s (Fin.ofNat 20 (12 + q.1.val / 8)) .targetExcluded q.1.val) s
  { s with nand := { s.nand with noProfile := !(allFin 256).any (fun d => (dieOf s d).present && !(dieOf s d).mismatch && isOn s (12 + dieCh d)) } }

/-- A shutdown was unclean (R151). -/
def uncleanShutdown (s : State) : Bool := s.aon.nandDiverged || s.aon.aonLost

/-- A rim copy can be read at BOOT (R143): its page's die answers and the copy decodes. Where the config store's ring record fails, the RIM
tags of the usable dies show the rings. -/
def copyReads (s : State) (facts : NandFacts) (seq : Nat) (copyB : Bool) (p : Option Page) : Bool :=
  p.any (fun p => if facts.ringsBad then usable s p.die else readable s p.die) && !(facts.deadCopies.any (fun x => x.1 = seq && x.2 = copyB))

/-- The valid records (R143). -/
def validRims (s : State) (facts : NandFacts) : List Rim :=
  s.nand.rims.filter (fun r => copyReads s facts r.seq false r.copyA || copyReads s facts r.seq true r.copyB)

/-- The block-state table of the highest record (R139); without one only the factory table is left. -/
def tableAtBoot (s : State) : List Group :=
  match s.nand.rims with
  | r :: _ => r.checkpoint
  | [] => s.nand.groups.filter (fun g => g.role = .factoryBad)

/-- The grown table is the union of its two copies, and the older one is rewritten (R153). -/
def uniteGrown (s : State) : State :=
  let a := s.nand.bbtCfg
  let b := s.nand.bbtTab
  let n := a.1 ++ b.1.filter (fun g => !(a.1.any (· = g)))
  let gen := max a.2 b.2
  let s := { s with nand := { s.nand with
    bbt := n, bbtGen := gen, bbtCfg := (n, gen), bbtTab := (n, gen), bbtFull := 4096 ≤ n.length } }
  if a.2 < b.2 then writeArea s .gbbt else s

def applyGrown (s : State) : State :=
  s.nand.bbt.foldl (fun s g => setRole s g.die g.block .grownBad) s

/-- A blank check (R151, R152): more than BLANK_BITS 0 bits in a codeword. -/
def notBlank (s : State) (zeroBits : List ((Die × Nat) × Nat)) (d : Die) (b : Nat) : Bool :=
  s.nand.profile.blankBits < (look (d, b) zeroBits).getD 0

/-- The walk along a die's FREE open order (R151): every group before the first blank one becomes ERASE_PENDING. -/
def walkFree (zeroBits : List ((Die × Nat) × Nat)) (d : Die) : Nat → State → State
  | 0, s => s
  | n + 1, s =>
    match nextFree s d false none with
    | some g => if notBlank s zeroBits d g.block then walkFree zeroBits d n (setRole s d g.block .erasePending) else s
    | none => s

/-- The dies that a list of blank checks names, each once. -/
def checkedDies (zeroBits : List ((Die × Nat) × Nat)) : List Die := zeroBits.foldl (fun acc x => insertFin x.1.1 acc) []

/-- The blank checks after an unclean shutdown (R150, R151). A group that one closes has no cause among R153's (assumption log entry 78). -/
def blankChecks (s : State) (facts : NandFacts) : State :=
  let s := s.nand.groups.foldl (fun s g => match g.role with
    | .baseOpen => setRole s g.die g.block .erasePending
    | .deltaOpen =>
      if notBlank s facts.zeroBits g.die g.block then setGroup s { g with role := .retiring, cause := 1 + Config.blankCause % 6, plane := 0 }
      else s
    | _ => s) s
  let s := (checkedDies facts.zeroBits).foldl (fun s d => walkFree facts.zeroBits d facts.zeroBits.length s) s
  { s with nand := { s.nand with settle := { s.nand.settle with folds := [], marginFailed := [] } } }

/-- The blank check finds the trace of a failed save (R162): in an open group of the checkpoint, at its pointer, a strand tag above the highest
record. -/
def strayTag (s : State) (facts : NandFacts) : Bool :=
  (tableAtBoot s).any (fun g => g.role = .deltaOpen && notBlank s facts.zeroBits g.die g.block &&
    (look ({ die := g.die, block := g.block, page := g.wp } : Page) s.nand.tags).any (fun t => topSeq s < t.saveSeq))

/-- A failed save (R162). -/
def failedSave (s : State) (facts : NandFacts) : Bool := s.aon.failedSave || (uncleanShutdown s && strayTag s facts)

/-- The profile, the targets, the records and the tables as BOOT finds them. -/
def loadTables (s : State) (facts : NandFacts) : State :=
  let s := identify { s with nand := { s.nand with profile := s.nand.nextProfile.getD s.nand.profile, nextProfile := none } } facts
  let s := { s with nand := { s.nand with
    rims := validRims s facts, erased := [], tab := none
    prov := (if s.nand.prov = Prov.running then Prov.never else s.nand.prov), chosen := none, imgloss := none, rimfb := false } }
  let s := applyGrown (uniteGrown { s with nand := { s.nand with groups := tableAtBoot s } })
  if uncleanShutdown s ∧ s.nand.rims ≠ [] then blankChecks s facts else s

/-- `img=NONE` as BOOT derives it: every dirty bit is set (R161). -/
def deriveNone (s : State) : State :=
  dropImage { s with aon := { s.aon with imgKnown := true, stale := false } }

/-- PENDING on a record. -/
def derivePending (s : State) (r : Rim) (stale rimfb : Bool) : State :=
  { s with aon := { s.aon with img := .pending, imgKnown := true, stale := stale }
           map := { s.map with dirty := [] }
           nand := { s.nand with chosen := some r.seq, rimfb := rimfb } }

/-- The record's tables pass, or the other retained record takes over, or the image is lost (R163). -/
def chooseRecord (s : State) (r : Rim) (stale : Bool) (facts : NandFacts) : State :=
  if recordPasses s facts.badDirs facts.badTables r then derivePending s r stale false
  else
    match (otherRim s r).filter (recordPasses s facts.badDirs facts.badTables) with
    | some x => derivePending (logEv s 8 .recordFallback x.seq) x true true
    | none =>
      let top := topSeq s
      deriveNone (logEv { s with nand := { s.nand with imgloss := some top } } 8 .imageLost top)

/-- R161, R162. -/
def deriveImage (s : State) (failed : Bool) (facts : NandFacts) : State :=
  match s.nand.rims with
  | [] => deriveNone s
  | r :: _ =>
    match r.type with
    | .format | .discard => deriveNone s
    | .restored | .fold => if failed then chooseRecord s r true facts else deriveNone s
    | .save => chooseRecord s r failed facts

/-- The previous life's log (R342, R344). -/
def loadPrevLog (s : State) (readable : Bool) : State :=
  match s.nand.rims.findSome? (fun r => r.log) with
  | some l =>
    if readable then { s with log := { s.log with prev := some l } }
    else logEv { s with log := { s.log with prev := none } } 2 .logCopyBad
  | none => { s with log := { s.log with prev := none } }

/-- The rings whose dies are not usable move (R141); none when one has no place to go. -/
def placeRings (s : State) : Option State :=
  match usable s s.nand.ringA.die, usable s s.nand.ringB.die with
  | true, true => some s
  | false, true => moveRing s false
  | true, false => moveRing s true
  | false, false => moveBoth s

/-- The rim area at BOOT (R44, R141): the rings stand on dies that can be written, once the NAND is provisioned. -/
def checkRings (s : State) : State :=
  if s.nand.prov ≠ .done ∨ s.nand.noProfile then s
  else match placeRings s with
    | some s => s
    | none => { s with nand := { s.nand with rimDead := true } }

/-- What keeps the save path from being armed, in ascending order (R44, R130, R387). With no profile the NAND causes are that one. -/
def armCauses (s : State) : List FaultCause :=
  let b := s.aon.boot
  let has (c : Bool) (x : FaultCause) : List FaultCause := if c then [x] else []
  has (!b.xtsOk) .xtsTest ++ has (!b.mapOk) .mapTest ++ has (!b.rootOk) .root ++
  (if s.nand.noProfile then [.noProfile]
   else has s.nand.rimDead .rimArea ++
     has ((usableDies s).length < s.nand.profile.minStripe) .stripe) ++
  has (!s.aon.hpOk) .hpSelfcheck ++ has (modeOf s 8 = .failed || modeOf s 11 = .failed) .coreDomain

/-- T3 or T4 (R31). At T3 unprovisioned NAND starts its provisioning (R152). -/
def endBoot (s : State) : State :=
  let s := takeDescriptors (checkRings s)
  match armCauses s with
  | [] =>
    let s := if s.nand.prov = .never then { s with nand := { s.nand with prov := .running } } else s
    startProof (enterServe s)
  | l => startProof (enterFault s l 4)

/-- IMAGE_DERIVATION (R78, R130, R143, R151, R161-R163, R342). -/
def execImageDerivation (facts : NandFacts) (s : State) : Out :=
  .next (if s.aon.hold = .boot ∧ s.aon.boot.tests = true ∧ s.aon.boot.hpReady = true ∧ s.mg.running = true then
    let t := loadTables s facts
    let failed := failedSave { t with aon := s.aon } facts
    endBoot (loadPrevLog (reseedEg (deriveImage t failed facts)) facts.logReadable)
  else s)

/-! ## Provisioning (R141, R152, R181) -/

/-- Provisioning may run: in SERVE while the NAND holds no FORMAT record, and where `MAP PROVISION` has started it (R152). -/
def provisions (s : State) : Bool :=
  (s.aon.hold = .serve && s.nand.prov = .never) || ((s.aon.hold = .serve || s.aon.hold = .fault) && s.nand.prov = .running)

/-- A factory mark on a page that FBB_PAGES names (R131, R152). -/
def Mark.bad (p : Profile) (m : Mark) : Bool := m.byte ≠ 0xFF && m.block < p.blocks && (BitVec.ofNat 3 p.fbbPages).getLsbD m.page.val

/-- The table after the marks: every other group is FREE once the ones that are not blank are erased (R152). Grown bad groups stay bad. -/
def wipeGroups (s : State) (zeroBits : List ((Die × Nat) × Nat)) : State :=
  let s := (zeroBits.map (·.1)).foldl (fun s x =>
    let g := groupOf s x.1 x.2
    if notBlank s zeroBits x.1 x.2 ∧ g.role ≠ .factoryBad then forgetGroup (setGroup s { g with erases := g.erases + 1, wp := 0 }) x.1 x.2
    else s) s
  { s with nand := { s.nand with groups := s.nand.groups.map (fun g =>
      if g.role = .factoryBad ∨ g.role = .grownBad then g else { g with role := .free, wp := 0 }) } }

/-- PROVISIONING_START (R152): the factory table is the one that survives, or is made from the marks; then every group that is not blank is
erased. -/
def execProvisioningStart (facts : FirstFacts) (s : State) : Out :=
  .next (if provisions s = true ∧ s.nand.rimJob = none then
    let s := { s with nand := { s.nand with prov := .running } }
    let s := if s.nand.fbbt then s
      else
        let s := (facts.marks.filter (Mark.bad s.nand.profile)).foldl (fun s m => setRole s m.die m.block .factoryBad) s
        writeArea { s with nand := { s.nand with fbbt := true } } .fbbt
    wipeGroups s facts.zeroBits
  else s)

/-- The ring's die: its default, or the next usable one on another channel than the other ring's (R141). -/
def ringDie (s : State) (dflt : Die) (other : Option Die) : Option Die :=
  let i := plaitOrder.findIdx (· = dflt)
  (plaitOrder.drop i ++ plaitOrder.take i).find? (fun d => usable s d && (match other with
    | some o => dieCh d ≠ dieCh o
    | none => true))

/-- One TABLE group on a die holds the bad-block tables (R152, R153). -/
def makeTable (s : State) (d : Die) : State :=
  match nextFree s d false none with
  | some g => setGroup s { g with role := .table }
  | none => s

/-- The dies of the two rings that provisioning makes (R141). -/
def firstRings (s : State) : Option (Die × Die) :=
  (ringDie s 0 none).bind (fun a => (ringDie s 32 (some a)).map (fun b => (a, b)))

/-- PROVISIONING_DONE (R142, R152, R181): the tables and the rings exist, and the commit of the FORMAT record begins. Without two dies for
the rings the rim area cannot be written (R44). Provisioning that is repeated replaces the key of every slot when the record commits
(`generateAll`). -/
def execProvisioningDone (s : State) : Out :=
  .next (if provisions s = true ∧ s.nand.prov = .running ∧ s.nand.fbbt = true ∧ s.nand.rimJob = none then
    let s := { s with nand := { s.nand with erased := [], layers := [], rims := [], tags := [] } }
    match firstRings s with
    | none => unarm { s with nand := { s.nand with rimDead := true, prov := .never } } .rimArea
    | some ab =>
      let q := makeRing (makeTable (makeTable s ab.1) ab.2) ab.1
      let p := makeRing q.1 ab.2
      let s := storesCfg { p.1 with nand := { p.1.nand with ringA := q.2, ringB := p.2, bbtTab := (s.nand.bbt, s.nand.bbtGen) } }
      startRim s (blankRim s .format) .formatRim
  else s)

end Sys2Proof.Machine
end

