-- ==== Sys2Proof/Machine/FlashVerbs.lean ====
section
/-! DEFINITION. The FLASH verbs and the firmware update: class 4 messages, staging, verification and the FW verbs (R321, R322,
R361-R363, R372-R382). -/

namespace Sys2Proof.Machine

/-- A code-flash job that holds its session until its response (R300, R326). -/
def flashWork (s : State) (k : Sess) (use : CflUse) : State × Reply := workOn s k .flashJob (fun s => startJob s use (some k))

/-! ## FLASH (R321, R361-R363) -/

def OptSel.text : OptSel → String
  | .a => "A"
  | .b => "B"
  | .dflt => "DEFAULT"

/-- The bank that `bank=` shows: the running one, or BANK while none runs (R322). -/
def shownBank (s : State) : Bank := if s.aon.noFirmware then s.aon.opt.bank else s.aon.bank

def flashVerb (k : Sess) : Verb :=
  verb k .view false anyState (fun _ => []) (fun s =>
    okAns s
      [("opt", .kw s.aon.optSel.text), ("optseq", .nat s.aon.optSeq), ("bank", .kw (bankText (shownBank s)))
      , ("prot", .kw (if s.cfl.latch then "UNLOCKED" else "LOCKED")), ("cfgfree", .size (cfgFree s)), ("maxpulse", .nat s.cfl.maxpulse)
      , ("warn8", .nat s.cfl.warn8)])

/-- The fields as the copy holds them that the next load selects (R72). -/
def flashOptVerb (k : Sess) : Verb :=
  verb k .view false anyState (fun _ => []) (fun s =>
    let r := optRecord s
    okAns s ([("magic", Val.hex 8 (leAt r 0 4)), ("format", Val.nat (leAt r 4 2)), ("seq", Val.nat (leAt r 8 4))] ++
      optOrder.map (fun f => (optName f, Val.nat (optGet r f))) ++ [("crc", Val.hex 8 (leAt r 0xFC 4))]))

/-- The session has no unlock (R362). -/
def noUnlock (s : State) (k : Sess) : Bool := !(getSes s k).unlock

/-- The refusals of one option value, in the order of the line: out of range, a reserved code, a floor that falls. -/
def optValue (s : State) (p : OptKey × Nat) : List (Bool × Nat) :=
  [(optMax p.1 < p.2, 101), (optReserved p.1 p.2, 108), (p.1 = .arbFloor && p.2 < optGet (optRecord s) .arbFloor, 101)]

def flashOptSetVerb (k : Sess) (keys : List (OptKey × Nat)) : Verb :=
  verb k .keep false [SV, FT]
    (fun s => keys.flatMap (optValue s) ++ [(s.aon.opt.optWp && noUnlock s k, 209), (optFull s, 402)])
    (fun s => flashWork s k (.optSet keys))

/-- Seconds of a backoff, rounded up. -/
def waitSeconds (now until_ : Nat) : Nat := ceilDiv (until_ - now) 1000000

/-- FLASH UNLOCK (R362, R363): CFL compares; wrong passwords are counted over all sessions. -/
def tryPassword (s : State) (k : Sess) (pwd : List Byte) : State × Reply :=
  let b := s.aon.pwd
  if 8 ≤ b.fails then err s 208 [("wait", .kw "POWER")]
  else if s.aon.us < b.until_ then err s 208 [("wait", .nat (waitSeconds s.aon.us b.until_))]
  else if pwd = s.cfl.pwd then
    let s := { s with aon := { s.aon with pwd := { fails := 0, until_ := 0 } } }
    okAns (relatch (setSes s k (fun q => { q with unlock := true }))) [("prot", .kw "UNLOCKED")]
  else err { s with aon := { s.aon with pwd := { fails := b.fails + 1, until_ := s.aon.us + 2 ^ b.fails * 1000000 } } } 207

def flashUnlockVerb (k : Sess) (pwd : List Byte) : Verb :=
  verb k .keep false [SV, FT] (fun _ => [(pwd.length ≠ 16, 101)]) (fun s => tryPassword s k pwd)

def flashLockVerb (k : Sess) : Verb :=
  verb k .keep false anyState (fun _ => []) (fun s => okAns (dropUnlock s k) [("prot", .kw "LOCKED")])

def flashProtectVerb (k : Sess) (first last state : Nat) : Verb :=
  verb k .keep false [SV, FT]
    (fun s => [(447 < first, 101), (447 < last || last < first, 101), (1 < state, 101), (noUnlock s k, 209)])
    (fun s => flashWork s k (.protect first last (state = 1)))

def flashPasswordVerb (k : Sess) (pwd : List Byte) : Verb :=
  verb k .keep false [SV, FT] (fun s => [(pwd.length ≠ 16, 101), (noUnlock s k, 209)]) (fun s => flashWork s k (.password pwd))

def flashScrubVerb (k : Sess) (region : Nat) : Verb :=
  verb k .keep false [SV, FT] (fun _ => [(5 < region, 101)]) (fun s => flashWork s k (.scrub region))

def execFlash (k : Sess) (s : State) : Out := .next (onVerb s k (.flash k) false (flashVerb k))
def execFlashOpt (k : Sess) (s : State) : Out := .next (onVerb s k (.flashOpt k) false (flashOptVerb k))
def execFlashOptSet (k : Sess) (keys : List (OptKey × Nat)) (s : State) : Out :=
  .next (onVerb s k (.flashOptSet k keys) false (flashOptSetVerb k keys))
def execFlashUnlock (k : Sess) (pwd : List Byte) (s : State) : Out := .next (onVerb s k (.flashUnlock k pwd) false (flashUnlockVerb k pwd))
def execFlashLock (k : Sess) (s : State) : Out := .next (onVerb s k (.flashLock k) false (flashLockVerb k))
def execFlashProtect (k : Sess) (first last state : Nat) (s : State) : Out :=
  .next (onVerb s k (.flashProtect k first last state) false (flashProtectVerb k first last state))
def execFlashPassword (k : Sess) (pwd : List Byte) (s : State) : Out :=
  .next (onVerb s k (.flashPassword k pwd) false (flashPasswordVerb k pwd))
def execFlashScrub (k : Sess) (region : Nat) (s : State) : Out := .next (onVerb s k (.flashScrub k region) false (flashScrubVerb k region))

/-! ## Headers (R372, R384) -/

/-- The header that a queued job is about to open a staging with. -/
def openingHeader (s : State) : Option (List Byte) :=
  s.cfl.jobs.findSome? (fun j => match j.use with
    | .openStaging h => some h
    | _ => none)

/-- What becomes of a complete header. -/
inductive HdrResult | rejected (r : Reason) | opens | resumes | busy
  deriving DecidableEq, Repr

def judgeHeader (s : State) (h : List Byte) : HdrResult :=
  match hdrReason s h with
  | some r => .rejected r
  | none =>
    match openingHeader s with
    | some o => if hdrId o = hdrId h then .resumes else .busy
    | none =>
      match stageOf s with
      | .idle | .failed => .opens
      | _ => if hdrId (hdrOf s (targetBank s)) = hdrId h then .resumes else .busy

/-- The fields of a header that resumes a staging. -/
def resumeFields (s : State) (h : List Byte) : List (String × Val) :=
  match openingHeader s with
  | some _ => [("stage", .kw "RECEIVING"), ("ver", .kw (hdrVer h)), ("total", .nat (hdrTotal h))]
  | none => stageFields s

/-- A header that a session completes. Acceptance and rejection send a RECEIPT (R375). -/
def sessionHeader (s : State) (k : Sess) (h : List Byte) : State × Reply :=
  match judgeHeader s h with
  | .rejected r => err (sendReceipt (setReason s r)) 110 [("reason", .kw r.text)]
  | .opens => flashWork s k (.openStaging h)
  | .resumes => okAns (sendReceipt s) (resumeFields s h)
  | .busy => err s 315

/-- Class 4 reaches the firmware in LISTEN and ACTIVE (R375). -/
def hearsClass4 (s : State) : Bool := s.mg.running && isOn s 5 && (s.shb.mode = .listen || s.shb.mode = .active)

/-- HEADER (R372, R375, R384). -/
def execHeader (src : NodeId) (bytes : List Byte) (s : State) : Out :=
  .next (if !hearsClass4 s || bytes.length ≠ 512 then s
    else
      let s := { s with store := { s.store with distributor := some src } }
      match judgeHeader s bytes with
      | .rejected r => sendReceipt (setReason s r)
      | .opens => startJob s (.openStaging bytes) none
      | .resumes => sendReceipt s
      | .busy => sendReceipt (setReason s .busy))

/-! ## Splints (R373, R374, R377) -/

/-- Splints are accepted: the stage is RECEIVING, and no abort is on its way. -/
def receiving (s : State) : Bool :=
  stageOf s = .receiving && !(s.cfl.jobs.any (fun j => match j.use with
    | .abort => true
    | _ => false))

def splintIndex (b : List Byte) : Nat := leAt b 4 2
def splintLen (b : List Byte) : Nat := leAt b 6 2

/-- LEN of a splint of the staged image. -/
def splintDue (s : State) (idx : Nat) : Nat :=
  let h := hdrOf s (targetBank s)
  if idx + 1 < hdrTotal h then 4096 else hdrLen h - 4096 * (hdrTotal h - 1)

/-- The checks of R374 in order, of the index that the transport gave. -/
def splintReason (s : State) (idx : Nat) (b : List Byte) : Option Reason :=
  let h := hdrOf s (targetBank s)
  let i := splintIndex b
  if leAt b 0 4 ≠ 0x5A53504C ∨ bytesAt b 8 8 ≠ hdrId h then some .image
  else if hdrTotal h ≤ i ∨ i ≠ idx then some .index
  else if splintLen b ≠ splintDue s i ∨ b.length ≠ 32 + splintLen b then some .length
  else if bytesAt b 16 16 ≠ (Config.hmacSha384 (splintKey h) (b.take 16 ++ b.drop 32)).take 16 then some .mac
  else none

/-- The splint is in the bank, or on its way into it (R326). -/
def splintHeld (s : State) (idx : Nat) : Bool :=
  received s idx || s.cfl.jobs.any (fun j => match j.use with
    | .splint i _ => i = idx
    | _ => false)

def countDiscard (s : State) : State := { s with store := { s.store with classDiscards := s.store.classDiscards + 1 } }

/-- SPLINT (R374, R375): what is not accepted is counted. -/
def execSplint (_src : NodeId) (tag : BitVec 10) (bytes : List Byte) (s : State) : Out :=
  .next (if !hearsClass4 s then s
    else if !receiving s then setReason (countDiscard s) .noHeader
    else
      let s := { s with store := { s.store with receiptDue := true } }
      match splintReason s tag.toNat bytes with
      | some r => setReason (countDiscard s) r
      | none => if splintHeld s tag.toNat then countDiscard s else startJob s (.splint tag.toNat (bytes.drop 32)) none)

/-- A splint that a session completes. -/
def sessionSplint (s : State) (k : Sess) (idx : Nat) (b : List Byte) : State × Reply :=
  match splintReason s idx b with
  | some r => err s 111 [("reason", .kw r.text)]
  | none => if splintHeld s idx then okAns s [("dup", .nat 1)] else flashWork s k (.splint idx (b.drop 32))

/-- RECEIPT_TIMER (R375). -/
def execReceiptTimer (s : State) : Out := .next (if s.mg.running ∧ s.store.receiptDue then sendReceipt s else s)

def isVerdict (j : CflJob) : Bool :=
  match j.use with
  | .verdict _ => true
  | _ => false

/-- IMAGE_VERIFICATION_DONE (R379): the digest, the tag and the floor. -/
def execImageVerificationDone (s : State) : Out :=
  .next (if s.mg.running = true ∧ stageOf s = .complete ∧ !(s.cfl.jobs.any isVerdict) then
    let b := targetBank s
    startJob s (.verdict (bodyDigestOk s b && bodyTagOk s b && floorOf s ≤ hdrSvn (hdrOf s b))) none
  else s)

/-! ## FW (R322, R380, R382) -/

/-- Runs of numbers as closed ranges. -/
def toRanges : List Nat → List (Nat × Nat)
  | [] => []
  | a :: t =>
    match toRanges t with
    | (b, c) :: u => if a + 1 = b then (a, c) :: u else (a, a) :: (b, c) :: u
    | [] => [(a, a)]

/-- Ranges of splints not received, from an index on. -/
def missingFrom (s : State) (start : Nat) : List (Nat × Nat) :=
  if stageOf s = .idle then []
  else toRanges ((List.range (stagedTotal s)).filter (fun i => start ≤ i && !received s i))

def rangesVal (l : List (Nat × Nat)) : Val := if l = [] then .kw "none" else .ranges l

def fwVerb (k : Sess) : Verb :=
  verb k .view false anyState (fun _ => []) (fun s =>
    let st := stageOf s
    let idle : Bool := st = .idle
    let ver := if idle then (if s.aon.noFirmware then "none" else hdrVer (hdrOf s s.aon.bank)) else hdrVer (hdrOf s (targetBank s))
    okAns s
      [("stage", .kw st.text), ("ver", .kw ver), ("got", .nat (if idle then 0 else stagedGot s))
      , ("total", .nat (if idle then 0 else stagedTotal s)), ("floor", .nat (floorOf s)), ("bank", .kw (bankText (shownBank s)))])

def fwMissingVerb (k : Sess) (start : Option Nat) : Verb :=
  verb k .view false anyState
    (fun _ => [(match start with
      | some n => 895 < n
      | none => false, 101)])
    (fun s =>
      let l := missingFrom s (start.getD 0)
      okAns s [("missing", rangesVal (l.take 256)), ("more", flagVal (256 < l.length))])

/-- A header in pieces (R314): the 512th byte completes it. -/
def fwPutHdrVerb (k : Sess) (off : Nat) (data : List Byte) : Verb :=
  verb k .keep false [SV, PK, FT]
    (fun s => [(pieceLen data || 512 < off + data.length, 101), (pieceOut s k .header off, 113)])
    (fun s =>
      let s := stagePiece s k .header off data
      let h := staged s k .header
      if h.length < 512 then okAns s [("off", .nat off), ("len", .nat data.length)]
      else sessionHeader (setStaged s k .header []) k h)

/-- The length at which a staged splint is whole: the one its own header states, at most 4128. -/
def splintWhole (b : List Byte) : Bool := 8 ≤ b.length && min (32 + splintLen b) 4128 ≤ b.length

def fwPutVerb (k : Sess) (idx off : Nat) (data : List Byte) : Verb :=
  verb k .keep false [SV, PK, FT]
    (fun s => [(!receiving s, 313), (895 < idx, 101), (pieceLen data, 101), (pieceOut s k (.splint idx) off, 113)])
    (fun s =>
      let s := stagePiece s k (.splint idx) off data
      let b := staged s k (.splint idx)
      if splintWhole b then sessionSplint (setStaged s k (.splint idx) []) k idx b
      else okAns s [("off", .nat off), ("len", .nat data.length)])

def fwActivateVerb (k : Sess) : Verb :=
  verb k .keep false [SV, PK, SA, RS, FT] (fun _ => [])
    (fun s =>
      match stageOf s with
      | .idle => err s 313
      | .receiving => err s 314 [("missing", rangesVal ((missingFrom s 0).take 256))]
      | .failed => err s 505
      | .complete => workOn s k .activate (fun s => { s with store := { s.store with verifyWaiters := s.store.verifyWaiters ++ [k] } })
      | .verified | .activating => workOn s k .activate (fun s => pump (activateReq s k)))

def fwAbortVerb (k : Sess) : Verb :=
  verb k .keep false [SV, PK, FT] (fun _ => []) (fun s =>
    if stageOf s = .idle then okAns s [("stage", .kw "IDLE")] else flashWork s k .abort)

def execFw (k : Sess) (s : State) : Out := .next (onVerb s k (.fw k) true (fwVerb k))
def execFwMissing (k : Sess) (start : Option Nat) (s : State) : Out := .next (onVerb s k (.fwMissing k start) true (fwMissingVerb k start))
def execFwPutHdr (k : Sess) (off : Nat) (data : List Byte) (s : State) : Out :=
  .next (onVerb s k (.fwPutHdr k off data) true (fwPutHdrVerb k off data))
def execFwPut (k : Sess) (idx off : Nat) (data : List Byte) (s : State) : Out :=
  .next (onVerb s k (.fwPut k idx off data) true (fwPutVerb k idx off data))
def execFwActivate (k : Sess) (s : State) : Out := .next (onVerb s k (.fwActivate k) true (fwActivateVerb k))
def execFwAbort (k : Sess) (s : State) : Out := .next (onVerb s k (.fwAbort k) false (fwAbortVerb k))

end Sys2Proof.Machine
end

