-- ==== Sys2Proof/Machine/Bus.lean ====
section
/-! DEFINITION. The shelf bus: rate detection, reception, transmission, errors, the bridge window and the BUS verbs (R224-R258,
R317). -/

namespace Sys2Proof.Machine

def setShb (s : State) (f : Shb → Shb) : State := { s with shb := f s.shb }

/-- A bit timing of R225: prescaler of the 80 MHz clock, quanta per bit, sample point in percent, SJW in quanta. -/
structure BitTiming where
  prescaler : Nat
  quanta : Nat
  sample : Nat
  sjw : Nat
  deriving DecidableEq, Repr

/-- The timing of a NOM_RATE code (R72, R225). -/
def nominalTiming : Nat → Option BitTiming
  | 4 => some { prescaler := 2, quanta := 40, sample := 80, sjw := 8 }
  | 3 => some { prescaler := 4, quanta := 40, sample := 80, sjw := 8 }
  | 2 => some { prescaler := 8, quanta := 40, sample := 80, sjw := 8 }
  | 1 => some { prescaler := 16, quanta := 40, sample := 80, sjw := 8 }
  | _ => none

/-- The timing of a DATA_RATE code (R72, R225). -/
def dataTiming : Nat → Option BitTiming
  | 6 => some { prescaler := 1, quanta := 10, sample := 70, sjw := 3 }
  | 5 => some { prescaler := 1, quanta := 16, sample := 75, sjw := 4 }
  | 4 => some { prescaler := 1, quanta := 20, sample := 75, sjw := 5 }
  | 3 => some { prescaler := 1, quanta := 40, sample := 75, sjw := 10 }
  | 2 => some { prescaler := 2, quanta := 40, sample := 75, sjw := 10 }
  | _ => none

/-- The bit rate of a timing in bit/s. -/
def BitTiming.rate (t : BitTiming) : Nat := 80000000 / (t.prescaler * t.quanta)

/-- SHB_STBY is high: the transceiver is in standby (R226). -/
def stbyHigh (s : State) : Bool := !isOn s 5 || s.shb.mode = .off

/-- D05 is ON and the bus is in use. -/
def onBus (s : State) : Bool := s.shb.mode ≠ .off && s.shb.mode ≠ .busoff

/-! ## Rate detection (R232-R234) -/

/-- The nominal step runs: the mode is DETECTING and no nominal rate is known. -/
def nominalStep (s : State) : Bool := s.shb.mode = .detecting && s.shb.nrate = 0

/-- The data step runs: the nominal rate is known and the option area names no data rate. A record of classical-only keeps the
step running in the background (R233). -/
def dataStep (s : State) : Bool := s.aon.opt.dataRate = 0 && s.shb.nrate ≠ 0 && s.shb.drate ≤ 1

/-- No candidate rate has been confirmed: the fault is logged once and raises its alarm until a rate is confirmed or detection ends
(R258, R388; assumption log entry 84). -/
def noteNoFrame (s : State) : State :=
  if s.shb.noFrame then s else setShb (logEv s 5 .noFrame) (fun b => { b with noFrame := true })

/-- 1 M, 500 k, 250 k, 125 k, and again 1 M: the NOM_RATE codes fall from 4 to 1 (R232). A whole round without confirmation is the fault
'no valid frame' (R258). -/
def nextCandidate (s : State) : State :=
  setShb (if s.shb.cand ≤ 1 then noteNoFrame s else s)
    (fun b => { b with cand := if b.cand ≤ 1 then 4 else b.cand - 1, validRun := 0, errRun := 0 })

/-- RATE_CANDIDATE_TIMEOUT (R232). -/
def execRateCandidateTimeout (s : State) : Out := .next (if nominalStep s then nextCandidate s else s)

/-- DATA_RATE_TIMEOUT (R233): classical-only is recorded. -/
def execDataRateTimeout (s : State) : Out :=
  .next (if dataStep s ∧ s.shb.drate = 0 then joinBus (setShb s (fun b => { b with drate := 1 })) else s)

/-- The DATA_RATE code whose bit time lies within 5 % of a run in nanoseconds (R233). -/
def rateOfRun (ns : Nat) : Option Nat :=
  [(6, 125), (5, 200), (4, 250), (3, 500), (2, 1000)].findSome? (fun (p : Nat × Nat) =>
    if 95 * p.2 ≤ 100 * ns ∧ 100 * ns ≤ 105 * p.2 then some p.1 else none)

/-- A valid frame without BRS in the nominal step: two in a row confirm the candidate (R232). -/
def noteValid (s : State) : State :=
  let s := setShb s (fun b => { b with errRun := 0 })
  if nominalStep s then
    if s.shb.validRun + 1 < 2 then setShb s (fun b => { b with validRun := b.validRun + 1 })
    else joinBus (setShb s (fun b => { b with nrate := b.cand, validRun := 0, noFrame := false }))
  else s

/-- A BRS frame in the data step: it measures a candidate, and counts as valid when it is of the candidate already measured;
two in a row confirm it (R233). The answer says whether the frame was decoded. -/
def noteBrs (s : State) (run : Nat) : Bool × State :=
  match rateOfRun run with
  | none => (false, s)
  | some r =>
    if s.shb.dcand ≠ r then (false, setShb s (fun b => { b with dcand := r, dvalid := 0, derr := 0 }))
    else if s.shb.dvalid + 1 < 2 then (true, setShb s (fun b => { b with dvalid := b.dvalid + 1, derr := 0 }))
    else (true, joinBus (setShb s (fun b => { b with drate := r, dvalid := 0, derr := 0 })))

/-! ## Reception (R224, R229, R231, R235, R237) -/

def Filter.matches (f : Filter) (x : Frame) : Bool :=
  f.en && (f.fmt = 0 || (f.fmt = 1 && !x.fdf) || (f.fmt = 2 && x.fdf)) && ((x.id ^^^ f.id) &&& f.mask) = 0

/-- The lowest-numbered pair that matches; pairs 16 to 31 only with WIN_EN = 1 (R235, R248). -/
def matchingPair (s : State) (x : Frame) : Option Nat :=
  (List.range 32).find? (fun n =>
    match s.shb.filters.toList[n]? with
    | some f => (n < 16 || s.shb.winEn) && f.matches x
    | none => false)

/-- The classes and types that R228 lists, and class 6, which the firmware does not consume. -/
def typeListed (cls type : Nat) : Bool :=
  match cls with
  | 0 | 2 | 4 => type ≤ 2
  | 1 | 3 | 5 => type ≤ 1
  | 6 => true
  | _ => false

/-- Types whose payload is segmented (R228). -/
def typeSegmented (cls type : Nat) : Bool := (cls = 3 && type ≤ 1) || (cls = 4 && type ≤ 2) || (cls = 5 && type = 1)

def Partial.is (p : Partial) (src : NodeId) (cls : BitVec 3) (type : BitVec 6) (tag : BitVec 10) : Bool :=
  p.src = src && p.cls = cls && p.type = type && p.tag = tag

def countReasm (s : State) : State :=
  setShb s (fun b => { b with counts := { b.counts with reasm := b.counts.reasm + 1 } })

/-- Discard a partial message and count the discard (R229). -/
def dropPartial (s : State) (src : NodeId) (cls : BitVec 3) (type : BitVec 6) (tag : BitVec 10) : State :=
  if s.shb.partials.any (fun p => p.is src cls type tag) then
    countReasm (setShb s (fun b => { b with partials := b.partials.filter (fun p => !p.is src cls type tag) }))
  else s

/-- One segment (R229): FIRST opens a message, the expected COUNT goes on, LAST ends it; 8192 bytes are the most. A whole message
reaches the firmware as the command of its own row. -/
def reassemble (s : State) (x : Frame) : State :=
  let src := idSrc x.id
  let cls := idClass x.id
  let type := idType x.id
  let tag := idTag x.id
  match x.data with
  | [] => s
  | seg :: body =>
    let first := seg.getLsbD 7
    let last := seg.getLsbD 6
    let cnt := seg.toNat % 64
    let old := s.shb.partials.find? (fun p => p.is src cls type tag)
    if first then
      let s := dropPartial s src cls type tag
      if cnt ≠ 0 ∨ last then s
      else setShb s (fun b => { b with partials := b.partials ++ [{ src := src, cls := cls, type := type, tag := tag, next := 1, data := body }] })
    else match old with
      | none => s
      | some p =>
        if p.next ≠ cnt ∨ 8192 < p.data.length + body.length then dropPartial s src cls type tag
        else
          let rest := s.shb.partials.filter (fun q => !q.is src cls type tag)
          setShb s (fun b => { b with partials :=
            if last then rest else rest ++ [{ p with next := (cnt + 1) % 64, data := p.data ++ body }] })

/-- The firmware takes a frame of Q0: a reserved type is counted, a segment joins its message (R228, R229). -/
def takeFrame (s : State) (x : Frame) : State :=
  let cls := (idClass x.id).toNat
  let type := (idType x.id).toNat
  if !typeListed cls type then
    setShb s (fun b => { b with counts := { b.counts with reservedType := b.counts.reservedType + 1 } })
  else if typeSegmented cls type then reassemble s x
  else s

/-- Q0 goes to the firmware over SHB to MGMT while both are there (R237). -/
def serveQ0 (s : State) : State :=
  if s.mg.running ∧ isOn s 2 = true then
    let l := s.shb.q0
    l.foldl takeFrame (setShb s (fun b => { b with q0 := [] }))
  else s

/-- A frame enters Q0, or is discarded and counted (R237). -/
def enterQ0 (s : State) (x : Frame) : State :=
  if s.shb.q0.length < 32 then serveQ0 (setShb s (fun b => { b with q0 := b.q0 ++ [x] }))
  else setShb s (fun b => { b with counts := { b.counts with q0ovf := b.counts.q0ovf + 1 } })

def freeQ1 (b : Shb) : Option (Fin 64) := (allFin 64).find? (fun n => (b.q1[n.val]).isNone)

/-- A frame enters Q1 with its arrival number, its pair and the warp time of its SOF (R237, R255). -/
def enterQ1 (s : State) (x : Frame) (pair : Nat) : State :=
  match freeQ1 s.shb with
  | none => raiseIrq (setShb s (fun b => { b with q1ovf := min 0xFFFFFFFF (b.q1ovf + 1) })) irqQ1Ovf
  | some n =>
    let e : Q1Entry := { frame := x, seq := s.shb.q1seq % 65536, pair := pair, ts := s.warp.ns, locked := false }
    raiseIrq (setShb s (fun b => { b with q1 := upd b.q1 n (fun _ => some e), q1seq := (b.q1seq + 1) % 65536 })) irqQ1Rx

/-- Filtering of a decoded extended-format frame (R235), after the duplicate check (R231). -/
def filterFrame (s : State) (x : Frame) : State :=
  let s :=
    if idSrc x.id = s.aon.opt.nodeId ∧ s.shb.mode ≠ .dupnode then
      let s := logEv (setBusMode (setShb s (fun b => { b with integrating := false })) .dupnode) 5 .dupnode
      noticeGeneral s (EVT [("bus", .kw "DUPNODE")])
    else s
  match matchingPair s x with
  | none => setShb s (fun b => { b with counts := { b.counts with miss := b.counts.miss + 1 } })
  | some n => if n < 16 then enterQ0 s x else enterQ1 s x n

/-- ISO 11898-1: a reception lowers REC by 1, from above 127 to a value of 119 to 127. -/
def receiveOk (s : State) : State :=
  if s.shb.mode = .active ∨ s.shb.mode = .dupnode then
    let n := s.free
    let old := s.shb.passive
    let s := if 127 < s.shb.recCnt then
        setShb { s with free := n + 1 } (fun b => { b with recCnt := 119 + Config.recAfter n % 9 })
      else setShb s (fun b => { b with recCnt := b.recCnt - 1 })
    let now : Bool := 127 < s.shb.tec || 127 < s.shb.recCnt
    let s := setShb s (fun b => { b with passive := now })
    if now = old then s else raiseIrq s irqState
  else s

/-- FRAME_RECEIVED (R224, R232, R233, R235): detection first; base-format and remote frames are discarded before filtering; a BRS
frame is decoded only at a data rate that is known or measured. `shortestRun` is in nanoseconds. -/
def receiveFrame (s : State) (form : FrameForm) (x : Frame) (run : Nat) : State :=
  if !onBus s then s
  else if x.brs then
    if s.shb.nrate = 0 then s
    else
      let q := if dataStep s then noteBrs s run else (2 ≤ s.shb.drate, s)
      if q.1 then (if form = .extended then filterFrame (receiveOk q.2) x else receiveOk q.2) else q.2
  else
    let s := receiveOk (noteValid s)
    if form = .extended then filterFrame s x else s

/-- A frame as the bus can carry it: its data have the length of its DLC; remote and base frames are classical. -/
def frameOk (form : FrameForm) (x : Frame) : Bool :=
  x.data.length = dlcLen x.fdf x.dlc && (!x.brs || x.fdf) && (form ≠ .remote || !x.fdf)

/-- The frame that the bus has carried: as many data bytes as its DLC tells, and BRS in FD frames alone. A byte that the command does not
give is a free value (assumption log entry 7). -/
def wholeFrame (s : State) (x : Frame) : Frame :=
  { x with brs := x.brs && x.fdf, data := (List.range (dlcLen x.fdf x.dlc)).map (fun i => x.data.getD i (Config.busByte s.free i)) }

/-- The count of free values moves on where a byte was missing. -/
def countFrame (s : State) (x : Frame) : State := if x.data.length < dlcLen x.fdf x.dlc then { s with free := s.free + 1 } else s

def execFrameReceived (form : FrameForm) (frame : Frame) (shortestRun : Nat) (s : State) : Out :=
  .next (receiveFrame (countFrame s frame) form (wholeFrame s frame) shortestRun)

/-- REASSEMBLY_GAP (R229). -/
def execReassemblyGap (src : NodeId) (cls : BitVec 3) (type : BitVec 6) (tag : BitVec 10) (s : State) : Out :=
  .next (dropPartial s src cls type tag)

/-! ## Transmission (R239-R242) -/

def setMbox (s : State) (n : Fin 16) (f : Mbox → Mbox) : State := setShb s (fun b => { b with mbox := upd b.mbox n f })

/-- A mailbox takes a status; a bridge mailbox that ends raises TXDONE (R251). -/
def endMbox (s : State) (n : Fin 16) (st : MboxStatus) : State :=
  let s := setMbox s n (fun m => { m with status := st, cancel := false, abort := false })
  if 8 ≤ n.val ∧ st.isFinal = true then raiseIrq s irqTxDone else s

/-- The frame of a mailbox. -/
def mboxFrame (s : State) (m : Mbox) : Frame :=
  { id := m.id, fdf := m.fdf, brs := m.brs, esi := s.shb.passive, dlc := m.dlc, data := bytesAt m.data 0 (dlcLen m.fdf m.dlc) }

/-- The frames that compete (R240): PENDING mailboxes by number, then the FIFO head. -/
def competing (s : State) : List (CanId × OnWire) :=
  ((allFin 16).filter (fun n => (s.shb.mbox[n.val]).status = .pending)).map (fun n => ((s.shb.mbox[n.val]).id, OnWire.mbox n)) ++
  (s.shb.fifo.take 1).map (fun x => (x.id, OnWire.fifo))

/-- The first of the lowest identifier. -/
def lowestId : List (CanId × OnWire) → Option (CanId × OnWire)
  | [] => none
  | p :: t =>
    match lowestId t with
    | some q => if q.1 < p.1 then some q else some p
    | none => some p

/-- SHB timestamps the SOF of a SYNC that it sends (R261). -/
def noteSof (s : State) (id : CanId) : State :=
  if idClass id = 0 ∧ idType id = 0 then { s with warp := { s.warp with sof := some (idTag id, s.warp.ns) } } else s

/-- The keeper's FOLLOW_UP goes out after its SYNC with the SOF of that frame (R261). -/
def followSync (s : State) (id : CanId) : State :=
  if idClass id = 0 ∧ idType id = 0 then
    match s.warp.sof with
    | some (tag, ns) =>
      let s := { s with warp := { s.warp with sof := none } }
      if s.warp.state = .keeper then fwSend s (makeId 0 1 s.aon.opt.nodeId.toNat tag.toNat) (leBytes 8 ns) else s
    | none => s
  else s

/-- FRAME_SOF (R240): in ACTIVE and after integration. -/
def execFrameSof (s : State) : Out :=
  .next (if s.shb.mode = .active ∧ s.shb.integrating = false ∧ s.shb.onWire = .idle then
    match lowestId (competing s) with
    | none => s
    | some (id, .mbox n) =>
      setShb (setMbox s n (fun m => { m with status := .active, tries := min 15 (m.tries + 1) })) (fun b => { b with onWire := .mbox n }) |> fun s => noteSof s id
    | some (_, w) => setShb s (fun b => { b with onWire := w })
  else s)

def dropWire (s : State) : State := setShb s (fun b => { b with onWire := .idle })

/-- FRAME_TX_DONE (R240-R242): a mailbox is DONE whatever was asked of it meanwhile; a FIFO entry leaves. ISO 11898-1 lowers TEC by 1. -/
def execFrameTxDone (s : State) : Out :=
  .next (
    let old := s.shb.passive
    let s' := match s.shb.onWire with
      | .idle => s
      | .mbox n =>
        let x := mboxFrame s s.shb.mbox[n.val]
        followSync (endMbox (dropWire (setShb s (fun b => { b with sent := x :: b.sent, tec := b.tec - 1 }))) n .done) x.id
      | .fifo =>
        refillFifo (dropWire (setShb s (fun b => { b with sent := b.fifo.take 1 ++ b.sent, fifo := b.fifo.drop 1, tec := b.tec - 1 })))
    let now : Bool := 127 < s'.shb.tec || 127 < s'.shb.recCnt
    let s' := setShb s' (fun b => { b with passive := now })
    if now = old then s' else raiseIrq s' irqState)

/-- An attempt that did not succeed (R240, R241, R248, R257). -/
def failAttempt (s : State) : State :=
  match s.shb.onWire with
  | .mbox n =>
    let m := s.shb.mbox[n.val]
    endMbox (dropWire s) n
      (if m.abort then .aborted
       else if m.cancel then .cancelled
       else if m.attempts ≠ 0 ∧ m.attempts ≤ m.tries then .failed
       else .pending)
  | _ => dropWire s

/-- ARBITRATION_LOST (R240, R243). -/
def execArbitrationLost (s : State) : Out :=
  .next (if s.shb.onWire = .idle then s
    else failAttempt (setShb s (fun b => { b with counts := { b.counts with arblost := b.counts.arblost + 1 } })))

/-! ## Errors and bus-off (R243-R245, R258) -/

def lastCode : BusErr → Nat
  | .stuff => 1
  | .form => 2
  | .ack => 3
  | .bit1 => 4
  | .bit0 => 5
  | .crc => 6

def countErr (c : BusCounts) : BusErr → BusCounts
  | .stuff => { c with stuff := c.stuff + 1 }
  | .form => { c with form := c.form + 1 }
  | .ack => { c with ack := c.ack + 1 }
  | .bit1 | .bit0 => { c with bit := c.bit + 1 }
  | .crc => { c with crc := c.crc + 1 }

/-- Three errors in a row restart a step of the detection, in DETECTING and LISTEN only (R232-R234). -/
def errorInDetection (s : State) (brs : Bool) : State :=
  if brs then
    if dataStep s then
      if s.shb.derr + 1 < 3 then setShb s (fun b => { b with derr := b.derr + 1, dvalid := 0 })
      else setShb s (fun b => { b with dcand := 0, dvalid := 0, derr := 0 })
    else s
  else
    let s := setShb s (fun b => { b with errRun := b.errRun + 1, validRun := 0 })
    if s.shb.errRun < 3 then s
    else if nominalStep s then nextCandidate s
    else if s.aon.opt.nomRate = 0 then detect s
    else setShb s (fun b => { b with errRun := 0 })

/-- BUSOFF (R244): an ACTIVE mailbox returns to PENDING; the notice goes to S0, S5 and S6. -/
def enterBusoff (s : State) : State :=
  let s := match s.shb.onWire with
    | .mbox n =>
      let m := s.shb.mbox[n.val]
      endMbox s n (if m.abort then .aborted else if m.cancel then .cancelled else .pending)
    | _ => s
  let s := setShb s (fun b => { b with
    onWire := .idle, integrating := false, recovering := false, counts := { b.counts with busoff := b.counts.busoff + 1 } })
  let s := logEv (raiseIrq (setBusMode s .busoff) irqState) 5 .busoff
  noticeTo s (fun k q => q.isOpen && q.notify && !isTunnel k) (EVT [("bus", .kw "BUSOFF")])

/-- TEC, REC and the error states of ISO 11898-1 in a node that takes part: an error costs a transmitter 8, but not for a missing
acknowledgement while passive (R257); it costs a receiver 1. -/
def countError (s : State) (kind : BusErr) (tx : Bool) : State :=
  let b := s.shb
  let tec := if tx then (if kind = .ack ∧ b.passive then b.tec else min 256 (b.tec + 8)) else b.tec
  let recv := if tx then b.recCnt else min 255 (b.recCnt + 1)
  let now : Bool := 127 < tec || 127 < recv
  let s := setShb s (fun b => { b with tec := tec, recCnt := recv, passive := now })
  if now = b.passive then s else raiseIrq s irqState

/-- BUS_ERROR (R243): the frame is discarded, the kind counted. A node that only listens signals nothing and its TEC and REC stand. -/
def execBusError (kind : BusErr) (transmitting : Bool) (brsFrame : Bool) (s : State) : Out :=
  .next (
    if s.shb.mode = .off then (if transmitting then failAttempt s else s)
    else if s.shb.mode = .busoff then s
    else if nominalStep s && brsFrame then s
    else
      let tx : Bool := transmitting && s.shb.onWire ≠ .idle
      let s := setShb s (fun b => { b with counts := countErr b.counts kind, last := lastCode kind })
      if s.shb.mode = .detecting ∨ s.shb.mode = .listen then errorInDetection s brsFrame
      else
        let s := countError s kind tx
        if 255 < s.shb.tec then enterBusoff s
        else if tx then failAttempt s else s)

/-- BUS_INTEGRATED (R234, R258): 11 recessive bits. -/
def execBusIntegrated (s : State) : Out :=
  .next (if s.shb.integrating then
      let s := setShb s (fun b => { b with integrating := false, stuck := false })
      if s.shb.mode = .detecting then setBusMode s .active else s
    else setShb s (fun b => { b with stuck := false }))

/-- A recovery request makes SHB wait for 128 occurrences of 11 recessive bits. -/
def requestRecovery (s : State) : State :=
  if s.shb.mode = .busoff then setShb s (fun b => { b with recovering := true }) else s

/-- BUSOFF_RECOVERY_POLICY (R245): at most `count` requests in any rolling hour. -/
def execBusoffRecoveryPolicy (s : State) : Out :=
  .next (if s.shb.mode = .busoff ∧ s.shb.recovering = false ∧ s.mg.running then
    let l := s.shb.recov.filter (fun t => s.aon.us < t + 3600000000)
    if l.length < s.shb.recovMax then requestRecovery (setShb s (fun b => { b with recov := l ++ [s.aon.us] }))
    else setShb s (fun b => { b with recov := l })
  else s)

/-- BUSOFF_RECOVERY_DONE (R244). -/
def execBusoffRecoveryDone (s : State) : Out :=
  .next (if s.shb.mode = .busoff ∧ s.shb.recovering then
    let s := setShb s (fun b => { b with recovering := false, tec := 0, recCnt := 0 })
    let s := if s.shb.passive then raiseIrq (setShb s (fun b => { b with passive := false })) irqState else s
    setBusMode (holdElection s) .active
  else s)

/-- RXD_STUCK (R258): the notice; SHB waits for integration. -/
def execRxdStuck (s : State) : Out :=
  .next (if s.shb.mode = .off then s
    else
      let s := logEv (setShb s (fun b => { b with stuck := true, integrating := b.integrating || b.mode = .active })) 5 .busStuck
      noticeGeneral s (EVT [("bus", .kw "STUCK")]))

/-! ## The firmware's own frames (R230) -/

def coverByte (s : State) : Byte :=
  match s.map.cover with
  | some c => BitVec.ofNat 8 c
  | none => 0xFF

/-- BEACON_TIMER (R230): a BEACON to the keeper through the transmit FIFO; one that finds the FIFO full is left out. -/
def execBeaconTimer (s : State) : Out :=
  .next (if s.mg.running ∧ isOn s 5 ∧ s.shb.beaconNs ≠ 0 ∧ s.shb.fifo.length < 32 then
    let id := makeId 5 0 s.aon.opt.nodeId.toNat ((s.warp.keeper.map BitVec.toNat).getD 0x3FF)
    fifoSend s [{ id := id, fdf := false, brs := false, esi := false, dlc := 8
                  data := [holdByte s, coverByte s, BitVec.ofNat 8 s.bat.margin.code, BitVec.ofNat 8 (socPct s)] ++ leBytes 4 (topSeq s) }]
  else s)

/-! ## The bridge window (R246-R255) -/

/-- The target acknowledges private transfers: VSB is there, D04 is not OFF, and it has an address (R246, R408). -/
def targetAnswers (s : State) : Bool := s.pins.vsb && (domOf s 4).mode.powered && s.i3c.dyn.isSome

/-- A window access works while D05 is ON (R246). -/
def windowOn (s : State) : Bool := targetAnswers s && (domOf s 5).mode.powered

/-- Bits 0 to 31, or 32 to 63, of a fact about Q1 entries. -/
def q1Bits (s : State) (hi : Bool) (p : Q1Entry → Bool) : Word :=
  BitVec.ofNat 32 ((List.range 32).foldl (fun n i =>
    match (s.shb.q1.toList.getD (i + (if hi then 32 else 0)) none) with
    | some e => if p e then n + 2 ^ i else n
    | none => n) 0)

def q1Count (s : State) (p : Q1Entry → Bool) : Nat :=
  (s.shb.q1.toList.filter (fun o => match o with
    | some e => p e
    | none => false)).length

/-- The oldest entry that holds a frame and is not locked (R252). -/
def rxNext (s : State) : Word :=
  let l := (allFin 64).filterMap (fun n => match s.shb.q1[n.val] with
    | some e => if e.locked then none else some (n.val, (s.shb.q1seq + 65536 - e.seq) % 65536)
    | none => none)
  match l with
  | [] => 0x80
  | p :: t => BitVec.ofNat 32 (t.foldl (fun a b => if a.2 < b.2 then b else a) p).1

def MboxStatus.code : MboxStatus → Nat
  | .empty => 0
  | .pending => 1
  | .active => 2
  | .done => 3
  | .cancelled => 4
  | .failed => 5
  | .aborted => 6
  | .refused => 7

def flagBit (b : Bool) (n : Nat) : Nat := if b then 2 ^ n else 0

/-- TXCTL (R254). -/
def txctlWord (m : Mbox) : Word :=
  BitVec.ofNat 32 (m.status.code * 2 ^ 28 + m.attempts * 2 ^ 20 + m.tries * 2 ^ 16 + flagBit m.fdf 6 + flagBit m.brs 5 + m.dlc.toNat)

/-- BW_STAT (R249). -/
def bwStat (s : State) : Word :=
  let b := s.shb
  BitVec.ofNat 32 (q1Count s (fun _ => true) * 2 ^ 24 + q1Count s (·.locked) * 2 ^ 16 + b.mode.code * 2 ^ 13 + b.drate * 2 ^ 10 +
    b.nrate * 2 ^ 7 + flagBit b.passive 1 + flagBit (96 ≤ b.tec || 96 ≤ b.recCnt) 0)

/-- Word `i` of a Q1 entry (R255). -/
def q1Word (e : Q1Entry) (i : Nat) : Word :=
  match i with
  | 0 => e.frame.id.setWidth 32
  | 1 => BitVec.ofNat 32 (e.seq * 65536 + e.pair * 2048 + flagBit e.frame.esi 7 + flagBit e.frame.fdf 6 + flagBit e.frame.brs 5 + e.frame.dlc.toNat)
  | 2 => BitVec.ofNat 32 e.ts
  | 3 => BitVec.ofNat 32 (e.ts / 2 ^ 32)
  | _ => if i < 20 then BitVec.ofNat 32 (leAt e.frame.data (4 * (i - 4)) 4) else 0

def filterWord (f : Filter) (mask : Bool) : Word :=
  if mask then f.mask.setWidth 32 else BitVec.ofNat 32 (flagBit f.en 31 + f.fmt.toNat * 2 ^ 29 + f.id.toNat)

/-- What a window word reads (R247); Q1 entries are read through `readQ1`. -/
def windowWord (s : State) (off : Nat) : Word :=
  if !((domOf s 5).mode.powered) then 0
  else match off with
    | 0x00 => BitVec.ofNat 32 (0x01000000 + s.aon.opt.nodeId.toNat)
    | 0x04 => BitVec.ofNat 32 (flagBit s.shb.ibiEn 2 + flagBit s.shb.winEn 0)
    | 0x08 => bwStat s
    | 0x0C => BitVec.ofNat 32 (s.shb.tec * 65536 + s.shb.recCnt * 256 + s.shb.last)
    | 0x10 => BitVec.ofNat 32 s.shb.q1ovf
    | 0x14 => s.shb.irq
    | 0x18 => s.shb.irqen
    | 0x20 => rxNext s
    | 0x28 => q1Bits s false (·.locked)
    | 0x2C => q1Bits s true (·.locked)
    | 0x30 => q1Bits s false (fun _ => true)
    | 0x34 => q1Bits s true (fun _ => true)
    | _ =>
      if 0x80 ≤ off ∧ off < 0x100 then
        match s.shb.filters.toList[16 + (off - 0x80) / 8]? with
        | some f => filterWord f (off % 8 = 4)
        | none => 0
      else if 0x400 ≤ off ∧ off < 0x800 then
        match s.shb.mbox.toList[8 + (off - 0x400) / 0x80]? with
        | some m =>
          let o := off % 0x80
          if o = 0 then m.id.setWidth 32
          else if o = 4 then txctlWord m
          else if o < 0x48 then BitVec.ofNat 32 (leAt m.data (o - 8) 4)
          else 0
        | none => 0
      else 0

def setQ1 (s : State) (n : Nat) (e : Option Q1Entry) : State := setShb s (fun b => { b with q1 := updNat b.q1 n (fun _ => e) })

/-- A read of a Q1 entry word (R238): it locks the entry, the last word frees it; a freed entry reads 0 and is not locked. -/
def readQ1 (s : State) (n i : Nat) : Word × State :=
  match s.shb.q1.toList.getD n none with
  | none => (0, s)
  | some e =>
    if 20 ≤ i then (0, s)
    else (q1Word e i, setQ1 s n (if i = 19 then none else some { e with locked := true }))

def setReply (s : State) (l : List Byte) : State := { s with i3c := { s.i3c with reply := l } }

/-- Q1_ENTRY_READ (R238, R246): zero while D05 is not ON. -/
def execQ1EntryRead (index : BitVec 6) (word : BitVec 5) (s : State) : Out :=
  .next (if !targetAnswers s then s
    else if !windowOn s then setReply s [0, 0, 0, 0]
    else
      let q := readQ1 s index.toNat word.toNat
      setReply q.2 (leBytes 4 q.1.toNat))

/-- A write of WIN_EN (R248): clearing it aborts the PENDING bridge mailboxes at once and the ACTIVE one at its end. -/
def writeWinEn (s : State) (on : Bool) : State :=
  let was := s.shb.winEn
  let s := setShb s (fun b => { b with winEn := on })
  if on ∨ !was then s
  else ((allFin 16).filter (fun n => 8 ≤ n.val)).foldl (fun s n =>
    match (s.shb.mbox[n.val]).status with
    | .pending => endMbox s n .aborted
    | .active => setMbox s n (fun m => { m with abort := true })
    | _ => s) s

/-- Q1_FLUSH (R248, R257): locked entries stay. -/
def flushQ1 (s : State) : State :=
  setShb s (fun b => { b with q1 := b.q1.map (fun o => match o with
    | some e => if e.locked then some e else none
    | none => none) })

/-- A request and a cancel of a bridge mailbox (R240, R241, R248, R254): no request without WIN_EN; a request while PENDING or ACTIVE is
ignored. -/
def writeTxctl (s : State) (n : Fin 16) (w : Word) (request cancel : Bool) : State :=
  let m := s.shb.mbox[n.val]
  let s :=
    if !m.status.isFinal then s
    else
      let fdf := w.getLsbD 6
      let brs := w.getLsbD 5
      let dlc := w.extractLsb' 0 4
      let attempts := (w.extractLsb' 20 4).toNat
      if request && s.shb.winEn then mboxRequest s n fdf brs dlc attempts
      else setMbox s n (fun m => { m with attempts := attempts, fdf := fdf, brs := brs, dlc := dlc })
  if cancel then
    match (s.shb.mbox[n.val]).status with
    | .pending => endMbox s n .cancelled
    | .active => setMbox s n (fun m => { m with cancel := true })
    | _ => s
  else s

/-- Bridge mailbox 8 to 15. -/
def bridgeBox (m : Fin 8) : Fin 16 := ⟨8 + m.val, by omega⟩

def setFilter (s : State) (n : Nat) (f : Filter → Filter) : State := setShb s (fun b => { b with filters := updNat b.filters n f })

/-- FLUSH (R282): the output buffer and any partial input line are discarded. -/
def flushPipe (s : State) (k : Sess) : State := setSes s k (fun q => { q with out := [], line := [], lineErr := none })

/-- A write of PIPE_CTRL (R282). -/
def writePipeCtrl (s : State) (k : Sess) (w : Word) : State :=
  let s := setSes s k (fun q => { q with ibiEn := w.getLsbD 0, ovf := q.ovf && !w.getLsbD 2 })
  if w.getLsbD 1 then flushPipe s k else s

/-- A write of one window word (R246-R254): reserved offsets and read-only words take nothing. -/
def writeWindow (s : State) (off : Nat) (w : Word) : State :=
  match off with
  | 0x04 =>
    let s := setShb s (fun b => { b with ibiEn := w.getLsbD 2 })
    let s := writeWinEn (if w.getLsbD 1 then flushQ1 s else s) (w.getLsbD 0)
    raiseIrq s 0
  | 0x10 => setShb s (fun b => { b with q1ovf := 0 })
  | 0x14 => setShb s (fun b => { b with irq := b.irq &&& ~~~w })
  | 0x18 => raiseIrq (setShb s (fun b => { b with irqen := w &&& 0xF })) 0
  | 0x24 => setQ1 s (w.toNat % 64) none
  | _ =>
    if 0x80 ≤ off ∧ off < 0x100 then
      setFilter s (16 + (off - 0x80) / 8) (fun f =>
        if off % 8 = 4 then { f with mask := w.extractLsb' 0 29 }
        else { f with en := w.getLsbD 31, fmt := w.extractLsb' 29 2, id := w.extractLsb' 0 29 })
    else if 0x400 ≤ off ∧ off < 0x800 then
      let n : Fin 16 := Fin.ofNat 16 (8 + (off - 0x400) / 0x80)
      let o := off % 0x80
      if o = 4 then writeTxctl s n w (w.getLsbD 8) (w.getLsbD 9)
      else if !((s.shb.mbox[n.val]).status.isFinal) then s
      else if o = 0 then setMbox s n (fun m => { m with id := w.extractLsb' 0 29 })
      else if o < 0x48 then
        setMbox s n (fun m =>
          let d := bytesAt m.data 0 64
          { m with data := d.take (o - 8) ++ leBytes 4 w.toNat ++ d.drop (o - 4) })
      else s
    else s

/-- A window write that arrives. -/
def onWindow (s : State) (f : State → State) : State := if windowOn s then f s else s

def execBwCtrlWinEn (enable : Bool) (s : State) : Out := .next (onWindow s (fun s => writeWinEn s enable))
def execBwCtrlQ1Flush (s : State) : Out := .next (onWindow s flushQ1)
def execBwQ1ovfClear (s : State) : Out := .next (onWindow s (fun s => writeWindow s 0x10 0))
def execBwIrqClear (mask : Word) (s : State) : Out := .next (onWindow s (fun s => writeWindow s 0x14 mask))
def execBwRelease (index : BitVec 6) (s : State) : Out := .next (onWindow s (fun s => setQ1 s index.toNat none))

/-- TXCTL_REQUEST (R240): the word's other fields give ATTEMPTS, FDF, BRS and DLC. -/
def execTxctlRequest (mailbox : Fin 8) (word : Word) (s : State) : Out :=
  .next (onWindow s (fun s => writeTxctl s (bridgeBox mailbox) word true (word.getLsbD 9)))

/-- TXCTL_CANCEL (R241). -/
def execTxctlCancel (mailbox : Fin 8) (s : State) : Out :=
  .next (onWindow s (fun s =>
    match (s.shb.mbox[(bridgeBox mailbox).val]).status with
    | .pending => endMbox s (bridgeBox mailbox) .cancelled
    | .active => setMbox s (bridgeBox mailbox) (fun m => { m with cancel := true })
    | _ => s))

/-- BRIDGE_REGISTER_WRITE (R246, R282): a word of the window or of a pipe block; the offset is that of a whole word. -/
def execBridgeRegisterWrite (offset : Nat) (word : Word) (s : State) : Out :=
  .next (
    let off := offset / 4 * 4
    if off = 0x8408 then (if targetAnswers s then writePipeCtrl s 5 word else s)
    else if off = 0x8C08 then (if targetAnswers s then writePipeCtrl s 6 word else s)
    else onWindow s (fun s => writeWindow s off word))

/-! ## The verbs (R317) -/

def busVerb (k : Sess) : Verb :=
  verb k .view false anyState (fun _ => []) (fun s =>
    let b := s.shb
    let c := b.counts
    okAns s
      [("mode", .kw b.mode.text), ("nrate", .nat b.nrate), ("drate", .nat b.drate), ("node", .nat s.aon.opt.nodeId.toNat)
      , ("keeper", match s.warp.keeper with
          | some n => .nat n.toNat
          | none => .kw "none")
      , ("tec", .nat b.tec), ("rec", .nat b.recCnt), ("stuff", .nat c.stuff), ("form", .nat c.form), ("ack", .nat c.ack)
      , ("bit", .nat c.bit), ("crc", .nat c.crc), ("arblost", .nat c.arblost), ("miss", .nat c.miss), ("q0ovf", .nat c.q0ovf)
      , ("q1ovf", .nat b.q1ovf), ("reasm", .nat c.reasm), ("busoff", .nat c.busoff)])

/-- D05 is not there for a command (R57, R62). -/
def noShb (s : State) : Bool := !isOn s 5

def busFilterVerb (k : Sess) (n mtch mask fmt en : Nat) : Verb :=
  verb k .keep false [SV, PK, FT]
    (fun s => [(n < 6 || 15 < n, 101), (2 ^ 29 ≤ mtch, 101), (2 ^ 29 ≤ mask, 101), (fmt = 3, 108), (3 < fmt, 101), (1 < en, 101), (noShb s, 405)])
    (fun s =>
      let f : Filter := { en := en = 1, fmt := BitVec.ofNat 2 fmt, id := BitVec.ofNat 29 mtch, mask := BitVec.ofNat 29 mask }
      okAns (setFilter s n (fun _ => f))
        [("filter", .nat n), ("match", .hex 8 mtch), ("mask", .hex 8 mask), ("fmt", .nat fmt), ("en", boolVal (en = 1))])

def busRecoverVerb (k : Sess) : Verb :=
  verb k .keep false [SV, PK, FT] (fun s => [(noShb s, 405)]) (fun s => okAns (requestRecovery s) [("mode", .kw s.shb.mode.text)])

/-- A node that does not use the bus, or whose ID is taken, stays as it is (R72, R258). -/
def busRedetectVerb (k : Sess) : Verb :=
  verb k .keep false [SV, PK, FT] (fun s => [(noShb s, 405)]) (fun s =>
    let s := if s.shb.mode = .off ∨ s.shb.mode = .dupnode then s else detect s
    okAns s [("mode", .kw (if s.shb.mode = .off ∨ s.shb.mode = .dupnode then s.shb.mode.text else "DETECTING"))])

def busFlushVerb (k : Sess) : Verb :=
  verb k .keep false [SV, PK, FT] (fun s => [(noShb s, 405)]) (fun s =>
    let keep := if s.shb.onWire = .fifo then 1 else 0
    let n := s.shb.fifo.length - keep
    okAns (setShb s (fun b => { b with fifo := b.fifo.take keep })) [("flushed", .nat n)])

def outOf (lo hi : Nat) : Option Nat → Bool
  | some v => v < lo || hi < v
  | none => false

def busSetVerb (k : Sess) (holdoff count beacon : Option Nat) : Verb :=
  verb k .keep false [SV, PK, FT]
    (fun s => [(outOf 1000000000 600000000000 holdoff, 101), (outOf 0 10 count, 101)
              , (outOf 1000000000 3600000000000 beacon && beacon ≠ some 0, 101), (cfgGuard s k, 209), (noShb s, 405)])
    (fun s =>
      okAns (storesCfg (setShb s (fun b => { b with
          holdoffNs := holdoff.getD b.holdoffNs, recovMax := count.getD b.recovMax, beaconNs := beacon.getD b.beaconNs })))
        (given [("holdoff", holdoff.map .dur), ("count", count.map .nat), ("beacon", beacon.map .dur)]))

def execBus (k : Sess) (s : State) : Out := .next (onVerb s k (.bus k) false (busVerb k))
def execBusFilter (k : Sess) (n mtch mask fmt en : Nat) (s : State) : Out :=
  .next (onVerb s k (.busFilter k n mtch mask fmt en) false (busFilterVerb k n mtch mask fmt en))
def execBusRecover (k : Sess) (s : State) : Out := .next (onVerb s k (.busRecover k) false (busRecoverVerb k))
def execBusRedetect (k : Sess) (s : State) : Out := .next (onVerb s k (.busRedetect k) false (busRedetectVerb k))
def execBusFlush (k : Sess) (s : State) : Out := .next (onVerb s k (.busFlush k) false (busFlushVerb k))
def execBusSet (k : Sess) (holdoff count beacon : Option Nat) (s : State) : Out :=
  .next (onVerb s k (.busSet k holdoff count beacon) false (busSetVerb k holdoff count beacon))

end Sys2Proof.Machine
end

