-- ==== Sys2Proof/Machine/Warp.lean ====
section
/-! DEFINITION. Warp time, the keeper, slot tables and stakes (R259-R278), and the WARP and STAKE verbs (R318, R319). -/

namespace Sys2Proof.Machine

def setWarp (s : State) (f : Warp → Warp) : State := { s with warp := f s.warp }

/-! ## The error bound (R260, R264, R265, R269) -/

/-- e0 in nanoseconds by nominal rate. -/
def e0Of (s : State) : Nat :=
  match s.shb.nrate with
  | 4 => 1000
  | 3 => 1500
  | 2 => 2500
  | 1 => 4500
  | _ => Config.e0Unknown

/-- `werr=` in nanoseconds: e0, in holdover plus the growth since the last accepted sync. -/
def werr (s : State) : Nat :=
  match s.warp.state with
  | .synced | .keeper => e0Of s
  | _ => e0Of s + s.warp.growthFs / 1000000

/-- Growth of the bound over one microsecond, in femtoseconds. -/
def growthRate (s : State) : Nat :=
  if isOn s 6 then
    match s.warp.lastSync with
    | some t => if s.aon.us ≤ t + 120000000 then 150 else 500
    | none => 500
  else if s.aon.xtal = .fail then 1000000
  else 2000

def guardNs : Nat := 11500

/-- WARP_GUARD_CROSSING (R269): into WIDE from holdover, and out of it, with the folds that were waiting. -/
def execWarpGuardCrossing (s : State) : Out :=
  .next (match s.warp.state with
    | .holdover => if guardNs < werr s then setWarp s (fun w => { w with state := .wide }) else s
    | .wide => if werr s ≤ guardNs then nextFolds (setWarp s (fun w => { w with state := .holdover })) else s
    | _ => s)

/-! ## Following a keeper (R261-R263) -/

/-- Class 0 and 2 frames reach WARP and the firmware. -/
def hears (s : State) : Bool := s.mg.running && isOn s 5 && isOn s 6 && onBus s

def byteAt (l : List Byte) (i : Nat) : Nat := (l.getD i 0).toNat

/-- This node follows a sender: the keeper it has, a lower node ID, or anyone while it has none. -/
def followsNode (s : State) (src : NodeId) : Bool :=
  s.warp.state ≠ .keeper && (match s.warp.keeper with
    | none => true
    | some k => src = k || src < k)

/-- A class 0 frame of a keeper or candidate: announcing node, ROLE, VALID. -/
def sendAnnounce (s : State) (role : Nat) : State :=
  fwSend s (makeId 0 2 s.aon.opt.nodeId.toNat 0)
    (leBytes 2 s.aon.opt.nodeId.toNat ++ [BitVec.ofNat 8 role, if s.warp.unset_ then 0 else 1, 0, 0, 0, 0])

/-- A keeper resigns in favour of a lower node with valid time (R263). -/
def resign (s : State) (node : NodeId) : State :=
  let s := dropKeeper (sendAnnounce s 2)
  setWarp s (fun w => { w with keeper := some node, await := none, rests := [] })

/-- SYNC (R261, R262): timestamped, it waits for its FOLLOW_UP. -/
def execSync (src : NodeId) (tag : BitVec 10) (payload : List Byte) (s : State) : Out :=
  .next (
    if !hears s || payload.length ≠ 8 || 5 < byteAt payload 4 then s
    else if s.warp.state = .keeper ∧ !(src < s.aon.opt.nodeId ∧ byteAt payload 5 % 2 = 0) then s
    else
      let s := if s.warp.state = .keeper then resign s src else s
      if followsNode s src then
        setWarp s (fun w => { w with keeper := some src, await := some { src := src, tag := tag, local_ := w.ns, table := byteAt payload 6 % 4 } })
      else s)

/-- The trim that the PI loop sets, within 500 ppm. -/
def clipTrim (t : Int) : Int := max (-500000) (min 500000 t)

/-- An accepted pair (R262). -/
def acceptPair (s : State) (o : Int) : State :=
  let n := s.free
  let s := setWarp { s with free := n + 1 } (fun w => { w with await := none, missed := 0, lastSync := some s.aon.us, growthFs := 0 })
  if o.natAbs ≤ 100000 then
    let s := setWarp s (fun w => { w with trim := clipTrim (Config.slew o n), good := if o.natAbs ≤ 1000 then w.good + 1 else 0 })
    if 8 ≤ s.warp.good then
      let s := if s.warp.state = .holdover ∨ s.warp.state = .wide then holdElection s else s
      nextFolds (setWarp s (fun w => { w with state := .synced, unset_ := false }))
    else s
  else setWarp s (fun w => { w with step := some o, good := 0 })

/-- FOLLOW_UP (R262). -/
def execFollowUp (src : NodeId) (tag : BitVec 10) (payload : List Byte) (s : State) : Out :=
  .next (match s.warp.await with
    | some a =>
      if hears s ∧ s.warp.state ≠ .keeper ∧ payload.length = 8 ∧ a.src = src ∧ a.tag = tag then
        acceptPair s ((leAt payload 0 8 : Int) + s.warp.delay - a.local_)
      else s
    | none => s)

/-- Sync is lost: HOLDOVER (R262, R278). -/
def loseSync (s : State) : State :=
  let s := setWarp s (fun w => { w with keeper := none, await := none, good := 0, missed := 0 })
  if s.warp.state = .synced then logEv (setWarp s (fun w => { w with state := .holdover })) 6 .warpLost else s

/-- FOLLOW_UP_TIMEOUT (R261, R278): the SYNC is discarded; four in a row are lost sync. -/
def execFollowUpTimeout (s : State) : Out :=
  .next (if s.warp.await.isSome then
    let s := setWarp s (fun w => { w with await := none, missed := w.missed + 1 })
    if 4 ≤ s.warp.missed then loseSync s else s
  else s)

def execSyncLoss (s : State) : Out := .next (if s.warp.state = .keeper then s else loseSync s)

/-- KEEPER_ANNOUNCE (R263): a keeper yields to a lower node with valid time; a follower turns to a lower one, and leaves a keeper that
resigns. -/
def execKeeperAnnounce (src : NodeId) (payload : List Byte) (s : State) : Out :=
  .next (
    let role := byteAt payload 2
    let valid : Bool := byteAt payload 3 % 2 = 1
    if !hears s || payload.length ≠ 8 || 2 < role then s
    else if s.warp.state = .keeper then (if role = 1 ∧ valid ∧ src < s.aon.opt.nodeId then resign s src else s)
    else
      let s := setWarp s (fun w => { w with candidate := false })
      if role = 1 ∧ followsNode s src = true then setWarp s (fun w => { w with keeper := some src, await := if w.keeper = some src then w.await else none })
      else if role = 2 ∧ s.warp.keeper = some src then setWarp s (fun w => { w with keeper := none, await := none })
      else s)

/-- KEEPER_ELECTION_TIMEOUT (R263): a keeper-capable node in ACTIVE becomes keeper; one without a valid warp time waits a further
10 s first, and the next expiry finds it a candidate. -/
def execKeeperElectionTimeout (s : State) : Out :=
  .next (if hears s ∧ s.aon.opt.keeperCap = true ∧ s.shb.mode = .active ∧ s.warp.state ≠ .keeper ∧ s.warp.followUs ≤ s.aon.us then
    if s.warp.unset_ ∧ s.warp.candidate = false then setWarp s (fun w => { w with candidate := true })
    else
      sendAnnounce (setWarp s (fun w =>
        { w with state := .keeper, keeper := some s.aon.opt.nodeId, candidate := false, await := none, step := none, good := 0 })) 1
  else s)

/-- KEEPER_SYNC_TIMER (R261): SYNC now; its FOLLOW_UP when it has been sent. HOLD and STEP tell a count that was started locally. -/
def execKeeperSyncTimer (s : State) : Out :=
  .next (if hears s ∧ s.warp.state = .keeper ∧ s.shb.mode = .active then
    let n := (s.warp.syncSeq + 1) % 2 ^ 32
    let s := setWarp s (fun w => { w with syncSeq := n })
    fwSend s (makeId 0 0 s.aon.opt.nodeId.toNat (n % 1024))
      (leBytes 4 n ++ [BitVec.ofNat 8 s.warp.interval, if s.warp.unset_ then 3 else 0, BitVec.ofNat 8 s.warp.active.val, 0])
  else s)

/-- WARP_STEP (R262, R278): at the frame boundary, logged with its size. -/
def execWarpStep (s : State) : Out :=
  .next (match s.warp.step with
    | some o =>
      let s := setWarp s (fun w => { w with ns := ((w.ns : Int) + o).toNat, step := none, frac := 0 })
      logEv s 6 .warpStepped (o.natAbs % 2 ^ 32) (o.natAbs / 2 ^ 32) (if o < 0 then 1 else 0)
    | none => s)

/-- WARP_COUNT_SAVE (R266): the count into the config store while SYNCED or KEEPER; without a keeper, the hourly event of R278. -/
def execWarpCountSave (s : State) : Out :=
  .next (if s.mg.running then
    match s.warp.state with
    | .synced | .keeper => writeArea (setWarp s (fun w => { w with stored := some w.ns, storeBad := false })) .time
    | _ => logEv s 6 .warpNoKeeper
  else s)

/-! ## Slot tables (R267, R268) -/

/-- Rotate a mask left within its 40 bits. -/
def rotMask (m : BitVec 40) (n : Nat) : BitVec 40 := m.rotateLeft (n % 40)

/-- Set a table: the active one at the next frame boundary, another at once. The config store keeps it. -/
def setTable (s : State) (n : Nat) (t : SlotTable) : State :=
  let s := writeArea s .cfg
  if n = s.warp.active.val ∧ (activeTable s).isSome = true then setWarp s (fun w => { w with staged := some t })
  else setWarp s (fun w => { w with tables := updNat w.tables n (fun _ => some t) })

def discardFrame (s : State) : State := setWarp s (fun w => { w with discards := w.discards + 1 })

/-- SLOT_TABLE (R268): to this node as sent, to all rotated; MASK = 0 or a reserved stagger is discarded and counted. -/
def execSlotTable (tag : BitVec 10) (payload : List Byte) (s : State) : Out :=
  .next (
    let node := s.aon.opt.nodeId
    if !hears s || (tag ≠ node && tag ≠ 0x3FF) || payload.length ≠ 8 then s
    else
      let mask := BitVec.ofNat 40 (leAt payload 0 5)
      let b := byteAt payload 6
      let stagger := b % 64
      if mask = 0 ∨ 40 ≤ stagger then discardFrame s
      else
        let smax := byteAt payload 5 + 1
        if tag = 0x3FF then
          setTable s (b / 64) { mask := rotMask mask node.toNat, smax := smax, stagger := (stagger + node.toNat) % 40 }
        else setTable s (b / 64) { mask := mask, smax := smax, stagger := stagger })

/-- FRAME_BOUNDARY_TABLE_SWITCH (R268): new content of the active table, then a pending switch. -/
def execFrameBoundaryTableSwitch (s : State) : Out :=
  .next (
    let s := match s.warp.staged with
      | some t => setWarp s (fun w => { w with tables := upd w.tables w.active (fun _ => some t), staged := none })
      | none => s
    match s.warp.pending with
    | some n => setWarp s (fun w => { w with active := n, pending := none })
    | none => s)

/-! ## Stakes (R270-R275) -/

def setStake (s : State) (i : Fin 64) (f : Stake → Stake) : State := setWarp s (fun w => { w with stakes := upd w.stakes i f })

/-- The requests of R309 that a stake makes too: SETTLE starts in SERVE with `img=TRACK`. -/
def settleStartReq (s : State) : State × Option Nat :=
  if s.aon.hold ≠ .serve then (s, some 301)
  else if s.aon.img ≠ .track then (s, some 307)
  else (if s.nand.settle.running then s else startSettle s, none)

def settleStopReq (s : State) : State × Option Nat := if s.aon.hold ≠ .serve then (s, some 301) else (stopSettle s, none)

def ReqResult.code : ReqResult → Option Nat
  | .refused c => some c
  | _ => none

/-- The refusal of SLOT_SWITCH: no such table, or an empty one (R273). -/
def switchTable (s : State) (n : Nat) : State × Option Nat :=
  match s.warp.tables.toList.getD n none with
  | some _ => (setWarp s (fun w => { w with pending := some (Fin.ofNat 4 n) }), none)
  | none => (s, some 101)

/-- An action on S7 (R272): its refusal, if any. -/
def stakeAction (s : State) (i : Fin 64) (x : Stake) : State × Option Nat :=
  match x.action with
  | 1 => let q := parkRequest s .stake; (q.1, q.2.code)
  | 2 => let q := restoreRequest s .stake none (some (x.trigger, x.arg)); (q.1, q.2.code)
  | 3 => settleStartReq s
  | 4 => settleStopReq s
  | 5 =>
    if (s.aon.hold = .serve ∨ s.aon.hold = .park) ∧ aboveParksafe s = true then
      (openRest s, none) else (s, some 301)
  | 6 => (logEv s 0 .mark x.arg i.val 7, none)
  | 7 => switchTable s x.arg
  | _ => (s, some 108)

/-- Fire an entry (R273): FIRED, or MISSED where its chapter refuses the action; the response of S7 goes to the recorder (R280). -/
def fireStake (s : State) (i : Fin 64) : State :=
  let x := s.warp.stakes[i.val]
  let late := min 0xFFFFFFFF (s.warp.ns - x.trigger)
  let s := setStake s i (fun x => { x with state := .fired, late := late })
  match stakeAction s i x with
  | (s, none) => logEv s 0 .s7Response i.val x.action
  | (s, some c) => logEv (setStake s i (fun x => { x with state := .missed })) 6 .stakeMissed i.val x.action c

/-- A trigger that has passed: the stake fires, or is MISSED when more than 1 s late (R273). -/
def judgeStake (s : State) (i : Fin 64) : State :=
  let x := s.warp.stakes[i.val]
  if s.warp.ns ≤ x.trigger + 1000000000 then fireStake s i
  else
    let late := min 0xFFFFFFFF (s.warp.ns - x.trigger)
    logEv (setStake s i (fun x => { x with state := .missed, late := late })) 6 .stakeMissed i.val x.action

/-- STAKE_FIRE (R273): only an ARMED stake whose trigger warp time has reached; one whose trigger passed while WARP was in RET is judged at
wake. -/
def execStakeFire (index : Fin 64) (s : State) : Out :=
  .next (
    let x := s.warp.stakes[index.val]
    if isOn s 6 ∧ x.state = .armed ∧ x.trigger ≤ s.warp.ns then judgeStake s index else s)

/-- A stake is set (R273): a trigger already past fires at once, or is missed. That a REST stake has arrived counts for R219. -/
def placeStake (s : State) (i : Fin 64) (trigger action arg : Nat) (src : NodeId) : State :=
  let s := setStake s i (fun _ => { trigger := trigger, state := .armed, action := action, arg := arg, src := src, late := 0 })
  let s := if action = 5 then { s with bat := { s.bat with restStake := true } } else s
  if s.warp.ns ≤ trigger then s else judgeStake s i

/-- The trigger in nanoseconds that 40 bits of microseconds name: the nearest to the present count (R270). -/
def nearTrigger (ns low : Nat) : Nat :=
  let now := ns / 1000
  let c := now - now % 2 ^ 40 + low
  let c := if c + 2 ^ 39 < now then c + 2 ^ 40
    else if now + 2 ^ 39 < c ∧ 2 ^ 40 ≤ c then c - 2 ^ 40
    else c
  1000 * c

def actionReserved (a : Nat) : Bool := a = 0 || 8 ≤ a

/-- The frame is for this node. -/
def targeted (s : State) (field : Nat) : Bool := field % 1024 = s.aon.opt.nodeId.toNat || field % 1024 = 0x3FF

/-- STAKE_SET (R270): a reserved index or action is discarded. -/
def execStakeSetFrame (src : NodeId) (tag : BitVec 10) (payload : List Byte) (s : State) : Out :=
  .next (
    let f := leAt payload 5 2
    if !hears s || payload.length ≠ 8 || !targeted s f then s
    else if h : tag.toNat < 64 then
      if actionReserved (f / 4096) then discardFrame s
      else placeStake s ⟨tag.toNat, h⟩ (nearTrigger s.warp.ns (leAt payload 0 5)) (f / 4096) (byteAt payload 7) src
    else discardFrame s)

/-- STAKE_CANCEL (R270): the trigger must equal the stored one. -/
def execStakeCancelFrame (tag : BitVec 10) (payload : List Byte) (s : State) : Out :=
  .next (
    if !hears s || payload.length ≠ 8 || !targeted s (leAt payload 5 2) then s
    else if h : tag.toNat < 64 then
      let x := s.warp.stakes[tag.toNat]
      if x.trigger / 1000 % 2 ^ 40 ≠ leAt payload 0 5 then setWarp s (fun w => { w with ignored := w.ignored + 1 })
      else if x.state = .armed then setStake s ⟨tag.toNat, h⟩ (fun x => { x with state := .cancelled })
      else s
    else discardFrame s)

/-- A STAKE_SET frame's payload. -/
def stakePayload (trigger action target arg : Nat) : List Byte :=
  leBytes 5 (trigger / 1000) ++ leBytes 2 (action * 4096 + target % 1024) ++ [BitVec.ofNat 8 arg]

def restWindowNs : Nat := 1800000000000

/-- REST windows that overlap the one beginning at `t`. -/
def overlapping (l : List (NodeId × Nat)) (t : Nat) : Nat :=
  (l.filter (fun p => p.2 < t + restWindowNs && t < p.2 + restWindowNs)).length

/-- The earliest start at `t0` or at the end of a placed window for which fewer than `n` windows overlap. -/
def restStart (l : List (NodeId × Nat)) (t0 n : Nat) : Nat :=
  let ends := (l.map (fun p => p.2 + restWindowNs)).filter (fun e => t0 < e)
  let good := (t0 :: ends).filter (fun t => overlapping l t < n)
  good.foldl min (good.headD (ends.foldl max t0))

/-- REST_REQUEST_FRAME (R275): the keeper places a REST stake for the requester, 60 s or more ahead. -/
def execRestRequestFrame (src : NodeId) (payload : List Byte) (s : State) : Out :=
  .next (if hears s ∧ payload.length = 8 ∧ s.warp.state = .keeper ∧ s.shb.mode = .active then
    let l := s.warp.rests.filter (fun p => s.warp.ns < p.2 + restWindowNs && p.1 ≠ src)
    let t := restStart l (s.warp.ns + 60000000000) s.warp.restmax
    let n := s.free
    let s := setWarp { s with free := n + 1 } (fun w => { w with rests := l ++ [(src, t)] })
    fwSend s (makeId 2 0 s.aon.opt.nodeId.toNat (Config.restStake n % 64)) (stakePayload t 5 src.toNat 0)
  else s)

/-! ## The verbs (R318, R319) -/

def WarpState.code : WarpState → Nat
  | .none => 0
  | .synced => 1
  | .holdover => 2
  | .wide => 3
  | .keeper => 4

def WarpState.text : WarpState → String
  | .none => "NONE"
  | .synced => "SYNCED"
  | .holdover => "HOLDOVER"
  | .wide => "WIDE"
  | .keeper => "KEEPER"

/-- `werr=`: there is no bound in NONE. -/
def werrVal (s : State) : Val := if s.warp.state = .none then .kw "none" else .nat (werr s)

/-- The six intervals of R261 in nanoseconds. -/
def intervalNs (code : Nat) : Nat := 31250000 * 2 ^ code
def intervalCode (ns : Nat) : Option Nat := (List.range 6).find? (fun c => intervalNs c = ns)

def tableFields (n : Nat) (t : Option SlotTable) : List (String × Val) :=
  [("table", .nat n)] ++ (match t with
    | some t => [("mask", .hex 10 t.mask.toNat), ("smax", .nat t.smax), ("stagger", .nat t.stagger)]
    | none => [("mask", .kw "none"), ("smax", .kw "none"), ("stagger", .kw "none")])

def warpVerb (k : Sess) : Verb :=
  verb k .view false anyState (fun _ => []) (fun s =>
    okAns s
      ([("warp", .kw s.warp.state.text), ("werr", werrVal s), ("warp_ns", .nat s.warp.ns)
       , ("keeper", match s.warp.keeper with
           | some n => .nat n.toNat
           | none => .kw "none")] ++
        tableFields s.warp.active.val (activeTable s) ++
       [("interval", .dur (intervalNs s.warp.interval)), ("delay", .nat s.warp.delay)]))

def warpSetVerb (k : Sess) (interval delay restmax : Option Nat) : Verb :=
  verb k .keep false [SV, PK, FT]
    (fun s => [((interval.bind intervalCode).isNone && interval.isSome, 101), (outOf 0 65535 delay, 101), (outOf 1 64 restmax, 101)
              , (cfgGuard s k, 209)])
    (fun s =>
      okAns (storesCfg (setWarp s (fun w => { w with
          interval := (interval.bind intervalCode).getD w.interval, delay := delay.getD w.delay, restmax := restmax.getD w.restmax })))
        (given [("interval", interval.map .dur), ("delay", delay.map .nat), ("restmax", restmax.map .nat)]))

/-- A send is asked for. -/
def sends (send : Option Nat) : Bool := send = some 1

/-- A Boolean operand outside its forms. -/
def notBool : Option Nat → Bool
  | some b => 1 < b
  | none => false

def warpTableVerb (k : Sess) (n mask smax stagger : Nat) (send target : Option Nat) : Verb :=
  verb k .keep false [SV, PK, FT]
    (fun s => [(3 < n, 101), (mask = 0 || 2 ^ 40 ≤ mask, 101), (smax = 0 || 256 < smax, 101), (39 < stagger, 101), (notBool send, 101)
              , (outOf 0 0x3FF target, 101), (cfgGuard s k, 209), (sends send && s.shb.mode ≠ .active, 405)])
    (fun s =>
      let t : SlotTable := { mask := BitVec.ofNat 40 mask, smax := smax, stagger := stagger }
      let s := setTable s n t
      let s := if sends send then
          fwSend s (makeId 2 2 s.aon.opt.nodeId.toNat (target.getD 0x3FF))
            (leBytes 5 mask ++ [BitVec.ofNat 8 (smax - 1), BitVec.ofNat 8 (n * 64 + stagger), 0])
        else s
      okAns s (tableFields n (some t)))

/-- The next frame boundary (R267). -/
def nextBoundary (ns : Nat) : Nat := ceilDiv ns 1000000 * 1000000

def warpTableActiveVerb (k : Sess) (n : Nat) : Verb :=
  verb k .keep false [SV, PK, FT]
    (fun s => [(3 < n || (s.warp.tables.toList.getD n none).isNone, 101), (cfgGuard s k, 209)])
    (fun s => okAns (storesCfg (switchTable s n).1) [("table", .nat n), ("at", .nat (nextBoundary s.warp.ns))])

def StakeSt.text : StakeSt → String
  | .empty => "EMPTY"
  | .armed => "ARMED"
  | .fired => "FIRED"
  | .missed => "MISSED"
  | .cancelled => "CANCELLED"

def actionText (a : Nat) : String :=
  match a with
  | 1 => "PARK"
  | 2 => "RESTORE"
  | 3 => "SETTLE_START"
  | 4 => "SETTLE_STOP"
  | 5 => "REST"
  | 6 => "LOG_MARK"
  | 7 => "SLOT_SWITCH"
  | _ => "0"

/-- ARG of an action within R272. -/
def argOk (action arg : Nat) : Bool :=
  match action with
  | 2 | 6 => arg ≤ 255
  | 7 => arg ≤ 3
  | _ => arg = 0

/-- The trigger of `trigger=`, rounded down to a microsecond, or of `in=`. -/
def stakeTrigger (s : State) (relative : Bool) (t : Nat) : Nat := if relative then s.warp.ns + t else t / 1000 * 1000

def stakeAt (s : State) (i : Nat) : Stake := s.warp.stakes.toList.getD i Stake.empty

def stakeSetVerb (k : Sess) (i action : Nat) (relative : Bool) (trigger : Nat) (arg send target : Option Nat) : Verb :=
  verb k .keep false anyState
    (fun s => [(63 < i, 101), (actionReserved action && action ≤ 15, 108), (15 < action, 101)
              , (s.warp.ns + 2 ^ 39 * 1000 < stakeTrigger s relative trigger, 101), (!argOk action (arg.getD 0), 101), (notBool send, 101)
              , (outOf 0 0x3FF target, 101), (sends send && s.shb.mode ≠ .active, 405)])
    (fun s =>
      let t := stakeTrigger s relative trigger
      let s := if sends send then
          fwSend s (makeId 2 0 s.aon.opt.nodeId.toNat i) (stakePayload t action (target.getD 0x3FF) (arg.getD 0))
        else s
      let s := placeStake s (Fin.ofNat 64 i) t action (arg.getD 0) 0x3FF
      okAns s [("stake", .nat i), ("state", .kw (stakeAt s i).state.text), ("trigger", .nat (stakeAt s i).trigger)])

def stakeCancelVerb (k : Sess) (i : Nat) (send : Option Nat) : Verb :=
  verb k .keep false anyState
    (fun s => [(63 < i, 101), (notBool send, 101), (sends send && s.shb.mode ≠ .active, 405)])
    (fun s =>
      let x := stakeAt s i
      let s :=
        if x.state = .armed then
          let s := if sends send then
              fwSend s (makeId 2 1 s.aon.opt.nodeId.toNat i) (leBytes 5 (x.trigger / 1000) ++ leBytes 2 0x3FF ++ [0])
            else s
          setStake s (Fin.ofNat 64 i) (fun x => { x with state := .cancelled })
        else s
      okAns s [("stake", .nat i), ("state", .kw (stakeAt s i).state.text)])

def stakeShowVerb (k : Sess) (i : Option Nat) : Verb :=
  verb k .view false anyState (fun _ => [(outOf 0 63 i, 101)]) (fun s =>
    match i with
    | some i =>
      let x := stakeAt s i
      okAns s [("stake", .nat i), ("trigger", .nat x.trigger), ("state", .kw x.state.text), ("action", .kw (actionText x.action))
              , ("arg", .nat x.arg), ("src", .nat x.src.toNat), ("late", .nat x.late)]
    | none =>
      okAns s ((List.range 64).map (fun i =>
        let x := stakeAt s i
        ("s" ++ decText i, .kw (x.state.text ++ ":" ++ actionText x.action ++ ":" ++ decText x.trigger)))))

def execWarp (k : Sess) (s : State) : Out := .next (onVerb s k (.warp k) false (warpVerb k))
def execWarpSet (k : Sess) (interval delay restmax : Option Nat) (s : State) : Out :=
  .next (onVerb s k (.warpSet k interval delay restmax) false (warpSetVerb k interval delay restmax))
def execWarpTable (k : Sess) (n mask smax stagger : Nat) (send target : Option Nat) (s : State) : Out :=
  .next (onVerb s k (.warpTable k n mask smax stagger send target) false (warpTableVerb k n mask smax stagger send target))
def execWarpTableActive (k : Sess) (n : Nat) (s : State) : Out :=
  .next (onVerb s k (.warpTableActive k n) false (warpTableActiveVerb k n))
def execStakeSet (k : Sess) (i action : Nat) (relative : Bool) (trigger : Nat) (arg send target : Option Nat) (s : State) : Out :=
  .next (onVerb s k (.stakeSet k i action relative trigger arg send target) false (stakeSetVerb k i action relative trigger arg send target))
def execStakeCancel (k : Sess) (i : Nat) (send : Option Nat) (s : State) : Out :=
  .next (onVerb s k (.stakeCancel k i send) false (stakeCancelVerb k i send))
def execStakeShow (k : Sess) (i : Option Nat) (s : State) : Out := .next (onVerb s k (.stakeShow k i) false (stakeShowVerb k i))

end Sys2Proof.Machine
end

