-- ==== Sys2Proof/Machine/HoldVerbs.lean ====
section
/-! DEFINITION. STATUS and the hold-control verbs (R30, R32-R35, R42, R145, R159, R160, R172, R307-R309, R386, R388). -/

namespace Sys2Proof.Machine

/-! ## Alarms (R122, R386, R388, R391) -/

/-- Every alarm condition of R388's rows marked A, the alarms of R218 (no anchor) and R223 (imbalance), the park alarm of R122, the
management hold of R391 and the temperature of R430, in the order of those rows. A condition that BOOT judges counts from its judgement on. -/
def alarms (s : State) : List Bool :=
  [s.doms.dom.toList.any (fun d => d.mode = .failed), (allFin 87).any (fun n => (laneOf s n).halted && !coreSaveLane n)
  , s.aon.xtal = .fail, s.aon.por = .up && s.aon.optSel = .dflt, s.map.dqFailA || s.map.dqFailB, s.hp.mrcapOvf
  , s.nand.dies.toList.any (fun d => d.fenced), s.nand.bbtFull, s.nand.imgloss.isSome, s.ten.keyloss ≠ [], s.ten.unusable ≠ []
  , s.ten.oldDirty, s.bat.est = .sensefail, s.bat.est = .unanchored, s.bat.imbalance, s.bat.chg = .fault, s.bat.judgedPack && (s.bat.result = .none || s.bat.result = .mismatch)
  , s.bat.judged && (s.bat.margin = .red || s.bat.margin = .none), s.shb.mode = .busoff, s.shb.mode = .dupnode, s.shb.stuck || s.shb.noFrame
  , s.warp.state = .wide, s.mg.secBad, s.aon.fwfb, s.aon.parkAlarm, s.aon.mgmtHold
  , s.aon.tjHigh]

def alarm (s : State) : Bool := (alarms s).any id

/-! ## The hold-state word (R308) -/

/-- The hold-state word: the byte of R36 stands in bits 15 to 8. -/
def holdWord (s : State) : Word :=
  BitVec.ofNat 32 (flagBit s.aon.hpOk 31 + flagBit s.nand.settle.running 30 + flagBit s.aon.cont 29 + flagBit s.aon.stale 28 +
    flagBit s.map.cover.isNone 27 + s.map.cover.getD 0 % 8 * 2 ^ 24 + s.bat.margin.code * 2 ^ 21 + flagBit s.rst.req.isSome 20 +
    s.warp.state.code * 2 ^ 17 + flagBit (alarm s) 16 + (holdByte s).toNat * 2 ^ 8 + s.aon.cause.code * 2 ^ 5 +
    (if isOn s 5 then s.shb.mode.code else 0) * 2 ^ 2 + flagBit (s.nand.prov = .running) 1 + flagBit s.aon.fwfb 0)

/-! ## STATUS (R307) -/

/-- The class that `cover=` prints (R21). -/
def coverVal (s : State) : Val :=
  match s.map.cover with
  | some c => .nat c
  | none => .kw "none"

/-- `auth=` (R297, R304). -/
def authText (s : State) : String := if s.mg.secBad then "FAIL" else if s.mg.secKeep.isSome then "SET" else "OPEN"

/-- `nand=` (R130, R152). -/
def nandText (s : State) : String :=
  if s.nand.prov = .running then "PROVISIONING" else if s.nand.noProfile then "NOPROFILE" else "OK"

/-- `dqport=` (R107): every subchannel that failed. -/
def dqText (s : State) : String :=
  if s.map.dqFailA && s.map.dqFailB then "A:FAIL,B:FAIL" else if s.map.dqFailA then "A:FAIL" else if s.map.dqFailB then "B:FAIL"
  else "OK"

/-- The fields that every STATUS ends its identification with. -/
def bootFields (s : State) (fw : String) : List (String × Val) :=
  [("rst", .kw s.aon.rst.text), ("boots", .nat s.aon.boots), ("opt", .kw s.aon.optSel.text), ("optseq", .nat s.aon.optSeq)
  , ("bank", .kw (bankText (shownBank s))), ("fallback", flagVal s.aon.fwfb), ("step", .kw "B1"), ("fw", .kw fw)
  , ("serial", .hex 16 Config.serial.toNat), ("hsw", .hex 8 (holdWord s).toNat)]

def recoveryStatus (s : State) : List (String × Val) := ("state", .kw s.aon.hold.text) :: bootFields s "none"

def statusFields (s : State) (k : Sess) : List (String × Val) :=
  [("state", .kw s.aon.hold.text), ("img", .kw s.aon.img.text), ("settle", flagVal s.nand.settle.running), ("cover", coverVal s)
  , ("margin", .kw s.bat.margin.text), ("req", .kw (if s.rst.req.isSome then "RESTORE" else "none")), ("stale", flagVal s.aon.stale)
  , ("cont", flagVal s.aon.cont), ("priv", .kw (getSes s k).priv.text), ("auth", .kw (authText s))] ++
  bootFields s (hdrVer (hdrOf s s.aon.bank)) ++
  [("warp", .kw s.warp.state.text), ("werr", werrVal s), ("warp_ns", .nat s.warp.ns), ("bus", .kw s.shb.mode.text)
  , ("chg", .kw s.bat.chg.text), ("nand", .kw (nandText s)), ("bbt", .kw (if s.nand.bbtFull then "FULL" else "OK"))
  , ("dqport", .kw (dqText s)), ("mrcap", .kw (if s.hp.mrcapOvf then "OVF" else "OK"))
  , ("xtal", .kw (if s.aon.xtal = .fail then "FAIL" else "OK"))] ++
  given [("imgloss", s.nand.imgloss.map (fun q => Val.hex 16 q))
        , ("keyloss", if s.ten.keyloss = [] then none else some (tenantList s.ten.keyloss))]

def statusVerb (k : Sess) : Verb :=
  verb k .view false anyState (fun _ => []) (fun s => okAns s (if recovering s then recoveryStatus s else statusFields s k))

/-! ## PARK (R30, R33, R42, R122) -/

/-- The source of a planned request by its session (R27): S5 and S6 are the sideband. -/
def verbCause (k : Sess) : Cause := if k = 5 ∨ k = 6 then .sideband else .verb

def parkVerb (k : Sess) : Verb :=
  verb k .run false [SV, PK] (fun _ => []) (fun s =>
    match parkRequest s (verbCause k) with
    | (s, .refused c) => err s c
    | (s, .noSave) => okAns s [("state", .kw "SERVE"), ("save", .kw "none")]
    | (s, _) => okAns s [("state", .kw "PARK"), ("cover", coverVal s)])

def parkCancelVerb (k : Sess) : Verb :=
  verb k .run false [SV, PK] (fun _ => []) (fun s => okAns (if s.aon.hold = .park then endPark s else s) [("state", .kw "SERVE")])

def parkSetVerb (k : Sess) (wait : Nat) : Verb :=
  verb k .keep false [SV, PK, FT] (fun s => [(outOf 1000000000 600000000000 (some wait), 101), (cfgGuard s k, 209)])
    (fun s => okAns (storesCfg { s with map := { s.map with parkWaitNs := wait } }) [("wait", .dur wait)])

/-! ## RESTORE (R34, R35, R159, R160, R172) -/

/-- A DISCARD record is being committed. -/
def discarding (s : State) : Bool :=
  match s.nand.rimJob with
  | some j => (match j.use with
    | .discardRim _ => true
    | _ => false)
  | none => false

def restoreVerb (k : Sess) : Verb :=
  verb k .run false [SV, PK] (fun _ => []) (fun s =>
    match restoreRequest s (verbCause k) (some k) none with
    | (s, .refused c) => err s c
    | (s, _) => okAns s [("state", .kw "SERVE"), ("req", .kw "RESTORE")])

def restoreCancelVerb (k : Sess) : Verb :=
  verb k .run false [SV] (fun _ => []) (fun s => okAns { s with rst := { s.rst with req := none } } [("req", .kw "none")])

/-- `RESTORE DISCARD` (R35): its effect is its acceptance's, and the answer follows the commit of the DISCARD record. -/
def restoreDiscardVerb (k : Sess) : Verb :=
  verb k .keep false [SV] (fun s => [(discarding s, 300), (s.aon.img ≠ .pending, 308)]) (fun s =>
    workOn s k .discard (fun s =>
      let s := discardImage s
      startRim s (blankRim s .discard) (.discardRim (some k))))

/-- The ranges of a set, as first and last. -/
def rangesOf (r : RangeSet) : List (Nat × Nat) := r.map (fun p => (p.1, p.2 - 1))

/-- The longest front of a list of texts that stays within a length, each text followed by a comma. -/
def fitting : Nat → List Nat → Nat
  | _, [] => 0
  | room, n :: t => if n + 1 ≤ room then fitting (room - (n + 1)) t + 1 else 0

/-- The longest response line of a session (R289). -/
def lineLimit (k : Sess) : Nat := if isTunnel k then 8188 else 4000

/-- One tenant's part of the report (R172), under the tenant map that the restore used: counts, then the ranges of `older` and `lost`
granules from a granule index on, at most 1024 and at most what the line holds. -/
def tenantReport (s : State) (k : Sess) (r : Report) (t : Tenant) (start : Nat) : List (String × Val) :=
  let mine := tenantGranules s r.tenMap t
  let older := rsInter r.older mine
  let lost := rsInter r.lost mine
  let tail (r : RangeSet) : RangeSet := rsClip r start (2 ^ 24)
  let sorted := (rangesOf (tail older) ++ rangesOf (tail lost)).mergeSort (fun a b => a.1 ≤ b.1)
  let counts : List (String × Val) :=
    [("tenant", .nat t.val), ("older", .nat (rsSize older)), ("lost", .nat (rsSize lost))
    , ("zeroed", .nat (if r.zeroTenants.any (· = t) then rsSize mine else 0))]
  let room := lineLimit k - (OK counts).text.length - 30
  let page := sorted.take (min 1024 (fitting room (sorted.map (fun x => (Val.ranges [x]).text.length))))
  counts ++ [("ranges", rangesVal page)] ++ (if page.length < sorted.length then [("more", .nat 1)] else [])

def restoreReportVerb (k : Sess) (tenant start : Option Nat) : Verb :=
  verb k .view false anyState (fun s => [(outOf 0 255 tenant, 101), (s.rst.report.isNone, 412)]) (fun s =>
    match s.rst.report with
    | none => err s 412
    | some r =>
      match tenant with
      | none => okAns s (reportFields r)
      | some t => okAns s (tenantReport s k r (tenantOf t) (start.getD 0)))

/-! ## SETTLE (R145, R309) -/

def settleAnswer (x : State × Option Nat) : State × Reply :=
  match x.2 with
  | some c => err x.1 c
  | none => okAns x.1 [("settle", flagVal x.1.nand.settle.running)]

def settleStartVerb (k : Sess) : Verb := verb k .run false [SV] (fun _ => []) (fun s => settleAnswer (settleStartReq s))
def settleStopVerb (k : Sess) : Verb := verb k .run false [SV] (fun _ => []) (fun s => settleAnswer (settleStopReq s))

/-- Percentages from 5 to 95, layers from 2 to 255, and each start on its side of its stop. -/
def settleSetBad (startFree stopFree startLayers stopLayers : Nat) : Bool :=
  outOf 5 95 (some startFree) || outOf 5 95 (some stopFree) || outOf 2 255 (some startLayers) || outOf 2 255 (some stopLayers) ||
  stopFree ≤ startFree || startLayers ≤ stopLayers

def settleSetVerb (k : Sess) (startFree stopFree startLayers stopLayers : Nat) : Verb :=
  verb k .keep false [SV, FT] (fun s => [(settleSetBad startFree stopFree startLayers stopLayers, 101), (cfgGuard s k, 209)])
    (fun s =>
      let st := { s.nand.settle with startFree := startFree, stopFree := stopFree, startLayers := startLayers, stopLayers := stopLayers }
      okAns (storesCfg { s with nand := { s.nand with settle := st } })
        [("start_free", .nat startFree), ("stop_free", .nat stopFree), ("start_layers", .nat startLayers), ("stop_layers", .nat stopLayers)])

def execStatus (k : Sess) (s : State) : Out := .next (onVerb s k (.status k) true (statusVerb k))
def execPark (k : Sess) (s : State) : Out := .next (onVerb s k (.park k) false (parkVerb k))
def execParkCancel (k : Sess) (s : State) : Out := .next (onVerb s k (.parkCancel k) false (parkCancelVerb k))
def execParkSet (k : Sess) (wait : Nat) (s : State) : Out := .next (onVerb s k (.parkSet k wait) false (parkSetVerb k wait))
def execRestore (k : Sess) (s : State) : Out := .next (onVerb s k (.restore k) false (restoreVerb k))
def execRestoreCancel (k : Sess) (s : State) : Out := .next (onVerb s k (.restoreCancel k) false (restoreCancelVerb k))
def execRestoreDiscard (k : Sess) (s : State) : Out := .next (onVerb s k (.restoreDiscard k) false (restoreDiscardVerb k))
def execRestoreReport (k : Sess) (tenant start : Option Nat) (s : State) : Out :=
  .next (onVerb s k (.restoreReport k tenant start) false (restoreReportVerb k tenant start))
def execSettleStart (k : Sess) (s : State) : Out := .next (onVerb s k (.settleStart k) false (settleStartVerb k))
def execSettleStop (k : Sess) (s : State) : Out := .next (onVerb s k (.settleStop k) false (settleStopVerb k))
def execSettleSet (k : Sess) (startFree stopFree startLayers stopLayers : Nat) (s : State) : Out :=
  .next (onVerb s k (.settleSet k startFree stopFree startLayers stopLayers) false
    (settleSetVerb k startFree stopFree startLayers stopLayers))

end Sys2Proof.Machine
end

