-- ==== Sys2Proof/Machine/TenantVerbs.lean ====
section
/-! DEFINITION. The TENANT verbs (R177-R183, R310, R311). -/

namespace Sys2Proof.Machine

/-! ## Ranges (R177, R310, R311) -/

/-- The entry that a range spells. BG and BA of an ALLBANK range are ignored and hold 0. -/
def rangeEntry (t : Nat) (r : RangeArg) : DWord :=
  makeEntry t r.sub r.rankFirst r.rankLast r.allBank (if r.allBank then 0 else r.bg) (if r.allBank then 0 else r.ba) r.rowFirst r.rowLast

/-- A number has no place in its field, or the word for the subchannel is not one of A, B and AB. -/
def rangeBad (t : Nat) (r : RangeArg) : Bool :=
  255 < t || 2 < r.sub || 15 < r.rankFirst || 15 < r.rankLast || (!r.allBank && (7 < r.bg || 3 < r.ba)) || 2 ^ 18 ≤ r.rowFirst ||
  2 ^ 18 ≤ r.rowLast

/-- Staged changes of a session. -/
def stagedChanges (s : State) (k : Sess) : Nat := (getSes s k).adds.length + (getSes s k).dels.length

/-- Stage one change: a change that is staged already takes no further place, and a 65th is refused. -/
def stageEntry (s : State) (k : Sess) (e : DWord) (isAdd : Bool) : State :=
  setSes s k (fun q =>
    if isAdd then (if q.adds.any (· = e) then q else { q with adds := q.adds ++ [e] })
    else if q.dels.any (· = e) then q else { q with dels := q.dels ++ [e] })

def stagedAlready (s : State) (k : Sess) (e : DWord) (isAdd : Bool) : Bool :=
  (if isAdd then (getSes s k).adds else (getSes s k).dels).any (· = e)

def rangeVerb (k : Sess) (t : Nat) (r : RangeArg) (isAdd : Bool) : Verb :=
  verb k .keep false [SV, FT]
    (fun s => [(s.aon.img = .pending, 305), (rangeBad t r, 101)
              , (64 ≤ stagedChanges s k && !stagedAlready s k (rangeEntry t r) isAdd, 404)])
    (fun s =>
      let s := stageEntry s k (rangeEntry t r) isAdd
      okAns s [("staged", .nat (stagedChanges s k))])

def tenantRangeListVerb (k : Sess) (start : Option Nat) : Verb :=
  verb k .view false anyState (fun _ => []) (fun s =>
    let l := s.ten.map.drop (start.getD 0)
    okAns s ([("entries", .nat s.ten.map.length), ("staged", .nat (stagedChanges s k))] ++
      (l.take 64).map (fun e => ("r", Val.hex 16 e.toNat)) ++ [("more", flagVal (64 < l.length))]))

/-! ## TENANT COMMIT (R178, R179, R311) -/

/-- A coordinate lies outside the geometry word, or a range runs backwards (R178). -/
def entryOutside (w : Word) (e : DWord) : Bool :=
  !geoValid w || enRankL e < enRankF e || geoNR w ≤ enRankL e || (!enAll e && (geoBG w ≤ enBG e || geoNB w ≤ enBA e)) ||
  enRowL e < enRowF e || geoRows w ≤ enRowL e

/-- R177's alignment. -/
def entryUnaligned (w : Word) (e : DWord) : Bool := enRowF e % geoRPG w ≠ 0 || (enRowL e + 1) % geoRPG w ≠ 0

/-- Two entries of a list share a granule. -/
def sharing (w : Word) : List DWord → Bool
  | [] => false
  | e :: t => t.any (fun f => rsInter (entryGranules w e) (entryGranules w f) ≠ []) || sharing w t

/-- The map that a session's changes make: its DELs first, then its ADDs. -/
def newMap (s : State) (k : Sess) : List DWord :=
  s.ten.map.filter (fun e => !((getSes s k).dels.any (· = e))) ++ (getSes s k).adds

/-- A DEL matches no committed entry exactly. -/
def delUnmatched (s : State) (k : Sess) : Bool := (getSes s k).dels.any (fun e => !(s.ten.map.any (· = e)))

def tenantCommitVerb (k : Sess) : Verb :=
  verb k .keep false [SV, FT]
    (fun s =>
      let w := s.map.geom
      let adds := (getSes s k).adds
      [(s.map.reload.isSome, 300), (s.aon.img = .pending, 305), (adds.any (entryOutside w), 101), (adds.any (fun e => enSub e = 3), 108)
      , (adds.any (entryUnaligned w), 306), (stagedChanges s k ≠ 0 && sharing w (newMap s k), 310), (cfgGuard s k, 209)
      , (4096 < (newMap s k).length, 404), (delUnmatched s k, 411)])
    (fun s =>
      if stagedChanges s k = 0 then okAns s [("changed", .nat 0), ("entries", .nat s.ten.map.length)]
      else
        workOn s k .commit (fun s =>
          writeArea { s with map := { s.map with reload := some { map := newMap s k, session := some k } } } .ten))

def tenantDiscardVerb (k : Sess) : Verb :=
  verb k .keep false [SV, FT] (fun _ => []) (fun s => okAns (setSes s k (fun q => { q with adds := [], dels := [] })) [("staged", .nat 0)])

/-! ## Attributes (R181-R183) -/

def attrAnswer (s : State) (t : Tenant) : State × Reply := okAns s [("tenant", .nat t.val), ("attr", .hex 8 (attrOf s t).toNat)]

/-- A new attribute word: the config store has it, and `cover=` follows. -/
def changeAttr (s : State) (t : Tenant) (cls : Nat) (vol dis : Bool) : State :=
  let a := attrOf s t
  recomputeCover (writeArea (setAttr s t (makeAttr (attrGen a) cls vol dis (attrSlot a))) .ten)

def tenantSetVerb (k : Sess) (t : Nat) (cls policy : Option Nat) : Verb :=
  verb k .keep false [SV, FT]
    (fun s => [(255 < t, 101), (outOf 0 7 cls, 101), (outOf 0 1 policy, 101), (cfgGuard s k, 209)])
    (fun s =>
      let x := tenantOf t
      let a := attrOf s x
      let vol : Bool := (policy.map (fun x => decide (x = 1))).getD (attrVolatile a)
      let s := if attrVolatile a && !vol then dirtyTenant s x else s
      attrAnswer (changeAttr s x (cls.getD (attrClass a)) vol (attrDisabled a)) x)

/-- ENABLE of an enabled tenant and DISABLE of a disabled one change nothing (R183); 503 while the slot is unusable (R195). -/
def tenantEnableVerb (k : Sess) (t : Nat) : Verb :=
  verb k .keep false [SV, FT] (fun s => [(255 < t, 101), (cfgGuard s k, 209), (s.ten.unusable.any (· = tenantOf t), 503)]) (fun s =>
    let x := tenantOf t
    let a := attrOf s x
    attrAnswer (if attrDisabled a then changeAttr (dirtyTenant s x) x (attrClass a) (attrVolatile a) false else s) x)

def tenantDisableVerb (k : Sess) (t : Nat) : Verb :=
  verb k .keep false [SV, PK, SA, FT] (fun s => [(255 < t, 101), (cfgGuard s k, 209)]) (fun s =>
    let x := tenantOf t
    let a := attrOf s x
    attrAnswer (if attrDisabled a then s else changeAttr s x (attrClass a) (attrVolatile a) true) x)

def tenantShowVerb (k : Sess) (t : Nat) : Verb :=
  verb k .view false anyState (fun _ => [(255 < t, 101)]) (fun s =>
    let x := tenantOf t
    let a := attrOf s x
    okAns s
      [("tenant", .nat t), ("attr", .hex 8 a.toNat), ("class", .nat (attrClass a)), ("policy", .kw (if attrVolatile a then "VOLATILE" else "PERSIST"))
      , ("disabled", flagVal (attrDisabled a)), ("slot", .kw (slotText a)), ("gen", .nat (attrGen a))
      , ("granules", .nat (rsSize (tenantGranules s s.ten.map x))), ("dirty", .nat (rsSize (dirtyOf s x)))])

def execTenantRangeAdd (k : Sess) (t : Nat) (r : RangeArg) (s : State) : Out :=
  .next (onVerb s k (.tenantRangeAdd k t r) false (rangeVerb k t r true))
def execTenantRangeDel (k : Sess) (t : Nat) (r : RangeArg) (s : State) : Out :=
  .next (onVerb s k (.tenantRangeDel k t r) false (rangeVerb k t r false))
def execTenantRangeList (k : Sess) (start : Option Nat) (s : State) : Out :=
  .next (onVerb s k (.tenantRangeList k start) false (tenantRangeListVerb k start))
def execTenantCommit (k : Sess) (s : State) : Out := .next (onVerb s k (.tenantCommit k) false (tenantCommitVerb k))
def execTenantDiscard (k : Sess) (s : State) : Out := .next (onVerb s k (.tenantDiscard k) false (tenantDiscardVerb k))
def execTenantSet (k : Sess) (t : Nat) (cls policy : Option Nat) (s : State) : Out :=
  .next (onVerb s k (.tenantSet k t cls policy) false (tenantSetVerb k t cls policy))
def execTenantEnable (k : Sess) (t : Nat) (s : State) : Out := .next (onVerb s k (.tenantEnable k t) false (tenantEnableVerb k t))
def execTenantDisable (k : Sess) (t : Nat) (s : State) : Out := .next (onVerb s k (.tenantDisable k t) false (tenantDisableVerb k t))
def execTenantShow (k : Sess) (t : Nat) (s : State) : Out := .next (onVerb s k (.tenantShow k t) false (tenantShowVerb k t))

end Sys2Proof.Machine
end

