-- ==== Sys2Proof/Machine/MapVerbs.lean ====
section
/-! DEFINITION. The MAP verbs: geometry, granules, coordinates, the NAND profile and provisioning (R92-R95, R130, R131, R152,
R313, R314). -/

namespace Sys2Proof.Machine

/-- Dirty granules of one priority class (R120, R180). -/
def classCount (s : State) (c : Nat) : Nat :=
  (allFin 256).foldl (fun n t => if saved s t ∧ attrClass (attrOf s t) = c then n + rsSize (dirtyOf s t) else n) 0

def mapVerb (k : Sess) : Verb :=
  verb k .view false anyState (fun _ => []) (fun s =>
    okAns s
      [("geom", .hex 8 s.map.geom.toNat), ("gran", .size (geoG s.map.geom)), ("grans", .nat (rsSize (allGranules s)))
      , ("dirty", .nat (rsSize s.map.dirty)), ("dc", .csv ((List.range 8).map (classCount s))), ("dies", .nat (usableDies s).length)
      , ("hfree", .nat (hFree s))])

/-! ## The geometry word (R92, R93, R95, R313) -/

/-- A committed tenant entry would lose its alignment or fall outside a word. -/
def mapUnfit (s : State) (w : Word) : Bool := s.ten.map.any (fun e => entryUnaligned w e || entryOutside w e)

/-- A new word takes effect at once (R95): waiting snoop records are applied under the old granule size (R106), then `img=NONE`, every
bit of the dirty map set, e_g from its seed (R120). -/
def setGeometry (s : State) (w : Word) : State :=
  let s := flushSnoops s
  let s := dropImage { s with map := { s.map with geom := w } }
  recomputeCover (reseedEg (storesCfg s))

/-- The refusals of a word, in the order of R435 and R313. -/
def geometryRefusals (s : State) (k : Sess) (word : Nat) : List (Bool × Nat) :=
  let w : Word := BitVec.ofNat 32 word
  [(s.aon.img = .pending, 305)
  , (2 ^ 32 ≤ word || !w.getLsbD 31 || w.extractLsb' 22 9 ≠ 0 || w.extractLsb' 0 10 ≠ 0, 101)
  , (geoGran w = 7 || (w.extractLsb' 13 2).toNat = 3, 108), (512 * 2 ^ 30 < geoC w, 101)
  , (geoC w / geoG w ≤ 8388608 && mapUnfit s w, 306), (cfgGuard s k, 209), (8388608 < geoC w / geoG w, 403)]

def mapGeometryVerb (k : Sess) (word : Nat) : Verb :=
  verb k .keep false [SV, FT] (fun s => geometryRefusals s k word) (fun s =>
    let s := setGeometry s (BitVec.ofNat 32 word)
    okAns s [("geom", .hex 8 s.map.geom.toNat), ("img", .kw s.aon.img.text)])

/-- The GRAN code of a size, if it is one of the seven (R92). -/
def granCode (size : Nat) : Option Nat := (List.range 7).find? (fun c => 16384 * 2 ^ c = size)

/-- The word in force with another GRAN. -/
def withGran (w : Word) (c : Nat) : Word := (w &&& 0xFFC7FFFF) ||| BitVec.ofNat 32 (c * 2 ^ 19)

/-- A tenant range boundary does not fall on a granule boundary of a word. -/
def boundariesOff (s : State) (w : Word) : Bool := s.ten.map.any (entryUnaligned w)

def mapGranuleVerb (k : Sess) (size : Nat) : Verb :=
  verb k .keep false [SV]
    (fun s =>
      let w := withGran s.map.geom ((granCode size).getD 0)
      [(s.aon.img = .pending, 305), ((granCode size).isNone, 101), (boundariesOff s w, 306), (cfgGuard s k, 209), (!geoFits w, 403)])
    (fun s =>
      let s := setGeometry s (withGran s.map.geom ((granCode size).getD 0))
      okAns s [("gran", .size (geoG s.map.geom)), ("img", .kw s.aon.img.text)])

/-! ## Coordinates (R94, R313) -/

/-- The rows of a granule. -/
def granuleRows (w : Word) (row : Nat) : Val :=
  let first := row / geoRPG w * geoRPG w
  .ranges [(first, first + geoRPG w - 1)]

def mapCoordVerb (k : Sess) (sub rank bg ba row : Nat) : Verb :=
  verb k .view false anyState (fun s => [(!geoValid s.map.geom || !coordOk s.map.geom sub rank bg ba row, 101)]) (fun s =>
    let g := gidxOf s.map.geom sub rank bg ba row
    okAns s
      [("gidx", .nat g), ("rows", granuleRows s.map.geom row), ("byte", .nat (g / 8)), ("bit", .nat (g % 8))
      , ("dirty", flagVal (rsMem s.map.dirty g))])

def mapCoordGidxVerb (k : Sess) (gidx : Nat) : Verb :=
  verb k .view false anyState (fun s => [(!geoValid s.map.geom || geoGranules s.map.geom ≤ gidx, 101)]) (fun s =>
    let w := s.map.geom
    let bank := gidx / geoPerBank w
    okAns s
      [("sub", .kw (if bank / geoNB w / geoBG w / geoNR w = 0 then "A" else "B")), ("rank", .nat (bank / geoNB w / geoBG w % geoNR w))
      , ("bg", .nat (bank / geoNB w % geoBG w)), ("ba", .nat (bank % geoNB w)), ("rows", granuleRows w (gidx % geoPerBank w * geoRPG w))
      , ("dirty", flagVal (rsMem s.map.dirty gidx))])

/-! ## The NAND profile (R130, R131, R314) -/

/-- A profile's magic, format and check sum are right, no field holds a reserved code, and every reserved bit is zero. -/
def profileOk (l : List Byte) : Bool :=
  let f (off hi lo : Nat) : Nat := bitsOf (leAt l off 4) hi lo
  l.length = 256 && leAt l 0 4 = 0x4E505246 && leAt l 4 2 = 1 && leAt l 0xFC 4 = (crc32c (l.take 252)).toNat &&
  leAt l 0x0E 1 < 64 && leAt l 0x0F 1 / 64 < 3 && f 0x10 15 14 = 0 && f 0x10 13 12 < 3 && f 0x10 11 10 < 3 && f 0x10 7 0 = 0 &&
  f 0x18 23 16 = 0 && f 0x24 7 0 < 2 && f 0x28 7 0 < 2 && f 0x34 15 11 = 0 && f 0x3C 31 16 = 0 && (bytesAt l 0x80 124).all (· = 0)

/-- The profile that a record of R131 holds. -/
def profileOf (l : List Byte) : Profile :=
  let f (off hi lo : Nat) : Nat := bitsOf (leAt l off 4) hi lo
  { valid := true, number := leAt l 6 2, idBytes := BitVec.ofNat 48 (leAt l 8 6), idMask := BitVec.ofNat 8 (leAt l 0x0E 1)
    iface := leAt l 0x0F 1 / 64, tmode := leAt l 0x0F 1 % 64, spare := f 0x10 31 16, planes := 2 ^ f 0x10 13 12
    pageBytes := 4096 * 2 ^ f 0x10 11 10, luns := f 0x10 9 8 + 1, wls := f 0x14 31 16, blocks := f 0x14 15 0, pairDist := f 0x18 31 24
    minStripe := f 0x18 15 0, tprogTlc := f 0x1C 31 16, tprogSlc := f 0x1C 15 0, tr := f 0x20 31 16, tbers := f 0x20 15 0
    tlcVal := f 0x24 31 24, pslcVal := f 0x24 23 16, pslcOp := f 0x24 15 8, pslcMethod := f 0x24 7 0, retryWarn := f 0x28 31 24
    retryFa := f 0x28 23 16, retryN := f 0x28 15 8, progScheme := f 0x28 7 0, marginBits := f 0x2C 31 24, marginEr := f 0x2C 23 16
    marginHi := f 0x2C 15 8, marginLo := f 0x2C 7 0, warnBits := f 0x30 31 16, retireBits := f 0x30 15 0, fbbOffset := f 0x34 31 16
    fbbPages := f 0x34 10 8, blankBits := f 0x34 7 0, pslcPe := f 0x38 31 16, tlcPe := f 0x38 15 0, rimDwell := f 0x3C 15 0
    retry := bytesAt l 0x40 64 }

def mapProfileVerb (k : Sess) (off : Nat) (data : List Byte) : Verb :=
  verb k .keep false [SV, FT] (fun s => [(pieceLen data, 101), (pieceOut s k .profile off, 113)])
    (fun s => okAns (stagePiece s k .profile off data) [("off", .nat off), ("len", .nat data.length)])

/-- The check discards the staging either way; a profile that passes is stored for the next BOOT. -/
def mapProfileCommitVerb (k : Sess) : Verb :=
  verb k .keep false [SV, FT] (fun _ => []) (fun s =>
    let l := staged s k .profile
    let t := setStaged s k .profile []
    if !profileOk l then err t 112
    else if cfgGuard s k then err s 209
    else
      okAns (storesCfg { t with nand := { t.nand with nextProfile := some (profileOf l) } })
        [("profile", .nat (profileOf l).number), ("effective", .kw "BOOT")])

/-! ## Provisioning (R152) -/

/-- R152's conditions for `MAP PROVISION`. -/
def mayProvision (s : State) : Bool := s.aon.img = .none && !s.nand.fbbt && s.nand.prov ≠ .running

def mapProvisionVerb (k : Sess) : Verb :=
  verb k .keep false [SV, FT] (fun s => [(!mayProvision s, 316)])
    (fun s => okAns { s with nand := { s.nand with prov := .running } } [("nand", .kw "PROVISIONING")])

def execMap (k : Sess) (s : State) : Out := .next (onVerb s k (.map k) false (mapVerb k))
def execMapGeometry (k : Sess) (word : Nat) (s : State) : Out := .next (onVerb s k (.mapGeometry k word) false (mapGeometryVerb k word))
def execMapGranule (k : Sess) (size : Nat) (s : State) : Out := .next (onVerb s k (.mapGranule k size) false (mapGranuleVerb k size))
def execMapCoord (k : Sess) (sub rank bg ba row : Nat) (s : State) : Out :=
  .next (onVerb s k (.mapCoord k sub rank bg ba row) false (mapCoordVerb k sub rank bg ba row))
def execMapCoordGidx (k : Sess) (gidx : Nat) (s : State) : Out :=
  .next (onVerb s k (.mapCoordGidx k gidx) false (mapCoordGidxVerb k gidx))
def execMapProfile (k : Sess) (off : Nat) (data : List Byte) (s : State) : Out :=
  .next (onVerb s k (.mapProfile k off data) false (mapProfileVerb k off data))
def execMapProfileCommit (k : Sess) (s : State) : Out := .next (onVerb s k (.mapProfileCommit k) false (mapProfileCommitVerb k))
def execMapProvision (k : Sess) (s : State) : Out := .next (onVerb s k (.mapProvision k) false (mapProvisionVerb k))

end Sys2Proof.Machine
end

