-- ==== Sys2Proof/Machine/DomainVerbs.lean ====
section
/-! DEFINITION. The DOMAIN, RESET and DIAG verbs (R55-R66, R80, R82, R83, R323, R391). -/

namespace Sys2Proof.Machine

def domNum (d : Nat) : Dom := Fin.ofNat 20 d

/-! ## DOMAIN (R55-R66, R323) -/

def domainVerb (k : Sess) : Verb :=
  verb k .view false anyState (fun _ => []) (fun s =>
    okAns s ((allFin 20).map (fun d => ("d" ++ two d.val, Val.kw (domOf s d).mode.text))))

/-- Begin the enable sequence (R55): the answer comes with DOMAIN_UP or DOMAIN_POWER_FAIL. -/
def beginEnable (s : State) (k : Sess) (d : Dom) : State × Reply :=
  workOn s k (.domainEnable d) (fun s => setDom s d (fun x => { x with enabling := some (some k) }))

def isDraining (s : State) (d : Nat) : Bool := modeOf s d = .draining || modeOf s d = .stuck

def domainEnableVerb (k : Sess) (d : Nat) : Verb :=
  verb k .keep false [SV, FT]
    (fun s => [(d < 20 && (domOf s (domNum d)).enabling.isSome, 300), (20 ≤ d, 101), (isDraining s d, 304)])
    (fun s =>
      let x := domNum d
      if !optional x || isOn s d then okAns s (domFields s x) else beginEnable s k x)

/-- A NAND channel whose dies leave fewer usable ones than the minimum stripe (R64). -/
def stripeNeeds (s : State) (d : Nat) : Bool :=
  ((usableDies s).filter (fun x => 12 + dieCh x ≠ d)).length < s.nand.profile.minStripe

/-- `303 domain required` (R59, R64): a core domain, or a running NAND channel that a pending image or the stripe needs. -/
def domainRequired (s : State) (d : Nat) : Bool :=
  !optional (domNum d) || (12 ≤ d && (modeOf s d).powered && (s.aon.img = .pending || (isOn s d && stripeNeeds s d)))

/-- What a disable does to the image (R59): the earlier layers are striped over every channel. -/
def imageLeavesChannel (s : State) (d : Nat) : State × List (String × Val) :=
  if 12 ≤ d ∧ s.aon.img = .track then
    let s := reseedEg (dropImage s)
    (s, [("img", .kw s.aon.img.text)])
  else (s, [])

/-- An optional domain that is FAILED is disabled by the mask alone; one that is OFF or in RET is answered with its `pstate=`, and the
mask stays as it is, since R64 names the mask for FAILED only (assumption log entry 44). -/
def maskOnly (s : State) (d : Dom) : State := if (domOf s d).mode = .failed then setRunDisable (setEnabled s d false) d true else s

/-- A bridge mailbox waits to be sent. -/
def bridgePending (s : State) : Bool := (allFin 16).any (fun n => 8 ≤ n.val && (s.shb.mbox[n.val]).status = .pending)

/-- Pending mailboxes are withdrawn; one whose frame has begun completes, or is ABORTED if it fails (R60, R257). A bridge mailbox that
ends so raises TXDONE (R251). -/
def withdrawBoxes (s : State) : State :=
  let s := if bridgePending s then raiseIrq s irqTxDone else s
  { s with shb := { s.shb with
      mbox := s.shb.mbox.map (fun m =>
        match m.status with
        | .pending => { m with status := .aborted }
        | .active => { m with abort := true }
        | _ => m) } }

/-- The start of a drain (R57, R60): no new work. -/
def beginDrain (s : State) (k : Sess) (d : Dom) : State :=
  let s := setDom (setMode (noteIssue s (some k) (.drain d)) d .draining) d (fun x => { x with issuer := some k, en := false })
  recomputeCover (if d = 5 then withdrawBoxes s else if 12 ≤ d.val then diesChanged s else s)

def domainDisableVerb (k : Sess) (d : Nat) : Verb :=
  verb k .keep false [SV, FT]
    (fun s => [(20 ≤ d, 101), (domainRequired s d, 303)])
    (fun s =>
      let x := domNum d
      if isOn s d then
        let q := imageLeavesChannel s d
        let s := beginDrain q.1 k x
        okAns s (domFields s x ++ q.2)
      else okAns (maskOnly s x) (domFields s x))

/-- A fold that FORCE cuts off is abandoned: the word line it was writing counts as used with unknown contents until a blank check
(R61). -/
def dropDieFold (s : State) (d : Die) : State :=
  match foldOf s d with
  | some f =>
    let g := groupOf s d f.block
    setOp (dropFold (if (dieOf s d).op = .busy .fold then setGroup s { g with wp := max g.wp (f.wp + 1) } else s) d) d .idle
  | none => s

/-- A `RESTORE DISCARD` that waits for a rim copy which the channel has not programmed is answered 406 (R61). -/
def abortDiscard (s : State) (d : Dom) : State :=
  match s.nand.rimJob with
  | some j =>
    (match j.use with
      | .discardRim session =>
        let open_ (c : RimCopy) : Bool := 12 + dieCh c.die = d.val && !c.programmed
        if open_ j.a || open_ j.b then answerBusy s session .discard (ERR 406) else s
      | _ => s)
  | none => s

/-- FORCE (R61): what has not started is discarded and its requester answered 406, every lane that touches the domain is reset, and the
domain is gated. -/
def forceOff (s : State) (k : Sess) (d : Dom) : State :=
  let s := match (domOf s d).enabling with
    | some session => answerBusy s session (.domainEnable d) (ERR 406)
    | none => s
  let s := abortDiscard s d
  let s := setDom (resetLanesOf (abortWork s d) d) d (fun x => { x with enabling := none, en := false })
  let s := if (domOf s d).mode.powered then
      setDom (setMode (noteIssue s (some k) (.drain d)) d .draining) d (fun x => { x with issuer := if x.issuer.isSome then x.issuer else some k })
    else s
  let s := if 12 ≤ d.val then ((allFin 256).filter (fun x => dieDom x = d)).foldl dropDieFold s else s
  let s := if (domOf s d).mode.powered then setMode s d (gatedMode d) else s
  let s := settlePlls (settleLanes s)
  if 12 ≤ d.val then channelLost { s with nand := { s.nand with dies := s.nand.dies.mapIdx (fun i x =>
    if 12 + i / 32 = d.val then { x with resetSent := false } else x) } } d
  else recomputeCover s

def domainDisableForceVerb (k : Sess) (d : Nat) : Verb :=
  verb k .keep false [SV, FT] (fun s => [(20 ≤ d, 101), (domainRequired s d, 303)])
    (fun s =>
      let x := domNum d
      if (domOf s x).mode.powered || (domOf s x).enabling.isSome then
        let q := if isOn s d then imageLeavesChannel s d else (s, [])
        let s := forceOff q.1 k x
        okAns s (domFields s x ++ q.2)
      else okAns (maskOnly s x) (domFields s x))

def domainSetVerb (k : Sess) (drain : Nat) : Verb :=
  verb k .keep false [SV, FT] (fun s => [(outOf 10000000 60000000000 (some drain), 101), (cfgGuard s k, 209)])
    (fun s => okAns (storesCfg { s with doms := { s.doms with drainNs := drain } }) [("drain", .dur drain)])

/-! ## RESET (R31 T21, R80, R82, R83, R323, R391) -/

/-- A reset writes its response first, then takes effect. -/
def afterAnswer (k : Sess) (fields : List (String × Val)) (f : State → State) : Verb := fun s => (f (respond s k (OK fields)), .done)

def resetWarmVerb (k : Sess) : Verb :=
  verb k .keep false [FT] (fun _ => []) (afterAnswer k [("rst", .kw "WARM")] requestWarm)

/-- From the recovery set it ends the management hold and clears the watchdog's count (R391). Without a bank that passes, the recovery
set opens its sessions again (R80, R83). -/
def requestedReset (s : State) : State :=
  let s := if s.aon.mgmtHold then { s with aon := { s.aon with mgmtHold := false, wdResets := [] } } else s
  let s := managementReset s .mgmtRequest
  if s.aon.noFirmware then reopenSessions s else s

def resetMgmtVerb (k : Sess) : Verb :=
  verb k .keep false anyState (fun _ => []) (afterAnswer k [("rst", .kw "MGMT_REQUEST")] requestedReset)

/-! ## DIAG (R323) -/

/-- A count for every lane, in lane order. -/
def laneCsv (s : State) (f : Lane → Nat) : Val := .csv ((allFin 87).map (fun n => f (laneOf s n)))

def diagLanesVerb (k : Sess) : Verb :=
  verb k .view false anyState (fun _ => []) (fun s =>
    okAns s
      [("corr", laneCsv s (·.corr)), ("poison", laneCsv s (·.poison)), ("resets", laneCsv s (·.resets)), ("discard", laneCsv s (·.discarded))
      , ("halt", laneCsv s (fun l => if l.halted then 1 else 0))])

def dieText (s : State) (d : Die) : String :=
  let x := dieOf s d
  if x.fenced then "FENCED"
  else if x.mismatch then "MISMATCH"
  else if !x.present then "ABSENT"
  else if usable s d then "USABLE"
  else "OUT"

def diagNandVerb (k : Sess) (die : Nat) : Verb :=
  verb k .view false anyState (fun _ => [(256 ≤ die, 101)]) (fun s =>
    let d : Die := Fin.ofNat 256 die
    let x := dieOf s d
    let rows := s.nand.groups.filter (fun g => g.die = d)
    okAns s
      [("die", .nat die), ("state", .kw (dieText s d)), ("id", .hex 12 (if x.present && !x.mismatch then s.nand.profile.idBytes.toNat else 0))
      , ("groups", .nat s.nand.profile.blocks), ("bad", .nat (rows.filter (fun g => g.role = .grownBad || g.role = .factoryBad)).length)
      , ("maxpe", .nat (rows.foldl (fun m g => max m g.erases) 0)), ("retry", .nat x.maxRetry), ("corr", .nat x.maxCorr)])

def diagTempVerb (k : Sess) : Verb :=
  verb k .view false anyState (fun _ => []) (fun s =>
    okAns s [("tj", .int s.aon.tj), ("pack", match packTemp s with
      | some t => .tenths t
      | none => .kw "none")])

def passText (b : Bool) : Val := .kw (if b then "PASS" else "FAIL")

/-- The tests of R78 again. Their outcomes are the device's. -/
def diagSelftestVerb (k : Sess) : Verb :=
  verb k .keep false [FT] (fun _ => []) (fun s =>
    let q := fresh s
    let root := Config.selfTest q.1 0
    let xts := Config.selfTest q.1 1
    let map := Config.selfTest q.1 2 && geoValid s.map.geom
    let fields := [("root", passText root), ("xts", passText xts), ("map", passText map)]
    if root && xts && map then okAns q.2 fields else err q.2 507 fields)

def execDomain (k : Sess) (s : State) : Out := .next (onVerb s k (.domain k) false (domainVerb k))
def execDomainEnable (k : Sess) (d : Nat) (s : State) : Out := .next (onVerb s k (.domainEnable k d) false (domainEnableVerb k d))
def execDomainDisable (k : Sess) (d : Nat) (s : State) : Out := .next (onVerb s k (.domainDisable k d) false (domainDisableVerb k d))
def execDomainDisableForce (k : Sess) (d : Nat) (s : State) : Out :=
  .next (onVerb s k (.domainDisableForce k d) false (domainDisableForceVerb k d))
def execDomainSet (k : Sess) (drain : Nat) (s : State) : Out := .next (onVerb s k (.domainSet k drain) false (domainSetVerb k drain))
def execResetWarm (k : Sess) (s : State) : Out := .next (onVerb s k (.resetWarm k) true (resetWarmVerb k))
def execResetMgmt (k : Sess) (s : State) : Out := .next (onVerb s k (.resetMgmt k) true (resetMgmtVerb k))
def execDiagLanes (k : Sess) (s : State) : Out := .next (onVerb s k (.diagLanes k) false (diagLanesVerb k))
def execDiagNand (k : Sess) (die : Nat) (s : State) : Out := .next (onVerb s k (.diagNand k die) false (diagNandVerb k die))
def execDiagTemp (k : Sess) (s : State) : Out := .next (onVerb s k (.diagTemp k) false (diagTempVerb k))
def execDiagSelftest (k : Sess) (s : State) : Out := .next (onVerb s k (.diagSelftest k) false (diagSelftestVerb k))

end Sys2Proof.Machine
end

