-- ==== Sys2Proof/Machine/AuthVerbs.lean ====
section
/-! DEFINITION. AUTH and SESSION, the nonce and the idle limit (R295-R304, R324). -/

namespace Sys2Proof.Machine

/-! ## AUTH (R296-R298, R304) -/

def privOf : Nat → Priv
  | 0 => .view
  | 1 => .run
  | _ => .keep

/-- A new level; a fall below KEEP takes the session's unlock with it (R362). -/
def setPriv (s : State) (k : Sess) (p : Priv) : State :=
  let s := setSes s k (fun q => { q with priv := p })
  if p = .keep then s else dropUnlock s k

/-- A level's secret, unwrapped under the device root as it is used (R185, R297). -/
def secretOf (s : State) (p : Priv) : Option (List Byte) :=
  (match p with
    | .view => none
    | .run => s.mg.secRun
    | .keep => s.mg.secKeep).bind (keyUnwrap kStore)

/-- A level's failures and backoff, which live in AON. -/
def backoffOf (s : State) (p : Priv) : Backoff := if p = .keep then s.aon.authKeep else s.aon.authRun
def setBackoff (s : State) (p : Priv) (b : Backoff) : State :=
  { s with aon := if p = .keep then { s.aon with authKeep := b } else { s.aon with authRun := b } }

/-- The backoff after the `n`-th failure in a row, in seconds: none before the third, then 1, doubling to 512 (R298). -/
def backoffSeconds (n : Nat) : Nat := if n < 3 then 0 else min 512 (2 ^ (n - 3))

/-- One more failure (R298). -/
def noteFailure (s : State) (p : Priv) : State :=
  let n := (backoffOf s p).fails + 1
  setBackoff s p { fails := n, until_ := s.aon.us + backoffSeconds n * 1000000 }

/-- What a MAC is taken over (R296): "ZH-AUTH", the nonce, the level, the session, the device serial with its first byte highest. -/
def authMessage (nonce : List Byte) (p : Priv) (k : Sess) : List Byte :=
  ascii "ZH-AUTH" ++ nonce ++ [BitVec.ofNat 8 p.rank, BitVec.ofNat 8 k.val] ++ beBytes 8 Config.serial.toNat

def privAnswer (s : State) (p : Priv) : State × Reply := okAns s [("priv", .kw p.text)]

/-- The line needs no challenge: it lowers the level or keeps it (R296). -/
def lowers (s : State) (k : Sess) (p : Priv) : Bool := p.rank ≤ (getSes s k).priv.rank

/-- `AUTH level`: down at once; on S0 up at once until the KEEP secret is set (R297); otherwise a nonce for 30 s and one attempt. -/
def authPlainVerb (k : Sess) (level : Nat) : Verb :=
  verb k .view false anyState (fun _ => [(2 < level, 101)]) (fun s =>
    let p := privOf level
    if lowers s k p then privAnswer (setPriv s k p) p
    else if s.mg.secBad then err s 502
    else if k = 0 ∧ s.mg.secKeep = none then privAnswer (setPriv s k p) p
    else
      let q := fresh s
      let nonce := Config.drbg q.1 48
      okAns (setSes q.2 k (fun x => { x with nonce := some { bytes := nonce, level := p, until_ := s.aon.us + 30000000 } }))
        [("nonce", .bytes nonce), ("ttl", .nat 30)])

/-- The nonce that a session may answer for a level. -/
def openNonce (s : State) (k : Sess) (p : Priv) : Option (List Byte) :=
  match (getSes s k).nonce with
  | some n => if n.level = p ∧ s.aon.us < n.until_ then some n.bytes else none
  | none => none

/-- The attempt itself: the nonce is consumed either way. A level whose secret is unset fails (R297). -/
def tryMac (s : State) (k : Sess) (p : Priv) (nonce mac : List Byte) : State × Reply :=
  let s := setSes s k (fun x => { x with nonce := none })
  let good : Bool := match secretOf s p with
    | some key => Config.hmacSha384 key (authMessage nonce p k) = mac
    | none => false
  if good then privAnswer (setPriv (setBackoff s p { fails := 0, until_ := 0 }) k p) p
  else err (noteFailure s p) 203

def authMacVerb (k : Sess) (level : Nat) (mac : List Byte) : Verb :=
  verb k .view false anyState (fun _ => [(2 < level, 101)]) (fun s =>
    let p := privOf level
    if lowers s k p then privAnswer (setPriv s k p) p
    else if s.mg.secBad then err s 502
    else if s.aon.us < (backoffOf s p).until_ then err s 204 [("wait", .nat (waitSeconds s.aon.us (backoffOf s p).until_))]
    else
      match openNonce s k p with
      | none => err s 205
      | some n => tryMac s k p n mac)

/-! ## AUTH SECRET (R297, R304) -/

/-- Store a level's secret, wrapped under the device root (R185). One that replaces unreadable secrets leaves the other level unset. -/
def storeSecret (s : State) (p : Priv) (key : List Byte) : State × Reply :=
  let mg := if s.mg.secBad then { s.mg with secBad := false, secRun := none, secKeep := none } else s.mg
  let mg := if p = .keep then { mg with secKeep := some (keyWrap kStore key) } else { mg with secRun := some (keyWrap kStore key) }
  let s := writeArea { s with mg := mg } .sec
  okAns s [("level", .kw p.text), ("auth", .kw (authText s))]

/-- The secret that a `wrap=` carries under the owner transport key. -/
def unwrapped (s : State) (blob : List Byte) : Option (List Byte) := (ownerKey s).bind (fun o => keyUnwrap o blob)

def authSecretWrapVerb (k : Sess) (level : Nat) (blob : List Byte) : Verb :=
  verb k .keep false anyState
    (fun s => [(level = 0 || 2 < level, 101), (blob.length ≠ 56, 101), (s.ten.otk.isSome && (unwrapped s blob).isNone, 109), (cfgGuard s k, 209)
              , (s.ten.otk.isNone, 413)])
    (fun s => storeSecret s (privOf level) ((unwrapped s blob).getD []))

/-- With the secrets unreadable S0 may install one at any level, since KEEP cannot be reached (R304, R388). -/
def authSecretPlainVerb (k : Sess) (level : Nat) (blob : List Byte) : Verb := fun s =>
  verb k (if s.mg.secBad ∧ k = 0 then .view else .keep) true anyState
    (fun s => [(level = 0 || 2 < level, 101), (blob.length ≠ 48, 101), (cfgGuard s k, 209)])
    (fun s => storeSecret s (privOf level) blob) s

/-! ## SESSION (R301) -/

def sessName (k : Nat) : String := "S" ++ decText k

def sessionVerb (k : Sess) : Verb :=
  verb k .view false anyState (fun _ => []) (fun s =>
    let q := getSes s k
    okAns s [("sess", .kw (sessName k.val)), ("priv", .kw q.priv.text), ("echo", boolVal q.echo), ("notify", boolVal q.notify)
            , ("idle", .dur s.mg.idleNs)])

/-- The level, with the node of a tunnel, or `-`. -/
def listed (s : State) (k : Sess) : String :=
  let q := getSes s k
  if !q.isOpen then "-"
  else match q.node with
    | some n => q.priv.text ++ ":" ++ decText n.toNat
    | none => q.priv.text

def sessionListVerb (k : Sess) : Verb :=
  verb k .view false anyState (fun _ => []) (fun s =>
    okAns s ((allFin 7).map (fun x => ("s" ++ decText x.val, Val.kw (listed s x))) ++ [("s7", .kw "KEEP")]))

def sessionSetEchoVerb (k : Sess) (on : Nat) : Verb :=
  verb k .view true anyState (fun _ => [(1 < on, 101)])
    (fun s => okAns (setSes s k (fun q => { q with echo := on = 1 })) [("echo", boolVal (on = 1))])

def sessionSetNotifyVerb (k : Sess) (on : Nat) : Verb :=
  verb k .view false anyState (fun _ => [(1 < on, 101)])
    (fun s => okAns (setSes s k (fun q => { q with notify := on = 1 })) [("notify", boolVal (on = 1))])

def sessionSetIdleVerb (k : Sess) (limit : Nat) : Verb :=
  verb k .keep false anyState (fun s => [(outOf 60000000000 86400000000000 (some limit), 101), (cfgGuard s k, 209)])
    (fun s => okAns (storesCfg { s with mg := { s.mg with idleNs := limit } }) [("idle", .dur limit)])

/-- End a tunnel session and its binding. -/
def endTunnel (s : State) (k : Sess) : State := relatch (setSes s k (fun _ => Ses.closed))

def sessionEndVerb (k : Sess) : Verb :=
  verb k .view false anyState (fun _ => []) (fun s =>
    if isTunnel k then (endTunnel (respond s k (OK [])) k, .done)
    else okAns (setPriv s k .view) [])

/-! ## Time (R296, R299) -/

/-- SESSION_IDLE_EXPIRY (R292, R299): the clock stands while a command of the session executes. -/
def execSessionIdleExpiry (k : Sess) (s : State) : Out :=
  .next (
    let q := getSes s k
    if !q.isOpen ∨ q.busy.isSome then s
    else
      let s := if q.priv = .view then s
        else setPriv (setSes (logEv s 2 .noticeSent k.val) k (fun q => q.notice (EVT [("priv", .kw "VIEW"), ("cause", .kw "IDLE")]))) k .view
      if isTunnel k then endTunnel (drainNotices s k) k else s)

/-- NONCE_EXPIRY (R296): the nonce is void. -/
def execNonceExpiry (k : Sess) (s : State) : Out := .next (setSes s k (fun q => { q with nonce := none }))

def execAuth (k : Sess) (level : Nat) (s : State) : Out := .next (onVerb s k (.auth k level) true (authPlainVerb k level))
def execAuthMac (k : Sess) (level : Nat) (mac : List Byte) (s : State) : Out :=
  .next (onVerb s k (.authMac k level mac) true (authMacVerb k level mac))
def execAuthLower (k : Sess) (level : Nat) (s : State) : Out := .next (onVerb s k (.authLower k level) true (authPlainVerb k level))
def execAuthSecretWrap (k : Sess) (level : Nat) (blob : List Byte) (s : State) : Out :=
  .next (onVerb s k (.authSecretWrap k level blob) true (authSecretWrapVerb k level blob))
def execAuthSecretPlain (k : Sess) (level : Nat) (blob : List Byte) (s : State) : Out :=
  .next (onVerb s k (.authSecretPlain k level blob) true (authSecretPlainVerb k level blob))
def execSession (k : Sess) (s : State) : Out := .next (onVerb s k (.session k) false (sessionVerb k))
def execSessionList (k : Sess) (s : State) : Out := .next (onVerb s k (.sessionList k) false (sessionListVerb k))
def execSessionSetEcho (k : Sess) (on : Nat) (s : State) : Out :=
  .next (onVerb s k (.sessionSetEcho k on) false (sessionSetEchoVerb k on))
def execSessionSetNotify (k : Sess) (on : Nat) (s : State) : Out :=
  .next (onVerb s k (.sessionSetNotify k on) false (sessionSetNotifyVerb k on))
def execSessionSetIdle (k : Sess) (limit : Nat) (s : State) : Out :=
  .next (onVerb s k (.sessionSetIdle k limit) false (sessionSetIdleVerb k limit))
def execSessionEnd (k : Sess) (s : State) : Out := .next (onVerb s k (.sessionEnd k) false (sessionEndVerb k))

end Sys2Proof.Machine
end

