-- ==== Sys2Proof/Machine/I3c.lean ====
section
/-! DEFINITION. The I3C target's common command codes and its dynamic address (R36, R408, R409). -/

namespace Sys2Proof.Machine

def setI3c (s : State) (f : I3c → I3c) : State := { s with i3c := f s.i3c }

/-- The responder in D00 answers while VSB is present (R408). -/
def onI3c (s : State) (f : State → State) : State := if s.pins.vsb then f s else s

/-- A direct CCC reaches the target at its dynamic address. -/
def onDirect (s : State) (f : State → State) : State := onI3c s (fun s => if s.i3c.dyn.isSome then f s else s)

def bcr : Byte := 0x06
def dcr : Byte := 0x00

/-- The provisional ID, most significant byte first (R408). -/
def pidBytes (s : State) : List Byte := beBytes 6 (0x2B4 * 2 ^ 33 + 0x0960 * 2 ^ 16 + s.i3c.instance_.toNat)

/-- ENTDAA (R408): an unaddressed target drives its provisional ID, BCR and DCR; the winner of the round takes the address. -/
def execEntdaa (addr : BitVec 7) (won : Bool) (s : State) : Out :=
  .next (onI3c s (fun s =>
    if s.i3c.dyn.isSome then s
    else setI3c s (fun x =>
      { x with reply := pidBytes s ++ [bcr, dcr], dyn := if won then some addr else none, hotJoin := x.hotJoin && !won })))

/-- SETNEWDA (R408). -/
def execSetnewda (addr : BitVec 7) (s : State) : Out := .next (onDirect s (fun s => setI3c s (fun x => { x with dyn := some addr })))

/-- RSTDAA (R408): the address goes, a new Instance value is drawn. -/
def execRstdaa (s : State) : Out := .next (onI3c s (fun s => drawInstance (setI3c s (fun x => { x with dyn := none }))))

def execGetpid (s : State) : Out := .next (onDirect s (fun s => setI3c s (fun x => { x with reply := pidBytes s })))
def execGetbcr (s : State) : Out := .next (onDirect s (fun s => setI3c s (fun x => { x with reply := [bcr] })))
def execGetdcr (s : State) : Out := .next (onDirect s (fun s => setI3c s (fun x => { x with reply := [dcr] })))

/-- GETSTATUS (R36): the hold-state byte in bits [15:8]. -/
def execGetstatus (s : State) : Out :=
  .next (onDirect s (fun s =>
    { s with free := s.free + 1, i3c := { s.i3c with reply := [holdByte s, Config.i3cStatus s.free] } }))

/-- HSDA_MISMATCH (R409): the target stops driving, clears its address, draws a new Instance value, logs, and may raise Hot-Join. -/
def execHsdaMismatch (hotJoinEnabled : Bool) (s : State) : Out :=
  .next (onI3c s (fun s =>
    let s := drawInstance (setI3c s (fun x => { x with reply := [], dyn := none, hotJoin := hotJoinEnabled }))
    logEv s 0 .hsdaMismatch))

end Sys2Proof.Machine
end

