-- ==== Sys2Proof/Machine/LogVerbs.lean ====
section
/-! DEFINITION. Events that arrive in AON, the recorder's clock and lease, and the LOG verbs (R320, R328-R344). -/

namespace Sys2Proof.Machine

/-- An event number that arrives from a domain, under the name that R330 or the manual gives it. -/
def arrivingCode (d : Dom) (n : BitVec 11) : EvCode :=
  match n.toNat with
  | 0x001 => .named .pstate
  | 0x002 => .named .laneDiscard
  | 0x003 => .named .laneCorr
  | 0x004 => .named .lanePoison
  | 0x005 => .named .domainFailed
  | 0x010 => if d = 0 then .named .faultEntry else .num n
  | 0x011 => if d = 0 then .named .mgmtHold else .num n
  | _ => .num n

/-- An event's severity is fixed with its number (R330): the spec's own for the events that it names, the catalogue's, which arrives with
the event, for the others. -/
def arrivingSev (e : EvCode) (sev : BitVec 3) (args : Vector Word 4) : BitVec 3 :=
  match e with
  | .named .pstate => if args[0] = 4 ∨ args[0] = 5 then sevWarning else sevInfo
  | .named k => k.sev
  | .num _ => sev

/-- EVENT_ARRIVAL (R329, R330, R332, R335): number 0 is never recorded. -/
def execEventArrival (dom : Dom) (evt : BitVec 11) (sev : BitVec 3) (args : Vector Word 4) (s : State) : Out :=
  .next (if s.aon.por = .up ∧ evt ≠ 0 then logSev s dom (arrivingCode dom evt) (arrivingSev (arrivingCode dom evt) sev args) args else s)

/-- BUCKET_TICK (R335). -/
def execBucketTick (s : State) : Out :=
  .next (if s.aon.por = .up then { s with log := s.log.tick s.warp.ns (wsyncOf s) } else s)

def thawLog (s : State) : State := { s with log := s.log.thaw s.warp.ns (wsyncOf s) }

/-- FREEZE_LEASE_EXPIRY (R338). -/
def execFreezeLeaseExpiry (s : State) : Out := .next (if s.log.lease.isSome then thawLog s else s)

/-! ## Entries as bytes (R328, R344) -/

def entryBytes (e : Entry) : List Byte :=
  if e.bad then
    leBytes 4 e.seq.toNat ++ List.replicate 8 0 ++ leBytes 2 EvKind.badEntry.number.toNat ++
      [sevFault.setWidth 8, e.epoch.setWidth 8] ++ List.replicate 16 0
  else
    leBytes 4 e.seq.toNat ++ leBytes 8 e.warp.toNat ++ leBytes 2 (codeOf e.dom e.ev) ++
      [e.sev.setWidth 8, BitVec.ofNat 8 ((if e.wsync then 128 else 0) + (if e.delayed then 64 else 0) + e.epoch.toNat)] ++
      e.args.toList.flatMap (fun w => leBytes 4 w.toNat)

/-- The log copy as its table holds it (R340): a header of 32 bytes, then the entries. -/
def LogCopy.bytes (l : LogCopy) : List Byte :=
  leBytes 4 0x5A4C4F47 ++ leBytes 4 l.epoch.toNat ++ leBytes 2 (if l.full then 1 else 0) ++ leBytes 2 l.entries.length ++
    leBytes 4 l.drops ++ leBytes 2 l.hovf ++ List.replicate 14 0 ++ l.entries.flatMap entryBytes

/-- The entries of a run from a SEQ on, in modular order; a SEQ outside the run starts at the oldest (R334, R336). -/
def fromSeq (l : List Entry) (start : Option Nat) : List Entry :=
  match l, start with
  | e :: _, some n =>
    let i := (BitVec.ofNat 32 n - e.seq).toNat
    if i < l.length then l.drop i else l
  | _, _ => l

/-- The answer of LOG READ and LOG PREV. -/
def readFields (l : List Entry) (next : Nat) (start count : Option Nat) : List (String × Val) :=
  let run := fromSeq l start
  let part := run.take (count.getD 40)
  let nxt := match part.getLast? with
    | some e => (e.seq + 1).toNat
    | none => next
  [("next", .nat nxt), ("more", flagVal (part.length < run.length))] ++ part.map (fun e => ("ev", .bytes (entryBytes e)))

/-! ## The verbs (R320, R336-R339) -/

def seqVal (e : Option Entry) : Val :=
  match e with
  | some e => .nat e.seq.toNat
  | none => .kw "none"

def prevEntries (s : State) : List Entry := (s.log.prev.map (·.entries)).getD []

def logVerb (k : Sess) : Verb :=
  verb k .view false anyState (fun _ => []) (fun s =>
    let r := s.log
    okAns s
      [("epoch", .nat r.epoch.toNat), ("first", seqVal r.entries.head?), ("last", seqVal r.entries.getLast?)
      , ("count", .nat r.entries.length), ("full", flagVal r.full), ("drops", .nat r.drops)
      , ("freeze", .nat (match r.lease with
          | some t => (t - s.aon.us) / 1000
          | none => 0))
      , ("held", .nat r.held.length), ("hovf", .nat r.hovf), ("prev", .nat (prevEntries s).length)])

def readBad (start count : Option Nat) : List (Bool × Nat) :=
  [(match start with
    | some n => 2 ^ 32 ≤ n
    | none => false, 101)
  , (match count with
    | some n => n = 0 || 40 < n
    | none => false, 101)]

def logReadVerb (k : Sess) (start count : Option Nat) : Verb :=
  verb k .view false anyState (fun _ => readBad start count) (fun s =>
    okAns s (readFields s.log.entries s.log.seq.toNat start count))

def logPrevVerb (k : Sess) (start count : Option Nat) : Verb :=
  verb k .view false anyState (fun _ => readBad start count) (fun s => okAns s (readFields (prevEntries s) 0 start count))

def logClearVerb (k : Sess) : Verb :=
  verb k .view false anyState (fun _ => []) (fun s =>
    let s := { s with log := s.log.clear s.warp.ns (wsyncOf s) k.val }
    okAns s [("epoch", .nat s.log.epoch.toNat)])

def logFreezeVerb (k : Sess) : Verb :=
  verb k .view false anyState (fun _ => []) (fun s =>
    let s := { s with log := { s.log with lease := some (s.aon.us + 10000000) } }
    okAns s [("lease", .dur 10000000000), ("held", .nat s.log.held.length)])

/-- The held entries that a thaw appends, not those that find the log full (R338, R343). -/
def released (old new : Recorder) : Nat := ((new.entries.drop old.entries.length).filter (·.delayed)).length

def logThawVerb (k : Sess) : Verb :=
  verb k .view false anyState (fun _ => []) (fun s =>
    if s.log.lease.isSome then okAns (thawLog s) [("released", .nat (released s.log (thawLog s).log))]
    else okAns s [("released", .nat 0)])

/-- What LOG MARK answers, from the recorder before and after (R320, R333). -/
def markFields (old new : Recorder) : List (String × Val) :=
  if old.lease.isSome then
    [("seq", .kw "none"), ("held", .nat (if old.held.length < new.held.length then new.held.length else 0))]
  else if new.full then [("seq", .kw "none")]
  else [("seq", seqVal new.entries.getLast?)]

def logMarkVerb (k : Sess) (code : Nat) : Verb :=
  verb k .run false anyState (fun _ => [(2048 ≤ code, 101)]) (fun s =>
    let s' := logEv s 0 .mark code 0xFFFFFFFF k.val
    okAns s' (markFields s.log s'.log))

def execLog (k : Sess) (s : State) : Out := .next (onVerb s k (.log k) true (logVerb k))
def execLogRead (k : Sess) (start count : Option Nat) (s : State) : Out :=
  .next (onVerb s k (.logRead k start count) true (logReadVerb k start count))
def execLogPrev (k : Sess) (start count : Option Nat) (s : State) : Out :=
  .next (onVerb s k (.logPrev k start count) true (logPrevVerb k start count))
def execLogClear (k : Sess) (s : State) : Out := .next (onVerb s k (.logClear k) true (logClearVerb k))
def execLogFreeze (k : Sess) (s : State) : Out := .next (onVerb s k (.logFreeze k) true (logFreezeVerb k))
def execLogThaw (k : Sess) (s : State) : Out := .next (onVerb s k (.logThaw k) true (logThawVerb k))
def execLogMark (k : Sess) (code : Nat) (s : State) : Out := .next (onVerb s k (.logMark k code) true (logMarkVerb k code))

end Sys2Proof.Machine
end

