-- ==== Sys2Proof/Machine/Grammar.lean ====
section
/-! DEFINITION. The line grammar: tokens, argument values, and the table of verb forms (R286-R288, R305-R324, R435). -/

namespace Sys2Proof.Machine

/-! ## Tokens (R286, R287) -/

/-- A token: its key, when it has one, and its text. -/
structure Tok where
  key : Option (List Byte)
  text : List Byte
  deriving DecidableEq, Repr

/-- What the tokenizer has read of the token it is in. -/
structure Scan where
  inTok : Bool
  quoted : Bool
  /-- a backslash within quotes waits for the byte that it may escape -/
  esc : Bool
  key : Option (List Byte)
  acc : List Byte
  done : List Tok
  deriving DecidableEq, Repr

def Scan.start : Scan := { inTok := false, quoted := false, esc := false, key := none, acc := [], done := [] }

def isSpace (b : Byte) : Bool := b = 0x20 || b = 0x09

/-- Lower case (R287: verbs, keys, flags and keywords are case-insensitive). -/
def lower (b : Byte) : Byte := if 0x41 ≤ b.toNat ∧ b.toNat ≤ 0x5A then b + 0x20 else b
def lowerText (l : List Byte) : List Byte := l.map lower

/-- The token ends. -/
def Scan.close (x : Scan) : Scan :=
  if x.inTok then { Scan.start with done := x.done ++ [{ key := x.key, text := x.acc }] } else x

/-- One more byte of the token. -/
def Scan.push (x : Scan) (b : Byte) : Scan := { x with inTok := true, acc := x.acc ++ [b] }

/-- The tokens of a line, or none where a quote does not close. `#` outside quotes begins a comment; within quotes `\"` and `\\` are the
escapes. -/
def tokens : List Byte → Scan → Option (List Tok)
  | [], x => if x.quoted then none else some x.close.done
  | b :: t, x =>
    if x.quoted then
      if x.esc then tokens t { (if b = 0x22 ∨ b = 0x5C then x.push b else (x.push 0x5C).push b) with esc := false }
      else if b = 0x5C then tokens t { x with esc := true }
      else if b = 0x22 then tokens t { x with quoted := false }
      else tokens t (x.push b)
    else if b = 0x23 then some x.close.done
    else if isSpace b then tokens t x.close
    else if b = 0x22 then tokens t { x with inTok := true, quoted := true }
    else if b = 0x3D ∧ x.key = none ∧ x.acc ≠ [] then tokens t { x with key := some (lowerText x.acc), acc := [] }
    else tokens t (x.push b)

/-! ## Argument values (R288) -/

/-- How an argument is written. Durations carry the nanoseconds of the unit that a bare number is read in. -/
inductive Kind
  | num | size | dur (unit : Nat) | onOff | words (l : List String) | action | hex | span | domain
  deriving DecidableEq, Repr

/-- A value as the parser reads it. -/
inductive ArgVal | num (n : Nat) | bytes (l : List Byte) | span (a b : Nat) | all
  deriving DecidableEq, Repr

def digitOf (b : Byte) : Option Nat := if 0x30 ≤ b.toNat ∧ b.toNat ≤ 0x39 then some (b.toNat - 0x30) else none
def hexOf (b : Byte) : Option Nat :=
  let c := (lower b).toNat
  if 0x61 ≤ c ∧ c ≤ 0x66 then some (c - 0x57) else digitOf b

/-- Decimal digits at the front, with what follows. -/
def decFront : List Byte → Nat → Nat × List Byte
  | [], n => (n, [])
  | b :: t, n => match digitOf b with
    | some d => decFront t (10 * n + d)
    | none => (n, b :: t)

/-- Hexadecimal digits at the front, with single underscores between them. -/
def hexFront : List Byte → Nat → Nat × List Byte
  | [], n => (n, [])
  | b :: t, n => match hexOf b with
    | some d => hexFront t (16 * n + d)
    | none => match b, t with
      | 0x5F, c :: u => (match hexOf c with
        | some d => hexFront u (16 * n + d)
        | none => (n, b :: t))
      | _, _ => (n, b :: t)

/-- A number at the front, with what follows: none when there is none, or when it exceeds 2^64 - 1. -/
def numFront (l : List Byte) : Option (Nat × List Byte) :=
  let q : Option (Nat × List Byte) := match l with
    | 0x30 :: x :: c :: t =>
      if lower x = 0x78 ∧ (hexOf c).isSome then some (hexFront (c :: t) 0) else some (decFront l 0)
    | b :: _ => if (digitOf b).isSome then some (decFront l 0) else none
    | [] => none
  q.bind (fun p => if p.1 < 2 ^ 64 then some p else none)

/-- The multiplier of a suffix in a set. -/
def suffixOf (set : List (String × Nat)) (l : List Byte) : Option Nat :=
  (set.find? (fun p => ascii p.1 = lowerText l)).map (·.2)

def sizeSuffixes : List (String × Nat) := [("", 1), ("k", 2 ^ 10), ("m", 2 ^ 20), ("g", 2 ^ 30)]
def durSuffixes (unit : Nat) : List (String × Nat) :=
  [("", unit), ("ns", 1), ("us", 1000), ("ms", 1000000), ("s", 1000000000), ("min", 60000000000), ("h", 3600000000000)]

/-- A number with a suffix of a set. -/
def scaled (set : List (String × Nat)) (l : List Byte) : Option ArgVal :=
  (numFront l).bind (fun p => (suffixOf set p.2).map (fun m => ArgVal.num (p.1 * m)))

/-- Hexadecimal digits in pairs. -/
def hexPairs : List Nat → Option (List Byte)
  | [] => some []
  | a :: b :: t => (hexPairs t).map (fun l => BitVec.ofNat 8 (16 * a + b) :: l)
  | _ => none

/-- Digits separated by single underscores. -/
def hexDigitsOf : List Byte → Option (List Nat)
  | [] => some []
  | b :: t => match hexOf b with
    | some d => (hexDigitsOf t).map (fun l => d :: l)
    | none => match b, t with
      | 0x5F, c :: u => (match hexOf c with
        | some d => (hexDigitsOf u).map (fun l => d :: l)
        | none => none)
      | _, _ => none

/-- A byte string in hexadecimal, with or without its mark `0x`. -/
def hexBlob (l : List Byte) : Option (List Byte) :=
  let body := match l with
    | 0x30 :: x :: t => if lower x = 0x78 then t else l
    | _ => l
  match body with
  | b :: _ => if (hexOf b).isSome then (hexDigitsOf body).bind hexPairs else none
  | [] => none

/-- The place of a keyword in a verb's list; a word that is not listed has the place behind the last one. -/
def wordCode (l : List String) (w : List Byte) : Nat := l.findIdx (fun x => ascii x = lowerText w)

/-- A number or a range of numbers. -/
def spanOf (l : List Byte) : Option ArgVal :=
  (numFront l).bind (fun p => match p.2 with
    | [] => some (.span p.1 p.1)
    | 0x2D :: t => (numFront t).bind (fun q => if q.2 = [] then some (.span p.1 q.1) else none)
    | _ => none)

def actionWords : List String := ["park", "restore", "settle_start", "settle_stop", "rest", "log_mark", "slot_switch"]

/-- An action's name of R272, or its number. A name that is not one has code 16. -/
def actionOf (l : List Byte) : Option ArgVal :=
  match l with
  | b :: _ =>
    if (digitOf b).isSome then scaled [("", 1)] l
    else
      let c := wordCode actionWords l
      some (.num (if c < 7 then c + 1 else 16))
  | [] => none

/-- `D` and one or two digits. -/
def domainOf (l : List Byte) : Option ArgVal :=
  match l with
  | d :: t => if lower d = 0x64 ∧ (t.length = 1 ∨ t.length = 2) ∧ t.all (fun b => (digitOf b).isSome) = true then some (.num (decFront t 0).1) else none
  | [] => none

/-- Read a value; none is 103. -/
def readVal (k : Kind) (l : List Byte) : Option ArgVal :=
  match k with
  | .num => scaled [("", 1)] l
  | .size => scaled sizeSuffixes l
  | .dur u => scaled (durSuffixes u) l
  | .onOff => some (.num (match wordCode ["off", "on", "0", "1"] l with
    | 0 => 0
    | 1 => 1
    | 2 => 0
    | 3 => 1
    | _ => 2))
  | .words w => some (.num (wordCode w l))
  | .action => actionOf l
  | .hex => (hexBlob l).map .bytes
  | .span => spanOf l
  | .domain => domainOf l

/-! ## Lines against forms -/

/-- What a line gives a form: positional arguments in order, pairs in order, flags. -/
structure Args where
  pos : List ArgVal
  keys : List (String × ArgVal)
  flags : List String
  deriving DecidableEq, Repr

def Args.none : Args := { pos := [], keys := [], flags := [] }

def asNum : ArgVal → Option Nat
  | .num n => some n
  | _ => none
def asBytes : ArgVal → Option (List Byte)
  | .bytes l => some l
  | _ => none
def asSpan : ArgVal → Option (Nat × Nat)
  | .span a b => some (a, b)
  | _ => none

def Args.at (a : Args) (i : Nat) : Option Nat := a.pos[i]?.bind asNum
def Args.val (a : Args) (k : String) : Option ArgVal := look k a.keys
def Args.num (a : Args) (k : String) : Option Nat := (a.val k).bind asNum
def Args.hex (a : Args) (k : String) : Option (List Byte) := (a.val k).bind asBytes
def Args.span (a : Args) (k : String) : Option (Nat × Nat) := (a.val k).bind asSpan
def Args.has (a : Args) (f : String) : Bool := a.flags.any (· = f)
def Args.hasKey (a : Args) (k : String) : Bool := (a.val k).isSome

/-- A verb's form: its words, the kinds of its positional arguments, its keys, its flag words, and the command that complete arguments make:
none where an argument is missing (104). -/
structure VerbForm where
  words : List String
  pos : List Kind
  keys : List (String × Kind)
  flags : List String
  make : Sess → Args → Option Instr

/-- Words of which one line takes one alternative (R307-R324): the pair or flag that comes second is unknown to the form that the
first began. -/
def alternatives : List (String × String) :=
  [("trigger", "in"), ("plain", "wrap"), ("bank", "bg"), ("bank", "ba"), ("gidx", "sub"), ("gidx", "rank"), ("gidx", "bg"), ("gidx", "ba")
  , ("gidx", "row"), ("commit", "off"), ("commit", "data"), ("active", "mask"), ("active", "smax"), ("active", "stagger"), ("active", "send")
  , ("active", "target"), ("echo", "notify"), ("echo", "idle"), ("notify", "idle")]

/-- A word clashes with one that the line gave before. -/
def Args.clash (a : Args) (w : String) : Bool :=
  alternatives.any (fun p => (p.1 = w && (a.hasKey p.2 || a.has p.2)) || (p.2 = w && (a.hasKey p.1 || a.has p.1)))

/-- Read the tokens after the verb words from left to right: 103 or 105 at the first fault; after them 104 for a key without a value. -/
def readArgs (f : VerbForm) : List Tok → Args → Nat ⊕ Args
  | [], a => .inr a
  | t :: rest, a =>
    match t.key with
    | some key =>
      (match f.keys.find? (fun p => ascii p.1 = key) with
      | none => .inl 105
      | some p =>
        if a.hasKey p.1 || a.clash p.1 then .inl 105
        else if t.text = [] then (match readArgs f rest { a with keys := a.keys ++ [(p.1, .all)] } with
          | .inl c => .inl c
          | .inr _ => .inl 104)
        else match readVal p.2 t.text with
          | some v => readArgs f rest { a with keys := a.keys ++ [(p.1, v)] }
          | none => .inl 103)
    | none =>
      match f.flags.find? (fun w => ascii w = lowerText t.text) with
      | some w => if a.has w || a.clash w then .inl 105 else readArgs f rest { a with flags := a.flags ++ [w] }
      | none =>
        match f.pos[a.pos.length]? with
        | none => .inl 105
        | some k => match readVal k t.text with
          | some v => readArgs f rest { a with pos := a.pos ++ [v] }
          | none => .inl 103

/-- The words of a form stand at the front of a line. -/
def wordsMatch : List String → List Tok → Bool
  | [], _ => true
  | w :: ws, t :: ts => t.key = none && ascii w = lowerText t.text && wordsMatch ws ts
  | _ :: _, [] => false

/-! ## The forms (R307-R324) -/

def secNs : Nat := 1000000000
def subWords : List String := ["a", "b", "ab"]
def privWords : List String := ["view", "run", "keep"]

def plainForm (words : List String) (make : Sess → Instr) : VerbForm :=
  { words := words, pos := [], keys := [], flags := [], make := fun k _ => some (make k) }

/-- A form with one positional number. -/
def numForm (words : List String) (make : Sess → Nat → Instr) : VerbForm :=
  { words := words, pos := [.num], keys := [], flags := [], make := fun k a => (a.at 0).map (make k) }

/-- A form with one key that must stand. -/
def keyForm (words : List String) (key : String) (kind : Kind) (make : Sess → Nat → Instr) : VerbForm :=
  { words := words, pos := [], keys := [(key, kind)], flags := [], make := fun k a => (a.num key).map (make k) }

/-- `sub= rank= bank=ALL`, or `bg= ba=`, `rows=` (R310). -/
def rangeArg (a : Args) : Option RangeArg :=
  match a.num "sub", a.span "rank", a.span "rows" with
  | some sub, some rank, some rows =>
    match a.num "bank", a.num "bg", a.num "ba" with
    | some w, none, none =>
      some { sub := if w = 0 then sub else 3, rankFirst := rank.1, rankLast := rank.2, allBank := true, bg := 0, ba := 0
             rowFirst := rows.1, rowLast := rows.2 }
    | none, some bg, some ba =>
      some { sub := sub, rankFirst := rank.1, rankLast := rank.2, allBank := false, bg := bg, ba := ba, rowFirst := rows.1, rowLast := rows.2 }
    | _, _, _ => none
  | _, _, _ => none

def rangeForm (words : List String) (make : Sess → Nat → RangeArg → Instr) : VerbForm :=
  { words := words, pos := [.num]
    keys := [("sub", .words subWords), ("rank", .span), ("bank", .words ["all"]), ("bg", .num), ("ba", .num), ("rows", .span)], flags := []
    make := fun k a => match a.at 0, rangeArg a with
      | some t, some r => some (make k t r)
      | _, _ => none }

def holdForms : List VerbForm :=
  [plainForm ["status"] .status, plainForm ["park", "cancel"] .parkCancel, keyForm ["park", "set"] "wait" (.dur secNs) .parkSet
  , plainForm ["park"] .park, plainForm ["restore", "cancel"] .restoreCancel, plainForm ["restore", "discard"] .restoreDiscard
  , { words := ["restore", "report"], pos := [], keys := [("tenant", .num), ("from", .num)], flags := []
      make := fun k a => some (.restoreReport k (a.num "tenant") (a.num "from")) }
  , plainForm ["restore"] .restore, plainForm ["settle", "start"] .settleStart, plainForm ["settle", "stop"] .settleStop
  , { words := ["settle", "set"], pos := []
      keys := [("start_free", .num), ("stop_free", .num), ("start_layers", .num), ("stop_layers", .num)], flags := []
      make := fun k a => match a.num "start_free", a.num "stop_free", a.num "start_layers", a.num "stop_layers" with
        | some f, some g, some l, some m => some (.settleSet k f g l m)
        | _, _, _, _ => none }]

def tenantForms : List VerbForm :=
  [rangeForm ["tenant", "range", "add"] .tenantRangeAdd, rangeForm ["tenant", "range", "del"] .tenantRangeDel
  , { words := ["tenant", "range", "list"], pos := [], keys := [("from", .num)], flags := []
      make := fun k a => some (.tenantRangeList k (a.num "from")) }
  , plainForm ["tenant", "commit"] .tenantCommit, plainForm ["tenant", "discard"] .tenantDiscard
  , { words := ["tenant", "set"], pos := [.num], keys := [("class", .num), ("policy", .words ["persist", "volatile"])], flags := []
      make := fun k a =>
        if a.hasKey "class" || a.hasKey "policy" then (a.at 0).map (fun t => .tenantSet k t (a.num "class") (a.num "policy")) else none }
  , numForm ["tenant", "enable"] .tenantEnable, numForm ["tenant", "disable"] .tenantDisable, numForm ["tenant", "show"] .tenantShow]

/-- One of two byte strings: the first is the plaintext form. -/
def blobForm (words : List String) (pos : List Kind) (make : Sess → Args → Bool → List Byte → Option Instr) : VerbForm :=
  { words := words, pos := pos, keys := [("plain", .hex), ("wrap", .hex)], flags := []
    make := fun k a => match a.hex "plain", a.hex "wrap" with
      | some b, none => make k a true b
      | none, some b => make k a false b
      | _, _ => none }

def keyForms : List VerbForm :=
  [blobForm ["key", "owner"] [] (fun k _ plain b => some (.keyOwner k plain b))
  , { words := ["key", "load"], pos := [.num], keys := [("wrap", .hex)], flags := []
      make := fun k a => match a.at 0, a.hex "wrap" with
        | some t, some b => some (.keyLoad k t b)
        | _, _ => none }
  , numForm ["key", "gen"] .keyGen, numForm ["key", "erase"] .keyErase, numForm ["key", "show"] .keyShow]

/-- `off= data=`. -/
def pieceOf (a : Args) : Option (Nat × List Byte) :=
  match a.num "off", a.hex "data" with
  | some o, some d => some (o, d)
  | _, _ => none
def pieceKeys : List (String × Kind) := [("off", .num), ("data", .hex)]

def mapForms : List VerbForm :=
  [numForm ["map", "geometry"] .mapGeometry
  , { words := ["map", "granule"], pos := [.size], keys := [], flags := [], make := fun k a => (a.at 0).map (.mapGranule k) }
  , { words := ["map", "coord"], pos := []
      keys := [("sub", .words ["a", "b"]), ("rank", .num), ("bg", .num), ("ba", .num), ("row", .num), ("gidx", .num)], flags := []
      make := fun k a => match a.num "gidx", a.num "sub", a.num "rank", a.num "bg", a.num "ba", a.num "row" with
        | some g, none, none, none, none, none => some (.mapCoordGidx k g)
        | none, some x, some r, some g, some b, some w => some (.mapCoord k x r g b w)
        | _, _, _, _, _, _ => none }
  , { words := ["map", "profile"], pos := [], keys := pieceKeys, flags := ["commit"]
      make := fun k a => if a.has "commit" then (if a.keys = [] then some (.mapProfileCommit k) else none)
        else (pieceOf a).map (fun p => .mapProfile k p.1 p.2) }
  , plainForm ["map", "provision"] .mapProvision, plainForm ["map"] .map]

/-- BAT SET's keys, with what their values are (R316). -/
def batKinds : List (String × Kind) :=
  [("vchg", .num), ("vmaint", .num), ("vcut", .num), ("imb", .num), ("recharge", .num), ("taper", .num), ("ichg", .num), ("maint", .onOff)
  , ("retry", .dur secNs), ("parksafe", .num), ("cap", .num), ("pmod", .num)]
def allBatKeys : List BatKey := [.vchg, .vmaint, .vcut, .imb, .recharge, .taper, .ichg, .maint, .retry, .parksafe, .cap, .pmod]

/-- The pairs of a line, as the settings of a list that they name. -/
def settingsOf {α : Type} (all : List α) (name : α → String) (a : Args) : List (α × Nat) :=
  a.keys.filterMap (fun p => match all.find? (fun k => name k = p.1), asNum p.2 with
    | some k, some v => some (k, v)
    | _, _ => none)

def batForms : List VerbForm :=
  [{ words := ["bat", "set"], pos := [], keys := batKinds, flags := []
     make := fun k a => if a.keys = [] then none else some (.batSet k (settingsOf allBatKeys batKeyText a)) }
  , plainForm ["bat", "clear"] .batClear, plainForm ["bat", "rest"] .batRest
  , { words := ["bat", "ocvload"], pos := [], keys := ("chem", .words ["nmc", "lfp"]) :: pieceKeys, flags := ["commit"]
      make := fun k a => match a.num "chem", pieceOf a with
        | some c, some p => if a.has "commit" then none else some (.batOcvload k c p.1 p.2)
        | some c, none => if a.has "commit" then some (.batOcvloadCommit k c) else none
        | none, _ => none }
  , keyForm ["bat", "table"] "cell" .num .batTable, plainForm ["bat"] .bat]

def busForms : List VerbForm :=
  [{ words := ["bus", "filter"], pos := [.num], keys := [("match", .num), ("mask", .num), ("fmt", .num), ("en", .onOff)], flags := []
     make := fun k a => match a.at 0, a.num "match", a.num "mask", a.num "fmt", a.num "en" with
       | some n, some m, some x, some f, some e => some (.busFilter k n m x f e)
       | _, _, _, _, _ => none }
  , plainForm ["bus", "recover"] .busRecover, plainForm ["bus", "redetect"] .busRedetect, plainForm ["bus", "flush"] .busFlush
  , { words := ["bus", "set"], pos := [], keys := [("holdoff", .dur secNs), ("count", .num), ("beacon", .dur secNs)], flags := []
      make := fun k a => if a.keys = [] then none else some (.busSet k (a.num "holdoff") (a.num "count") (a.num "beacon")) }
  , plainForm ["bus"] .bus]

def warpForms : List VerbForm :=
  [{ words := ["warp", "set"], pos := [], keys := [("interval", .dur 1000000), ("delay", .dur 1), ("restmax", .num)], flags := []
     make := fun k a => if a.keys = [] then none else some (.warpSet k (a.num "interval") (a.num "delay") (a.num "restmax")) }
  , { words := ["warp", "table"], pos := [.num]
      keys := [("mask", .num), ("smax", .num), ("stagger", .num), ("send", .onOff), ("target", .num)], flags := ["active"]
      make := fun k a =>
        if a.has "active" then (if a.keys = [] then (a.at 0).map (.warpTableActive k) else none)
        else match a.at 0, a.num "mask", a.num "smax", a.num "stagger" with
          | some n, some m, some x, some g => some (.warpTable k n m x g (a.num "send") (a.num "target"))
          | _, _, _, _ => none }
  , plainForm ["warp"] .warp]

def stakeForms : List VerbForm :=
  [{ words := ["stake", "set"], pos := [.num]
     keys := [("action", .action), ("trigger", .num), ("in", .dur 1), ("arg", .num), ("send", .onOff), ("target", .num)], flags := []
     make := fun k a => match a.at 0, a.num "action", a.num "trigger", a.num "in" with
       | some i, some x, some t, none => some (.stakeSet k i x false t (a.num "arg") (a.num "send") (a.num "target"))
       | some i, some x, none, some t => some (.stakeSet k i x true t (a.num "arg") (a.num "send") (a.num "target"))
       | _, _, _, _ => none }
  , { words := ["stake", "cancel"], pos := [.num], keys := [("send", .onOff)], flags := []
      make := fun k a => (a.at 0).map (fun i => .stakeCancel k i (a.num "send")) }
  , { words := ["stake", "show"], pos := [.num], keys := [], flags := [], make := fun k a => some (.stakeShow k (a.at 0)) }]

def pageKeys : List (String × Kind) := [("from", .num), ("count", .num)]

def logForms : List VerbForm :=
  [{ words := ["log", "read"], pos := [], keys := pageKeys, flags := [], make := fun k a => some (.logRead k (a.num "from") (a.num "count")) }
  , { words := ["log", "prev"], pos := [], keys := pageKeys, flags := [], make := fun k a => some (.logPrev k (a.num "from") (a.num "count")) }
  , plainForm ["log", "clear"] .logClear, plainForm ["log", "freeze"] .logFreeze, plainForm ["log", "thaw"] .logThaw
  , keyForm ["log", "mark"] "code" .num .logMark, plainForm ["log"] .log]

/-- A form with one byte string. -/
def hexForm (words : List String) (key : String) (make : Sess → List Byte → Instr) : VerbForm :=
  { words := words, pos := [], keys := [(key, .hex)], flags := [], make := fun k a => (a.hex key).map (make k) }

def flashForms : List VerbForm :=
  [{ words := ["flash", "opt", "set"], pos := [], keys := optOrder.map (fun k => (optName k, Kind.num)), flags := []
     make := fun k a => if a.keys = [] then none else some (.flashOptSet k (settingsOf optOrder optName a)) }
  , plainForm ["flash", "opt"] .flashOpt, hexForm ["flash", "unlock"] "pwd" .flashUnlock, plainForm ["flash", "lock"] .flashLock
  , { words := ["flash", "protect"], pos := [], keys := [("first", .num), ("last", .num), ("state", .words ["off", "on"])], flags := []
      make := fun k a => match a.num "first", a.num "last", a.num "state" with
        | some f, some l, some x => some (.flashProtect k f l x)
        | _, _, _ => none }
  , hexForm ["flash", "password"] "new" .flashPassword
  , keyForm ["flash", "scrub"] "region" (.words ["a", "b", "cfg", "bitclr", "opt", "all"]) .flashScrub, plainForm ["flash"] .flash]

def fwForms : List VerbForm :=
  [{ words := ["fw", "missing"], pos := [], keys := [("from", .num)], flags := [], make := fun k a => some (.fwMissing k (a.num "from")) }
  , { words := ["fw", "put", "hdr"], pos := [], keys := pieceKeys, flags := []
      make := fun k a => (pieceOf a).map (fun p => .fwPutHdr k p.1 p.2) }
  , { words := ["fw", "put"], pos := [], keys := ("idx", .num) :: pieceKeys, flags := []
      make := fun k a => match a.num "idx", pieceOf a with
        | some i, some p => some (.fwPut k i p.1 p.2)
        | _, _ => none }
  , plainForm ["fw", "activate"] .fwActivate, plainForm ["fw", "abort"] .fwAbort, plainForm ["fw"] .fw]

def domainForms : List VerbForm :=
  [{ words := ["domain", "enable"], pos := [.domain], keys := [], flags := [], make := fun k a => (a.at 0).map (.domainEnable k) }
  , { words := ["domain", "disable"], pos := [.domain], keys := [], flags := ["force"]
      make := fun k a => (a.at 0).map (fun d => if a.has "force" then .domainDisableForce k d else .domainDisable k d) }
  , keyForm ["domain", "set"] "drain" (.dur 1000000) .domainSet, plainForm ["domain"] .domain
  , plainForm ["reset", "warm"] .resetWarm, plainForm ["reset", "mgmt"] .resetMgmt
  , plainForm ["diag", "lanes"] .diagLanes, keyForm ["diag", "nand"] "die" .num .diagNand, plainForm ["diag", "temp"] .diagTemp
  , plainForm ["diag", "selftest"] .diagSelftest]

/-- `AUTH SECRET level` with one of two byte strings, `AUTH level` with or without a MAC. -/
def authForms : List VerbForm :=
  [blobForm ["auth", "secret"] [.words privWords] (fun k a plain b =>
    (a.at 0).map (fun l => if plain then .authSecretPlain k l b else .authSecretWrap k l b))
  , { words := ["auth"], pos := [.words privWords], keys := [("mac", .hex)], flags := []
      make := fun k a => (a.at 0).map (fun l => match a.hex "mac" with
        | some m => .authMac k l m
        | none => .auth k l) }]

/-- `SESSION SET` takes one of its keys. -/
def sessionForms : List VerbForm :=
  [plainForm ["session", "list"] .sessionList
  , { words := ["session", "set"], pos := [], keys := [("echo", .onOff), ("notify", .onOff), ("idle", .dur 60000000000)], flags := []
      make := fun k a => match a.num "echo", a.num "notify", a.num "idle" with
        | some e, none, none => some (.sessionSetEcho k e)
        | none, some n, none => some (.sessionSetNotify k n)
        | none, none, some i => some (.sessionSetIdle k i)
        | _, _, _ => none }
  , plainForm ["session", "end"] .sessionEnd, plainForm ["session"] .session]

/-- Every form; of two with the same first words the longer stands first. -/
def allForms : List VerbForm :=
  holdForms ++ tenantForms ++ keyForms ++ mapForms ++ batForms ++ busForms ++ warpForms ++ stakeForms ++ logForms ++ flashForms ++ fwForms ++
  domainForms ++ authForms ++ sessionForms

/-! ## A whole line -/

/-- A line's form refused, a line without a command, or a command. -/
inductive Parsed | empty | bad (code : Nat) | cmd (i : Instr)
  deriving DecidableEq, Repr

/-- The first words of a form that needs a further word. -/
def needsWord (l : List Tok) : Bool :=
  match l with
  | t :: _ => allForms.any (fun f => match f.words with
    | w :: _ => t.key = none && ascii w = lowerText t.text
    | [] => false)
  | [] => false

/-- Syntax (R435): 100, then 103 and 105 from left to right, then 104. A verb without its second word lacks an argument; an unlisted second
word is a value outside its list. -/
def parseTokens (k : Sess) (l : List Tok) : Parsed :=
  match l with
  | [] => .empty
  | _ :: rest =>
    match allForms.find? (fun f => wordsMatch f.words l) with
    | none => if needsWord l then (if rest = [] then .bad 104 else .bad 101) else .bad 100
    | some f =>
      match readArgs f (l.drop f.words.length) Args.none with
      | .inl c => .bad c
      | .inr a => match f.make k a with
        | some i => .cmd i
        | none => .bad 104

def lineByte (b : Byte) : Bool := (0x20 ≤ b.toNat && b.toNat ≤ 0x7E) || b = 0x09

/-- A line (R286, R435): 102, then 107, then 106, then its syntax. -/
def parseLine (k : Sess) (l : List Byte) : Parsed :=
  if 512 < l.length then .bad 102
  else if !l.all lineByte then .bad 107
  else match tokens l Scan.start with
    | none => .bad 106
    | some t => parseTokens k t

end Sys2Proof.Machine
end

