-- ==== Sys2Proof/Machine/Transport.lean ====
section
/-! DEFINITION. The transports: the console, the I3C command pipes and the shelf-bus tunnels, and how the lines they bring are run
(R279-R286, R300-R304). -/

namespace Sys2Proof.Machine

/-! ## Running a line -/

/-- The verb that a command is, and whether the recovery set has it (R80). Commands that are no lines have none. -/
def verbOf (i : Instr) : Option (Bool × Verb) :=
  match i with
  | .status k => some (true, statusVerb k)
  | .park k => some (false, parkVerb k)
  | .parkCancel k => some (false, parkCancelVerb k)
  | .parkSet k wait => some (false, parkSetVerb k wait)
  | .restore k => some (false, restoreVerb k)
  | .restoreCancel k => some (false, restoreCancelVerb k)
  | .restoreDiscard k => some (false, restoreDiscardVerb k)
  | .restoreReport k tenant start => some (false, restoreReportVerb k tenant start)
  | .settleStart k => some (false, settleStartVerb k)
  | .settleStop k => some (false, settleStopVerb k)
  | .settleSet k startFree stopFree startLayers stopLayers => some (false, settleSetVerb k startFree stopFree startLayers stopLayers)
  | .tenantRangeAdd k t r => some (false, rangeVerb k t r true)
  | .tenantRangeDel k t r => some (false, rangeVerb k t r false)
  | .tenantRangeList k start => some (false, tenantRangeListVerb k start)
  | .tenantCommit k => some (false, tenantCommitVerb k)
  | .tenantDiscard k => some (false, tenantDiscardVerb k)
  | .tenantSet k t cls policy => some (false, tenantSetVerb k t cls policy)
  | .tenantEnable k t => some (false, tenantEnableVerb k t)
  | .tenantDisable k t => some (false, tenantDisableVerb k t)
  | .tenantShow k t => some (false, tenantShowVerb k t)
  | .keyOwner k plain blob => some (false, keyOwnerVerb k plain blob)
  | .keyLoad k t blob => some (false, keyLoadVerb k t blob)
  | .keyGen k t => some (false, keyGenVerb k t)
  | .keyErase k t => some (false, keyEraseVerb k t)
  | .keyShow k t => some (false, keyShowVerb k t)
  | .map k => some (false, mapVerb k)
  | .mapGeometry k word => some (false, mapGeometryVerb k word)
  | .mapGranule k size => some (false, mapGranuleVerb k size)
  | .mapCoord k sub rank bg ba row => some (false, mapCoordVerb k sub rank bg ba row)
  | .mapCoordGidx k gidx => some (false, mapCoordGidxVerb k gidx)
  | .mapProfile k off data => some (false, mapProfileVerb k off data)
  | .mapProfileCommit k => some (false, mapProfileCommitVerb k)
  | .mapProvision k => some (false, mapProvisionVerb k)
  | .bat k => some (false, batVerb k)
  | .batSet k keys => some (false, batSetVerb k keys)
  | .batClear k => some (false, batClearVerb k)
  | .batRest k => some (false, batRestVerb k)
  | .batOcvload k chem off data => some (false, batOcvloadVerb k chem off data)
  | .batOcvloadCommit k chem => some (false, batOcvloadCommitVerb k chem)
  | .batTable k cell => some (false, batTableVerb k cell)
  | .bus k => some (false, busVerb k)
  | .busFilter k n mtch mask fmt en => some (false, busFilterVerb k n mtch mask fmt en)
  | .busRecover k => some (false, busRecoverVerb k)
  | .busRedetect k => some (false, busRedetectVerb k)
  | .busFlush k => some (false, busFlushVerb k)
  | .busSet k holdoff count beacon => some (false, busSetVerb k holdoff count beacon)
  | .warp k => some (false, warpVerb k)
  | .warpSet k interval delay restmax => some (false, warpSetVerb k interval delay restmax)
  | .warpTable k n mask smax stagger send target => some (false, warpTableVerb k n mask smax stagger send target)
  | .warpTableActive k n => some (false, warpTableActiveVerb k n)
  | .stakeSet k i action relative trigger arg send target => some (false, stakeSetVerb k i action relative trigger arg send target)
  | .stakeCancel k i send => some (false, stakeCancelVerb k i send)
  | .stakeShow k i => some (false, stakeShowVerb k i)
  | .log k => some (true, logVerb k)
  | .logRead k start count => some (true, logReadVerb k start count)
  | .logPrev k start count => some (true, logPrevVerb k start count)
  | .logClear k => some (true, logClearVerb k)
  | .logFreeze k => some (true, logFreezeVerb k)
  | .logThaw k => some (true, logThawVerb k)
  | .logMark k code => some (true, logMarkVerb k code)
  | .flash k => some (false, flashVerb k)
  | .flashOpt k => some (false, flashOptVerb k)
  | .flashOptSet k keys => some (false, flashOptSetVerb k keys)
  | .flashUnlock k pwd => some (false, flashUnlockVerb k pwd)
  | .flashLock k => some (false, flashLockVerb k)
  | .flashProtect k first last state => some (false, flashProtectVerb k first last state)
  | .flashPassword k pwd => some (false, flashPasswordVerb k pwd)
  | .flashScrub k region => some (false, flashScrubVerb k region)
  | .fw k => some (true, fwVerb k)
  | .fwMissing k start => some (true, fwMissingVerb k start)
  | .fwPutHdr k off data => some (true, fwPutHdrVerb k off data)
  | .fwPut k idx off data => some (true, fwPutVerb k idx off data)
  | .fwActivate k => some (true, fwActivateVerb k)
  | .fwAbort k => some (false, fwAbortVerb k)
  | .domain k => some (false, domainVerb k)
  | .domainEnable k d => some (false, domainEnableVerb k d)
  | .domainDisable k d => some (false, domainDisableVerb k d)
  | .domainDisableForce k d => some (false, domainDisableForceVerb k d)
  | .domainSet k drain => some (false, domainSetVerb k drain)
  | .resetWarm k => some (true, resetWarmVerb k)
  | .resetMgmt k => some (true, resetMgmtVerb k)
  | .diagLanes k => some (false, diagLanesVerb k)
  | .diagNand k die => some (false, diagNandVerb k die)
  | .diagTemp k => some (false, diagTempVerb k)
  | .diagSelftest k => some (false, diagSelftestVerb k)
  | .auth k level => some (true, authPlainVerb k level)
  | .authMac k level mac => some (true, authMacVerb k level mac)
  | .authLower k level => some (true, authPlainVerb k level)
  | .authSecretWrap k level blob => some (true, authSecretWrapVerb k level blob)
  | .authSecretPlain k level blob => some (true, authSecretPlainVerb k level blob)
  | .session k => some (false, sessionVerb k)
  | .sessionList k => some (false, sessionListVerb k)
  | .sessionSetEcho k on => some (false, sessionSetEchoVerb k on)
  | .sessionSetNotify k on => some (false, sessionSetNotifyVerb k on)
  | .sessionSetIdle k limit => some (false, sessionSetIdleVerb k limit)
  | .sessionEnd k => some (false, sessionEndVerb k)
  | _ => none

/-- What a line held by a session does when its turn comes. -/
def lineVerb (l : QLine) : Verb := fun s =>
  match l with
  | .bad c => err s c
  | .cmd i =>
    match verbOf i with
    | some (inRecovery, f) => if recovering s && !inRecovery then err s 501 else f s
    | none => err s 100

/-- A complete line reaches its session. Its mark, if it has one, answers it. -/
def submit (s : State) (k : Sess) (lseq : Byte) (text : List Byte) (mark : Option Nat) : State :=
  match mark with
  | some c => onLineSeq s k lseq (.bad c) (lineVerb (.bad c))
  | none =>
    match parseLine k text with
    | .empty => s
    | .bad c => onLineSeq s k lseq (.bad c) (lineVerb (.bad c))
    | .cmd i => onLineSeq s k lseq (.cmd i) (lineVerb (.cmd i))

/-- The next waiting line of a session that is free to execute (R283, R300). -/
def runQueued (s : State) (k : Sess) : State :=
  match (getSes s k).queue with
  | [] => s
  | e :: rest => if stalled s k then s else runLine (setSes s k (fun q => { q with queue := rest })) k e.lseq (lineVerb e.line)

/-! ## Characters (R281, R283, R286) -/

/-- A byte ends a line. -/
def endsLine (b : Byte) : Bool := b = 0x0D || b = 0x0A

/-- Mark the present line; a line that is too long stays so. -/
def markLine (s : State) (k : Sess) (code : Nat) : State :=
  setSes s k (fun q => { q with lineErr := if q.lineErr = some 102 then some 102 else some code })

/-- The present line is too long: what it has goes, and what comes up to its end. -/
def markLong (s : State) (k : Sess) : State := setSes s k (fun q => { q with line := [], lineErr := some 102 })

/-- One byte of a stream of lines. The LF of a CR LF ends an empty line, which has no response. -/
def feedByte (s : State) (k : Sess) (b : Byte) : State :=
  let q := getSes s k
  if endsLine b then submit (setSes s k (fun q => { q with line := [], lineErr := none })) k (nextLseq q.curLseq) q.line q.lineErr
  else if q.lineErr = some 102 then s
  else if 512 ≤ q.line.length then markLong s k
  else setSes s k (fun q => { q with line := q.line ++ [b] })

/-- The two characters that delete (R281). -/
def deletes (b : Byte) : Bool := b = 0x08 || b = 0x7F

/-- CONSOLE_CHARACTER (R281, R304): `damaged` is a framing or parity error. Echo sends the character back. -/
def execConsoleCharacter (ch : Byte) (damaged : Bool) (s : State) : Out :=
  .next (
    let q := getSes s 0
    if !q.isOpen then s
    else if damaged then logEv (markLine s 0 107) 2 .lineDamaged 0
    else
      let s := if q.echo then consolePut s [ch] else s
      if q.echo && deletes ch then setSes s 0 (fun q => { q with line := q.line.dropLast }) else feedByte s 0 ch)

/-! ## Pipes (R282, R283) -/

def pipeOf (s6 : Bool) : Sess := if s6 then 6 else 5

/-- PIPE_STAT (R282). -/
def pipeStat (s : State) (k : Sess) : Word :=
  let q := getSes s k
  BitVec.ofNat 32 (flagBit q.ovf 25 + flagBit q.busy.isSome 24 + (1024 - q.line.length) * 2 ^ 13 + min 4096 q.out.length)

/-- PIPE_IN_WRITE (R283): the bytes that the 1024-byte buffer does not take are gone, OVF stands, and the line they belonged to is
answered 102. -/
def execPipeInWrite (s6 : Bool) (bytes : List Byte) (s : State) : Out :=
  .next (
    let k := pipeOf s6
    let q := getSes s k
    if !targetAnswers s ∨ !q.isOpen then s
    else
      let room := 1024 - q.line.length
      let t := (bytes.take room).foldl (fun s b => feedByte s k b) s
      if room < bytes.length then markLong (setSes t k (fun q => { q with ovf := true })) k else t)

/-- PIPE_OUT_READ (R282, R283): bytes of the output buffer, then 0x00. -/
def execPipeOutRead (s6 : Bool) (count : Nat) (s : State) : Out :=
  .next (
    let k := pipeOf s6
    if !targetAnswers s then s
    else
      let l := (getSes s k).out.take count
      setReply (setSes s k (fun q => { q with out := q.out.drop count })) (l ++ List.replicate (count - l.length) 0))

/-- PIPE_CTRL.FLUSH (R282). -/
def execPipeCtrlFlush (s6 : Bool) (s : State) : Out := .next (if targetAnswers s then flushPipe s (pipeOf s6) else s)

/-- PIPE_CTRL.OVF_CLR (R282). -/
def execPipeCtrlOvfClr (s6 : Bool) (s : State) : Out :=
  .next (if targetAnswers s then setSes s (pipeOf s6) (fun q => { q with ovf := false }) else s)

/-! ## Tunnels (R284, R285) -/

def tunnels : List Sess := [1, 2, 3, 4]

/-- The session that a node is bound to. -/
def boundTo (s : State) (src : NodeId) : Option Sess :=
  tunnels.find? (fun k => (getSes s k).isOpen && (getSes s k).node = some src)

/-- A REQUEST that the layout allows: LEN within 512 and within the payload, LSEQ not 255, the reserved byte 0. R285 says only what a
valid REQUEST leads to; that any other is dropped without a response is the model's own choice (DESIGN CHOICE, assumption log entry
51). -/
def requestOk (p : List Byte) : Bool :=
  4 ≤ p.length && leAt p 0 2 ≤ 512 && 4 + leAt p 0 2 ≤ p.length && leAt p 2 1 ≠ 255 && leAt p 3 1 = 0

/-- The line is in the session already: executing or queued. -/
def lineHeld (q : Ses) (lseq : Byte) : Bool := (q.busy.isSome && q.curLseq = lseq) || q.queue.any (fun e => e.lseq = lseq)

/-- A REQUEST in its bound session: the LSEQ of the last line has its response again, any other LSEQ is a line. The text ends at its
first CR or LF. -/
def tunnelLine (s : State) (k : Sess) (src : NodeId) (p : List Byte) : State :=
  let q := getSes s k
  let lseq : Byte := p.getD 2 0
  if lineHeld q lseq then s
  else if q.lastLseq = some lseq then tunnelSend s src q.lastResp
  else submit s k lseq ((bytesAt p 4 (leAt p 0 2)).takeWhile (fun b => !endsLine b)) none

/-- A free session binds to the node (R285). -/
def bindTunnel (s : State) (k : Sess) (src : NodeId) : State := setSes s k (fun _ => { Ses.opened k with node := some src })

/-- TUNNEL_REQUEST (R284, R285). The recovery set has no tunnels (R279). A REQUEST with the reserved LSEQ 255, a reserved byte other than
0 or a LEN above 512 is dropped without a response: the spec leaves it open and the model chose so (DESIGN CHOICE, assumption log
entry 51). -/
def execTunnelRequest (src : NodeId) (payload : List Byte) (s : State) : Out :=
  .next (
    if !(s.mg.running && isOn s 5 && onBus s) || recovering s || !requestOk payload then s
    else
      match boundTo s src with
      | some k => tunnelLine s k src payload
      | none =>
        match tunnels.find? (fun k => !(getSes s k).isOpen) with
        | some k => tunnelLine (bindTunnel s k src) k src payload
        | none => tunnelSend s src (tunnelPayload (payload.getD 2 0) false (ERR 408).bytes))

end Sys2Proof.Machine
end

