-- ==== Sys2Proof/Machine/Dispatch.lean ====
section
/-! DEFINITION. exec: one arm per command, each a direct call of that command's meaning. -/

namespace Sys2Proof.Machine

def exec (i : Instr) (s : State) : Host.Outcome State Fault Refusal :=
  match i with
  | .crystalRecheck pass => Sys2Proof.Machine.execCrystalRecheck pass s
  | .drstL high => Sys2Proof.Machine.execDrstL high s
  | .tjAlarm degrees => Sys2Proof.Machine.execTjAlarm degrees s
  | .tjAlarmEnd degrees => Sys2Proof.Machine.execTjAlarmEnd degrees s
  | .hpReady pass => Sys2Proof.Machine.execHpReady pass s
  | .rootAndSelftests root xts map => Sys2Proof.Machine.execRootAndSelftests root xts map s
  | .imageDerivation facts => Sys2Proof.Machine.execImageDerivation facts s
  | .provisioningStart facts => Sys2Proof.Machine.execProvisioningStart facts s
  | .act sub rank bank row => Sys2Proof.Machine.execAct sub rank bank row s
  | .wr sub rank bank data => Sys2Proof.Machine.execWr sub rank bank data s
  | .wra sub rank bank data => Sys2Proof.Machine.execWra sub rank bank data s
  | .wrp sub rank bank data => Sys2Proof.Machine.execWrp sub rank bank data s
  | .wrpa sub rank bank data => Sys2Proof.Machine.execWrpa sub rank bank data s
  | .rd sub rank bank => Sys2Proof.Machine.execRd sub rank bank s
  | .rda sub rank bank => Sys2Proof.Machine.execRda sub rank bank s
  | .preab sub rank => Sys2Proof.Machine.execPreab sub rank s
  | .presb sub rank ba => Sys2Proof.Machine.execPresb sub rank ba s
  | .prepb sub rank bank => Sys2Proof.Machine.execPrepb sub rank bank s
  | .refab sub rank => Sys2Proof.Machine.execRefab sub rank s
  | .refsb sub rank ba => Sys2Proof.Machine.execRefsb sub rank ba s
  | .rfmab sub rank => Sys2Proof.Machine.execRfmab sub rank s
  | .rfmsb sub rank ba => Sys2Proof.Machine.execRfmsb sub rank ba s
  | .sre sub rank => Sys2Proof.Machine.execSre sub rank s
  | .srx sub rank => Sys2Proof.Machine.execSrx sub rank s
  | .pde sub rank => Sys2Proof.Machine.execPde sub rank s
  | .pdx sub rank => Sys2Proof.Machine.execPdx sub rank s
  | .mrw sub ranks mr value => Sys2Proof.Machine.execMrw sub ranks mr value s
  | .rcdControlWordWrite sub addr value => Sys2Proof.Machine.execRcdControlWordWrite sub addr value s
  | .mrr sub rank mr => Sys2Proof.Machine.execMrr sub rank mr s
  | .mpc sub ranks op => Sys2Proof.Machine.execMpc sub ranks op s
  | .vrefca sub ranks value => Sys2Proof.Machine.execVrefca sub ranks value s
  | .vrefcs sub ranks value => Sys2Proof.Machine.execVrefcs sub ranks value s
  | .nop sub => Sys2Proof.Machine.execNop sub s
  | .des sub => Sys2Proof.Machine.execDes sub s
  | .caParityError sub => Sys2Proof.Machine.execCaParityError sub s
  | .portRetrainDone aOk bOk => Sys2Proof.Machine.execPortRetrainDone aOk bOk s
  | .strandLoadDone die => Sys2Proof.Machine.execStrandLoadDone die s
  | .strandProgramDone die status => Sys2Proof.Machine.execStrandProgramDone die status s
  | .dieTimeout die => Sys2Proof.Machine.execDieTimeout die s
  | .dieResetRetry die stillBusy => Sys2Proof.Machine.execDieResetRetry die stillBusy s
  | .tailDone logWritten => Sys2Proof.Machine.execTailDone logWritten s
  | .rimProgramDone copyB pass => Sys2Proof.Machine.execRimProgramDone copyB pass s
  | .rimMarginReadDone passA passB => Sys2Proof.Machine.execRimMarginReadDone passA passB s
  | .foldProgramDone die pass => Sys2Proof.Machine.execFoldProgramDone die pass s
  | .foldMarginReadDone die found => Sys2Proof.Machine.execFoldMarginReadDone die found s
  | .blockEraseDone die block pass => Sys2Proof.Machine.execBlockEraseDone die block pass s
  | .nandReadDone die block gidx seq result => Sys2Proof.Machine.execNandReadDone die block gidx seq result s
  | .restoreLoadDone chosenOk otherOk => Sys2Proof.Machine.execRestoreLoadDone chosenOk otherOk s
  | .flitSend lane flit => Sys2Proof.Machine.execFlitSend lane flit s
  | .flitArrival lane check => Sys2Proof.Machine.execFlitArrival lane check s
  | .creditReturn back => Sys2Proof.Machine.execCreditReturn back s
  | .pllLock pll => Sys2Proof.Machine.execPllLock pll s
  | .domainUp dom => Sys2Proof.Machine.execDomainUp dom s
  | .domainPowerFail dom kind => Sys2Proof.Machine.execDomainPowerFail dom kind s
  | .drainComplete dom => Sys2Proof.Machine.execDrainComplete dom s
  | .drainLimitExpiry dom => Sys2Proof.Machine.execDrainLimitExpiry dom s
  | .keyZeroize t readBackZero => Sys2Proof.Machine.execKeyZeroize t readBackZero s
  | .keyStoreWriteDone t => Sys2Proof.Machine.execKeyStoreWriteDone t s
  | .oldCopyEraseDone t verified => Sys2Proof.Machine.execOldCopyEraseDone t verified s
  | .packPresenceChange present => Sys2Proof.Machine.execPackPresenceChange present s
  | .packEepromRead ack bytes => Sys2Proof.Machine.execPackEepromRead ack bytes s
  | .chgPause cause => Sys2Proof.Machine.execChgPause cause s
  | .chgResume cause => Sys2Proof.Machine.execChgResume cause s
  | .estimatorStep sample dtMs icmd => Sys2Proof.Machine.execEstimatorStep sample dtMs icmd s
  | .wardenPackSample sample icmd => Sys2Proof.Machine.execWardenPackSample sample icmd s
  | .impedanceProbe after => Sys2Proof.Machine.execImpedanceProbe after s
  | .polarisationProbe after2s => Sys2Proof.Machine.execPolarisationProbe after2s s
  | .frameReceived form frame shortestRun => Sys2Proof.Machine.execFrameReceived form frame shortestRun s
  | .busError kind transmitting brsFrame => Sys2Proof.Machine.execBusError kind transmitting brsFrame s
  | .reassemblyGap src cls type tag => Sys2Proof.Machine.execReassemblyGap src cls type tag s
  | .bwCtrlWinEn enable => Sys2Proof.Machine.execBwCtrlWinEn enable s
  | .bwIrqClear mask => Sys2Proof.Machine.execBwIrqClear mask s
  | .bwRelease index => Sys2Proof.Machine.execBwRelease index s
  | .q1EntryRead index word => Sys2Proof.Machine.execQ1EntryRead index word s
  | .txctlRequest mailbox word => Sys2Proof.Machine.execTxctlRequest mailbox word s
  | .txctlCancel mailbox => Sys2Proof.Machine.execTxctlCancel mailbox s
  | .bridgeRegisterWrite offset word => Sys2Proof.Machine.execBridgeRegisterWrite offset word s
  | .entdaa addr won => Sys2Proof.Machine.execEntdaa addr won s
  | .setnewda addr => Sys2Proof.Machine.execSetnewda addr s
  | .hsdaMismatch hotJoinEnabled => Sys2Proof.Machine.execHsdaMismatch hotJoinEnabled s
  | .sync src tag payload => Sys2Proof.Machine.execSync src tag payload s
  | .followUp src tag payload => Sys2Proof.Machine.execFollowUp src tag payload s
  | .keeperAnnounce src payload => Sys2Proof.Machine.execKeeperAnnounce src payload s
  | .slotTable tag payload => Sys2Proof.Machine.execSlotTable tag payload s
  | .stakeSetFrame src tag payload => Sys2Proof.Machine.execStakeSetFrame src tag payload s
  | .stakeCancelFrame tag payload => Sys2Proof.Machine.execStakeCancelFrame tag payload s
  | .restRequestFrame src payload => Sys2Proof.Machine.execRestRequestFrame src payload s
  | .stakeFire index => Sys2Proof.Machine.execStakeFire index s
  | .consoleCharacter ch damaged => Sys2Proof.Machine.execConsoleCharacter ch damaged s
  | .pipeInWrite s6 bytes => Sys2Proof.Machine.execPipeInWrite s6 bytes s
  | .pipeOutRead s6 count => Sys2Proof.Machine.execPipeOutRead s6 count s
  | .pipeCtrlFlush s6 => Sys2Proof.Machine.execPipeCtrlFlush s6 s
  | .pipeCtrlOvfClr s6 => Sys2Proof.Machine.execPipeCtrlOvfClr s6 s
  | .tunnelRequest src payload => Sys2Proof.Machine.execTunnelRequest src payload s
  | .sessionIdleExpiry k => Sys2Proof.Machine.execSessionIdleExpiry k s
  | .nonceExpiry k => Sys2Proof.Machine.execNonceExpiry k s
  | .status k => Sys2Proof.Machine.execStatus k s
  | .park k => Sys2Proof.Machine.execPark k s
  | .parkCancel k => Sys2Proof.Machine.execParkCancel k s
  | .parkSet k wait => Sys2Proof.Machine.execParkSet k wait s
  | .restore k => Sys2Proof.Machine.execRestore k s
  | .restoreCancel k => Sys2Proof.Machine.execRestoreCancel k s
  | .restoreDiscard k => Sys2Proof.Machine.execRestoreDiscard k s
  | .restoreReport k tenant start => Sys2Proof.Machine.execRestoreReport k tenant start s
  | .settleStart k => Sys2Proof.Machine.execSettleStart k s
  | .settleStop k => Sys2Proof.Machine.execSettleStop k s
  | .settleSet k startFree stopFree startLayers stopLayers => Sys2Proof.Machine.execSettleSet k startFree stopFree startLayers stopLayers s
  | .tenantRangeAdd k t r => Sys2Proof.Machine.execTenantRangeAdd k t r s
  | .tenantRangeDel k t r => Sys2Proof.Machine.execTenantRangeDel k t r s
  | .tenantRangeList k start => Sys2Proof.Machine.execTenantRangeList k start s
  | .tenantCommit k => Sys2Proof.Machine.execTenantCommit k s
  | .tenantDiscard k => Sys2Proof.Machine.execTenantDiscard k s
  | .tenantSet k t cls policy => Sys2Proof.Machine.execTenantSet k t cls policy s
  | .tenantEnable k t => Sys2Proof.Machine.execTenantEnable k t s
  | .tenantDisable k t => Sys2Proof.Machine.execTenantDisable k t s
  | .tenantShow k t => Sys2Proof.Machine.execTenantShow k t s
  | .keyOwner k plain blob => Sys2Proof.Machine.execKeyOwner k plain blob s
  | .keyLoad k t blob => Sys2Proof.Machine.execKeyLoad k t blob s
  | .keyGen k t => Sys2Proof.Machine.execKeyGen k t s
  | .keyErase k t => Sys2Proof.Machine.execKeyErase k t s
  | .keyShow k t => Sys2Proof.Machine.execKeyShow k t s
  | .map k => Sys2Proof.Machine.execMap k s
  | .mapGeometry k word => Sys2Proof.Machine.execMapGeometry k word s
  | .mapGranule k size => Sys2Proof.Machine.execMapGranule k size s
  | .mapCoord k sub rank bg ba row => Sys2Proof.Machine.execMapCoord k sub rank bg ba row s
  | .mapCoordGidx k gidx => Sys2Proof.Machine.execMapCoordGidx k gidx s
  | .mapProfile k off data => Sys2Proof.Machine.execMapProfile k off data s
  | .mapProfileCommit k => Sys2Proof.Machine.execMapProfileCommit k s
  | .mapProvision k => Sys2Proof.Machine.execMapProvision k s
  | .bat k => Sys2Proof.Machine.execBat k s
  | .batSet k keys => Sys2Proof.Machine.execBatSet k keys s
  | .batClear k => Sys2Proof.Machine.execBatClear k s
  | .batRest k => Sys2Proof.Machine.execBatRest k s
  | .batOcvload k chem off data => Sys2Proof.Machine.execBatOcvload k chem off data s
  | .batOcvloadCommit k chem => Sys2Proof.Machine.execBatOcvloadCommit k chem s
  | .batTable k cell => Sys2Proof.Machine.execBatTable k cell s
  | .bus k => Sys2Proof.Machine.execBus k s
  | .busFilter k n mtch mask fmt en => Sys2Proof.Machine.execBusFilter k n mtch mask fmt en s
  | .busRecover k => Sys2Proof.Machine.execBusRecover k s
  | .busRedetect k => Sys2Proof.Machine.execBusRedetect k s
  | .busFlush k => Sys2Proof.Machine.execBusFlush k s
  | .busSet k holdoff count beacon => Sys2Proof.Machine.execBusSet k holdoff count beacon s
  | .warp k => Sys2Proof.Machine.execWarp k s
  | .warpSet k interval delay restmax => Sys2Proof.Machine.execWarpSet k interval delay restmax s
  | .warpTable k n mask smax stagger send target => Sys2Proof.Machine.execWarpTable k n mask smax stagger send target s
  | .warpTableActive k n => Sys2Proof.Machine.execWarpTableActive k n s
  | .stakeSet k idx action relative trigger arg send target => Sys2Proof.Machine.execStakeSet k idx action relative trigger arg send target s
  | .stakeCancel k idx send => Sys2Proof.Machine.execStakeCancel k idx send s
  | .stakeShow k idx => Sys2Proof.Machine.execStakeShow k idx s
  | .log k => Sys2Proof.Machine.execLog k s
  | .logRead k start count => Sys2Proof.Machine.execLogRead k start count s
  | .logPrev k start count => Sys2Proof.Machine.execLogPrev k start count s
  | .logClear k => Sys2Proof.Machine.execLogClear k s
  | .logFreeze k => Sys2Proof.Machine.execLogFreeze k s
  | .logThaw k => Sys2Proof.Machine.execLogThaw k s
  | .logMark k code => Sys2Proof.Machine.execLogMark k code s
  | .eventArrival dom evt sev args => Sys2Proof.Machine.execEventArrival dom evt sev args s
  | .flash k => Sys2Proof.Machine.execFlash k s
  | .flashOpt k => Sys2Proof.Machine.execFlashOpt k s
  | .flashOptSet k keys => Sys2Proof.Machine.execFlashOptSet k keys s
  | .flashUnlock k pwd => Sys2Proof.Machine.execFlashUnlock k pwd s
  | .flashLock k => Sys2Proof.Machine.execFlashLock k s
  | .flashProtect k first last state => Sys2Proof.Machine.execFlashProtect k first last state s
  | .flashPassword k pwd => Sys2Proof.Machine.execFlashPassword k pwd s
  | .flashScrub k region => Sys2Proof.Machine.execFlashScrub k region s
  | .flashFetch kind addr => Sys2Proof.Machine.execFlashFetch kind addr s
  | .wordProgramDone pulses pass => Sys2Proof.Machine.execWordProgramDone pulses pass s
  | .sectorEraseDone pulses pass => Sys2Proof.Machine.execSectorEraseDone pulses pass s
  | .marginReadDone weak => Sys2Proof.Machine.execMarginReadDone weak s
  | .fw k => Sys2Proof.Machine.execFw k s
  | .fwMissing k start => Sys2Proof.Machine.execFwMissing k start s
  | .fwPutHdr k off data => Sys2Proof.Machine.execFwPutHdr k off data s
  | .fwPut k idx off data => Sys2Proof.Machine.execFwPut k idx off data s
  | .fwActivate k => Sys2Proof.Machine.execFwActivate k s
  | .fwAbort k => Sys2Proof.Machine.execFwAbort k s
  | .header src bytes => Sys2Proof.Machine.execHeader src bytes s
  | .splint src tag bytes => Sys2Proof.Machine.execSplint src tag bytes s
  | .domain k => Sys2Proof.Machine.execDomain k s
  | .domainEnable k d => Sys2Proof.Machine.execDomainEnable k d s
  | .domainDisable k d => Sys2Proof.Machine.execDomainDisable k d s
  | .domainDisableForce k d => Sys2Proof.Machine.execDomainDisableForce k d s
  | .domainSet k drain => Sys2Proof.Machine.execDomainSet k drain s
  | .resetWarm k => Sys2Proof.Machine.execResetWarm k s
  | .resetMgmt k => Sys2Proof.Machine.execResetMgmt k s
  | .diagLanes k => Sys2Proof.Machine.execDiagLanes k s
  | .diagNand k die => Sys2Proof.Machine.execDiagNand k die s
  | .diagTemp k => Sys2Proof.Machine.execDiagTemp k s
  | .diagSelftest k => Sys2Proof.Machine.execDiagSelftest k s
  | .auth k level => Sys2Proof.Machine.execAuth k level s
  | .authMac k level mac => Sys2Proof.Machine.execAuthMac k level mac s
  | .authLower k level => Sys2Proof.Machine.execAuthLower k level s
  | .authSecretWrap k level blob => Sys2Proof.Machine.execAuthSecretWrap k level blob s
  | .authSecretPlain k level blob => Sys2Proof.Machine.execAuthSecretPlain k level blob s
  | .session k => Sys2Proof.Machine.execSession k s
  | .sessionList k => Sys2Proof.Machine.execSessionList k s
  | .sessionSetEcho k on => Sys2Proof.Machine.execSessionSetEcho k on s
  | .sessionSetNotify k on => Sys2Proof.Machine.execSessionSetNotify k on s
  | .sessionSetIdle k limit => Sys2Proof.Machine.execSessionSetIdle k limit s
  | .sessionEnd k => Sys2Proof.Machine.execSessionEnd k s
  | .vbulkQualifyReached at11 => Sys2Proof.Machine.execVbulkQualifyReached at11 s
  | .dramAlert aHigh bHigh => Sys2Proof.Machine.execDramAlert aHigh bHigh s
  | .powerOnReset => Sys2Proof.Machine.execPowerOnReset s
  | .powerOnResetRelease => Sys2Proof.Machine.execPowerOnResetRelease s
  | .rcStable => Sys2Proof.Machine.execRcStable s
  | .aonInitDone => Sys2Proof.Machine.execAonInitDone s
  | .optionLoad => Sys2Proof.Machine.execOptionLoad s
  | .crystalConfirmed => Sys2Proof.Machine.execCrystalConfirmed s
  | .crystalTimeout => Sys2Proof.Machine.execCrystalTimeout s
  | .wardenParityError => Sys2Proof.Machine.execWardenParityError s
  | .bulkStable => Sys2Proof.Machine.execBulkStable s
  | .vbulkQualifyDrop => Sys2Proof.Machine.execVbulkQualifyDrop s
  | .holdLLow => Sys2Proof.Machine.execHoldLLow s
  | .vbulkDroop => Sys2Proof.Machine.execVbulkDroop s
  | .vddqDLow => Sys2Proof.Machine.execVddqDLow s
  | .vccqNLow => Sys2Proof.Machine.execVccqNLow s
  | .refclkLoss => Sys2Proof.Machine.execRefclkLoss s
  | .refclkReturn => Sys2Proof.Machine.execRefclkReturn s
  | .refclkLossLimit => Sys2Proof.Machine.execRefclkLossLimit s
  | .refclkAbsentBoot => Sys2Proof.Machine.execRefclkAbsentBoot s
  | .thermalShutdown => Sys2Proof.Machine.execThermalShutdown s
  | .vsbLoss => Sys2Proof.Machine.execVsbLoss s
  | .bootDomainsUp => Sys2Proof.Machine.execBootDomainsUp s
  | .headerCheck => Sys2Proof.Machine.execHeaderCheck s
  | .bodyCheck => Sys2Proof.Machine.execBodyCheck s
  | .firmwareStart => Sys2Proof.Machine.execFirmwareStart s
  | .provisioningDone => Sys2Proof.Machine.execProvisioningDone s
  | .hostDckAbsent => Sys2Proof.Machine.execHostDckAbsent s
  | .mapSnoopApply => Sys2Proof.Machine.execMapSnoopApply s
  | .burstDrainEnd => Sys2Proof.Machine.execBurstDrainEnd s
  | .closeEnd => Sys2Proof.Machine.execCloseEnd s
  | .switchEnd => Sys2Proof.Machine.execSwitchEnd s
  | .clockHandoverEnd => Sys2Proof.Machine.execClockHandoverEnd s
  | .portStartEnd => Sys2Proof.Machine.execPortStartEnd s
  | .firstGranule => Sys2Proof.Machine.execFirstGranule s
  | .parkWaitExpiry => Sys2Proof.Machine.execParkWaitExpiry s
  | .restoreWaitExpiry => Sys2Proof.Machine.execRestoreWaitExpiry s
  | .descriptorReloadDone => Sys2Proof.Machine.execDescriptorReloadDone s
  | .coverRecompute => Sys2Proof.Machine.execCoverRecompute s
  | .plaitStart => Sys2Proof.Machine.execPlaitStart s
  | .slotOpenToken => Sys2Proof.Machine.execSlotOpenToken s
  | .rimDwellExpiry => Sys2Proof.Machine.execRimDwellExpiry s
  | .eRemUpdate => Sys2Proof.Machine.execERemUpdate s
  | .eRemStale => Sys2Proof.Machine.execERemStale s
  | .endOfDischarge => Sys2Proof.Machine.execEndOfDischarge s
  | .hwFloorComparator => Sys2Proof.Machine.execHwFloorComparator s
  | .settleAutoStart => Sys2Proof.Machine.execSettleAutoStart s
  | .settleAutoStop => Sys2Proof.Machine.execSettleAutoStop s
  | .streamStart => Sys2Proof.Machine.execStreamStart s
  | .streamEnd => Sys2Proof.Machine.execStreamEnd s
  | .zeroFillEnd => Sys2Proof.Machine.execZeroFillEnd s
  | .handbackDataEnd => Sys2Proof.Machine.execHandbackDataEnd s
  | .handbackRefreshEnd => Sys2Proof.Machine.execHandbackRefreshEnd s
  | .modeReplayDone => Sys2Proof.Machine.execModeReplayDone s
  | .handbackSreDone => Sys2Proof.Machine.execHandbackSreDone s
  | .handbackRelease => Sys2Proof.Machine.execHandbackRelease s
  | .handbackReady => Sys2Proof.Machine.execHandbackReady s
  | .watchdogKick => Sys2Proof.Machine.execWatchdogKick s
  | .watchdogExpiry => Sys2Proof.Machine.execWatchdogExpiry s
  | .deferredActivation => Sys2Proof.Machine.execDeferredActivation s
  | .chgPrechargeDone => Sys2Proof.Machine.execChgPrechargeDone s
  | .chgCvEntry => Sys2Proof.Machine.execChgCvEntry s
  | .chargeEnd => Sys2Proof.Machine.execChargeEnd s
  | .chgRecharge => Sys2Proof.Machine.execChgRecharge s
  | .cellOv => Sys2Proof.Machine.execCellOv s
  | .preTimeout => Sys2Proof.Machine.execPreTimeout s
  | .chgTimeout => Sys2Proof.Machine.execChgTimeout s
  | .buck => Sys2Proof.Machine.execBuck s
  | .faultRetryExpiry => Sys2Proof.Machine.execFaultRetryExpiry s
  | .marginUpgradeHold => Sys2Proof.Machine.execMarginUpgradeHold s
  | .restAnchor => Sys2Proof.Machine.execRestAnchor s
  | .unanchored => Sys2Proof.Machine.execUnanchored s
  | .restRequest => Sys2Proof.Machine.execRestRequest s
  | .selfRestWindow => Sys2Proof.Machine.execSelfRestWindow s
  | .restWindowEnd => Sys2Proof.Machine.execRestWindowEnd s
  | .packRecordWrite => Sys2Proof.Machine.execPackRecordWrite s
  | .sensefailRequalify => Sys2Proof.Machine.execSensefailRequalify s
  | .rateCandidateTimeout => Sys2Proof.Machine.execRateCandidateTimeout s
  | .dataRateTimeout => Sys2Proof.Machine.execDataRateTimeout s
  | .busIntegrated => Sys2Proof.Machine.execBusIntegrated s
  | .frameTxDone => Sys2Proof.Machine.execFrameTxDone s
  | .arbitrationLost => Sys2Proof.Machine.execArbitrationLost s
  | .busoffRecoveryPolicy => Sys2Proof.Machine.execBusoffRecoveryPolicy s
  | .busoffRecoveryDone => Sys2Proof.Machine.execBusoffRecoveryDone s
  | .rxdStuck => Sys2Proof.Machine.execRxdStuck s
  | .beaconTimer => Sys2Proof.Machine.execBeaconTimer s
  | .bwCtrlQ1Flush => Sys2Proof.Machine.execBwCtrlQ1Flush s
  | .bwQ1ovfClear => Sys2Proof.Machine.execBwQ1ovfClear s
  | .rstdaa => Sys2Proof.Machine.execRstdaa s
  | .getpid => Sys2Proof.Machine.execGetpid s
  | .getbcr => Sys2Proof.Machine.execGetbcr s
  | .getdcr => Sys2Proof.Machine.execGetdcr s
  | .getstatus => Sys2Proof.Machine.execGetstatus s
  | .followUpTimeout => Sys2Proof.Machine.execFollowUpTimeout s
  | .syncLoss => Sys2Proof.Machine.execSyncLoss s
  | .keeperElectionTimeout => Sys2Proof.Machine.execKeeperElectionTimeout s
  | .keeperSyncTimer => Sys2Proof.Machine.execKeeperSyncTimer s
  | .warpStep => Sys2Proof.Machine.execWarpStep s
  | .warpGuardCrossing => Sys2Proof.Machine.execWarpGuardCrossing s
  | .warpCountSave => Sys2Proof.Machine.execWarpCountSave s
  | .frameBoundaryTableSwitch => Sys2Proof.Machine.execFrameBoundaryTableSwitch s
  | .bucketTick => Sys2Proof.Machine.execBucketTick s
  | .freezeLeaseExpiry => Sys2Proof.Machine.execFreezeLeaseExpiry s
  | .cflOperationTimeout => Sys2Proof.Machine.execCflOperationTimeout s
  | .receiptTimer => Sys2Proof.Machine.execReceiptTimer s
  | .imageVerificationDone => Sys2Proof.Machine.execImageVerificationDone s
  | .frameSof => Sys2Proof.Machine.execFrameSof s
  | .vsbPowerUp => Sys2Proof.Machine.execVsbPowerUp s

end Sys2Proof.Machine
end

