-- ==== Sys2Proof/Machine/Idle.lean ====
section
/-! DEFINITION. What a step does on an empty queue: one microsecond of the AON timebase passes (assumption log entries 1 and 2). -/

namespace Sys2Proof.Machine

/-- The warp count over one microsecond of the local base with its trim (R259, R262); it counts from 0 at the warden reset until BOOT
has set it (R266, R328). -/
def tickWarp (s : State) : State :=
  let total := ((s.warp.frac : ℤ) + 1000000000 + s.warp.trim).toNat
  setWarp s (fun w => { w with
    ns := w.ns + total / 1000000, frac := total % 1000000
    growthFs := if w.state = .keeper then 0 else w.growthFs + growthRate s })

/-- MAP's own copy of E_rem while the firmware's values stay away (R215): E_fix at the rate of 0.12 s. -/
def tickEnergy (s : State) : State :=
  if s.aon.hold = .save ∧ s.map.eStale = true then { s with map := { s.map with eRem := s.map.eRem - s.map.eFix / 120000 } } else s

/-- The console's bytes are out, and HP's parity alert ends (R88). -/
def tickPins (s : State) : State :=
  setSes { s with pins := { s.pins with parityAlert := false } } 0 (fun q => { q with out := [] })

/-- A session executes its next waiting line, or writes its notices (R291, R300). -/
def tickSession (s : State) (k : Sess) : State := drainNotices (runQueued s k) k

/-- The counts of AON, which run from the release of the power-on reset (R70, R328). -/
def tickAon (s : State) : State := tickWarp { s with aon := { s.aon with us := s.aon.us + 1 } }

/-- The sessions in the order in which requests of one AON clock are taken: the sideband pipes before the verb sessions, these by number
(R110). -/
def sessionOrder : List Sess := [5, 6, 0, 1, 2, 3, 4]

/-- One microsecond. Until the warden has loaded the options only AON's counts run (R70). -/
def idle (s : State) : State :=
  if s.aon.por = .asserted then s
  else if s.aon.por ≠ .up then tickAon s
  else sessionOrder.foldl tickSession (serveQ0 (tickPins (tickEnergy (tickAon s))))

end Sys2Proof.Machine
end

