-- ==== Sys2Proof/WellFormed.lean ====
section
/-! DEFINITION. Which commands bring all that their rule needs. Most operands admit every value, since the device itself judges
them (R289, R298); five commands bring data from outside that a bus or a pack produces in full. `exec` runs the others too: what is
missing is a free value there (assumption log entry 7). -/

namespace Sys2Proof

open Sys2Proof.Machine in
/-- A command whose operands the outside can produce: a front-end conversion has at least one cell voltage
(R206, R211), and a frame's data have the length of its DLC (R224, ISO 11898-1). -/
def wellFormed : Instr → Bool
  | .estimatorStep sample _ _ => sample.cells ≠ []
  | .wardenPackSample sample _ => sample.cells ≠ []
  | .impedanceProbe after => after ≠ []
  | .polarisationProbe after2s => after2s ≠ []
  | .frameReceived form frame _ => frameOk form frame || form = .remote
  | .crystalRecheck .. | .drstL .. | .tjAlarm .. | .tjAlarmEnd .. | .hpReady .. | .rootAndSelftests .. |
    .imageDerivation .. | .provisioningStart .. | .act .. | .wr .. | .wra .. | .wrp .. | .wrpa .. | .rd .. | .rda .. |
    .preab .. | .presb .. | .prepb .. | .refab .. | .refsb .. | .rfmab .. | .rfmsb .. | .sre .. | .srx .. | .pde .. |
    .pdx .. | .mrw .. | .rcdControlWordWrite .. | .mrr .. | .mpc .. | .vrefca .. | .vrefcs .. | .nop .. | .des .. |
    .caParityError .. | .portRetrainDone .. | .strandLoadDone .. | .strandProgramDone .. | .dieTimeout .. |
    .dieResetRetry .. | .tailDone .. | .rimProgramDone .. | .rimMarginReadDone .. | .foldProgramDone .. |
    .foldMarginReadDone .. | .blockEraseDone .. | .nandReadDone .. | .restoreLoadDone .. | .flitSend .. |
    .flitArrival .. | .creditReturn .. | .pllLock .. | .domainUp .. | .domainPowerFail .. | .drainComplete .. |
    .drainLimitExpiry .. | .keyZeroize .. | .keyStoreWriteDone .. | .oldCopyEraseDone .. | .packPresenceChange .. |
    .packEepromRead .. | .chgPause .. | .chgResume .. | .busError .. | .reassemblyGap .. | .bwCtrlWinEn .. |
    .bwIrqClear .. | .bwRelease .. | .q1EntryRead .. | .txctlRequest .. | .txctlCancel .. | .bridgeRegisterWrite .. |
    .entdaa .. | .setnewda .. | .hsdaMismatch .. | .sync .. | .followUp .. | .keeperAnnounce .. | .slotTable .. |
    .stakeSetFrame .. | .stakeCancelFrame .. | .restRequestFrame .. | .stakeFire .. | .consoleCharacter .. |
    .pipeInWrite .. | .pipeOutRead .. | .pipeCtrlFlush .. | .pipeCtrlOvfClr .. | .tunnelRequest .. |
    .sessionIdleExpiry .. | .nonceExpiry .. | .status .. | .park .. | .parkCancel .. | .parkSet .. | .restore .. |
    .restoreCancel .. | .restoreDiscard .. | .restoreReport .. | .settleStart .. | .settleStop .. | .settleSet .. |
    .tenantRangeAdd .. | .tenantRangeDel .. | .tenantRangeList .. | .tenantCommit .. | .tenantDiscard .. |
    .tenantSet .. | .tenantEnable .. | .tenantDisable .. | .tenantShow .. | .keyOwner .. | .keyLoad .. | .keyGen .. |
    .keyErase .. | .keyShow .. | .map .. | .mapGeometry .. | .mapGranule .. | .mapCoord .. | .mapCoordGidx .. |
    .mapProfile .. | .mapProfileCommit .. | .mapProvision .. | .bat .. | .batSet .. | .batClear .. | .batRest .. |
    .batOcvload .. | .batOcvloadCommit .. | .batTable .. | .bus .. | .busFilter .. | .busRecover .. |
    .busRedetect .. | .busFlush .. | .busSet .. | .warp .. | .warpSet .. | .warpTable .. | .warpTableActive .. |
    .stakeSet .. | .stakeCancel .. | .stakeShow .. | .log .. | .logRead .. | .logPrev .. | .logClear .. |
    .logFreeze .. | .logThaw .. | .logMark .. | .eventArrival .. | .flash .. | .flashOpt .. | .flashOptSet .. |
    .flashUnlock .. | .flashLock .. | .flashProtect .. | .flashPassword .. | .flashScrub .. | .flashFetch .. |
    .wordProgramDone .. | .sectorEraseDone .. | .marginReadDone .. | .fw .. | .fwMissing .. | .fwPutHdr .. |
    .fwPut .. | .fwActivate .. | .fwAbort .. | .header .. | .splint .. | .domain .. | .domainEnable .. |
    .domainDisable .. | .domainDisableForce .. | .domainSet .. | .resetWarm .. | .resetMgmt .. | .diagLanes .. |
    .diagNand .. | .diagTemp .. | .diagSelftest .. | .auth .. | .authMac .. | .authLower .. | .authSecretWrap .. |
    .authSecretPlain .. | .session .. | .sessionList .. | .sessionSetEcho .. | .sessionSetNotify .. |
    .sessionSetIdle .. | .sessionEnd .. | .vbulkQualifyReached .. | .dramAlert .. | .powerOnReset |
    .powerOnResetRelease | .rcStable | .aonInitDone | .optionLoad | .crystalConfirmed | .crystalTimeout |
    .wardenParityError | .bulkStable | .vbulkQualifyDrop | .holdLLow | .vbulkDroop | .vddqDLow | .vccqNLow |
    .refclkLoss | .refclkReturn | .refclkLossLimit | .refclkAbsentBoot | .thermalShutdown | .vsbLoss |
    .bootDomainsUp | .headerCheck | .bodyCheck | .firmwareStart | .provisioningDone | .hostDckAbsent |
    .mapSnoopApply | .burstDrainEnd | .closeEnd | .switchEnd | .clockHandoverEnd | .portStartEnd | .firstGranule |
    .parkWaitExpiry | .restoreWaitExpiry | .descriptorReloadDone | .coverRecompute | .plaitStart | .slotOpenToken |
    .rimDwellExpiry | .eRemUpdate | .eRemStale | .endOfDischarge | .hwFloorComparator | .settleAutoStart |
    .settleAutoStop | .streamStart | .streamEnd | .zeroFillEnd | .handbackDataEnd | .handbackRefreshEnd |
    .modeReplayDone | .handbackSreDone | .handbackRelease | .handbackReady | .watchdogKick | .watchdogExpiry |
    .deferredActivation | .chgPrechargeDone | .chgCvEntry | .chargeEnd | .chgRecharge | .cellOv | .preTimeout |
    .chgTimeout | .buck | .faultRetryExpiry | .marginUpgradeHold | .restAnchor | .unanchored | .restRequest |
    .selfRestWindow | .restWindowEnd | .packRecordWrite | .sensefailRequalify | .rateCandidateTimeout |
    .dataRateTimeout | .busIntegrated | .frameTxDone | .arbitrationLost | .busoffRecoveryPolicy |
    .busoffRecoveryDone | .rxdStuck | .beaconTimer | .bwCtrlQ1Flush | .bwQ1ovfClear | .rstdaa | .getpid | .getbcr |
    .getdcr | .getstatus | .followUpTimeout | .syncLoss | .keeperElectionTimeout | .keeperSyncTimer | .warpStep |
    .warpGuardCrossing | .warpCountSave | .frameBoundaryTableSwitch | .bucketTick | .freezeLeaseExpiry |
    .cflOperationTimeout | .receiptTimer | .imageVerificationDone | .frameSof | .vsbPowerUp => true

end Sys2Proof
end

