-- ==== Sys2Proof/Safety.lean ====
section
/-! DEFINITION. What counts as a safe run, and the terms that the statements use. -/

namespace Sys2Proof.Machine

/-- The code-flash array stands in its canonical form: word indices strictly rising, no erased word listed. -/
def FlashCanonical (s : State) : Prop := flashWf s.cfl.words = true

/-- Every waiting command is one that the outside can produce. -/
def QueueWellFormed (s : State) : Prop := ∀ c ∈ s.pending, Sys2Proof.wellFormed c = true

/-- A safe step answers a next state. -/
def StepSafe (s : State) : Prop := ∃ t, step s = .next t

/-- The command `c` in the state `s` answers a next state, and that state has the property `p`. -/
def Completes (c : Instr) (s : State) (p : State → Prop) : Prop := ∃ t, exec c s = .next t ∧ p t

/-- A session executes a line at once: it is open, no verb of its own runs and its output has room, no line waits ahead, and the full
firmware answers (R80, R283, R300). -/
def lineReady (s : State) (k : Sess) : Bool :=
  (getSes s k).isOpen && !stalled s k && decide ((getSes s k).queue = []) && !recovering s

/-- A verb's level and states are met (R295, R305). -/
def mayRun (s : State) (k : Sess) (need : Priv) (states : List HoldState) : Bool :=
  lineReady s k && decide (need.rank ≤ (getSes s k).priv.rank) && decide (s.aon.hold ∈ states)

/-- The session's last response line. -/
def Said (t : State) (k : Sess) (l : Line) : Prop := (getSes t k).resp = some l

/-- The state `t` is `s` after the session `k` has got the response line `l`: the line is the session's last response and stands in its
output path (the console's, with the prompt where echo is on, the pipe's buffer, or the tunnel's frames), and nothing else differs
(R281, R282, R284, R289). -/
def Answered (s t : State) (k : Sess) (l : Line) : Prop :=
  Said t k l ∧
  (isTunnel k = false → t.shb.fifo = s.shb.fifo ∧ t.mg.txFeed = s.mg.txFeed ∧ (getSes t k).out = (getSes s k).out ++ l.bytes ++
    (if isPipe k = true then [0x0A] else [0x0D, 0x0A] ++ consolePrompt (getSes s k))) ∧
  (isPipe k = false → t.i3c.ibi = s.i3c.ibi) ∧
  t = { s with
    mg := { s.mg with
      ses := upd s.mg.ses k (fun q => { q with
        curLseq := (getSes t k).curLseq, resp := some l, out := (getSes t k).out, lastLseq := (getSes t k).lastLseq
        lastResp := (getSes t k).lastResp })
      txFeed := t.mg.txFeed }
    shb := { s.shb with fifo := t.shb.fifo }
    i3c := { s.i3c with ibi := t.i3c.ibi } }

/-- Every word of the code flash reads as before (R353). -/
def SameFlash (s t : State) : Prop := ∀ w, wordAt t w = wordAt s w

/-- Every granule of the DRAM holds what it held (R16). -/
def SameDram (s t : State) : Prop := ∀ g, t.nand.dram.get g = s.nand.dram.get g

/-- The snoop records on their way from HP to MAP, oldest first: those in the flits of lane 0, then those in HP's buffer (R90). -/
def snoopsOnTheWay (s : State) : List Snoop :=
  ((laneOf s 0).queue ++ (laneOf s 0).flight).flatMap (fun f => match f.payload with
    | .snoop l => l
    | _ => []) ++ s.hp.snoop

end Sys2Proof.Machine
end

