-- ==== Sys2Proof/Certificates/Slice0/Obligations.lean ====
section
/-! DEFINITION. The statements for the provers: what the commands and the machine do, by the rules of the spec. -/

open Sys2Proof Sys2Proof.Machine

/-- For every command c, queue rest and state s: step of s with c in front of rest is exec of c on s with the queue rest. The queue itself is the model's (log entry 1). (95_what_each_step_holds.md) -/
def Obligations.StepRunsTheFrontCommand : Prop :=
  ∀ (c : Instr) (rest : List Instr) (s : State),
    step { s with pending := c :: rest } = exec c { s with pending := rest }

/-- Whatever command runs, the commands that wait behind it are the same afterwards, so commands take effect first in, first out. The queue is the model's (log entry 1). (95_what_each_step_holds.md) -/
def Obligations.EveryCommandTakesTheQueueAsItIs : Prop :=
  ∀ (c : Instr) (s t : State), exec c s = .next t → t.pending = s.pending

/-- With nothing waiting, a step answers a next state; with the power-on reset asserted nothing changes, and from its release until the options are loaded only AON's microsecond count and the warp count run. That an empty queue is one microsecond is the model's choice (log entry 2). (R70, R262, R328) -/
def Obligations.EmptyQueueIsOneMicrosecond : Prop :=
  (∀ s : State, s.pending = [] → step s = .next (idle s)) ∧
  (∀ s : State, s.pending = [] → s.aon.por = .asserted → step s = .next s) ∧
  (∀ s : State, s.pending = [] → s.aon.por ≠ .asserted → s.aon.por ≠ .up →
    ∃ t, step s = .next t ∧ t.aon = { s.aon with us := s.aon.us + 1 } ∧
      t.warp.ns = s.warp.ns + (((s.warp.frac : ℤ) + 1000000000 + s.warp.trim).toNat) / 1000000 ∧
      t.log = s.log ∧ t.pins = s.pins ∧ t.doms = s.doms ∧ t.hp = s.hp ∧ t.map = s.map ∧ t.nand = s.nand ∧ t.rst = s.rst ∧
      t.ten = s.ten ∧ t.bat = s.bat ∧ t.shb = s.shb ∧ t.mg = s.mg ∧ t.cfl = s.cfl ∧ t.store = s.store ∧ t.i3c = s.i3c ∧
      t.pending = [])

/-- For every state and every command, with whatever operands, exec answers a next state, and so does step on every state: nothing stops the block. Where a conversion or a frame brings less than it should, the model takes free values for what is missing (log entry 7). (95_what_each_step_holds.md) -/
def Obligations.EveryCommandAnswersANextState : Prop :=
  (∀ (c : Instr) (s : State), ∃ t, exec c s = .next t) ∧ (∀ s : State, ∃ t, step s = .next t)

/-- For every state whose code-flash words stand in canonical form (word indices strictly rising, no erased word listed), and every next state that step answers, the words stand in canonical form again: whatever command runs, programming, erasing, interrupted operations and executed Gehel lines among them. (R353, R355, R364) -/
def Obligations.FlashStaysCanonical : Prop :=
  ∀ s t : State, FlashCanonical s → step s = .next t → FlashCanonical t

/-- The invariant of FlashStaysCanonical holds at State.reset. (R353, R361) -/
def Obligations.ResetFlashIsCanonical : Prop :=
  FlashCanonical State.reset

/-- With the power-on reset asserted the hold state reads DARK with READY and ARMED 0, no image relation and no continuity, and the cause of the reset is POWER_ON; no domain but D00 is on and the run-time disable mask is clear; the log, the dirty map's owner, every session, stake and mailbox are empty. The option values are the factory column, a node ID of 0x3FF among them. The remaining reset values are the model's (log entries 3, 5 and 6). (R31, R36, R40, R43, R54, R72, R110, R121, R132, R281, R282, R283) -/
def Obligations.ResetValuesOfTheSpec : Prop :=
  State.reset.aon.hold = .dark ∧ holdByte State.reset = 0x00 ∧ State.reset.aon.img = .none ∧ State.reset.aon.cont = false ∧
  State.reset.aon.rst = .powerOn ∧ State.reset.aon.boots = 0 ∧
  (∀ d : Dom, (domOf State.reset d).mode = if d = 0 then .on else .off) ∧ (∀ d : Dom, State.reset.aon.runDisable[d.val] = false) ∧
  State.reset.log.entries = [] ∧ State.reset.log.seq = 0 ∧
  State.reset.aon.opt.nodeId = 0x3FF ∧ State.reset.aon.opt.join = 1 ∧ State.reset.aon.opt.fallback = true ∧
  State.reset.aon.opt.enN = 0xFF ∧ State.reset.aon.opt.enShb = true ∧ State.reset.aon.opt.enChg = true ∧
  State.reset.aon.opt.anonOk = true ∧ State.reset.aon.opt.ichg = 5 ∧
  (∀ k : Sess, (getSes State.reset k).isOpen = false) ∧ (∀ i : Fin 64, State.reset.warp.stakes[i.val].state = .empty) ∧
  (∀ n : Fin 16, State.reset.shb.mbox[n.val].status = .empty) ∧ State.reset.shb.mode = .off ∧ State.reset.bat.chg = .off ∧
  State.reset.i3c.dyn = none ∧ State.reset.pending = []

/-- POWER_ON_RESET, WARDEN_PARITY_ERROR and THERMAL_SHUTDOWN leave AON, the event recorder, every domain and every lane as after reset, drop the host path, the sessions and the dynamic address, and keep what is non-volatile: the NAND's groups, rims, layers and strand tags, the tenant map, the firmware headers and, with no code-flash operation under way, every word of the code flash; the supplies' levels stay as the outside sets them. The values after reset that the spec does not give are the model's (log entry 3). (R40, R63, R70, R430) -/
def Obligations.PowerOnResetClearsAon : Prop :=
  ∀ c ∈ [Instr.powerOnReset, .wardenParityError, .thermalShutdown], ∀ s : State,
    Completes c s fun t =>
      t.aon = State.reset.aon ∧ t.log = State.reset.log ∧ t.doms.dom = State.reset.doms.dom ∧ t.doms.lanes = State.reset.doms.lanes ∧
      t.hp = State.reset.hp ∧ t.mg.ses = State.reset.mg.ses ∧ t.i3c.dyn = none ∧ t.warp.state = .none ∧
      t.nand.groups = s.nand.groups ∧ t.nand.rims = s.nand.rims ∧ t.nand.layers = s.nand.layers ∧ t.nand.tags = s.nand.tags ∧
      t.ten.map = s.ten.map ∧ t.ten.blobs = s.ten.blobs ∧ t.store.hdrA = s.store.hdrA ∧ t.store.hdrB = s.store.hdrB ∧
      (currentOp s = none → SameFlash s t) ∧ t.pins.bulk = s.pins.bulk ∧ t.pins.vsb = s.pins.vsb ∧ t.pins.refclk = s.pins.refclk

/-- POWER_ON_RESET_RELEASE starts the RC, RC_STABLE starts the AON init, AON_INIT_DONE opens a life of the recorder whose one entry is LIFE at SEQ 0 with the reset cause, OPTION_LOAD ends the load and makes T1 to DARK. Each changes only the phase and what is named. (R31, R70, R331, R332) -/
def Obligations.WardenResetPhases : Prop :=
  (∀ s : State, s.aon.por = .asserted → exec .powerOnResetRelease s =
    .next { s with pins := { s.pins with vaon := true }, aon := { s.aon with por := .rcStart } }) ∧
  (∀ s : State, s.aon.por = .rcStart → exec .rcStable s = .next { s with aon := { s.aon with por := .aonInit } }) ∧
  (∀ s : State, s.aon.por = .aonInit → Completes .aonInitDone s fun t =>
    t.aon = { s.aon with por := .optionLoad, retryEnd := t.aon.retryEnd } ∧
    t.log.entries.map (fun e => (e.seq, e.dom, e.ev, e.args)) = [(0, 0, .named .life, mkArgs s.aon.rst.code 0 0 0)] ∧
    t.log.seq = 1 ∧ t.log.epoch = 0 ∧ t.pins = s.pins ∧ t.doms = s.doms ∧ t.nand = s.nand ∧ t.cfl = s.cfl ∧ t.mg = s.mg) ∧
  (∀ s : State, s.aon.por = .optionLoad → Completes .optionLoad s fun t =>
    t.aon.por = .up ∧ t.aon.hold = .dark ∧ t.pins = s.pins ∧ t.nand = s.nand ∧ t.map = s.map ∧ t.ten = s.ten ∧ t.hp = s.hp)

/-- After the RC is stable the crystal is confirmed, or fails after 2 s with an event; a later pass clears the fault, and a recheck that fails changes nothing. At 105 degrees or above the Tj alarm begins with an event; it ends when Tj has read 100 degrees or below. VSB_LOSS clears the dynamic address and the reply, drops only partial pipe input, and leaves the pipes' queues; VSB_POWER_UP raises the level and draws a new instance value. DRAM_ALERT sets the two levels. DRST_L while READY is 0 is not forwarded; at its high level with READY 1 the DRAM resets rise; at its low level with READY 1 they fall, the RCD control words, the capture set, the open rows and continuity clear, and TRACK falls to NONE while any other relation stays; the log does not change where the relation was not TRACK. (R70, R84, R86, R246, R388, R401, R408, R414, R430) -/
def Obligations.CrystalTemperatureVsbAndDramPins : Prop :=
  (∀ s : State, xtalStarted s = true → s.aon.xtal = .pending →
    exec .crystalConfirmed s = .next { s with aon := { s.aon with xtal := .ok } }) ∧
  (∀ s : State, xtalStarted s = true → s.aon.xtal = .pending →
    exec .crystalTimeout s = .next (logEv { s with aon := { s.aon with xtal := .fail } } 0 .xtalFail)) ∧
  (∀ s : State, s.aon.xtal = .fail → exec (.crystalRecheck true) s = .next { s with aon := { s.aon with xtal := .ok } }) ∧
  (∀ s : State, exec (.crystalRecheck false) s = .next s) ∧
  (∀ (d : ℤ) (s : State), 105 ≤ d → s.aon.tjHigh = false →
    exec (.tjAlarm d) s = .next (logEv { s with aon := { s.aon with tj := d, tjHigh := true } } 0 .tjHigh d.toNat)) ∧
  (∀ (d : ℤ) (s : State), d ≤ 100 →
    exec (.tjAlarmEnd d) s = .next { s with aon := { s.aon with tj := d, tjHigh := false } }) ∧
  (∀ s : State, Completes .vsbLoss s fun t =>
    t.pins = { s.pins with vsb := false } ∧ t.i3c.dyn = none ∧ t.i3c.reply = [] ∧ t.i3c.instance_ = s.i3c.instance_ ∧
    (∀ k : Sess, (getSes t k).queue = (getSes s k).queue ∧ (getSes t k).out = (getSes s k).out ∧
      (getSes t k).line = if isPipe k = true then [] else (getSes s k).line) ∧
    t.aon = s.aon ∧ t.log = s.log ∧ t.nand = s.nand ∧ t.cfl = s.cfl ∧ t.shb = s.shb) ∧
  (∀ s : State, s.pins.vsb = false → Completes .vsbPowerUp s fun t =>
    t.pins = { s.pins with vsb := true } ∧ t.i3c = { s.i3c with instance_ := t.i3c.instance_ } ∧ t.aon = s.aon ∧ t.mg = s.mg ∧
    t.log = s.log ∧ t.nand = s.nand ∧ t.cfl = s.cfl) ∧
  (∀ (a b : Bool) (s : State), exec (.dramAlert a b) s = .next { s with pins := { s.pins with qalertA := a, qalertB := b } }) ∧
  (∀ (h : Bool) (s : State), ready s = false → exec (.drstL h) s = .next { s with pins := { s.pins with drstHigh := h } }) ∧
  (∀ s : State, ready s = true → exec (.drstL true) s = .next { s with pins := { s.pins with drstHigh := true, qrstHigh := true } }) ∧
  (∀ s : State, ready s = true → Completes (.drstL false) s fun t =>
    t.pins = { s.pins with drstHigh := false, qrstHigh := false } ∧ t.aon.cont = false ∧ t.aon.hold = s.aon.hold ∧
    t.hp = { s.hp with rcd := [], training := [], capture := [], pda := [], enums := [], mrcapOvf := false, rows := [], selfRef := [] } ∧
    t.aon.img = (if s.aon.img = .track then .none else s.aon.img) ∧ t.nand.rims = s.nand.rims ∧ t.cfl = s.cfl ∧ t.warp = s.warp ∧
    (s.aon.img ≠ .track → t.log = s.log ∧ t.mg = s.mg ∧ t.map = s.map))

/-- VBULK_QUALIFY_REACHED and VBULK_QUALIFY_DROP set the level; in DARK and HELD the 200 ms start with the former and stop with the latter, and no hold state changes. BULK_STABLE in DARK or HELD, with the 200 ms under way on bulk, enters BOOT: the option load first, one more BOOT entry counted, no cause, no fault, the DRAM resets high exactly when continuity is set, BATSW_EN low, the capture set and the restore request cleared; the words of the code flash and the image stay. (R31, R52, R71, R76, R77, R82, R85, R407) -/
def Obligations.BulkSupplyEvents : Prop :=
  (∀ (b : Bool) (s : State), Completes (.vbulkQualifyReached b) s fun t =>
    t.pins = { s.pins with bulk := .qualified, bulk11 := b } ∧ t.aon.batEmpty = false ∧ t.aon.hold = s.aon.hold ∧ t.aon.img = s.aon.img ∧
    t.nand = s.nand ∧ t.cfl = s.cfl ∧ t.map = s.map ∧ t.hp = s.hp) ∧
  (∀ s : State, Completes .vbulkQualifyDrop s fun t =>
    t.pins = { s.pins with bulk := .low, bulk11 := false } ∧ t.aon.qualifying = false ∧ t.aon.hold = s.aon.hold ∧ t.aon.img = s.aon.img ∧
    t.nand = s.nand ∧ t.cfl = s.cfl ∧ t.map = s.map ∧ t.hp = s.hp) ∧
  (∀ s : State, s.aon.por = .up → (s.aon.hold = .dark ∨ s.aon.hold = .held) → s.pins.bulk = .qualified → s.aon.qualifying = true →
    Completes .bulkStable s fun t =>
      t.aon.hold = .boot ∧ t.aon.boots = s.aon.boots + 1 ∧ t.aon.boot.firmware = false ∧ t.aon.cause = .none ∧ t.aon.faults = [] ∧
      t.aon.img = s.aon.img ∧ t.aon.cont = s.aon.cont ∧ t.pins.qrstHigh = s.aon.cont ∧ t.pins.batsw = false ∧
      t.hp.capture = [] ∧ t.rst.req = none ∧ t.nand.rims = s.nand.rims ∧ t.nand.dram = s.nand.dram ∧ t.cfl.words = s.cfl.words)

/-- In SERVE with an image relation that is not PENDING and no provisioning, and in PARK, HOLD_L_LOW and VBULK_DROOP enter SAVE with their cause: the burst drain begins, ALERT_L is held low and BATSW_EN rises, continuity is set, the save covers the dirty granules as a full save exactly when the relation is NONE, settling stops, a waiting RESTORE request is dropped; the relation, the rims and the code flash stay. In PARK the superseded cause is kept. In SERVE with the relation PENDING and no provisioning (T8), HOLD_L_LOW and VBULK_DROOP enter HELD, and with provisioning under way DARK; in FAULT they enter HELD with the relation PENDING and DARK otherwise (T20); in BOOT HELD when the relation is PENDING or not yet derived, else DARK (T5); in RESTORE before its record has committed HELD (T17), and after that the handback ends and the commit of a SAVE record with GRANS = 0 begins. Every session ends, the firmware stops, BATSW_EN falls, and the rims and the relation stay. In SAVE HOLD_L only adds an event. What a restore's closing record carries beside GRANS, and that a later BOOT keeps an older derivation, are the model's (log entries 66 and 67). (R24, R27, R31, R42, R52, R88, R98, R109, R125, R175, R303, R407) -/
def Obligations.UnplannedTriggers : Prop :=
  (∀ p ∈ [(Instr.holdLLow, Cause.pin), (Instr.vbulkDroop, Cause.droop)], ∀ s : State,
    s.aon.por = .up →
    (s.aon.hold = .serve ∧ s.aon.img ≠ .pending ∧ s.nand.prov ≠ .running ∨ s.aon.hold = .park) →
    Completes p.1 s fun t =>
      t.aon.hold = .save ∧ t.aon.cause = p.2 ∧ t.aon.cont = true ∧ t.aon.img = s.aon.img ∧ t.hp.phase = .burstDrain ∧
      t.pins.alertHeld = true ∧ t.pins.batsw = true ∧ t.rst.req = none ∧ t.nand.settle.running = false ∧
      (∃ v, t.map.save = some v ∧ v.planned = false ∧ v.full = decide (s.aon.img = .none) ∧ v.phase = .takeover ∧ v.seq = topSeq s + 1 ∧
        v.open_ = [] ∧ v.done = []) ∧
      (s.aon.hold = .park → t.aon.superseded = some s.aon.cause) ∧ t.nand.rims = s.nand.rims ∧ t.nand.dram = s.nand.dram ∧
      t.cfl = s.cfl ∧ t.ten = s.ten) ∧
  (∀ p ∈ [(Instr.holdLLow, Cause.pin), (Instr.vbulkDroop, Cause.droop)], ∀ s : State, s.aon.por = .up →
    (s.aon.hold = .serve → s.aon.img = .pending → s.nand.prov ≠ .running → Completes p.1 s fun t => t.aon.hold = .held ∧
      t.aon.img = .pending ∧ t.nand.rims = s.nand.rims ∧ t.mg.running = false ∧ t.pins.batsw = false ∧ t.map.save = none ∧
      ∀ k, (getSes t k).isOpen = false) ∧
    (s.aon.hold = .serve → s.nand.prov = .running → Completes p.1 s fun t => t.aon.hold = .dark ∧ t.aon.img = s.aon.img ∧
      t.nand.rims = s.nand.rims ∧ t.mg.running = false ∧ t.pins.batsw = false ∧ ∀ k, (getSes t k).isOpen = false) ∧
    (s.aon.hold = .fault → Completes p.1 s fun t => t.aon.hold = (if s.aon.img = .pending then .held else .dark) ∧
      t.aon.img = s.aon.img ∧ t.nand.rims = s.nand.rims ∧ t.mg.running = false ∧ t.pins.batsw = false ∧
      ∀ k, (getSes t k).isOpen = false) ∧
    (s.aon.hold = .boot → Completes p.1 s fun t => t.aon.hold = (if s.aon.img = .pending ∨ s.aon.imgKnown = false then .held else .dark) ∧
      t.aon.img = s.aon.img ∧ t.nand.rims = s.nand.rims ∧ t.mg.running = false) ∧
    (∀ r : RestoreRun, s.aon.hold = .restore → s.rst.run = some r → (∀ j, s.nand.rimJob = some j → j.use ≠ .zeroSave) →
      (r.committed = none → Completes p.1 s fun t => t.aon.hold = .held ∧ t.aon.img = s.aon.img ∧ t.nand.rims = s.nand.rims ∧
        t.rst.run = none ∧ t.mg.running = false ∧ t.pins.batsw = false) ∧
      (r.committed.isSome = true → Completes p.1 s fun t => t.aon.hold = .restore ∧ t.hp.phase = .idle ∧ t.pins.batsw = true ∧
        t.nand.rims = s.nand.rims ∧ ∃ j, t.nand.rimJob = some j ∧ j.use = .zeroSave ∧ j.rim.type = .save ∧ j.rim.grans = 0 ∧
          j.rim.prevSeq = r.committed.getD 0 ∧ j.rim.cause = p.2)) ∧
    (s.aon.hold = .save → exec .holdLLow s = .next (logEv { s with aon := { s.aon with trigAt := some s.aon.us } } 0 .trigger 1)))

/-- VDDQ_D_LOW outside SAVE and RESTORE ends continuity with an event. VCCQ_N_LOW marks every powered NAND channel FAILED and touches no rim and, with no code-flash operation under way, no word of the code flash. REFCLK_LOSS makes the three PLLs lose lock; REFCLK_RETURN outside the FAULT of cause 9 brings the level back, and a PLL has lock exactly when it clocks a domain that is powered or coming up. REFCLK_LOSS_LIMIT ends a save through T13 (cause 10) and a restore through T18 (cause 11, the relation stays), and changes nothing in other states. REFCLK_ABSENT_BOOT ends BOOT in FAULT with cause 9, and cause 8 before it when HP failed its check, when VBULK has not drooped. (R24, R68, R86, R388, R415) -/
def Obligations.OtherSuppliesAndRefclk : Prop :=
  (∀ s : State, s.aon.hold ≠ .save → s.aon.hold ≠ .restore → Completes .vddqDLow s fun t =>
    t.aon = { s.aon with cont := false } ∧ t.nand.rims = s.nand.rims ∧ t.cfl = s.cfl ∧ t.pins = s.pins ∧ t.doms = s.doms ∧ t.map = s.map ∧
    t.mg = s.mg) ∧
  (∀ s : State, Completes .vccqNLow s fun t =>
    (∀ d : Dom, 12 ≤ d.val → (modeOf t d.val).powered = false) ∧ t.nand.rims = s.nand.rims ∧ (currentOp s = none → SameFlash s t)) ∧
  (∀ s : State, s.pins.refclk = true → exec .refclkLoss s = .next (logEv { s with
    pins := { s.pins with refclk := false }, doms := { s.doms with
      pllF := s.doms.pllF.unlock, pllM := s.doms.pllM.unlock, pllN := s.doms.pllN.unlock } } 0 .refclkStop)) ∧
  (∀ s : State, s.pins.refclk = false → ¬(s.aon.hold = .fault ∧ s.aon.boot.noRefclk = true) → Completes .refclkReturn s fun t =>
    t.pins = { s.pins with refclk := true } ∧ t.doms.dom = s.doms.dom ∧ t.doms.lanes = s.doms.lanes ∧
    (∀ p : Pll, pllOn t p = (allFin 20).any (fun d => decide (pllOf d = some p) && ((modeOf s d.val).powered || (domOf s d).enabling.isSome))) ∧
    t.aon = s.aon ∧ t.nand = s.nand ∧ t.cfl = s.cfl ∧ t.map = s.map) ∧
  (∀ s : State, s.pins.refclk = false → s.aon.hold ≠ .save → s.aon.hold ≠ .restore → exec .refclkLossLimit s = .next s) ∧
  (∀ s : State, s.pins.refclk = false → s.pins.bulk ≠ .droop → s.aon.hold = .save → Completes .refclkLossLimit s fun t =>
    t.aon.hold = .fault ∧ t.aon.faults = [.noRimCommit] ∧ t.aon.failedSave = true ∧ t.aon.cont = s.aon.cont ∧ t.map.save = none ∧
    t.nand.rims = s.nand.rims) ∧
  (∀ s : State, s.pins.refclk = false → s.pins.bulk ≠ .droop → s.aon.hold = .restore → Completes .refclkLossLimit s fun t =>
    t.aon.hold = .fault ∧ t.aon.faults = [.restore] ∧ t.aon.img = s.aon.img ∧ t.rst.run = none ∧ t.nand.rims = s.nand.rims) ∧
  (∀ s : State, s.aon.hold = .boot → s.pins.refclk = false → s.pins.bulk ≠ .droop → Completes .refclkAbsentBoot s fun t =>
    t.aon.hold = .fault ∧
    t.aon.faults = (if s.aon.boot.hpReady = true ∧ s.aon.hpOk = false then [.hpSelfcheck, .refclk] else [.refclk]) ∧
    t.aon.boot.noRefclk = true ∧ t.mg.running = false ∧ t.nand.rims = s.nand.rims ∧ t.cfl = s.cfl)

/-- In BOOT with REFCLK, BOOT_DOMAINS_UP turns on every domain that is enabled and not FAILED and leaves every other one off. HP_READY sets HP_OK and nothing that depends on the NAND. HEADER_CHECK and BODY_CHECK of the bank tried first pass it when its header and its digest hold, the latter making it the running bank with its fetch key; where they do not, with FALLBACK = 1, the boot ROM turns to the other bank. ROOT_AND_SELFTESTS records its outcomes, an invalid geometry word failing the MAP test. (R54, R78, R79, R81, R86, R92, R184, R346) -/
def Obligations.BootPhasesOfTheHardware : Prop :=
  (∀ s : State, s.aon.hold = .boot → s.aon.boot.domainsUp = false → s.pins.refclk = true → Completes .bootDomainsUp s fun t =>
    t.aon.boot = { s.aon.boot with domainsUp := true } ∧ t.aon.hold = .boot ∧ t.aon.img = s.aon.img ∧ t.cfl.words = s.cfl.words ∧
    t.nand = s.nand ∧ t.pins = s.pins ∧
    ∀ d : Dom, (domOf t d).mode = if (domOf s d).mode = .failed then .failed else if enabled s d = true then .on else .off) ∧
  (∀ (pass : Bool) (s : State), s.aon.hold = .boot → s.aon.boot.hpReady = false → (s.aon.boot.domainsUp = true ∨ s.pins.refclk = false) →
    exec (.hpReady pass) s = .next { s with
      aon := { s.aon with boot := { s.aon.boot with hpReady := true }, hpOk := pass }, hp := { s.hp with rcd := [] } }) ∧
  (∀ s : State, romRuns s = true → s.aon.boot.header = false → isOn s 3 = true → s.aon.boot.second = false → s.aon.opt.fallback = true →
    exec .headerCheck s = .next { s with aon := { s.aon with boot := (if bootHeaderOk s s.aon.boot.trying = true
      then { s.aon.boot with header := true }
      else { s.aon.boot with trying := otherBank s.aon.boot.trying, second := true, header := false }) } }) ∧
  (∀ s : State, romRuns s = true → s.aon.boot.header = true → s.aon.boot.body = false → isOn s 3 = true → s.aon.boot.second = false →
    s.aon.opt.fallback = true → Completes .bodyCheck s fun t =>
      (bodyDigestOk s s.aon.boot.trying = true → t = { s with
        cfl := { s.cfl with key := some s.aon.boot.trying },
        aon := { s.aon with boot := { s.aon.boot with body := true }, bank := s.aon.boot.trying, fwfb := false } }) ∧
      (bodyDigestOk s s.aon.boot.trying = false → t = { s with aon := { s.aon with
        boot := { s.aon.boot with trying := otherBank s.aon.boot.trying, second := true, header := false } } })) ∧
  (∀ (root xts map : Bool) (s : State), s.aon.hold = .boot → s.aon.boot.firmware = true → s.aon.boot.tests = false →
    exec (.rootAndSelftests root xts map) s = .next { s with aon := { s.aon with
      boot := { s.aon.boot with tests := true, rootOk := root, xtsOk := xts, mapOk := map && geoValid s.map.geom } } })

/-- After a body check that passed and with no activation to conclude, FIRMWARE_START makes the firmware run, arms the watchdog at the present time, opens S0, S5 and S6, and changes neither the hold state, nor the relation, nor the rims or the words of the code flash. (R78, R83, R279) -/
def Obligations.FirmwareStartOpensTheSessions : Prop :=
  ∀ s : State, romRuns s = true → s.aon.boot.body = true → s.aon.boot.firmware = false → s.aon.activated = false →
    Completes .firmwareStart s fun t =>
    t.mg.running = true ∧ t.mg.halted = false ∧ t.aon.boot.firmware = true ∧ t.aon.wdArmed = true ∧ t.aon.wdKick = s.aon.us ∧
    (∀ k : Sess, isTunnel k = false → (getSes t k).isOpen = true) ∧
    t.aon.hold = s.aon.hold ∧ t.aon.img = s.aon.img ∧ t.nand.rims = s.nand.rims ∧ t.cfl.words = s.cfl.words

/-- With BOOT's earlier phases ended and no droop, IMAGE_DERIVATION leaves BOOT for SERVE or FAULT with the relation known and the records that can be read: with none the relation is NONE; with a SAVE record on top whose tables pass it is PENDING on that record, stale exactly when the last save is known to have failed, with a clean dirty map; with a FORMAT or DISCARD record on top, or a RESTORED or FOLD record and no failed save, it is NONE. The code flash keeps every word. (R31, R44, R161, R162, R163, R393) -/
def Obligations.ImageDerivationEndsBoot : Prop :=
  ∀ (f : NandFacts) (s : State), s.aon.hold = .boot → s.aon.boot.tests = true → s.aon.boot.hpReady = true → s.mg.running = true →
    s.pins.bulk ≠ .droop → Completes (.imageDerivation f) s fun t =>
      (t.aon.hold = .serve ∨ t.aon.hold = .fault) ∧ t.aon.imgKnown = true ∧ t.cfl.words = s.cfl.words ∧
      t.nand.rims = (loadTables s f).nand.rims ∧
      ((loadTables s f).nand.rims = [] → t.aon.img = .none) ∧
      (∀ r l, (loadTables s f).nand.rims = r :: l →
        (r.type = .save → recordPasses (loadTables s f) f.badDirs f.badTables r = true → t.aon.img = .pending ∧
          t.nand.chosen = some r.seq ∧ t.map.dirty = [] ∧ t.aon.stale = failedSave { loadTables s f with aon := s.aon } f) ∧
        (r.type = .format ∨ r.type = .discard → t.aon.img = .none) ∧
        (r.type = .restored ∨ r.type = .fold → failedSave { loadTables s f with aon := s.aon } f = false → t.aon.img = .none))

/-- PROVISIONING_START on NAND without a factory table makes each group with a factory mark on a page that the profile names FACTORY_BAD and keeps the table; a group of the factory table stays bad. PROVISIONING_DONE, with two usable dies on different channels, drops the older records and layers and begins the commit of a FORMAT record, with which RIM_MARGIN_READ_DONE ends provisioning. The hold state and the code flash stay. (R141, R142, R152, R153) -/
def Obligations.ProvisioningMarksAndFormats : Prop :=
  (∀ (f : FirstFacts) (s : State), provisions s = true → s.nand.rimJob = none → s.nand.fbbt = false →
    Completes (.provisioningStart f) s fun t =>
      t.nand.prov = .running ∧ t.nand.fbbt = true ∧ t.aon = s.aon ∧ t.cfl = s.cfl ∧ t.nand.rims = s.nand.rims ∧
      (∀ m ∈ f.marks, Mark.bad s.nand.profile m = true → (groupOf t m.die m.block).role = .factoryBad) ∧
      (∀ d b, (groupOf s d b).role = .factoryBad → (groupOf t d b).role = .factoryBad)) ∧
  (∀ s : State, provisions s = true → s.nand.prov = .running → s.nand.fbbt = true → s.nand.rimJob = none →
    (∃ a b : Die, usable s a = true ∧ usable s b = true ∧ dieCh a ≠ dieCh b) → Completes .provisioningDone s fun t =>
      (∃ j, t.nand.rimJob = some j ∧ j.use = .formatRim ∧ j.rim.type = .format ∧ j.a.programmed = false ∧ j.b.programmed = false) ∧
      t.nand.rims = [] ∧ t.nand.layers = [] ∧ t.nand.prov = .running ∧ t.aon.hold = s.aon.hold ∧ t.cfl = s.cfl) ∧
  (∀ (j : RimJob) (a b : MarginRead) (s : State), s.nand.rimJob = some j → j.dwell = false → j.a.programmed = true → j.b.programmed = true →
    j.use = .formatRim → j.rim.type = .format → marginPasses s.nand.profile a = true → marginPasses s.nand.profile b = true →
    Completes (.rimMarginReadDone a b) s fun t =>
      t.nand.prov = .done ∧ (∃ r, t.nand.rims = r :: s.nand.rims ∧ r.type = .format ∧ r.seq = j.rim.seq) ∧ t.aon.hold = s.aon.hold ∧
      t.cfl = s.cfl)

/-- With the source's island clocked, FLIT_SEND on a lane that is UP, not halted, with a credit and nothing waiting, takes one credit and puts the flit in flight; without a credit the flit waits at the source; on a lane that is DOWN the source learns so at once, and a descriptor for a sink that drains is refused. A flit that arrives clean moves to the sink's queue; one that the check cannot correct arrives with POISON, is counted, and on the host's lane 0 sets every bit of the dirty map; a corrected one is counted. CREDIT_RETURN below the depth raises the counter when nothing waits, and takes off the queue the first flit on a POP lane, or on a DONE lane the one whose TAG its work carries; at the depth it halts the lane; while the source is not powered the queue drains without a counter. No other lane changes, but for the STAT flit that tells a DONE lane's source how its work ended. (R49, R50, R51, R57, R62, R69, R330, R436) -/
def Obligations.FlitsAndCredits : Prop :=
  (∀ (n : LaneId) (f : Flit) (s : State), runs s (laneSource n) = true → laneUp s n = true → (laneOf s n).halted = false →
    (laneOf s n).waiting = [] → 1 ≤ (laneOf s n).credits →
    (f.kind = .desc → modeOf s (laneEnds n).2 ≠ .draining ∧ modeOf s (laneEnds n).2 ≠ .stuck) →
    exec (.flitSend n f) s = .next (setLane s n (fun l =>
      { l with credits := l.credits - 1, flight := l.flight ++ [f], outcome := .sent }))) ∧
  (∀ (n : LaneId) (f : Flit) (s : State), runs s (laneSource n) = true → laneUp s n = true → (laneOf s n).credits = 0 → n.val < 69 →
    f.kind ≠ .desc → exec (.flitSend n f) s = .next (setLane s n (fun l => { l with waiting := l.waiting ++ [f], outcome := .waits }))) ∧
  (∀ (n : LaneId) (f : Flit) (s : State), runs s (laneSource n) = true →
    (laneUp s n = false ∨ f.kind = .desc ∧ n.val < 69 ∧ modeOf s (laneEnds n).2 = .draining) →
    exec (.flitSend n f) s = .next (setLane s n (fun l => { l with outcome := .refused }))) ∧
  (∀ (n : LaneId) (f : Flit) (rest : List Flit) (s : State), runs s (laneSink n) = true → (laneOf s n).flight = f :: rest → f.poison = false →
    exec (.flitArrival n .clean) s = .next (setLane s n (fun l => { l with flight := rest, queue := l.queue ++ [f] }))) ∧
  (∀ (n : LaneId) (f : Flit) (rest : List Flit) (s : State), runs s (laneSink n) = true → (laneOf s n).flight = f :: rest → f.poison = false →
    Completes (.flitArrival n .corrected) s fun t =>
      (laneOf t n).queue = (laneOf s n).queue ++ [f] ∧ (laneOf t n).corr = (laneOf s n).corr + 1 ∧
      (∀ m, m ≠ n → laneOf t m = laneOf s m) ∧ t.map = s.map ∧ t.nand = s.nand ∧ t.aon = s.aon) ∧
  (∀ (f : Flit) (rest : List Flit) (s : State), runs s 8 = true → (laneOf s 0).flight = f :: rest →
    Completes (.flitArrival 0 .uncorrectable) s fun t =>
      (laneOf t 0).queue = (laneOf s 0).queue ++ [{ f with poison := true }] ∧ (laneOf t 0).poison = (laneOf s 0).poison + 1 ∧
      t.map = { s.map with dirty := allGranules s } ∧ t.nand = s.nand ∧ t.aon = s.aon) ∧
  (∀ (n : LaneId) (g : BitVec 8) (h : WorkEnd) (s : State), runs s (laneSink n) = true → laneUp s n = true → (laneOf s n).halted = false →
    (laneOf s n).waiting = [] → (laneOf s n).credits < laneDepth n → (laneDone n = false ∨ statLane n = none) →
    exec (.creditReturn { lane := n, tag := g, how := h }) s = .next (setLane s n (fun l => { l with
      credits := l.credits + 1, queue := if laneDone n = true then l.queue.eraseP (fun f => decide (f.tag = g)) else l.queue.drop 1 }))) ∧
  (∀ (n b : LaneId) (g : BitVec 8) (h : WorkEnd) (s : State), runs s (laneSink n) = true → laneUp s n = true → (laneOf s n).halted = false →
    (laneOf s n).waiting = [] → (laneOf s n).credits < laneDepth n → laneDone n = true → statLane n = some b →
    (laneOf s n).queue.any (fun f => decide (f.tag = g)) = true → (laneOf s b).halted = false → (laneOf s b).waiting = [] →
    1 ≤ (laneOf s b).credits → Completes (.creditReturn { lane := n, tag := g, how := h }) s fun t =>
      (laneOf t n).credits = (laneOf s n).credits + 1 ∧
      (laneOf t b).flight = (laneOf s b).flight ++ [{ kind := .stat, last := true, poison := false, tag := g, payload := .outcome h }] ∧
      (∀ m, m ≠ n → m ≠ b → laneOf t m = laneOf s m) ∧ t.aon = s.aon ∧ t.nand = s.nand) ∧
  (∀ (n : LaneId) (g : BitVec 8) (h : WorkEnd) (s : State), runs s (laneSink n) = true → laneUp s n = false → (laneOf s n).halted = false →
    laneDone n = false → exec (.creditReturn { lane := n, tag := g, how := h }) s =
      .next (setLane s n (fun l => { l with queue := l.queue.drop 1 }))) ∧
  (∀ (n : LaneId) (g : BitVec 8) (h : WorkEnd) (s : State), runs s (laneSink n) = true → laneUp s n = true → (laneOf s n).halted = false →
    (laneOf s n).credits = laneDepth n → coreSaveLane n = false → Completes (.creditReturn { lane := n, tag := g, how := h }) s fun t =>
      laneOf t n = { laneOf s n with halted := true } ∧ (∀ m, m ≠ n → laneOf t m = laneOf s m) ∧ t.aon = s.aon ∧ t.nand = s.nand)

/-- PLL_LOCK gives lock to the PLL of a domain that is up or coming up. DOMAIN_UP of a domain that is being enabled, with its PLL locked, makes it ON, takes it out of the run-time disable mask and ends the enable. DOMAIN_POWER_FAIL of an optional domain that is on or coming up marks it FAILED. DRAIN_COMPLETE of an empty draining domain gates it (D05 to RET, every other to OFF) and puts it in the run-time disable mask. DRAIN_LIMIT_EXPIRY makes a draining domain STUCK. None touches a rim record or, with no code-flash operation under way, a word of the code flash. (R48, R54, R55, R56, R57, R58, R66, R67, R330) -/
def Obligations.DomainsComeUpAndGoDown : Prop :=
  (∀ (p : Pll) (s : State), s.pins.refclk = true → (∃ d : Dom, pllOf d = some p ∧ (modeOf s d.val).powered = true) →
    exec (.pllLock p) s = .next (setPll s p .locked)) ∧
  (∀ (d : Dom) (k : Option Sess) (s : State), (domOf s d).enabling = some k → (∀ p, pllOf d = some p → pllOn s p = true) →
    Completes (.domainUp d) s fun t =>
      (domOf t d).mode = .on ∧ t.aon.runDisable[d.val] = false ∧ (∀ e : Dom, e ≠ d → (domOf t e).mode = (domOf s e).mode) ∧
      ((domOf s d).mode ≠ .on → (domOf t d).enabling = none) ∧ t.nand.rims = s.nand.rims ∧ t.cfl = s.cfl ∧ t.aon.hold = s.aon.hold) ∧
  (∀ (d : Dom) (x : PowerFail) (s : State), d ≠ 0 → optional d = true →
    ((domOf s d).enabling.isSome = true ∨ (domOf s d).mode.powered = true) → Completes (.domainPowerFail d x) s fun t =>
      (domOf t d).mode = .failed ∧ t.nand.rims = s.nand.rims ∧ (currentOp s = none → SameFlash s t)) ∧
  (∀ (d : Dom) (s : State), (domOf s d).mode = .draining → drained s d = true → Completes (.drainComplete d) s fun t =>
    (domOf t d).mode = (if d = 5 then .ret else .off) ∧ t.aon.runDisable[d.val] = true ∧ t.nand.rims = s.nand.rims ∧
    (currentOp s = none → SameFlash s t)) ∧
  (∀ (d : Dom) (s : State), (domOf s d).mode = .draining → Completes (.drainLimitExpiry d) s fun t =>
    (domOf t d).mode = .stuck ∧ (∀ e : Dom, e ≠ d → domOf t e = domOf s e) ∧ t.aon = s.aon ∧ t.nand = s.nand ∧ t.cfl = s.cfl ∧
    t.doms.lanes = s.doms.lanes)

/-- WATCHDOG_KICK of running firmware notes the present time and nothing else. WATCHDOG_EXPIRY of an armed watchdog resets D02: the firmware stops, the fetch key and the unlock latch clear, the cause is MGMT_WATCHDOG and the time is noted; the hold state, the relation, the save under way, the NAND and every word of the code flash stay; the fourth expiry within 600 s sets the management hold. DEFERRED_ACTIVATION in SERVE, with no code-flash job, an option sequence number left and the image at or above the floor, starts the activation's operations. (R63, R82, R83, R380, R390, R391) -/
def Obligations.WatchdogAndDeferredActivation : Prop :=
  (∀ s : State, s.aon.wdArmed = true → s.mg.running = true → s.mg.halted = false →
    exec .watchdogKick s = .next { s with aon := { s.aon with wdKick := s.aon.us } }) ∧
  (∀ s : State, s.aon.wdArmed = true → Completes .watchdogExpiry s fun t =>
    t.mg.running = false ∧ t.aon.rst = .mgmtWatchdog ∧ t.aon.wdArmed = false ∧ t.cfl.key = none ∧ t.cfl.latch = false ∧
    t.aon.wdResets = s.aon.wdResets.filter (fun x => decide (s.aon.us < x + 600000000)) ++ [s.aon.us] ∧
    t.aon.mgmtHold = (s.aon.mgmtHold || decide (3 ≤ (s.aon.wdResets.filter (fun x => decide (s.aon.us < x + 600000000))).length)) ∧
    t.aon.hold = s.aon.hold ∧ t.aon.img = s.aon.img ∧ t.map.save = s.map.save ∧ t.nand = s.nand ∧ t.cfl.words = s.cfl.words) ∧
  (∀ s : State, s.aon.deferred = true → s.aon.hold = .serve → s.mg.running = true → s.cfl.jobs = [] → optFull s = false →
    ¬ hdrSvn (hdrOf s (targetBank s)) < floorOf s → Completes .deferredActivation s fun t =>
      (∃ j, t.cfl.jobs = [j] ∧ j.use = .activate false ∧ j.session = none ∧ j.planned = true ∧ j.ops ≠ []) ∧ t.aon = s.aon ∧
      t.cfl.words = s.cfl.words ∧ t.nand = s.nand ∧ t.mg = s.mg)

/-- KEY_ZEROIZE of an erase in its first phase, once the tenant's granules have left XTS, empties the XTS slot and reads ERASED; when the read-back is not zero the slot is unusable and the tenant DISABLED. KEY_STORE_WRITE_DONE removes the blob, sets the erase-list bit and ends the AON record. OLD_COPY_ERASE_DONE, verified, records VERIFIED and lets the proof wait; an unverified one is tried again, up to three times. No other tenant's attribute word or blob changes, and no word of the code flash. (R189, R190, R192, R194, R195) -/
def Obligations.CryptoEraseStepByStep : Prop :=
  (∀ (x : Tenant) (j : EraseJob) (b : Bool) (s : State), jobOf s x = some j → j.phase = .zeroize → keyInFlight s x = true →
    exec (.keyZeroize x b) s = .next s) ∧
  (∀ (x : Tenant) (j : EraseJob) (s : State), jobOf s x = some j → j.phase = .zeroize → keyInFlight s x = false →
    Completes (.keyZeroize x true) s fun t =>
    attrSlot (attrOf t x) = 3 ∧ x ∉ t.ten.loaded ∧ jobOf t x = some { j with phase := .keyStore, zeroFail := false } ∧
    (∀ y, y ≠ x → attrOf t y = attrOf s y) ∧ t.ten.blobs = s.ten.blobs ∧ t.cfl = s.cfl ∧ t.nand = s.nand ∧ t.aon.hold = s.aon.hold) ∧
  (∀ (x : Tenant) (j : EraseJob) (s : State), jobOf s x = some j → j.phase = .zeroize → keyInFlight s x = false →
    Completes (.keyZeroize x false) s fun t =>
    attrSlot (attrOf t x) = 3 ∧ attrDisabled (attrOf t x) = true ∧ x ∈ t.ten.unusable ∧
    jobOf t x = some { j with phase := .keyStore, zeroFail := true } ∧ (∀ y, y ≠ x → attrOf t y = attrOf s y) ∧ t.cfl = s.cfl) ∧
  (∀ (x : Tenant) (j : EraseJob) (s : State), jobOf s x = some j → j.phase = .keyStore → Completes (.keyStoreWriteDone x) s fun t =>
    t.ten.blobs[x.val] = none ∧ (∀ y : Tenant, y ≠ x → t.ten.blobs[y.val] = s.ten.blobs[y.val]) ∧ x ∈ t.ten.eraseList ∧ x ∉ t.aon.erases ∧
    jobOf t x = some { j with phase := .oldCopy } ∧ t.ten.attr = s.ten.attr ∧ t.cfl = s.cfl ∧ t.nand = s.nand) ∧
  (∀ (x : Tenant) (j : EraseJob) (s : State), jobOf s x = some j → j.phase = .oldCopy → j.proven = false →
    Completes (.oldCopyEraseDone x true) s fun t =>
    look x t.ten.kdestroy = some true ∧ (∃ i, jobOf t x = some i ∧ i.phase = .proof) ∧ t.ten.blobs = s.ten.blobs ∧ t.ten.attr = s.ten.attr ∧
    t.cfl = s.cfl) ∧
  (∀ (x : Tenant) (j : EraseJob) (s : State), jobOf s x = some j → j.phase = .oldCopy → j.tries < 2 →
    exec (.oldCopyEraseDone x false) s = .next (setJob s { j with tries := j.tries + 1 }))

/-- PRECHARGE ends in CC, CC in CV, or at once in the end of the charge where it began at 99 % or more, CV at the taper current in MAINT or DONE by the setting, and DONE returns to CC at the recharge threshold. A pause of REST or temperature keeps its cause and pauses a charging or done charger; the end of the last cause returns it to the mode that the voltages call for, or to MAINT where it held that (log entry 77). A charger fault (over-voltage or buck whatever the mode, precharge timeout, charge timeout past 10 h) ends in FAULT with the retry timer started, and the third within 24 h locks it. At the timer's end an unlocked charger qualifies again. Only the pack's state, the retry timer, the log and the config store's pack area change. (R197, R200, R202, R203, R204, R220) -/
def Obligations.ChargerModes : Prop :=
  (∀ s : State, s.bat.chg = .precharge → Completes .chgPrechargeDone s fun t => t.bat.chg = .cc ∧ t = { s with bat := t.bat } ∧ t.bat.iset = s.bat.iset) ∧
  (∀ s : State, s.bat.chg = .cc → Completes .chgCvEntry s fun t =>
    t.bat.chg = (if s.bat.fromFull = true then (if s.bat.set.maint = true then .maint else .done) else .cv) ∧ t = { s with bat := t.bat }) ∧
  (∀ s : State, s.bat.chg = .cv → atTaper s = true → Completes .chargeEnd s fun t =>
    t.bat.chg = (if s.bat.set.maint = true then .maint else .done) ∧ t.bat.chgTime = 0 ∧ t = { s with bat := t.bat }) ∧
  (∀ s : State, atTaper s = false → exec .chargeEnd s = .next s) ∧
  (∀ s : State, s.bat.chg = .done → socOf s ≤ (s.bat.set.recharge : ℚ) / 100 → Completes .chgRecharge s fun t =>
    t.bat.chg = .cc ∧ t = { s with bat := t.bat }) ∧
  (∀ (c : PauseCause) (s : State), c ≠ .bulk → (s.bat.chg.charging = true ∨ s.bat.chg = .done) → Completes (.chgPause c) s fun t =>
    t.bat.chg = .paused ∧ c ∈ t.bat.pauses ∧ (∀ d ∈ s.bat.pauses, d ∈ t.bat.pauses) ∧ t = { s with bat := t.bat }) ∧
  (∀ s : State, s.aon.hold = .serve → s.bat.chg.charging = true → Completes (.chgPause .bulk) s fun t =>
    t.bat.chg = .paused ∧ PauseCause.bulk ∈ t.bat.pauses ∧ t.pins = { s.pins with bulk11 := false } ∧ t = { s with bat := t.bat, pins := t.pins }) ∧
  (∀ (c : PauseCause) (s : State), c ≠ .bulk → s.bat.chg = .paused → s.bat.pauses = [c] → s.bat.fromFull = false →
    s.bat.pausedFrom.charging = true → Completes (.chgResume c) s fun t =>
    t.bat.chg = (if s.bat.pausedFrom = .maint ∧ s.bat.set.maint = true then .maint else modeByVoltage s) ∧ t.bat.pauses = [] ∧
    t = { s with bat := t.bat }) ∧
  (∀ c ∈ [Instr.cellOv, .buck], ∀ s : State, isOn s 1 = true → s.bat.chg ≠ .fault → Completes c s fun t =>
    t.bat.chg = .fault ∧ t.aon = { s.aon with retryEnd := some (s.aon.us + s.bat.set.retryNs / 1000) } ∧
    t.bat.retryLeft = some (ceilDiv (s.bat.set.retryNs / 1000) 1000000) ∧
    t.bat.locked = (s.bat.locked || decide (2 ≤ (s.bat.chgFaults.filter (fun x => decide (s.aon.us < x + 86400000000))).length)) ∧
    t = { s with bat := t.bat, aon := t.aon, log := t.log, store := t.store }) ∧
  (∀ s : State, s.bat.chg = .precharge → Completes .preTimeout s fun t =>
    t.bat.chg = .fault ∧ t.aon = { s.aon with retryEnd := some (s.aon.us + s.bat.set.retryNs / 1000) } ∧
    t = { s with bat := t.bat, aon := t.aon, log := t.log, store := t.store }) ∧
  (∀ s : State, s.bat.chg = .cc ∨ s.bat.chg = .cv → 36000000 < s.bat.chgTime → Completes .chgTimeout s fun t =>
    t.bat.chg = .fault ∧ t.aon = { s.aon with retryEnd := some (s.aon.us + s.bat.set.retryNs / 1000) } ∧
    t = { s with bat := t.bat, aon := t.aon, log := t.log, store := t.store }) ∧
  (∀ s : State, s.aon.retryEnd.isSome = true → s.bat.locked = false → Completes .faultRetryExpiry s fun t =>
    t.aon = { s.aon with retryEnd := none } ∧ t.bat.retryLeft = none ∧
    t.bat.chg = (if mayCharge s = false then .off else if s.bat.pauses ≠ [] then .paused
      else if modeByVoltage s = .cv ∧ 99 / 100 ≤ socOf s then (if s.bat.set.maint = true then .maint else .done) else modeByVoltage s) ∧
    t = { s with bat := t.bat, aon := t.aon })

/-- An absent pack stops the estimator and the charger and reads NONE; a present one waits for its record. A record that passes its checks gives ID when chemistry and cells equal the options, MISMATCH with the estimator stopped otherwise; a read that fails is counted up to three times before the pack is taken as ANON, with a record of its own being learned. The image, the keys and the code flash stay. (R198, R199, R222) -/
def Obligations.PackIdentity : Prop :=
  (∀ s : State, Completes (.packPresenceChange false) s fun t =>
    t.bat.present = false ∧ t.bat.judgedPack = true ∧ t.bat.result = .none ∧ t.bat.pid = none ∧ t.bat.cells = [] ∧ t.bat.chg = .off ∧
    t.aon.hold = s.aon.hold ∧ t.nand = s.nand ∧ t.ten = s.ten ∧ t.cfl = s.cfl) ∧
  (∀ s : State, exec (.packPresenceChange true) s =
    .next { s with bat := { s.bat with present := true, judgedPack := true, readTries := 0 } }) ∧
  (∀ (b : List Byte) (s : State), s.bat.present = true → s.mg.running = true → packRecordOk b = true →
    packChem b = s.aon.opt.chem.toNat → packCells b = cellCount s → Completes (.packEepromRead true b) s fun t =>
      t.bat.result = .id ∧ t.bat.pid = some (packIdOf b) ∧ t.bat.readTries = 0 ∧ t.nand = s.nand ∧ t.ten = s.ten ∧ t.cfl = s.cfl ∧
      t.aon.hold = s.aon.hold) ∧
  (∀ (b : List Byte) (s : State), s.bat.present = true → s.mg.running = true → packRecordOk b = true →
    (packChem b ≠ s.aon.opt.chem.toNat ∨ packCells b ≠ cellCount s) → Completes (.packEepromRead true b) s fun t =>
      t.bat.result = .mismatch ∧ t.bat.cells = [] ∧ t.bat.chg = .off ∧ t.nand = s.nand ∧ t.ten = s.ten ∧ t.cfl = s.cfl) ∧
  (∀ (a : Bool) (b : List Byte) (s : State), s.bat.present = true → s.mg.running = true → (a = false ∨ packRecordOk b = false) →
    (s.bat.readTries < 3 →
      exec (.packEepromRead a b) s = .next { s with bat := { s.bat with readTries := s.bat.readTries + 1 } }) ∧
    (3 ≤ s.bat.readTries → Completes (.packEepromRead a b) s fun t =>
      t.bat.result = .anon ∧ t.bat.pid = none ∧ t.bat.est = .learning ∧ (∃ r, t.bat.packRec = some r ∧ r.serial = 0 ∧ r.est = .learning) ∧
      t.nand = s.nand ∧ t.ten = s.ten ∧ t.cfl = s.cfl))

/-- A plausible conversion, with the firmware running, a pack learned and the sense path good, is the newest sample, its I_cmd held between 0 and I_set, and the filter's state after it stands in AON as the checkpoint; an implausible one makes SENSEFAIL and stops the charger. What a conversion does not bring is a free value (log entry 7). With D02 off the warden adds 10 s to its account. At rest, an anchor whose every cell is certain enough sets the cells from the OCV table and restarts the anchor's time. MARGIN_UPGRADE_HOLD takes the better class; SENSEFAIL ends in LEARNING; a pack without an anchor for 72 h becomes UNANCHORED. The image and the code flash stay. (R201, R206, R208, R210, R212, R217, R218, R223, R388) -/
def Obligations.EstimatorSteps : Prop :=
  (∀ (x : Sample) (dt i : ℕ) (r : PackRec) (s : State), s.mg.running = true → s.bat.present = true → s.bat.cells ≠ [] →
    implausible (filled s s.bat.cells.length x) = false → s.bat.est ≠ .sensefail → s.bat.packRec = some r →
    Completes (.estimatorStep x dt i) s fun t =>
      newest t.bat = some (filled s s.bat.cells.length x) ∧ t.bat.icmd = min i s.bat.iset ∧ t.aon.checkpoint = some t.bat.cells ∧
      t.aon.hold = s.aon.hold ∧ t.nand = s.nand ∧ t.ten = s.ten ∧ t.cfl = s.cfl) ∧
  (∀ (x : Sample) (dt i : ℕ) (s : State), s.mg.running = true → s.bat.present = true → s.bat.cells ≠ [] →
    implausible (filled s s.bat.cells.length x) = true → Completes (.estimatorStep x dt i) s fun t =>
      t.bat.est = .sensefail ∧ newest t.bat = some (filled s s.bat.cells.length x) ∧ (s.bat.est ≠ .sensefail → t.bat.chg = .off) ∧
      t.nand = s.nand ∧ t.cfl = s.cfl) ∧
  (∀ (x : Sample) (i : ℕ) (s : State), s.aon.por = .up → (modeOf s 2).powered = false → s.aon.batEmpty = false →
    s.bat.present = true → Completes (.wardenPackSample x i) s fun t =>
      newest t.bat = some (filled s (cellCount s) x) ∧ t.aon.packAcc.gap = s.aon.packAcc.gap + 10 ∧
      t.aon.packAcc.last = filledCells s (cellCount s) x.cells ∧
      (t.aon.packAcc.rest = s.aon.packAcc.rest + 10 ∨ t.aon.packAcc.rest = 0) ∧ t.aon.hold = s.aon.hold ∧ t.nand = s.nand ∧ t.cfl = s.cfl) ∧
  (∀ (m : Margin) (s : State), s.bat.better = some m → Completes .marginUpgradeHold s fun t =>
    t.bat.margin = m ∧ t.bat.better = none ∧ t.aon = s.aon ∧ t.nand = s.nand ∧ t.cfl = s.cfl) ∧
  (∀ (x : Sample) (r : PackRec) (s : State), newest s.bat = some x → packUsable s = true → s.mg.running = true → s.bat.packRec = some r →
    Completes .restAnchor s fun t => t.nand = s.nand ∧ t.cfl = s.cfl ∧ (resting s (packCurrent s) = false → t = s) ∧
      (resting s (packCurrent s) = true →
        (x.cells.map (anchorCell { s with free := s.free + 1 })).all (anchorCounts { s with free := s.free + 1 }) = true →
        t.bat.cells = x.cells.map (anchorCell { s with free := s.free + 1 }) ∧ t.bat.anchored = true ∧ t.bat.anchorUs = s.aon.us ∧
        t.aon.checkpoint = some t.bat.cells)) ∧
  (∀ s : State, packUsable s = true → s.bat.est ≠ .unanchored → 72 ≤ anchorHours s → Completes .unanchored s fun t =>
    t.bat.est = .unanchored ∧ t.aon.hold = s.aon.hold ∧ t.nand = s.nand ∧ t.cfl = s.cfl) ∧
  (∀ s : State, s.bat.est = .sensefail → Completes .sensefailRequalify s fun t =>
    t.bat.est = .learning ∧ t.aon.hold = s.aon.hold ∧ t.nand = s.nand ∧ t.cfl = s.cfl)

/-- REST_REQUEST, after 168 h without an anchor and with the SoC at PARKSAFE or above, notes the time of the first request. A self-chosen REST window in SERVE, alone on the bus or when no REST stake came within 24 h of the first request, pauses the charger for 30 min, and its end takes the REST cause away. IMPEDANCE_PROBE with a step of 1 A or more keeps the voltages after it, and with a smaller one ends the probe; POLARISATION_PROBE in SAVE ends the probe. Voltages that a probe does not bring are free values (log entry 7). PACK_RECORD_WRITE stores the record when none was written within 24 h. (R211, R212, R219, R220, R275) -/
def Obligations.RestWindowsAndProbes : Prop :=
  (∀ s : State, restWanted s = true → s.mg.running = true → Completes .restRequest s fun t =>
    t.bat.firstRestReq = some (s.bat.firstRestReq.getD s.aon.us) ∧ t.bat.chg = s.bat.chg ∧ t.aon = s.aon ∧ t.nand = s.nand ∧ t.cfl = s.cfl) ∧
  (∀ s : State, s.aon.hold = .serve → restWanted s = true → (s.aon.opt.join = 3 ∨ stakeMissing s = true) → s.bat.chg.charging = true →
    Completes .selfRestWindow s fun t => t.bat.restUntil = some (s.aon.us + 1800000000) ∧ .rest ∈ t.bat.pauses ∧ t.bat.chg = .paused ∧
      t = { s with bat := t.bat }) ∧
  (∀ s : State, s.bat.restUntil.isSome = true → Completes .restWindowEnd s fun t =>
    t.bat.restUntil = none ∧ .rest ∉ t.bat.pauses ∧ (s.bat.chg ≠ .paused → t.bat.chg = s.bat.chg) ∧ t = { s with bat := t.bat }) ∧
  (∀ (l : List ℕ) (p : Probe) (s : State), s.bat.probe = some p → p.after = [] → packUsable s = true →
    (¬ loadPower s / packVolts (filledCells s p.before.length l) - p.dI < 1 → Completes (.impedanceProbe l) s fun t =>
      (∃ q, t.bat.probe = some q ∧ q.after = filledCells s p.before.length l ∧ q.before = p.before) ∧ t.bat.cells = s.bat.cells ∧
      t.aon = s.aon ∧ t.nand = s.nand ∧ t.cfl = s.cfl) ∧
    (loadPower s / packVolts (filledCells s p.before.length l) - p.dI < 1 → Completes (.impedanceProbe l) s fun t =>
      t.bat = { s.bat with probe := none } ∧ t = { s with bat := t.bat, free := t.free })) ∧
  (∀ (l : List ℕ) (p : Probe) (s : State), s.bat.probe = some p → p.after ≠ [] → packUsable s = true → s.aon.hold = .save →
    Completes (.polarisationProbe l) s fun t =>
      t.bat.probe = none ∧ t.bat.cells = s.bat.cells ∧ t.aon = s.aon ∧ t.nand = s.nand ∧ t.cfl = s.cfl) ∧
  (∀ (r : PackRec) (s : State), s.mg.running = true → s.bat.packRec = some r →
    (∀ w, s.bat.storedAt = some w → w + 86400000000 ≤ s.aon.us) → Completes .packRecordWrite s fun t =>
      t.bat = { s.bat with stored := some r, storedAt := some s.aon.us } ∧ t = { s with bat := t.bat, store := t.store })

/-- In SAVE with the firmware running, E_REM_UPDATE replaces MAP's copy of the remaining energy by the estimate with one standard deviation; while that copy stands below the reserve floor, no plait may start. E_REM_STALE marks the copy stale. END_OF_DISCHARGE and HW_FLOOR_COMPARATOR stop new plaits in SAVE; on the pack in HELD or DARK the end of discharge sets the empty mark. No granule and no rim record changes. (R123, R215, R216) -/
def Obligations.EnergyInASave : Prop :=
  (∀ s : State, s.aon.hold = .save → s.mg.running = true → Completes .eRemUpdate s fun t =>
    t = { s with map := { s.map with eRem := energyWith s 1, eStale := false } } ∧
    (energyWith s 1 < eFloor s → ∀ v, plaitAllowed t v = false)) ∧
  (∀ s : State, s.aon.hold = .save → exec .eRemStale s = .next { s with map := { s.map with eStale := true } }) ∧
  (∀ s : State, s.aon.hold = .save → Completes .endOfDischarge s fun t =>
    t.bat = { s.bat with eod := true } ∧ (∀ v, t.map.save = some v → v.stop = true) ∧ t.nand.rims = s.nand.rims ∧ t.nand.dram = s.nand.dram ∧
    t = { s with bat := t.bat, map := t.map, nand := t.nand }) ∧
  (∀ s : State, (s.aon.hold = .held ∨ s.aon.hold = .dark) → s.aon.por = .up → s.pins.bulk ≠ .qualified → s.aon.batEmpty = false →
    exec .endOfDischarge s = .next (logEv { s with aon := { s.aon with batEmpty := true } } 0 .batEmpty)) ∧
  (∀ s : State, s.aon.hold = .save → Completes .hwFloorComparator s fun t =>
    t.aon = { s.aon with hwFloor := true } ∧ (∀ v, t.map.save = some v → v.stop = true) ∧ t.nand.rims = s.nand.rims ∧
    t.nand.dram = s.nand.dram ∧ t = { s with aon := t.aon, map := t.map, nand := t.nand })

/-- While READY = 1 an ACT opens its row; RDA, PREpb, PREsb and PREab close the rows they name and no other; SRX takes its rank out of self-refresh and tells MAP. READ, the refresh and RFM commands, power-down entry and exit, MRR, NOP and DES change nothing of the device. With READY = 0 an ACT is not forwarded. (R37, R51, R87, R89, R100) -/
def Obligations.HostRowsAndRefresh : Prop :=
  (∀ (x : Sub) (r : Rank) (b : BankAddr) (row : BitVec 18) (s : State), ready s = true →
    exec (.act x r b row) s = .next { s with hp := { s.hp with rows := put { sub := x, rank := r, bank := b } row s.hp.rows } }) ∧
  (∀ (x : Sub) (r : Rank) (b : BankAddr) (row : BitVec 18) (s : State), ready s = false → exec (.act x r b row) s = .next s) ∧
  (∀ (x : Sub) (r : Rank) (b : BankAddr) (s : State), ready s = true → ∀ c ∈ [Instr.rda x r b, .prepb x r b],
    exec c s = .next { s with hp := { s.hp with rows := s.hp.rows.filter (fun p => decide (p.1 ≠ { sub := x, rank := r, bank := b })) } }) ∧
  (∀ (x : Sub) (r : Rank) (ba : Fin 4) (s : State), ready s = true → exec (.presb x r ba) s = .next { s with
    hp := { s.hp with rows := s.hp.rows.filter (fun p => !(decide (p.1.sub = x) && decide (p.1.rank = r) && decide (p.1.bank.ba = ba))) } }) ∧
  (∀ (x : Sub) (r : Rank) (s : State), ready s = true → exec (.preab x r) s = .next { s with
    hp := { s.hp with rows := s.hp.rows.filter (fun p => !(decide (p.1.sub = x) && decide (p.1.rank = r))) } }) ∧
  (∀ (x : Sub) (r : Rank) (s : State), ready s = true → Completes (.srx x r) s fun t =>
    t.hp = { s.hp with selfRef := s.hp.selfRef.filter (fun p => decide (p ≠ (x, r))), snoop := t.hp.snoop } ∧
    (laneUp s 0 = true → snoopsOnTheWay t = snoopsOnTheWay s ++ [.selfRefresh x r false]) ∧
    (∀ n : LaneId, n ≠ 0 → laneOf t n = laneOf s n) ∧ t = { s with hp := t.hp, doms := t.doms, nand := { s.nand with dramSr := false } }) ∧
  (∀ (x : Sub) (r : Rank) (b : BankAddr) (ba : Fin 4) (m : Byte) (s : State),
    ∀ c ∈ [Instr.rd x r b, .refab x r, .refsb x r ba, .rfmab x r, .rfmsb x r ba, .pde x r, .pdx x r, .mrr x r m, .nop x, .des x],
      exec c s = .next s)

/-- For WR, WRA, WRP and WRPA while READY = 1: with a row open in the bank and its coordinates in the geometry, exactly the granule of that row takes the data and every other granule of the DRAM keeps its content; its snoop record is on the way to MAP unless the recent-index filter holds the granule; continuity ends. WRA and WRPA then close the bank's row, WR and WRP keep every row. With no row open the record names the whole bank, and no other bank's granule changes. A WRITE that no granule of a valid geometry answers to changes no content and sends no record (the model's choice, log entry 69). MAP_SNOOP_APPLY takes the oldest flit and marks dirty the granules that its records name; what else of the map an uncorrectable word of it marks is a free value. (R16, R24, R49, R90, R91, R94, R107, R112) -/
def Obligations.HostWritesMarkTheirGranule : Prop :=
  (∀ (x : Sub) (r : Rank) (b : BankAddr) (row : BitVec 18) (d : ℕ) (s : State), ready s = true →
    look { sub := x, rank := r, bank := b } s.hp.rows = some row → geoValid s.map.geom = true →
    coordOk s.map.geom (subNum x) r.val b.bg.val b.ba.val row.toNat = true →
    ∀ c ∈ [(Instr.wr x r b d, false), (.wra x r b d, true), (.wrp x r b d, false), (.wrpa x r b d, true)], Completes c.1 s fun t =>
      t.nand.dram.get (gidxOf s.map.geom (subNum x) r.val b.bg.val b.ba.val row.toNat) = .data d ∧
      (∀ g, g ≠ gidxOf s.map.geom (subNum x) r.val b.bg.val b.ba.val row.toNat → t.nand.dram.get g = s.nand.dram.get g) ∧
      (gidxOf s.map.geom (subNum x) r.val b.bg.val b.ba.val row.toNat ∉ s.hp.filter → laneUp s 0 = true →
        snoopsOnTheWay t = snoopsOnTheWay s ++ [.granule (gidxOf s.map.geom (subNum x) r.val b.bg.val b.ba.val row.toNat)]) ∧
      t.hp.rows = (if c.2 = true then s.hp.rows.filter (fun p => decide (p.1 ≠ { sub := x, rank := r, bank := b })) else s.hp.rows) ∧
      t.aon = { s.aon with cont := false } ∧ t.map = s.map ∧ t.cfl = s.cfl ∧ t.pins = s.pins ∧ t.nand.rims = s.nand.rims) ∧
  (∀ (x : Sub) (r : Rank) (b : BankAddr) (d : ℕ) (s : State), ready s = true → look { sub := x, rank := r, bank := b } s.hp.rows = none →
    geoValid s.map.geom = true → coordOk s.map.geom (subNum x) r.val b.bg.val b.ba.val 0 = true →
    ∀ c ∈ [Instr.wr x r b d, .wra x r b d, .wrp x r b d, .wrpa x r b d], Completes c s fun t =>
      (laneUp s 0 = true → snoopsOnTheWay t = snoopsOnTheWay s ++ [.whole { sub := x, rank := r, bank := b }]) ∧
      (∀ g, ¬(bankIndex s.map.geom (subNum x) r.val b.bg.val b.ba.val * geoPerBank s.map.geom ≤ g ∧
          g < bankIndex s.map.geom (subNum x) r.val b.bg.val b.ba.val * geoPerBank s.map.geom + geoPerBank s.map.geom) →
        t.nand.dram.get g = s.nand.dram.get g) ∧
      t.aon = { s.aon with cont := false } ∧ t.map = s.map ∧ t.nand.rims = s.nand.rims ∧ t.cfl = s.cfl) ∧
  (∀ (x : Sub) (r : Rank) (b : BankAddr) (row : BitVec 18) (d : ℕ) (s : State), ready s = true →
    look { sub := x, rank := r, bank := b } s.hp.rows = some row →
    (geoValid s.map.geom = false ∨ coordOk s.map.geom (subNum x) r.val b.bg.val b.ba.val row.toNat = false) →
    exec (.wr x r b d) s = .next { s with aon := { s.aon with cont := false } }) ∧
  (∀ (f : Flit) (rest : List Flit) (l : List Snoop) (s : State), runs s 8 = true → (laneOf s 0).queue ++ (laneOf s 0).flight = f :: rest →
    f.poison = false → f.payload = .snoop l → Completes .mapSnoopApply s fun t =>
      (∀ g, .granule g ∈ l → rsMem t.map.dirty g = true) ∧
      (∀ k g, .whole k ∈ l → bankIndex s.map.geom (subNum k.sub) k.rank.val k.bank.bg.val k.bank.ba.val * geoPerBank s.map.geom ≤ g →
        g < bankIndex s.map.geom (subNum k.sub) k.rank.val k.bank.bg.val k.bank.ba.val * geoPerBank s.map.geom + geoPerBank s.map.geom →
        rsMem t.map.dirty g = true) ∧
      (∀ g, rsMem s.map.dirty g = true → rsMem t.map.dirty g = true) ∧
      (laneUp s 0 = true → l ++ snoopsOnTheWay t = snoopsOnTheWay s) ∧
      (∀ n : LaneId, n ≠ 0 → laneOf t n = laneOf s n) ∧ t.nand = s.nand ∧ t.aon = s.aon ∧ t.cfl = s.cfl)

/-- While READY = 1 and with the capture set below its limit, an MRW, VREFCA or VREFCS to a rank with no device selected leaves its value as the last entry of the capture set for that rank and register, once, and with a device selected as the last per-device entry; other entries stay in order, and the record is on the way to MAP. Such a command to several ranks is the command to each in turn. An MPC that enumerates a device adds its ID for the rank, one that selects keeps the selection, and ID 15 ends it. A control-word write goes to HP's file alone; which words enter the RCD's training modes is a free value. The operation codes of MPC are those of JESD79-5 (log entry 11). (R51, R81, R87, R89, R96, R105) -/
def Obligations.ModeRegisterCapture : Prop :=
  (∀ (x : Sub) (r : Rank) (v m : Byte) (s : State), ready s = true →
    ∀ c ∈ [(Instr.mrw x [r] m v, MrKey.mr m), (.vrefca x [r] v, .vrefca), (.vrefcs x [r] v, .vrefcs)],
      (look (x, r) s.hp.pda = none → (s.hp.capture.filter (fun e => decide (e.isDevice = false))).length < 8192 → Completes c.1 s fun t =>
        t.hp = { s.hp with snoop := t.hp.snoop, capture :=
          s.hp.capture.filter (fun e => !e.sameKey (.rank { sub := x, rank := r, key := c.2, value := v })) ++
            [.rank { sub := x, rank := r, key := c.2, value := v }] } ∧
        (laneUp s 0 = true → snoopsOnTheWay t = snoopsOnTheWay s ++ [.capture x r c.2 v]) ∧
        (∀ n : LaneId, n ≠ 0 → laneOf t n = laneOf s n) ∧ t = { s with hp := t.hp, doms := t.doms }) ∧
      (∀ k, look (x, r) s.hp.pda = some k → (s.hp.capture.filter (fun e => e.isDevice)).length < 2048 → Completes c.1 s fun t =>
        t.hp = { s.hp with snoop := t.hp.snoop, capture :=
          s.hp.capture.filter (fun e => !e.sameKey (.device { sub := x, rank := r, key := c.2, sel := k, value := v })) ++
            [.device { sub := x, rank := r, key := c.2, sel := k, value := v }] } ∧ t = { s with hp := t.hp, doms := t.doms })) ∧
  (∀ (x : Sub) (r : Rank) (l : List Rank) (v m : Byte) (s t : State), ready s = true →
    ∀ f ∈ [fun l => Instr.mrw x l m v, fun l => .vrefca x l v, fun l => .vrefcs x l v, fun l => .mpc x l v],
      exec (f [r]) s = .next t → exec (f (r :: l)) s = exec (f l) t ∧ exec (f []) s = .next s) ∧
  (∀ (x : Sub) (r : Rank) (i : Byte) (s : State), ready s = true → i.toNat < 16 →
    exec (.mpc x [r] (0x60 ||| i)) s = .next { s with hp := { s.hp with
      enums := if ((x, r), i) ∈ s.hp.enums then s.hp.enums else s.hp.enums ++ [((x, r), i)] } } ∧
    exec (.mpc x [r] (0x70 ||| i)) s = .next { s with hp := { s.hp with
      pda := if i = 15 then drop (x, r) s.hp.pda else put (x, r) i s.hp.pda } }) ∧
  (∀ (x : Sub) (a v : Byte) (s : State), ready s = true → Completes (.rcdControlWordWrite x a v) s fun t =>
    t.hp = { s.hp with rcd := put (x, a) v s.hp.rcd, training := t.hp.training } ∧ t = { s with hp := t.hp })

/-- While READY = 1 a CA parity error is counted, raises the parity alert with an event and blocks its command. The host's clock absent with a rank out of self-refresh is noted. SRE notes the rank and tells MAP; while not every rank is in self-refresh nothing else changes; in PARK, with every rank in self-refresh, the planned save begins at Switch with BATSW_EN high, without ALERT_L, for the cause of the PARK. (R29, R31, R51, R87, R98, R100, R106, R107, R109) -/
def Obligations.HostPathFaultsAndSelfRefresh : Prop :=
  (∀ (x : Sub) (s : State), ready s = true → exec (.caParityError x) s = .next (logEv { s with
    hp := { s.hp with parityErrors := s.hp.parityErrors + 1 }, pins := { s.pins with parityAlert := true } } 7 .parityBlocked)) ∧
  (∀ s : State, ready s = true → allSelfRef s = false →
    exec .hostDckAbsent s = .next (logEv { s with hp := { s.hp with dckAbsent := true } } 7 .dckLost)) ∧
  (∀ (x : Sub) (r : Rank) (s : State), ready s = true → (x, r) ∉ s.hp.selfRef →
    allSelfRef { s with hp := { s.hp with selfRef := s.hp.selfRef ++ [(x, r)] } } = false → Completes (.sre x r) s fun t =>
      t.hp = { s.hp with selfRef := s.hp.selfRef ++ [(x, r)], snoop := t.hp.snoop } ∧ (∀ n : LaneId, n ≠ 0 → laneOf t n = laneOf s n) ∧
      t = { s with hp := t.hp, doms := t.doms }) ∧
  (∀ (x : Sub) (r : Rank) (s : State), s.aon.hold = .park →
    allSelfRef { s with hp := { s.hp with selfRef := s.hp.selfRef ++ [(x, r)] } } = true → Completes (.sre x r) s fun t =>
      t.aon.hold = .save ∧ t.aon.cause = s.aon.cause ∧ t.aon.cont = true ∧ t.hp.phase = .switch_ ∧ t.pins.batsw = true ∧
      t.pins.alertHeld = false ∧ (∃ v, t.map.save = some v ∧ v.planned = true ∧ v.full = decide (s.aon.img = .none)) ∧
      t.nand.dram = s.nand.dram ∧ t.nand.rims = s.nand.rims ∧ t.cfl = s.cfl)

/-- While a save or a restore owns the flow, the burst drain ends in Close, Close in Switch with every rank of the module in self-refresh and no row open, Switch in the clock handover with both DQ switches at the port, the handover in Port start with QCK from PLL_M and CA from the port, and Port start in Retrain with the port on, the DRAM resets high and the module out of self-refresh. In a save with granules left, a retrain that passes leads to the first granule, and the first granule starts the stream; in a restore it ends the takeover. A port that fails makes MAP skip that subchannel. (R98, R100, R101, R103, R107, R119, R168, R410) -/
def Obligations.TakeoverPhases : Prop :=
  (∀ s : State, (s.aon.hold = .save ∨ s.aon.hold = .restore) → s.hp.phase = .burstDrain →
    exec .burstDrainEnd s = .next { s with hp := { s.hp with phase := .close } }) ∧
  (∀ s : State, (s.aon.hold = .save ∨ s.aon.hold = .restore) → s.hp.phase = .close → Completes .closeEnd s fun t =>
    t.hp = { s.hp with phase := .switch_, rows := [], selfRef := t.hp.selfRef } ∧
    (∀ (x : Sub) (r : Rank), (x, r) ∈ t.hp.selfRef ↔ r.val < geoNR s.map.geom) ∧ t = { s with hp := t.hp }) ∧
  (∀ s : State, (s.aon.hold = .save ∨ s.aon.hold = .restore) → s.hp.phase = .switch_ →
    exec .switchEnd s = .next { s with hp := { s.hp with phase := .clock }, pins := { s.pins with dqswA := true, dqswB := true } }) ∧
  (∀ s : State, (s.aon.hold = .save ∨ s.aon.hold = .restore) → s.hp.phase = .clock →
    exec .clockHandoverEnd s = .next { s with hp := { s.hp with phase := .portStart }, pins := { s.pins with qck := .pllM, qca := .port } }) ∧
  (∀ s : State, (s.aon.hold = .save ∨ s.aon.hold = .restore) → s.hp.phase = .portStart →
    exec .portStartEnd s = .next { s with
      hp := { s.hp with phase := .retrain, selfRef := [] }, nand := { s.nand with dramSr := false }
      pins := { s.pins with port := true, qrstHigh := true } }) ∧
  (∀ (v : Save) (s : State), s.aon.hold = .save → s.hp.phase = .retrain → s.map.save = some v → v.todo ≠ [] →
    exec (.portRetrainDone true true) s = .next { s with
      map := { s.map with dqFailA := false, dqFailB := false }, hp := { s.hp with phase := .firstGranule } }) ∧
  (∀ (v : Save) (s : State), s.aon.hold = .save → s.hp.phase = .retrain → s.map.save = some v →
    (Completes (.portRetrainDone false true) s fun t => t.map.dqFailA = true ∧ t.map.dqFailB = false ∧
      ∃ w, t.map.save = some w ∧ w.skips = v.skips ++ [Sub.a] ∧ w.partial_ = true) ∧
    (Completes (.portRetrainDone true false) s fun t => t.map.dqFailA = false ∧ t.map.dqFailB = true ∧
      ∃ w, t.map.save = some w ∧ w.skips = v.skips ++ [Sub.b] ∧ w.partial_ = true)) ∧
  (∀ (r : RestoreRun) (s : State), s.aon.hold = .restore → s.hp.phase = .retrain → s.rst.run = some r →
    Completes (.portRetrainDone true true) s fun t => t.hp.phase = .owned ∧ t.rst.run = some { r with takeoverDone := true } ∧ t.aon = s.aon) ∧
  (∀ (v : Save) (s : State), s.aon.hold = .save → s.hp.phase = .firstGranule → s.map.save = some v →
    exec .firstGranule s = .next { s with
      hp := { s.hp with phase := .owned }
      map := { s.map with save := some { v with phase := .stream, eTakeover := s.bat.loadJ, eStream := s.bat.loadJ } } })

/-- In the stream with granules left, the conditions of R123 met and a page on every die of the stripe, PLAIT_START opens one plait that holds what the DRAM holds; with the conditions not met it starts none any more. STRAND_LOAD_DONE makes a loading die ready. The slot token makes the ready dies busy, at most SMAX of them, each at the write pointer of an open group, and marks the NAND as diverged. A strand that programs moves its group's pointer on; one that fails retires its group and takes the die out of the stripe. A die timeout sends a RESET and takes the die's strand out of the save; a retried die that answers is idle again, one that does not is fenced. TAIL_DONE with every table programmed starts the rim commit of a SAVE record with the save's sequence number and, where it was written, the copy of the log that the Tail made; before that it changes nothing. The DRAM and the rims stay. (R112, R113, R114, R116, R117, R119, R123, R134, R137, R151, R154, R158) -/
def Obligations.PlaitsAndStrands : Prop :=
  (∀ (v : Save) (s : State), s.map.save = some v → v.phase = .stream → v.todo.filter (fun p => saved s p.1) ≠ [] → v.open_ = [] →
    plaitAllowed s { v with todo := v.todo.filter (fun p => saved s p.1) } = true → stripeDies s v ≠ [] →
    (∀ d ∈ stripeDies s v, (nextPage s d).2.isSome = true) → Completes .plaitStart s fun t =>
      (∃ w p, t.map.save = some w ∧ w.open_ = [p] ∧ p.plait.no = v.plaitNo ∧ p.plait.contents = s.nand.dram ∧
        p.plait.parts = (takeParts s (stripe s (stripeDies s v).length).1 (v.todo.filter (fun p => saved s p.1))).1 ∧
        w.plaitNo = v.plaitNo + 1 ∧ w.phase = .stream ∧ w.done = v.done) ∧
      t.nand.dram = s.nand.dram ∧ t.nand.rims = s.nand.rims ∧ t.aon = s.aon ∧ t.cfl = s.cfl) ∧
  (∀ (v : Save) (s : State), s.map.save = some v → v.phase = .stream → v.todo.filter (fun p => saved s p.1) ≠ [] →
    plaitAllowed s { v with todo := v.todo.filter (fun p => saved s p.1) } = false → Completes .plaitStart s fun t =>
      (∃ w, t.map.save = some w ∧ w.stop = true ∧ w.done = v.done) ∧ t.nand.dram = s.nand.dram ∧ t.nand.rims = s.nand.rims ∧
      t.aon = s.aon ∧ t.cfl = s.cfl) ∧
  (∀ (d : Die) (p : Page) (w : Work) (s : State), (w = .strand p ∨ w = .table p) → (dieOf s d).op = .loading w →
    Completes (.strandLoadDone d) s fun t =>
      (dieOf t d).op = .ready w ∧ (∀ e, e ≠ d → dieOf t e = dieOf s e) ∧ t.aon = s.aon ∧ t.nand.dram = s.nand.dram ∧
      t.nand.rims = s.nand.rims ∧ t.nand.groups = s.nand.groups ∧ t.cfl = s.cfl) ∧
  (∀ s : State, runs s 6 = true → s.aon.hold = .save → s.nand.settle.running = false → s.nand.rimJob = none →
    (∀ d w, (dieOf s d).op = .ready w → ∃ p, w = .strand p ∧ atPointer s p = true) → Completes .slotOpenToken s fun t =>
      (∀ d ∈ slotPick s, ∃ p, (dieOf s d).op = .ready (.strand p) ∧ (dieOf t d).op = .busy (.strand p)) ∧
      (∀ d, d ∉ slotPick s → dieOf t d = dieOf s d) ∧ (slotPick s).length ≤ slotMax s ∧
      t.aon = { s.aon with nandDiverged := s.aon.nandDiverged || decide (slotPick s ≠ []) } ∧
      t.nand.dram = s.nand.dram ∧ t.nand.rims = s.nand.rims ∧ t.nand.groups = s.nand.groups ∧ t.cfl = s.cfl) ∧
  (∀ (d : Die) (p : Page) (w : Work) (s : State), (w = .strand p ∨ w = .table p) → (dieOf s d).op = .busy w →
    (groupOf s p.die p.block).role = .deltaOpen → Completes (.strandProgramDone d .pass) s fun t =>
      (groupOf t p.die p.block).wp = p.page + 1 ∧
      (groupOf t p.die p.block).role = (if s.nand.profile.wls ≤ p.page + 1 then .delta else .deltaOpen) ∧
      t.aon = s.aon ∧ t.nand.rims = s.nand.rims ∧ t.nand.dram = s.nand.dram ∧ t.cfl = s.cfl) ∧
  (∀ (d : Die) (p : Page) (x : Fin 4) (v : Save) (s : State), (dieOf s d).op = .busy (.strand p) → s.map.save = some v → s.nand.tab = none →
    (groupOf s p.die p.block).role = .deltaOpen → Completes (.strandProgramDone d (.fail x)) s fun t =>
      (dieOf t d).failed = true ∧ ((groupOf t p.die p.block).role = .retiring ∨ (groupOf t p.die p.block).role = .grownBad) ∧
      t.nand.rims = s.nand.rims ∧ t.nand.dram = s.nand.dram ∧ t.aon = s.aon) ∧
  (∀ (d : Die) (s : State), (dieOf s d).present = true → (dieOf s d).fenced = false → (dieOf s d).resetSent = false → (dieOf s d).op = .idle →
    exec (.dieTimeout d) s = .next (logEv (setDie s d (fun x => { x with resetSent := true })) (dieDom d) .dieFenced d.val 1)) ∧
  (∀ (d : Die) (p : Page) (v : Save) (s : State), (dieOf s d).present = true → (dieOf s d).fenced = false → (dieOf s d).resetSent = false →
    (dieOf s d).op = .busy (.strand p) → s.map.save = some v → s.nand.tab = none → Completes (.dieTimeout d) s fun t =>
      (dieOf t d).failed = true ∧ (dieOf t d).resetSent = true ∧ (dieOf t d).op = .idle ∧
      t.nand.rims = s.nand.rims ∧ t.nand.dram = s.nand.dram ∧ t.aon = s.aon) ∧
  (∀ (d : Die) (s : State), (dieOf s d).resetSent = true → s.map.save = none → s.nand.tab = none →
    exec (.dieResetRetry d false) s = .next (setDie s d (fun x => { x with resetSent := false, op := .idle }))) ∧
  (∀ (d : Die) (s : State), (dieOf s d).resetSent = true → Completes (.dieResetRetry d true) s fun t =>
    (dieOf t d).fenced = true ∧ usable t d = false ∧ t.nand.rims = s.nand.rims) ∧
  (∀ (b : Bool) (v : Save) (j : TableJob) (s : State), s.map.save = some v → v.phase = .tail → s.nand.tab = some j →
    (j.complete = true → Completes (.tailDone b) s fun t =>
      (∃ w, t.map.save = some w ∧ w.phase = .commit ∧ w.logWritten = b ∧ w.done = v.done) ∧
      (∃ i, t.nand.rimJob = some i ∧ i.use = .saveRim ∧ i.rim.type = .save ∧ i.rim.seq = v.seq ∧ i.rim.dirA = j.directory 0 ∧
        i.rim.log = (if b = true then v.logCopy else none) ∧
        i.a.programmed = false ∧ i.b.programmed = false) ∧
      t.nand.tab = none ∧ t.nand.rims = s.nand.rims ∧ t.nand.dram = s.nand.dram ∧ t.aon = s.aon) ∧
    (j.complete = false → exec (.tailDone b) s = .next s))

/-- RIM_PROGRAM_DONE of a copy under way marks it as programmed, and with both programmed the dwell begins; its expiry ends the wait. A copy that fails once is written again. RIM_MARGIN_READ_DONE with both copies within MARGIN_BITS and their CRC right commits: the proof's record goes on top of the rims and NAND_DIVERGED clears; a save's record goes on top, the relation is PENDING on it, the module enters HELD, and the dirty bits of the committed plaits are clear. (R31, R113, R125, R140, R141, R142, R151) -/
def Obligations.RimCommit : Prop :=
  (∀ (b : Bool) (j : RimJob) (p : Page) (s : State), s.nand.rimJob = some j → (getCopy j b).programmed = false → (getCopy j b).page = some p →
    (dieOf s (getCopy j b).die).op = .busy (.rim b p) → Completes (.rimProgramDone b true) s fun t =>
    (∃ i, t.nand.rimJob = some i ∧ i.rim = j.rim ∧ i.use = j.use ∧ getCopy i b = { getCopy j b with programmed := true } ∧
      getCopy i (!b) = getCopy j (!b) ∧ i.dwell = (getCopy j (!b)).programmed) ∧ (dieOf t (getCopy j b).die).op = .idle ∧
    (groupOf t p.die p.block).wp = p.page + 1 ∧
    t.nand.rims = s.nand.rims ∧ t.aon = s.aon ∧ t.nand.dram = s.nand.dram ∧ t.cfl = s.cfl) ∧
  (∀ (b : Bool) (j : RimJob) (p : Page) (s : State), s.nand.rimJob = some j → (getCopy j b).programmed = false → (getCopy j b).page = some p →
    (dieOf s (getCopy j b).die).op = .busy (.rim b p) → (getCopy j b).attempts = 0 →
    Completes (.rimProgramDone b false) s fun t =>
      (∃ i, t.nand.rimJob = some i ∧ i.rim = j.rim ∧ (getCopy i b).programmed = false ∧ (getCopy i b).page = none ∧
        (getCopy i b).attempts = 1 ∧ i.dwell = false) ∧ t.nand.rims = s.nand.rims ∧ t.aon = s.aon) ∧
  (∀ (j : RimJob) (s : State), s.nand.rimJob = some j → exec .rimDwellExpiry s =
    .next { s with nand := { s.nand with rimJob := some { j with dwell := false } } }) ∧
  (∀ (j : RimJob) (a b : MarginRead) (s : State), s.nand.rimJob = some j → j.dwell = false → j.a.programmed = true → j.b.programmed = true →
    j.use = .eraseProof → marginPasses s.nand.profile a = true → marginPasses s.nand.profile b = true →
    Completes (.rimMarginReadDone a b) s fun t =>
      (∃ r, t.nand.rims = r :: s.nand.rims ∧ r.seq = j.rim.seq ∧ r.type = j.rim.type) ∧ t.nand.rimJob = none ∧ t.aon.nandDiverged = false ∧
      t.aon.hold = s.aon.hold ∧ t.aon.img = s.aon.img ∧ t.nand.dram = s.nand.dram ∧ t.cfl = s.cfl) ∧
  (∀ (j : RimJob) (v : Save) (a b : MarginRead) (s : State), s.nand.rimJob = some j → j.dwell = false → j.a.programmed = true →
    j.b.programmed = true → j.use = .saveRim → s.map.save = some v → marginPasses s.nand.profile a = true →
    marginPasses s.nand.profile b = true → Completes (.rimMarginReadDone a b) s fun t =>
      t.aon.hold = .held ∧ t.aon.img = .pending ∧ t.aon.stale = false ∧ t.nand.chosen = some j.rim.seq ∧ t.map.save = none ∧
      (∃ r, t.nand.rims = r :: s.nand.rims ∧ r.seq = j.rim.seq) ∧ t.nand.rimJob = none ∧
      (∀ g, rsMem v.committed g = true → rsMem t.map.dirty g = false))

/-- PARK_WAIT_EXPIRY in PARK returns to SERVE without a save, or, where the save path was lost meanwhile, goes on to FAULT with its cause (T11, T19). RESTORE_WAIT_EXPIRY in SERVE drops the waiting request. DESCRIPTOR_RELOAD_DONE with no change waiting only makes the descriptors of now valid; with one, the new map takes effect. COVER_RECOMPUTE in SERVE and PARK puts the coverage that the present energy gives in force. (R30, R31, R44, R108, R121, R160, R179, R182) -/
def Obligations.WaitsAndDescriptors : Prop :=
  (∀ s : State, s.aon.hold = .park → s.pins.bulk ≠ .droop → Completes .parkWaitExpiry s fun t =>
    (t.aon.hold = .serve ∨ t.aon.hold = .fault) ∧
    (t.aon.hold = .fault → ∃ c ∈ [FaultCause.rimArea, .stripe, .laneHalt, .coreDomain], t.aon.faults = [c]) ∧
    t.aon.img = s.aon.img ∧ t.aon.cause = .none ∧
    t.nand.rims = s.nand.rims ∧ t.nand.dram = s.nand.dram ∧ t.cfl = s.cfl) ∧
  (∀ (q : RestoreReq) (s : State), s.rst.req = some q → s.aon.hold = .serve → Completes .restoreWaitExpiry s fun t =>
    t.rst = { s.rst with req := none } ∧ t.aon = s.aon ∧ t.nand = s.nand ∧ t.hp = s.hp ∧ t.cfl = s.cfl) ∧
  (∀ s : State, isOn s 8 = true → s.mg.running = true → s.map.reload = none → Completes .descriptorReloadDone s fun t =>
    t.map.descriptors = true ∧ t.map.descDies = usableDies s ∧ (∀ x : Tenant, t.map.classes[x.val] = attrClass (attrOf s x)) ∧
    t.map.dirty = s.map.dirty ∧ t.ten = s.ten ∧ t.aon = s.aon ∧ t.nand = s.nand) ∧
  (∀ (r : Reload) (s : State), isOn s 8 = true → s.mg.running = true → s.map.reload = some r → Completes .descriptorReloadDone s fun t =>
    t.map.descriptors = true ∧ t.map.reload = none ∧ t.ten = { s.ten with map := r.map } ∧
    (∀ g, rsMem s.map.dirty g = true → rsMem t.map.dirty g = true) ∧ t.nand = s.nand ∧ t.aon.hold = s.aon.hold) ∧
  (∀ s : State, s.mg.running = true → (s.aon.hold = .serve ∨ s.aon.hold = .park) → Completes .coverRecompute s fun t =>
    t.map = { s.map with cover := coverOf (refreshEnergy s) } ∧ t.bat.eavail = (refreshEnergy s).bat.eavail ∧
    t.aon = { s.aon with parkAlarm := t.aon.parkAlarm } ∧ t.nand = s.nand ∧ t.ten = s.ten ∧ t.hp = s.hp ∧ t.rst = s.rst ∧ t.cfl = s.cfl)

/-- SETTLE starts by itself where it may run and FREE groups or layers call for it, and stops by itself at its stop thresholds: a fold that waits does not start, one whose word line is being programmed goes on. A fold program that passes moves the group's pointer on and keeps what it copied; one that fails retires the group. While SETTLE runs, a margin read that passes on a word line that is not the last moves the read on; a first failure makes the group ERASE_PENDING, a second retires it. An erase that passes waits for its checkpoint; one that fails retires the group. A read within the thresholds notes its wear only; one that does not decode is noted against the restore. (R134, R135, R139, R145, R146, R148, R153, R154, R155, R157, R167) -/
def Obligations.SettlingAndWear : Prop :=
  (∀ s : State, settleAllowed s = true → s.nand.settle.running = false →
    (freeBelow s s.nand.settle.startFree = true ∨ s.nand.settle.startLayers < layerCount s) → Completes .settleAutoStart s fun t =>
      t.nand.settle.running = true ∧ t.nand.rims = s.nand.rims ∧ t.nand.dram = s.nand.dram ∧ t.aon.hold = s.aon.hold ∧ t.cfl = s.cfl) ∧
  (∀ s : State, s.nand.settle.running = true → freeBelow s s.nand.settle.stopFree = false → layerCount s ≤ s.nand.settle.stopLayers →
    Completes .settleAutoStop s fun t => t.nand.settle.running = false ∧
      (∀ d : Die, dieOf t d = { dieOf s d with op := if (dieOf s d).op = .ready .fold then .idle else (dieOf s d).op }) ∧
      t.nand.groups = s.nand.groups ∧ t.nand.rims = s.nand.rims ∧ t.nand.layers = s.nand.layers ∧ t = { s with nand := t.nand }) ∧
  (∀ (d : Die) (f : FoldDie) (s : State), (dieOf s d).op = .busy .fold → foldOf s d = some f → s.nand.settle.running = false →
    s.map.save = none → s.nand.tab = none → Completes (.foldProgramDone d .pass) s fun t =>
      (∃ g, foldOf t d = some g ∧ g.wp = f.wp + 1 ∧ g.block = f.block ∧ g.busy = false ∧ g.read = f.read ∧ g.taking = [] ∧
        g.copied = f.copied ++ f.taking.zipIdx.map (fun x => { x.1 with page := { die := d, block := f.block, page := 3 * f.wp + x.2 } })) ∧
      (dieOf t d).op = .idle ∧ (groupOf t d f.block).wp = f.wp + 1 ∧ (groupOf t d f.block).role = .baseOpen ∧ t.nand.rims = s.nand.rims ∧
      t.nand.dram = s.nand.dram ∧ t.aon = s.aon) ∧
  (∀ (d : Die) (f : FoldDie) (x : Fin 4) (s : State), (dieOf s d).op = .busy .fold → foldOf s d = some f → s.nand.settle.running = false →
    s.map.save = none → s.nand.tab = none → (groupOf s d f.block).role = .baseOpen → Completes (.foldProgramDone d (.fail x)) s fun t =>
      foldOf t d = none ∧ ((groupOf t d f.block).role = .retiring ∨ (groupOf t d f.block).role = .grownBad) ∧ t.nand.rims = s.nand.rims ∧
      t.aon = s.aon) ∧
  (∀ (d : Die) (f : FoldDie) (x : Fin 4) (n : ℕ) (s : State), foldOf s d = some f → s.aon.hold = .serve → s.nand.settle.running = true →
    f.read < foldReadable s f → f.closing = false → f.read + 1 < s.nand.profile.wls → n ≤ s.nand.profile.marginBits →
    Completes (.foldMarginReadDone d { bits := some n, plane := x }) s fun t =>
      foldOf t d = some { f with read := f.read + 1 } ∧ t.nand.rims = s.nand.rims ∧ t.aon = s.aon) ∧
  (∀ (d : Die) (f : FoldDie) (x : Fin 4) (s : State), foldOf s d = some f → s.aon.hold = .serve → s.nand.settle.running = true →
    f.read < foldReadable s f → f.closing = false → (groupOf s d f.block).role = .baseOpen →
    Completes (.foldMarginReadDone d { bits := none, plane := x }) s fun t =>
      t.nand.rims = s.nand.rims ∧ t.nand.dram = s.nand.dram ∧
      ((d, f.block) ∉ s.nand.settle.marginFailed →
        (d, f.block) ∈ t.nand.settle.marginFailed ∧ (groupOf t d f.block).role = .erasePending) ∧
      ((d, f.block) ∈ s.nand.settle.marginFailed →
        ((groupOf t d f.block).role = .retiring ∨ (groupOf t d f.block).role = .grownBad))) ∧
  (∀ (d : Die) (b : ℕ) (s : State), (dieOf s d).op = .busy (.erase b) → (groupOf s d b).role = .erasePending →
    (groupOf s d b).erases + 1 < 10 * s.nand.profile.pslcPe → s.nand.settle.running = false → s.map.save = none → s.nand.tab = none →
    Completes (.blockEraseDone d b .pass) s fun t =>
      t.nand.erased = s.nand.erased ++ [(d, b)] ∧ (dieOf t d).op = .idle ∧ groupOf t d b = groupOf s d b ∧ t.aon = s.aon ∧
      t.nand.dram = s.nand.dram ∧ t.cfl = s.cfl) ∧
  (∀ (d : Die) (b : ℕ) (x : Fin 4) (s : State), (dieOf s d).op = .busy (.erase b) → (groupOf s d b).role = .erasePending →
    hasLive s d b = false → s.nand.bbt.length < 4096 → Completes (.blockEraseDone d b (.fail x)) s fun t =>
      (groupOf t d b).role = .grownBad ∧ t.nand.bbt = s.nand.bbt ++ [{ cause := 2, die := d, plane := x.val, block := b }] ∧
      t.nand.rims = s.nand.rims) ∧
  (∀ (p : Page) (x : Fin 4) (g q n : ℕ) (s : State), (dieOf s p.die).present = true → n ≤ s.nand.profile.warnBits → n ≤ s.nand.profile.retireBits →
    exec (.nandReadDone p x g q (.hard n)) s =
      .next (setDie s p.die (fun x => { x with maxRetry := max x.maxRetry 0, maxCorr := max x.maxCorr n }))) ∧
  (∀ (p : Page) (x : Fin 4) (g q : ℕ) (r : RestoreRun) (s : State), (dieOf s p.die).present = true → s.rst.run = some r → r.streaming = true →
    Completes (.nandReadDone p x g q .fail) s fun t =>
      t.rst.run = some { r with failed := r.failed ++ [(g, q)] } ∧ t.nand.rims = s.nand.rims ∧ t.nand.dram = s.nand.dram)

/-- In RESTORE: a record whose tables pass is loaded, and where they do not, the other retained record that passes takes its place, stale; the stream starts after takeover and load, at its time, with a die that can be read; its end replays the image into the DRAM; the zero fill empties the granules that no copy or a zeroed tenant holds and starts the RESTORED record. Then data end, refresh, the mode replay of the captured set, SRE on every rank, release (only once the record has committed) with DQ at the host and QCK from its DCK, and READY: SERVE with img=TRACK and the report kept, or FAULT when the save path is lost; with DRST_L held low, which is forwarded from then on, TRACK falls to NONE at once. Rims, and the code flash, stay as they are. (R31, R84, R97, R102, R103, R163, R165, R166, R168, R169, R171, R172) -/
def Obligations.RestoreAndHandback : Prop :=
  (∀ (r : RestoreRun) (bd : List (ℕ × Bool)) (bt : List (ℕ × ℕ)) (s : State), s.aon.hold = .restore → s.rst.run = some r → r.loaded = false →
    (recordPasses s bd bt r.rim = true →
      exec (.restoreLoadDone bd bt) s = .next { s with rst := { s.rst with run := some { r with loaded := true, written := [] } } }) ∧
    (∀ x, recordPasses s bd bt r.rim = false → otherRim s r.rim = some x → recordPasses s bd bt x = true →
      Completes (.restoreLoadDone bd bt) s fun t => t.aon = { s.aon with stale := true } ∧ t.nand.chosen = some x.seq ∧
        (∃ y, t.rst.run = some y ∧ y.rim = x ∧ y.stale = true ∧ y.rimfb = true ∧ y.loaded = true) ∧ t.nand.rims = s.nand.rims ∧
        t.nand.dram = s.nand.dram)) ∧
  (∀ (r : RestoreRun) (s : State), s.aon.hold = .restore → s.rst.run = some r → r.takeoverDone = true → r.loaded = true → r.streaming = false →
    r.streamDone = false → r.notBefore ≤ s.warp.ns → plaitOrder.any (readable s) = true →
    exec .streamStart s = .next { s with rst := { s.rst with run := some { r with streaming := true } } }) ∧
  (∀ (r : RestoreRun) (s : State), s.aon.hold = .restore → s.rst.run = some r → r.streaming = true → r.streamDone = false →
    Completes .streamEnd s fun t => t.nand = { s.nand with dram := (replayImage s r).dram } ∧
      (∃ x, t.rst.run = some x ∧ x.streamDone = true ∧ x.streaming = false ∧ x.lost = (replayImage s r).left ∧ x.older = (replayImage s r).older) ∧
      t = { s with nand := t.nand, rst := t.rst }) ∧
  (∀ (r : RestoreRun) (s : State), s.aon.hold = .restore → s.rst.run = some r → r.takeoverDone = true → r.streamDone = true → r.zeroDone = false →
    Completes .zeroFillEnd s fun t =>
      t.nand.dram = s.nand.dram.fill (if r.short = true then zeroedGranules s r else rsUnion (zeroedGranules s r) r.lost) .zero ∧
      t.hp = { s.hp with phase := .dataEnd } ∧ (∃ x, t.rst.run = some x ∧ x.zeroDone = true) ∧
      (∃ j, t.nand.rimJob = some j ∧ j.use = .restoredRim ∧ (r.imageLost = false → j.rim.type = .restored)) ∧ t.nand.rims = s.nand.rims ∧ t.aon = s.aon) ∧
  (∀ s : State, s.aon.hold = .restore → s.hp.phase = .dataEnd → exec .handbackDataEnd s = .next { s with hp := { s.hp with phase := .refresh } }) ∧
  (∀ s : State, s.aon.hold = .restore → s.hp.phase = .refresh → exec .handbackRefreshEnd s = .next { s with hp := { s.hp with phase := .replay } }) ∧
  (∀ (r : RestoreRun) (s : State), s.aon.hold = .restore → s.hp.phase = .replay → s.rst.run = some r → exec .modeReplayDone s =
    .next { s with hp := { s.hp with phase := .sre, replayed := (replaySet s r.rim).map (replayValue s) } }) ∧
  (∀ (r : RestoreRun) (s : State), s.aon.hold = .restore → s.hp.phase = .sre → s.rst.run = some r → Completes .handbackSreDone s fun t =>
    t.hp.phase = .waitRelease ∧ t.hp.rows = [] ∧ (∀ (x : Sub) (k : Rank), (x, k) ∈ t.hp.selfRef ↔ k.val < geoNR s.map.geom) ∧
    t.rst.run = some { r with sreDone := true } ∧ t = { s with hp := t.hp, rst := t.rst, nand := { s.nand with dramSr := true } }) ∧
  (∀ (r : RestoreRun) (s : State), s.aon.hold = .restore → s.hp.phase = .waitRelease → s.rst.run = some r → r.sreDone = true →
    (r.committed.isSome = true → exec .handbackRelease s = .next { s with hp := { s.hp with phase := .ready }, pins := { s.pins with
      dqswA := false, dqswB := false, port := false, qck := .dck } }) ∧
    (r.committed = none → exec .handbackRelease s = .next s)) ∧
  (∀ (r : RestoreRun) (s : State), s.aon.hold = .restore → s.hp.phase = .ready → s.rst.run = some r → r.imageLost = false → s.pins.bulk ≠ .droop →
    Completes .handbackReady s fun t =>
      (t.aon.hold = .serve ∨ t.aon.hold = .fault) ∧ t.aon.img = (if s.pins.drstHigh = true then .track else .none) ∧ t.aon.stale = false ∧
      t.rst.run = none ∧ t.rst.req = none ∧
      (∃ p, t.rst.report = some p ∧ p.rseq = r.rim.seq ∧ p.short = r.short ∧ p.older = r.older ∧ p.lost = r.lost) ∧
      t.nand.rims = s.nand.rims ∧ (s.pins.drstHigh = true → t.nand.dram = s.nand.dram) ∧ t.cfl = s.cfl)

/-- On a bus in use and at known rates in LISTEN, a received extended frame without BRS from another node is counted as a miss when no pair matches, and enters Q1 for a bridge pair, in the lowest free entry and with its arrival number; remote and base frames change no queue. RATE_CANDIDATE_TIMEOUT tries the next candidate; after a whole round none is confirmed, which is the fault no valid frame, as log entry 84 reads it. DATA_RATE_TIMEOUT records classical-only. An error of a node that listens is counted with its kind and leaves TEC and REC. Integration ends DETECTING in ACTIVE. A gap discards its partial message and counts it. (R224, R229, R232, R233, R234, R235, R237, R243, R244, R258) -/
def Obligations.BusReceptionAndDetection : Prop :=
  (∀ (x : Frame) (run : ℕ) (s : State), frameOk .extended x = true → s.shb.mode = .listen → s.shb.nrate ≠ 0 → x.brs = false →
    idSrc x.id ≠ s.aon.opt.nodeId → matchingPair s x = none → Completes (.frameReceived .extended x run) s fun t =>
      t.shb.counts = { s.shb.counts with miss := s.shb.counts.miss + 1 } ∧ t.shb.q0 = s.shb.q0 ∧ t.shb.q1 = s.shb.q1 ∧
      t = { s with shb := t.shb }) ∧
  (∀ (x : Frame) (run : ℕ) (n : ℕ) (i : Fin 64) (s : State), frameOk .extended x = true → s.shb.mode = .listen → s.shb.nrate ≠ 0 → x.brs = false →
    idSrc x.id ≠ s.aon.opt.nodeId → matchingPair s x = some n → 16 ≤ n → freeQ1 s.shb = some i → Completes (.frameReceived .extended x run) s fun t =>
      t.shb.q1[i.val] = some { frame := x, seq := s.shb.q1seq % 65536, pair := n, ts := s.warp.ns, locked := false } ∧
      (∀ j : Fin 64, j ≠ i → t.shb.q1[j.val] = s.shb.q1[j.val]) ∧ t.shb.q0 = s.shb.q0 ∧ t = { s with shb := t.shb, i3c := t.i3c }) ∧
  (∀ (f : FrameForm) (x : Frame) (run : ℕ) (s : State), f ≠ .extended → Completes (.frameReceived f x run) s fun t =>
    t.shb.q0 = s.shb.q0 ∧ t.shb.q1 = s.shb.q1 ∧ t.shb.partials = s.shb.partials ∧ t.aon = s.aon ∧ t.nand = s.nand ∧ t.cfl = s.cfl ∧ t.mg = s.mg) ∧
  (∀ s : State, s.shb.mode = .detecting → s.shb.nrate = 0 → Completes .rateCandidateTimeout s fun t =>
    t.shb = { s.shb with cand := if s.shb.cand ≤ 1 then 4 else s.shb.cand - 1, validRun := 0, errRun := 0,
                         noFrame := s.shb.noFrame || decide (s.shb.cand ≤ 1) } ∧
    t = { s with shb := t.shb, log := t.log } ∧ (1 < s.shb.cand ∨ s.shb.noFrame = true → t.log = s.log)) ∧
  (∀ s : State, s.aon.opt.dataRate = 0 → s.shb.nrate ≠ 0 → s.shb.drate = 0 → Completes .dataRateTimeout s fun t =>
    t.shb.drate = 1 ∧ t.aon = s.aon ∧ t.nand = s.nand ∧ t.cfl = s.cfl ∧ t.mg = s.mg) ∧
  (∀ (e : BusErr) (tx brs : Bool) (s : State), s.shb.mode = .listen → Completes (.busError e tx brs) s fun t =>
    t.shb.counts = countErr s.shb.counts e ∧ t.shb.last = lastCode e ∧ t.shb.tec = s.shb.tec ∧ t.shb.recCnt = s.shb.recCnt ∧
    t.aon = s.aon ∧ t.nand = s.nand ∧ t.cfl = s.cfl ∧ t.mg = s.mg) ∧
  (∀ s : State, s.shb.integrating = true → s.shb.mode = .detecting → Completes .busIntegrated s fun t =>
    t.shb.mode = .active ∧ t.shb.integrating = false ∧ t.shb.stuck = false ∧ t.aon = s.aon ∧ t.nand = s.nand ∧ t.cfl = s.cfl) ∧
  (∀ (src : NodeId) (cls : BitVec 3) (type : BitVec 6) (tag : BitVec 10) (s : State),
    s.shb.partials.any (fun p => p.is src cls type tag) = true → Completes (.reassemblyGap src cls type tag) s fun t =>
      t.shb.partials = s.shb.partials.filter (fun p => !p.is src cls type tag) ∧ t.shb.counts.reasm = s.shb.counts.reasm + 1 ∧
      t = { s with shb := t.shb })

/-- In ACTIVE after integration with nothing on the wire, FRAME_SOF puts the competing frame of lowest identifier on it, the lowest mailbox first. A mailbox whose frame has gone out is DONE. A frame that lost arbitration without cancel or attempt limit is PENDING again and counted. In BUSOFF the policy asks for recovery when fewer than its count fell in the last hour, and recovery ends in ACTIVE with TEC and REC 0. A stuck RXD asks for integration. BEACON_TIMER with room in the FIFO queues one frame behind what waits. (R230, R240, R241, R242, R243, R244, R245, R258) -/
def Obligations.BusTransmissionAndBusOff : Prop :=
  (∀ (id : CanId) (n : Fin 16) (s : State), s.shb.mode = .active → s.shb.integrating = false → s.shb.onWire = .idle →
    lowestId (competing s) = some (id, .mbox n) → Completes .frameSof s fun t =>
      t.shb.onWire = .mbox n ∧ (t.shb.mbox[n.val]).status = .active ∧ (∀ m : Fin 16, m ≠ n → t.shb.mbox[m.val] = s.shb.mbox[m.val]) ∧
      (∀ m : Fin 16, (s.shb.mbox[m.val]).status = .pending → (s.shb.mbox[n.val]).id ≤ (s.shb.mbox[m.val]).id) ∧
      t.shb.fifo = s.shb.fifo ∧ t = { s with shb := t.shb, warp := t.warp }) ∧
  (∀ (n : Fin 16) (s : State), s.shb.onWire = .mbox n → idClass (s.shb.mbox[n.val]).id ≠ 0 → Completes .frameTxDone s fun t =>
    t.shb.onWire = .idle ∧ (t.shb.mbox[n.val]).status = .done ∧ t.shb.tec = s.shb.tec - 1 ∧
    (∀ m : Fin 16, m ≠ n → t.shb.mbox[m.val] = s.shb.mbox[m.val]) ∧ (t.shb.sent.head?.map (fun x => x.id)) = some (s.shb.mbox[n.val]).id ∧
    t.aon = s.aon ∧ t.nand = s.nand ∧ t.cfl = s.cfl ∧ t.mg = s.mg) ∧
  (∀ (n : Fin 16) (s : State), s.shb.onWire = .mbox n → (s.shb.mbox[n.val]).abort = false → (s.shb.mbox[n.val]).cancel = false →
    (s.shb.mbox[n.val]).attempts = 0 → Completes .arbitrationLost s fun t =>
      t.shb.onWire = .idle ∧ (t.shb.mbox[n.val]).status = .pending ∧ t.shb.counts.arblost = s.shb.counts.arblost + 1 ∧
      t = { s with shb := t.shb }) ∧
  (∀ s : State, s.shb.mode = .busoff → s.shb.recovering = false → s.mg.running = true →
    (s.shb.recov.filter (fun x => decide (s.aon.us < x + 3600000000))).length < s.shb.recovMax → Completes .busoffRecoveryPolicy s fun t =>
      t.shb.recovering = true ∧ t.shb.recov = s.shb.recov.filter (fun x => decide (s.aon.us < x + 3600000000)) ++ [s.aon.us] ∧
      t = { s with shb := t.shb }) ∧
  (∀ s : State, s.shb.mode = .busoff → s.shb.recovering = true → Completes .busoffRecoveryDone s fun t =>
    t.shb.mode = .active ∧ t.shb.tec = 0 ∧ t.shb.recCnt = 0 ∧ t.shb.recovering = false ∧ t.shb.passive = false ∧ t.aon = s.aon ∧
    t.nand = s.nand ∧ t.cfl = s.cfl) ∧
  (∀ s : State, s.shb.mode ≠ .off → Completes .rxdStuck s fun t =>
    t.shb = { s.shb with stuck := true, integrating := s.shb.integrating || decide (s.shb.mode = .active) } ∧ t.aon = s.aon ∧ t.nand = s.nand ∧
    t.cfl = s.cfl) ∧
  (∀ s : State, s.mg.running = true → isOn s 5 = true → s.shb.beaconNs ≠ 0 → s.shb.fifo.length < 32 → s.mg.txFeed = [] → Completes .beaconTimer s fun t =>
    (∃ x : Frame, t.shb.fifo = s.shb.fifo ++ [x] ∧ idClass x.id = 5 ∧ idType x.id = 0 ∧ idSrc x.id = s.aon.opt.nodeId ∧
      x.data.take 3 = [holdByte s, coverByte s, BitVec.ofNat 8 s.bat.margin.code] ∧ x.data.length = 8) ∧
    t = { s with shb := { s.shb with fifo := t.shb.fifo } })

/-- While the window answers: WIN_EN is written; clearing it aborts PENDING bridge mailboxes; Q1_FLUSH empties every entry that is not locked; writing ones to BW_IRQ clears those bits; a release frees one Q1 entry; Q1OVF reads 0 after its write. A read of an entry's first word returns it and locks the entry, a read of word 19 frees it. A request of a bridge mailbox at rest under WIN_EN makes it PENDING, or REFUSED by the rule of R240, and a cancel of a PENDING one makes it CANCELLED. A write of a mailbox identifier changes that word only. Window offsets that R247 reserves take nothing. (R238, R240, R241, R246, R247, R248, R250, R251, R252, R254, R255, R257) -/
def Obligations.BridgeWindow : Prop :=
  (∀ s : State, windowOn s = true →
    exec (.bwCtrlWinEn true) s = .next { s with shb := { s.shb with winEn := true } }) ∧
  (∀ s : State, windowOn s = true → s.shb.winEn = true → Completes (.bwCtrlWinEn false) s fun t =>
    t.shb.winEn = false ∧ (∀ n : Fin 16, 8 ≤ n.val → (s.shb.mbox[n.val]).status = .pending → (t.shb.mbox[n.val]).status = .aborted) ∧
    (∀ n : Fin 16, n.val < 8 → t.shb.mbox[n.val] = s.shb.mbox[n.val]) ∧ t.shb.q1 = s.shb.q1 ∧ t = { s with shb := t.shb, i3c := t.i3c }) ∧
  (∀ s : State, windowOn s = true → Completes .bwCtrlQ1Flush s fun t =>
    (∀ n : Fin 64, t.shb.q1[n.val] = (s.shb.q1[n.val]).filter (fun e => e.locked)) ∧ t = { s with shb := { s.shb with q1 := t.shb.q1 } }) ∧
  (∀ (m : Word) (s : State), windowOn s = true → exec (.bwIrqClear m) s = .next { s with shb := { s.shb with irq := s.shb.irq &&& ~~~m } }) ∧
  (∀ (i : BitVec 6) (s : State), windowOn s = true → Completes (.bwRelease i) s fun t =>
    (∀ n : Fin 64, t.shb.q1[n.val] = if n.val = i.toNat then none else s.shb.q1[n.val]) ∧ t = { s with shb := { s.shb with q1 := t.shb.q1 } }) ∧
  (∀ s : State, windowOn s = true → exec .bwQ1ovfClear s = .next { s with shb := { s.shb with q1ovf := 0 } }) ∧
  (∀ (i : Fin 64) (e : Q1Entry) (s : State), windowOn s = true → s.shb.q1[i.val] = some e →
    Completes (.q1EntryRead (BitVec.ofNat 6 i.val) 0) s (fun t => t.i3c.reply = leBytes 4 e.frame.id.toNat ∧
      t.shb.q1[i.val] = some { e with locked := true } ∧ t = { s with shb := { s.shb with q1 := t.shb.q1 }, i3c := t.i3c }) ∧
    Completes (.q1EntryRead (BitVec.ofNat 6 i.val) 19) s (fun t => t.i3c.reply = leBytes 4 (leAt e.frame.data 60 4) ∧
      t.shb.q1[i.val] = none)) ∧
  (∀ (m : Fin 8) (w : Word) (s : State), windowOn s = true → s.shb.winEn = true → (s.shb.mbox[8 + m.val]).status.isFinal = true →
    w.getLsbD 9 = false → Completes (.txctlRequest m w) s fun t =>
      (t.shb.mbox[8 + m.val]).status = (if mboxRefused s.shb (8 + m.val) (s.shb.mbox[8 + m.val]).id (w.getLsbD 6) (w.getLsbD 5) = true then .refused else .pending) ∧
      (t.shb.mbox[8 + m.val]).dlc = w.extractLsb' 0 4 ∧ (t.shb.mbox[8 + m.val]).attempts = (w.extractLsb' 20 4).toNat ∧
      t = { s with shb := t.shb, i3c := t.i3c }) ∧
  (∀ (m : Fin 8) (s : State), windowOn s = true → (s.shb.mbox[8 + m.val]).status = .pending → Completes (.txctlCancel m) s fun t =>
    (t.shb.mbox[8 + m.val]).status = .cancelled ∧ (∀ n : Fin 16, n.val ≠ 8 + m.val → t.shb.mbox[n.val] = s.shb.mbox[n.val]) ∧
    t = { s with shb := t.shb, i3c := t.i3c }) ∧
  (∀ (m : Fin 8) (w : Word) (s : State), windowOn s = true → (s.shb.mbox[8 + m.val]).status.isFinal = true →
    Completes (.bridgeRegisterWrite (0x400 + 0x80 * m.val) w) s fun t =>
      t.shb.mbox[8 + m.val] = { s.shb.mbox[8 + m.val] with id := w.extractLsb' 0 29 } ∧
      (∀ n : Fin 16, n.val ≠ 8 + m.val → t.shb.mbox[n.val] = s.shb.mbox[n.val]) ∧ t = { s with shb := { s.shb with mbox := t.shb.mbox } }) ∧
  (∀ (w : Word) (s : State), windowOn s = true → ∀ o ∈ [0x1C, 0x38, 0x3C, 0x40, 0x7C, 0x200, 0xFFC], exec (.bridgeRegisterWrite o w) s = .next s)

/-- While VSB is present: an unaddressed target answers ENTDAA with its provisional ID, BCR 0x06 and DCR 0x00 and takes the address it wins; SETNEWDA changes the address; RSTDAA clears it and draws a new instance value; GETPID, GETBCR and GETDCR return the ID and the two bytes; GETSTATUS returns the hold-state byte first; an HSDA mismatch clears the address, draws a new instance value and logs an event. The second byte of GETSTATUS is a free value (log entry 4). (R36, R246, R408, R409) -/
def Obligations.I3cCommonCommandCodes : Prop :=
  (∀ (a : BitVec 7) (s : State), s.pins.vsb = true → s.i3c.dyn = none → Completes (.entdaa a true) s fun t =>
    t.i3c.dyn = some a ∧ t.i3c.hotJoin = false ∧ t = { s with i3c := t.i3c } ∧
    t.i3c.reply = beBytes 6 (0x2B4 * 2 ^ 33 + 0x0960 * 2 ^ 16 + s.i3c.instance_.toNat) ++ [0x06, 0x00]) ∧
  (∀ (a b : BitVec 7) (s : State), s.pins.vsb = true → s.i3c.dyn = some b →
    exec (.setnewda a) s = .next { s with i3c := { s.i3c with dyn := some a } }) ∧
  (∀ s : State, s.pins.vsb = true → Completes .rstdaa s fun t =>
    t.i3c = { s.i3c with dyn := none, instance_ := t.i3c.instance_ } ∧ t = { s with i3c := t.i3c, free := s.free + 1 }) ∧
  (∀ (b : BitVec 7) (s : State), s.pins.vsb = true → s.i3c.dyn = some b →
    exec .getpid s = .next { s with i3c := { s.i3c with reply := beBytes 6 (0x2B4 * 2 ^ 33 + 0x0960 * 2 ^ 16 + s.i3c.instance_.toNat) } } ∧
    exec .getbcr s = .next { s with i3c := { s.i3c with reply := [0x06] } } ∧
    exec .getdcr s = .next { s with i3c := { s.i3c with reply := [0x00] } } ∧
    Completes .getstatus s fun t => t.i3c.reply.head? = some (holdByte s) ∧ t.i3c.reply.length = 2 ∧ t.i3c.dyn = some b ∧
      t = { s with i3c := t.i3c, free := s.free + 1 }) ∧
  (∀ (h : Bool) (s : State), s.pins.vsb = true → Completes (.hsdaMismatch h) s fun t =>
    t.i3c.dyn = none ∧ t.i3c.hotJoin = h ∧ t.i3c.reply = [] ∧ t.aon = s.aon ∧ t.nand = s.nand ∧ t.mg = s.mg ∧ t.shb = s.shb)

/-- A node that hears the bus and has no keeper takes a SYNC's sender as keeper and waits for its FOLLOW_UP; the pair's offset, sender time plus PATH_DELAY less the local time, is applied as trim up to 100 us, and as a step beyond. A missed FOLLOW_UP is counted; lost sync is HOLDOVER. An announcement of a lower keeper is followed. A keeper-capable node in ACTIVE whose time is set, and whose four intervals of following are over, becomes keeper at the election's timeout, and sends a SYNC at each timer. A step is applied at the frame boundary. HOLDOVER becomes WIDE beyond the guard. (R260, R261, R262, R263, R269, R278) -/
def Obligations.WarpFollowsAKeeper : Prop :=
  (∀ (src : NodeId) (tag : BitVec 10) (p : List Byte) (s : State), hears s = true → s.warp.state ≠ .keeper → s.warp.keeper = none →
    p.length = 8 → byteAt p 4 ≤ 5 → exec (.sync src tag p) s = .next { s with warp := { s.warp with
      keeper := some src, await := some { src := src, tag := tag, local_ := s.warp.ns, table := byteAt p 6 % 4 } } }) ∧
  (∀ (src : NodeId) (tag : BitVec 10) (p : List Byte) (a : SyncWait) (s : State), hears s = true → s.warp.state ≠ .keeper → p.length = 8 →
    s.warp.await = some a → a.src = src → a.tag = tag →
    100000 < ((leAt p 0 8 : ℤ) + s.warp.delay - a.local_).natAbs → Completes (.followUp src tag p) s fun t =>
      t.warp = { s.warp with
        await := none, missed := 0, lastSync := some s.aon.us, growthFs := 0, good := 0,
        step := some ((leAt p 0 8 : ℤ) + s.warp.delay - a.local_) } ∧ t = { s with warp := t.warp, free := s.free + 1 }) ∧
  (∀ (src : NodeId) (tag : BitVec 10) (p : List Byte) (a : SyncWait) (s : State), hears s = true → s.warp.state ≠ .keeper → p.length = 8 →
    s.warp.await = some a → a.src = src → a.tag = tag → s.nand.settle.running = false →
    ((leAt p 0 8 : ℤ) + s.warp.delay - a.local_).natAbs ≤ 1000 → 7 ≤ s.warp.good → Completes (.followUp src tag p) s fun t =>
      t.warp.state = .synced ∧ t.warp.good = s.warp.good + 1 ∧ t.warp.lastSync = some s.aon.us ∧ -500000 ≤ t.warp.trim ∧ t.warp.trim ≤ 500000 ∧
      t = { s with warp := t.warp, free := s.free + 1 }) ∧
  (∀ s : State, s.warp.await.isSome = true → s.warp.missed < 3 →
    exec .followUpTimeout s = .next { s with warp := { s.warp with await := none, missed := s.warp.missed + 1 } }) ∧
  (∀ s : State, s.warp.state = .synced → Completes .syncLoss s fun t =>
    t.warp = { s.warp with state := .holdover, keeper := none, await := none, good := 0, missed := 0 } ∧ t.aon = s.aon ∧ t.nand = s.nand) ∧
  (∀ (src : NodeId) (p : List Byte) (s : State), hears s = true → s.warp.state ≠ .keeper → p.length = 8 → byteAt p 2 = 1 → s.warp.keeper = none →
    exec (.keeperAnnounce src p) s = .next { s with warp := { s.warp with candidate := false, keeper := some src, await := none } }) ∧
  (∀ s : State, hears s = true → s.aon.opt.keeperCap = true → s.shb.mode = .active → s.warp.state ≠ .keeper → s.warp.unset_ = false →
    s.warp.followUs ≤ s.aon.us → Completes .keeperElectionTimeout s fun t => t.warp.state = .keeper ∧ t.warp.keeper = some s.aon.opt.nodeId ∧ t.aon = s.aon ∧ t.nand = s.nand) ∧
  (∀ s : State, hears s = true → s.warp.state = .keeper → s.shb.mode = .active → (s.shb.mbox[0]).status.isFinal = true →
    Completes .keeperSyncTimer s fun t => t.warp = { s.warp with syncSeq := (s.warp.syncSeq + 1) % 2 ^ 32 } ∧ (t.shb.mbox[0]).status = .pending ∧
      idClass (t.shb.mbox[0]).id = 0 ∧ idType (t.shb.mbox[0]).id = 0 ∧ t.aon = s.aon ∧ t.nand = s.nand) ∧
  (∀ (o : ℤ) (s : State), s.warp.step = some o → Completes .warpStep s fun t =>
    t.warp = { s.warp with ns := ((s.warp.ns : ℤ) + o).toNat, step := none, frac := 0 } ∧ t.aon = s.aon ∧ t.nand = s.nand) ∧
  (∀ s : State, s.warp.state = .holdover → 11500 < werr s → exec .warpGuardCrossing s = .next { s with warp := { s.warp with state := .wide } })

/-- WARP_COUNT_SAVE stores the count while SYNCED or KEEPER. A SLOT_TABLE sent to this node sets the table it names as it is, to all nodes rotated by the node ID; the active table's new content and a pending switch wait for the frame boundary. STAKE_SET for this node with a trigger in the future arms its entry; STAKE_CANCEL with the stored trigger cancels an ARMED one; a LOG_MARK stake whose trigger has come fires, or is MISSED when it comes more than 1 s late. A keeper notes a REST window for a requester. (R266, R267, R268, R270, R271, R272, R273, R275, R280) -/
def Obligations.SlotTablesAndStakes : Prop :=
  (∀ s : State, s.mg.running = true → (s.warp.state = .synced ∨ s.warp.state = .keeper) → Completes .warpCountSave s fun t =>
    t.warp = { s.warp with stored := some s.warp.ns, storeBad := false } ∧ t = { s with warp := t.warp, store := t.store }) ∧
  (∀ (p : List Byte) (s : State), hears s = true → s.aon.opt.nodeId ≠ 0x3FF → p.length = 8 → BitVec.ofNat 40 (leAt p 0 5) ≠ 0 →
    byteAt p 6 % 64 < 40 → byteAt p 6 / 64 ≠ s.warp.active.val →
    Completes (.slotTable s.aon.opt.nodeId p) s fun t => t.warp.tables[byteAt p 6 / 64 % 4] =
        some { mask := BitVec.ofNat 40 (leAt p 0 5), smax := byteAt p 5 + 1, stagger := byteAt p 6 % 64 } ∧ t.warp.active = s.warp.active ∧
      t = { s with warp := { s.warp with tables := t.warp.tables }, store := t.store }) ∧
  (∀ (p : List Byte) (s : State), hears s = true → p.length = 8 → (BitVec.ofNat 40 (leAt p 0 5) = 0 ∨ 40 ≤ byteAt p 6 % 64) →
    exec (.slotTable 0x3FF p) s = .next { s with warp := { s.warp with discards := s.warp.discards + 1 } }) ∧
  (∀ (x : SlotTable) (n : Fin 4) (s : State), s.warp.staged = some x → s.warp.pending = some n → Completes .frameBoundaryTableSwitch s fun t =>
    t.warp.tables[s.warp.active.val] = some x ∧ t.warp.active = n ∧ t.warp.staged = none ∧ t.warp.pending = none ∧ t = { s with warp := t.warp }) ∧
  (∀ (src : NodeId) (i : Fin 64) (p : List Byte) (s : State), hears s = true → p.length = 8 →
    leAt p 5 2 % 1024 = s.aon.opt.nodeId.toNat → 1 ≤ leAt p 5 2 / 4096 → leAt p 5 2 / 4096 < 8 →
    s.warp.ns < nearTrigger s.warp.ns (leAt p 0 5) → Completes (.stakeSetFrame src (BitVec.ofNat 10 i.val) p) s fun t =>
      t.warp.stakes[i.val] = {
        trigger := nearTrigger s.warp.ns (leAt p 0 5), state := .armed, action := leAt p 5 2 / 4096, arg := byteAt p 7, src := src, late := 0 } ∧ (∀ j : Fin 64, j ≠ i → t.warp.stakes[j.val] = s.warp.stakes[j.val]) ∧
      t = { s with warp := { s.warp with stakes := t.warp.stakes }, bat := { s.bat with restStake := s.bat.restStake || decide (leAt p 5 2 / 4096 = 5) } }) ∧
  (∀ (i : Fin 64) (p : List Byte) (s : State), hears s = true → p.length = 8 → leAt p 5 2 % 1024 = s.aon.opt.nodeId.toNat →
    s.warp.stakes[i.val].trigger / 1000 % 2 ^ 40 = leAt p 0 5 → s.warp.stakes[i.val].state = .armed →
    Completes (.stakeCancelFrame (BitVec.ofNat 10 i.val) p) s fun t =>
      t.warp.stakes[i.val] = { s.warp.stakes[i.val] with state := .cancelled } ∧
      (∀ j : Fin 64, j ≠ i → t.warp.stakes[j.val] = s.warp.stakes[j.val]) ∧ t = { s with warp := { s.warp with stakes := t.warp.stakes } }) ∧
  (∀ (i : Fin 64) (s : State), isOn s 6 = true → s.warp.stakes[i.val].state = .armed → s.warp.stakes[i.val].trigger ≤ s.warp.ns →
    s.warp.stakes[i.val].action = 6 → Completes (.stakeFire i) s fun t =>
      t.warp.stakes[i.val].state = (if s.warp.ns ≤ s.warp.stakes[i.val].trigger + 1000000000 then .fired else .missed) ∧ t.warp.stakes[i.val].trigger = s.warp.stakes[i.val].trigger ∧
      (∀ j : Fin 64, j ≠ i → t.warp.stakes[j.val] = s.warp.stakes[j.val]) ∧ t = { s with warp := t.warp, log := t.log }) ∧
  (∀ (src : NodeId) (p : List Byte) (s : State), hears s = true → p.length = 8 → s.warp.state = .keeper → s.shb.mode = .active →
    Completes (.restRequestFrame src p) s fun t => (∃ w, s.warp.ns + 60000000000 ≤ w ∧ (src, w) ∈ t.warp.rests) ∧ t.aon = s.aon ∧ t.nand = s.nand)

/-- On an open S0 with room in its line a plain character joins the line, and with echo on it is sent back; with echo on 0x08 deletes the last one; a damaged character marks the line with an event; a marked line's end is answered 107. Bytes written to a pipe that end no line and fit its buffer join its line; one byte more than the buffer takes sets OVF. A read of a pipe takes bytes off its output and pads with 0x00; FLUSH empties output and partial input, OVF_CLR clears OVF. Nothing else changes. With S0 ready and echo off, the line end after each of these texts has the same outcome as the command that the text spells, executed on the state whose line is empty again: verbs in any case, options with and without quotes, hexadecimal numbers, a comment behind the verb. (R281, R282, R283, R286, R287, R288) -/
def Obligations.CharactersBytesAndLines : Prop :=
  (∀ (ch : Byte) (s : State), (getSes s 0).isOpen = true → (getSes s 0).echo = false → endsLine ch = false → (getSes s 0).lineErr ≠ some 102 →
    (getSes s 0).line.length < 512 →
    exec (.consoleCharacter ch false) s = .next (setSes s 0 (fun q => { q with line := q.line ++ [ch] }))) ∧
  (∀ (ch : Byte) (s : State), (getSes s 0).isOpen = true → (getSes s 0).echo = true → endsLine ch = false → ch ≠ 0x08 → ch ≠ 0x7F →
    (getSes s 0).lineErr ≠ some 102 → (getSes s 0).line.length < 512 →
    exec (.consoleCharacter ch false) s = .next (setSes s 0 (fun q => { q with line := q.line ++ [ch], out := q.out ++ [ch] }))) ∧
  (∀ s : State, (getSes s 0).isOpen = true → (getSes s 0).echo = true → exec (.consoleCharacter 0x08 false) s =
    .next (setSes s 0 (fun q => { q with line := q.line.dropLast, out := q.out ++ [0x08] }))) ∧
  (∀ (ch : Byte) (s : State), (getSes s 0).isOpen = true → (getSes s 0).lineErr = none → exec (.consoleCharacter ch true) s =
    .next (logEv (setSes s 0 (fun q => { q with lineErr := some 107 })) 2 .lineDamaged 0)) ∧
  (∀ (c : ℕ) (s : State), lineReady s 0 = true → (getSes s 0).echo = false → (getSes s 0).lineErr = some c →
    Completes (.consoleCharacter 0x0D false) s fun t =>
      Answered (setSes s 0 (fun q => { q with line := [], lineErr := none })) t 0 (ERR c)) ∧
  (∀ (x : Bool) (l : List Byte) (s : State), targetAnswers s = true → (getSes s (pipeOf x)).isOpen = true → (∀ b ∈ l, endsLine b = false) →
    (getSes s (pipeOf x)).line.length + l.length ≤ 512 → (getSes s (pipeOf x)).lineErr ≠ some 102 →
    exec (.pipeInWrite x l) s = .next (setSes s (pipeOf x) (fun q => { q with line := q.line ++ l }))) ∧
  (∀ (x : Bool) (l : List Byte) (s : State), targetAnswers s = true → (getSes s (pipeOf x)).isOpen = true →
    1024 - (getSes s (pipeOf x)).line.length < l.length → Completes (.pipeInWrite x l) s fun t => (getSes t (pipeOf x)).ovf = true ∧
      (getSes t (pipeOf x)).lineErr = some 102 ∧ (getSes t (pipeOf x)).line = []) ∧
  (∀ (x : Bool) (n : ℕ) (s : State), targetAnswers s = true → Completes (.pipeOutRead x n) s fun t =>
    t = { setSes s (pipeOf x) (fun q => { q with out := q.out.drop n }) with i3c := { s.i3c with reply := t.i3c.reply } } ∧
    t.i3c.reply.length = n ∧ t.i3c.reply.take (getSes s (pipeOf x)).out.length = (getSes s (pipeOf x)).out.take n) ∧
  (∀ (x : Bool) (s : State), targetAnswers s = true → exec (.pipeCtrlFlush x) s =
    .next (setSes s (pipeOf x) (fun q => { q with out := [], line := [], lineErr := none }))) ∧
  (∀ (x : Bool) (s : State), targetAnswers s = true → exec (.pipeCtrlOvfClr x) s =
    .next (setSes s (pipeOf x) (fun q => { q with ovf := false }))) ∧
  (∀ p ∈ [("STATUS", Instr.status 0), ("log freeze", .logFreeze 0), ("Log Mark code=0x10", .logMark 0 16), ("LOG READ from=5 count=2",
      .logRead 0 (some 5) (some 2)), ("PARK CANCEL", .parkCancel 0), ("AUTH KEEP", .auth 0 2), ("DOMAIN ENABLE 13", .domainEnable 0 13),
      ("SESSION SET notify=ON", .sessionSetNotify 0 1)], ∀ s : State,
    lineReady s 0 = true → (getSes s 0).echo = false → (getSes s 0).lineErr = none → (getSes s 0).line = ascii p.1 →
    exec (.consoleCharacter 0x0A false) s = exec p.2 (setSes s 0 (fun q => { q with line := [] })))

/-- With the firmware on the bus a valid REQUEST with an empty line binds the lowest free session of S1 to S4 to a source that has none; a source bound already is not bound again, and the LSEQ of its last line sends the stored response again; with all four bound another source is sent 408 and nothing opens. The frames go behind those that wait for the transmit FIFO. An invalid REQUEST changes nothing. (R229, R242, R284, R285) -/
def Obligations.TunnelRequests : Prop :=
  (∀ (src : NodeId) (p : List Byte) (s : State), s.mg.running = true → isOn s 5 = true → onBus s = true → recovering s = false →
    requestOk p = true → leAt p 0 2 = 0 → boundTo s src = none → ∀ k ∈ tunnels.find? (fun k => !(getSes s k).isOpen),
    exec (.tunnelRequest src p) s = .next (setSes s k (fun _ => { Ses.opened k with node := some src }))) ∧
  (∀ (src : NodeId) (p : List Byte) (k : Sess) (s : State), s.mg.running = true → isOn s 5 = true → onBus s = true → recovering s = false →
    requestOk p = true → boundTo s src = some k → (getSes s k).busy = none → (getSes s k).queue = [] →
    (getSes s k).lastLseq = some (p.getD 2 0) → Completes (.tunnelRequest src p) s fun t =>
      t.shb.fifo ++ t.mg.txFeed = s.shb.fifo ++ s.mg.txFeed ++
        segment (fdAllowed s.shb) (makeId 3 1 s.aon.opt.nodeId.toNat src.toNat) (getSes s k).lastResp ∧
      t = { s with shb := { s.shb with fifo := t.shb.fifo }, mg := { s.mg with txFeed := t.mg.txFeed } }) ∧
  (∀ (src : NodeId) (p : List Byte) (s : State), s.mg.running = true → isOn s 5 = true → onBus s = true → recovering s = false →
    requestOk p = true → boundTo s src = none → (∀ k ∈ tunnels, (getSes s k).isOpen = true) → Completes (.tunnelRequest src p) s fun t =>
      t.shb.fifo ++ t.mg.txFeed = s.shb.fifo ++ s.mg.txFeed ++ segment (fdAllowed s.shb)
        (makeId 3 1 s.aon.opt.nodeId.toNat src.toNat) (tunnelPayload (p.getD 2 0) false (ERR 408).bytes) ∧
      t = { s with shb := { s.shb with fifo := t.shb.fifo }, mg := { s.mg with txFeed := t.mg.txFeed } }) ∧
  (∀ (src : NodeId) (p : List Byte) (s : State), requestOk p = false → exec (.tunnelRequest src p) s = .next s)

/-- On a session that executes a line at once: a level at or below its own is taken at once; with no KEEP secret S0 takes KEEP or RUN without a MAC; elsewhere AUTH gives a nonce of the level for 30 s. The MAC keyed with the level's secret over the nonce, level, session and serial raises the privilege and clears the level's backoff; another one is answered 203, counted and consumes the nonce; inside the backoff 204; without a nonce 205. NONCE_EXPIRY voids the nonce. AUTH SECRET stores a level's secret wrapped under K_store, a wrapped one when it unwraps under the owner key, else 109. (R295, R296, R297, R298, R304) -/
def Obligations.PrivilegeOfASession : Prop :=
  (∀ (k : Sess) (v : ℕ) (s : State), mayRun s k .view anyState = true → v ≤ 2 → (privOf v).rank ≤ (getSes s k).priv.rank →
    ∀ c ∈ [Instr.auth k v, .authLower k v], Completes c s fun t =>
      Answered (setPriv s k (privOf v)) t k (OK [("priv", .kw (privOf v).text)]) ∧ (getSes t k).priv = privOf v) ∧
  (∀ (v : ℕ) (s : State), mayRun s 0 .view anyState = true → 1 ≤ v → v ≤ 2 → s.mg.secBad = false → s.mg.secKeep = none →
    Completes (.auth 0 v) s fun t => (getSes t 0).priv = privOf v ∧ Said t 0 (OK [("priv", .kw (privOf v).text)])) ∧
  (∀ (k : Sess) (v : ℕ) (s : State), mayRun s k .view anyState = true → v ≤ 2 → (getSes s k).priv.rank < (privOf v).rank →
    s.mg.secBad = false → (k ≠ 0 ∨ s.mg.secKeep ≠ none) → Completes (.auth k v) s fun t => ∃ n, (getSes t k).nonce = some n ∧
      n.level = privOf v ∧ n.until_ = s.aon.us + 30000000 ∧ Said t k (OK [("nonce", .bytes n.bytes), ("ttl", .nat 30)]) ∧
      (getSes t k).priv = (getSes s k).priv ∧ t.aon = s.aon) ∧
  (∀ (k : Sess) (v : ℕ) (n : Nonce) (key : List Byte) (s : State), mayRun s k .view anyState = true → v ≤ 2 →
    (getSes s k).priv.rank < (privOf v).rank → s.mg.secBad = false → (backoffOf s (privOf v)).until_ ≤ s.aon.us →
    (getSes s k).nonce = some n → n.level = privOf v → s.aon.us < n.until_ →
    Completes (.authMac k v (Config.hmacSha384 key (authMessage n.bytes (privOf v) k))) s fun t => (getSes t k).nonce = none ∧
      (secretOf s (privOf v) = some key → (getSes t k).priv = privOf v ∧
        backoffOf t (privOf v) = { fails := 0, until_ := 0 } ∧ Said t k (OK [("priv", .kw (privOf v).text)]))) ∧
  (∀ (k : Sess) (v : ℕ) (n : Nonce) (key mac : List Byte) (s : State), mayRun s k .view anyState = true → v ≤ 2 →
    (getSes s k).priv.rank < (privOf v).rank → s.mg.secBad = false → (backoffOf s (privOf v)).until_ ≤ s.aon.us →
    (getSes s k).nonce = some n → n.level = privOf v → s.aon.us < n.until_ → Completes (.authMac k v mac) s fun t => (getSes t k).nonce = none ∧
      ((secretOf s (privOf v) = none ∨ secretOf s (privOf v) = some key ∧ Config.hmacSha384 key (authMessage n.bytes (privOf v) k) ≠ mac) →
        (getSes t k).priv = (getSes s k).priv ∧ Said t k (ERR 203) ∧
        (backoffOf t (privOf v)).fails = (backoffOf s (privOf v)).fails + 1 ∧
        (backoffOf t (privOf v)).until_ = s.aon.us + backoffSeconds ((backoffOf s (privOf v)).fails + 1) * 1000000)) ∧
  (∀ (k : Sess) (v : ℕ) (mac : List Byte) (s : State), mayRun s k .view anyState = true → v ≤ 2 →
    (getSes s k).priv.rank < (privOf v).rank → s.mg.secBad = false → (s.aon.us < (backoffOf s (privOf v)).until_ →
      Completes (.authMac k v mac) s fun t =>
        Answered s t k (ERR 204 [("wait", .nat (waitSeconds s.aon.us (backoffOf s (privOf v)).until_))])) ∧
    ((backoffOf s (privOf v)).until_ ≤ s.aon.us → (getSes s k).nonce = none → Completes (.authMac k v mac) s fun t =>
      Answered s t k (ERR 205))) ∧
  (∀ (k : Sess) (s : State), exec (.nonceExpiry k) s = .next (setSes s k (fun q => { q with nonce := none }))) ∧
  (∀ (v : ℕ) (b : List Byte) (s : State), mayRun s 0 .keep anyState = true → (v = 1 ∨ v = 2) → b.length = 48 → cfgGuard s 0 = false →
    s.mg.secBad = false → Completes (.authSecretPlain 0 v b) s fun t => secretOf t (privOf v) = some b ∧
      (∀ x, x ≠ privOf v → secretOf t x = secretOf s x) ∧ t.aon = s.aon ∧ t.ten = s.ten ∧ t.nand = s.nand ∧
      Said t 0 (OK [("level", .kw (privOf v).text), ("auth", .kw (authText t))])) ∧
  (∀ (k : Sess) (v : ℕ) (b : List Byte) (s : State), mayRun s k .keep anyState = true → (v = 1 ∨ v = 2) → b.length = 56 →
    s.ten.otk.isSome = true → cfgGuard s k = false → s.mg.secBad = false → Completes (.authSecretWrap k v b) s fun t =>
      (∀ x, unwrapped s b = some x → secretOf t (privOf v) = some x ∧ (∀ y, y ≠ privOf v → secretOf t y = secretOf s y) ∧
        t.aon = s.aon ∧ t.ten = s.ten ∧ t.nand = s.nand) ∧
      (unwrapped s b = none → Answered s t k (ERR 109)))

/-- SESSION SET echo on S0 and notify set the own session's flag; SESSION SET idle at KEEP, between 1 min and 24 h, sets the limit of every session and stores it; SESSION END lowers S0, S5 and S6 to VIEW and closes a tunnel. On the idle limit a session above VIEW falls to VIEW, loses its unlock and is sent a notice; a tunnel also ends. While a command of the session executes the limit does not run out. (R279, R290, R299, R301) -/
def Obligations.SessionSettingsAndIdle : Prop :=
  (∀ (b : Bool) (s : State), mayRun s 0 .view anyState = true → Completes (.sessionSetEcho 0 (if b = true then 1 else 0)) s fun t =>
    Answered (setSes s 0 (fun q => { q with echo := b })) t 0 (OK [("echo", boolVal b)])) ∧
  (∀ (k : Sess) (b : Bool) (s : State), mayRun s k .view anyState = true → Completes (.sessionSetNotify k (if b = true then 1 else 0)) s fun t =>
    Answered (setSes s k (fun q => { q with notify := b })) t k (OK [("notify", boolVal b)])) ∧
  (∀ (k : Sess) (n : ℕ) (s : State), mayRun s k .keep anyState = true → 60000000000 ≤ n → n ≤ 86400000000000 → cfgGuard s k = false →
    Completes (.sessionSetIdle k n) s fun t => Answered (storesCfg { s with mg := { s.mg with idleNs := n } }) t k (OK [("idle", .dur n)])) ∧
  (∀ (k : Sess) (s : State), mayRun s k .view anyState = true → isTunnel k = false → Completes (.sessionEnd k) s fun t =>
    (getSes t k).priv = .view ∧ (getSes t k).unlock = false ∧ (getSes t k).isOpen = true ∧ Said t k (OK [])) ∧
  (∀ (k : Sess) (s : State), mayRun s k .view anyState = true → isTunnel k = true → Completes (.sessionEnd k) s fun t =>
    getSes t k = Ses.closed ∧ ∀ j, j ≠ k → getSes t j = getSes s j) ∧
  (∀ (k : Sess) (s : State), (getSes s k).isOpen = true → (getSes s k).busy = none → isTunnel k = false → (getSes s k).priv ≠ .view →
    (getSes s k).notices = [] → (getSes s k).lost = 0 → Completes (.sessionIdleExpiry k) s fun t =>
      getSes t k = { getSes s k with priv := .view, unlock := false, notices := [EVT [("priv", .kw "VIEW"), ("cause", .kw "IDLE")]] } ∧
      (∀ j, j ≠ k → getSes t j = getSes s j) ∧ t.aon = s.aon ∧ t.nand = s.nand ∧ t.shb = s.shb) ∧
  (∀ (k : Sess) (s : State), (getSes s k).isOpen = true → (getSes s k).busy = none → isTunnel k = true → (getSes s k).priv = .view →
    Completes (.sessionIdleExpiry k) s fun t => getSes t k = Ses.closed ∧ ∀ j, j ≠ k → getSes t j = getSes s j) ∧
  (∀ (k : Sess) (s : State), (getSes s k).busy.isSome = true → exec (.sessionIdleExpiry k) s = .next s)

/-- From the end of the power-on reset an event of severity FAULT takes the next SEQ at the log's end; of another severity it takes a token of its code's bucket, and with no token it is counted there and not recorded. While a lease runs entries are held, 64 at most. A full log drops and counts them, and the 4096th place holds FULL. A tick gives every bucket a token and drops the buckets that are full. The lease's end, or LOG THAW, appends the held entries with DELAYED set, in order. LOG CLEAR leaves one CLEAR entry in a new epoch; LOG FREEZE starts a lease of 10 s; LOG MARK appends a MARK and answers its SEQ. (R320, R328, R332, R333, R335, R338, R339) -/
def Obligations.EventsAndTheLog : Prop :=
  (∀ (d : Dom) (n : BitVec 11) (v : BitVec 3) (a : Vector Word 4) (s : State), s.aon.por = .up → n ≠ 0 → arrivingSev (arrivingCode d n) v a = 5 →
    s.log.lease = none → s.log.full = false → s.log.wrapDue = false → s.log.entries.length < 4095 → Completes (.eventArrival d n v a) s fun t =>
      (∃ e : Entry, t.log.entries = s.log.entries ++ [e] ∧ e.seq = s.log.seq ∧ e.dom = d ∧ e.ev.number = (arrivingCode d n).number ∧
        e.sev = 5 ∧ e.args = a ∧ e.warp = BitVec.ofNat 64 s.warp.ns ∧ e.delayed = false) ∧ t.log.seq = s.log.seq + 1 ∧
      t.log.buckets = s.log.buckets ∧ t = { s with log := t.log }) ∧
  (∀ (d : Dom) (n : BitVec 11) (v : BitVec 3) (a : Vector Word 4) (b : Bucket) (s : State), s.aon.por = .up → n ≠ 0 →
    arrivingSev (arrivingCode d n) v a ≠ 5 → (arrivingCode d n).own = false → s.log.buckets = [b] → b.dom = d → b.ev = arrivingCode d n → b.tokens = 0 → b.suppressed ≠ 0 →
    exec (.eventArrival d n v a) s = .next { s with log := { s.log with buckets := [{ b with suppressed := b.suppressed + 1 }] } }) ∧
  (∀ (d : Dom) (n : BitVec 11) (v : BitVec 3) (a : Vector Word 4) (s : State), s.aon.por = .up → n ≠ 0 →
    arrivingSev (arrivingCode d n) v a = 5 → s.log.lease.isSome = true → Completes (.eventArrival d n v a) s fun t => t.log.entries = s.log.entries ∧ t.log.seq = s.log.seq ∧
      t.log.held.length = (if s.log.held.length < 64 then s.log.held.length + 1 else s.log.held.length) ∧
      t.log.hovf = (if s.log.held.length < 64 then s.log.hovf else s.log.hovf + 1)) ∧
  (∀ (d : Dom) (n : BitVec 11) (v : BitVec 3) (a : Vector Word 4) (s : State), s.aon.por = .up → n ≠ 0 →
    arrivingSev (arrivingCode d n) v a = 5 → s.log.lease = none → s.log.full = true → s.log.wrapDue = false → exec (.eventArrival d n v a) s = .next { s with log := { s.log with drops := s.log.drops + 1 } }) ∧
  (∀ s : State, s.aon.por = .up → (∀ b ∈ s.log.buckets, b.suppressed = 0) → Completes .bucketTick s fun t =>
    t.log = { s.log with buckets := (s.log.buckets.map (fun b => { b with tokens := min 8 (b.tokens + 1) })).filter (fun b => decide (b.tokens ≠ 8)) } ∧
    t = { s with log := t.log }) ∧
  (∀ (e : ℕ) (s : State), s.log.lease = some e → s.log.full = false → s.log.wrapDue = false → s.log.hovf = 0 →
    s.log.entries.length + s.log.held.length ≤ 4095 → s.log.seq.toNat + s.log.held.length < 2 ^ 32 → Completes .freezeLeaseExpiry s fun t =>
      t.log.lease = none ∧ t.log.held = [] ∧ t.log.seq.toNat = s.log.seq.toNat + s.log.held.length ∧
      t.log.entries.map (fun e => (e.dom, e.ev, e.args, e.delayed)) =
        s.log.entries.map (fun e => (e.dom, e.ev, e.args, e.delayed)) ++ s.log.held.map (fun e => (e.dom, e.ev, e.args, true)) ∧
      t = { s with log := t.log }) ∧
  (∀ (k : Sess) (s : State), mayRun s k .view anyState = true → s.log.wrapDue = false → Completes (.logClear k) s fun t =>
    Answered { s with log := t.log } t k (OK [("epoch", .nat (s.log.epoch + 1).toNat)]) ∧ t.log.epoch = s.log.epoch + 1 ∧ t.log.drops = 0 ∧
    t.log.full = false ∧ t.log.entries.map (fun e => (e.seq, e.dom, e.ev, e.args)) =
      [(s.log.seq, 0, .named .clear, mkArgs s.log.entries.length k.val s.log.drops (s.log.epoch + 1).toNat)]) ∧
  (∀ (k : Sess) (s : State), mayRun s k .view anyState = true → Completes (.logFreeze k) s fun t =>
    Answered { s with log := { s.log with lease := some (s.aon.us + 10000000) } } t k
      (OK [("lease", .dur 10000000000), ("held", .nat s.log.held.length)])) ∧
  (∀ (k : Sess) (s : State), mayRun s k .view anyState = true → s.log.lease = none → Completes (.logThaw k) s fun t =>
    Answered s t k (OK [("released", .nat 0)])) ∧
  (∀ (k : Sess) (c : ℕ) (s : State), mayRun s k .run anyState = true → c < 2048 → s.log.lease = none → s.log.full = false → s.log.wrapDue = false →
    s.log.entries.length < 4095 → Completes (.logMark k c) s fun t =>
      Answered { s with log := t.log } t k (OK [("seq", .nat s.log.seq.toNat)]) ∧
      t.log.entries.map (fun e => (e.seq, e.ev, e.args)) =
        s.log.entries.map (fun e => (e.seq, e.ev, e.args)) ++ [(s.log.seq, .named .mark, mkArgs c 0xFFFFFFFF k.val 0)])

/-- On a session that executes a line at once, in every state with sessions, each verb that only reads is answered +OK with the keys that its row gives, in order, and nothing differs but that session's response. STATUS begins with the hold state, the image relation and so on and holds the hold-state word; MAP, BAT, BUS, WARP, LOG, FLASH, FW, SESSION and DIAG LANES, NAND and TEMP answer the state's values. (R307, R308, R310, R312, R313, R316, R317, R318, R319, R320, R321, R323) -/
def Obligations.ReadingVerbsChangeNothing : Prop :=
  (∀ (k : Sess) (s : State), mayRun s k .view anyState = true →
    ∀ p ∈ [(Instr.map k, ["geom", "gran", "grans", "dirty", "dc", "dies", "hfree"]),
        (.bat k, ["pack", "chg", "soc", "sigma", "est", "eavail", "margin", "fade", "zgrow", "cycles", "cells", "temp", "ntc", "retry"]),
        (.bus k, ["mode", "nrate", "drate", "node", "keeper", "tec", "rec", "stuff", "form", "ack", "bit", "crc", "arblost", "miss", "q0ovf", "q1ovf",
          "reasm", "busoff"]), (.warp k, ["warp", "werr", "warp_ns", "keeper", "table", "mask", "smax", "stagger", "interval", "delay"]),
        (.log k, ["epoch", "first", "last", "count", "full", "drops", "freeze", "held", "hovf", "prev"]),
        (.flash k, ["opt", "optseq", "bank", "prot", "cfgfree", "maxpulse", "warn8"]), (.fw k, ["stage", "ver", "got", "total", "floor", "bank"]),
        (.session k, ["sess", "priv", "echo", "notify", "idle"]), (.sessionList k, ["s0", "s1", "s2", "s3", "s4", "s5", "s6", "s7"]),
        (.diagLanes k, ["corr", "poison", "resets", "discard", "halt"]), (.diagTemp k, ["tj", "pack"]),
        (.domain k, ["d00", "d01", "d02", "d03", "d04", "d05", "d06", "d07", "d08", "d09", "d10", "d11", "d12", "d13", "d14", "d15", "d16", "d17",
          "d18", "d19"])],
      Completes p.1 s fun t => ∃ f, Answered s t k (OK f) ∧ f.map Prod.fst = p.2) ∧
  (∀ (k : Sess) (s : State), mayRun s k .view anyState = true → Completes (.status k) s fun t => ∃ f, Answered s t k (OK f) ∧
    (f.map Prod.fst).take 10 = ["state", "img", "settle", "cover", "margin", "req", "stale", "cont", "priv", "auth"] ∧
    ("state", .kw s.aon.hold.text) ∈ f ∧ ("img", .kw s.aon.img.text) ∈ f ∧ ("hsw", .hex 8 (holdWord s).toNat) ∈ f ∧
    ("rst", .kw s.aon.rst.text) ∈ f ∧ ("warp_ns", .nat s.warp.ns) ∈ f) ∧
  (∀ (k : Sess) (n : ℕ) (s : State), mayRun s k .view anyState = true → n < 256 →
    Completes (.tenantShow k n) s (fun t => ∃ f, Answered s t k (OK f) ∧
      f.map Prod.fst = ["tenant", "attr", "class", "policy", "disabled", "slot", "gen", "granules", "dirty"]) ∧
    Completes (.keyShow k n) s (fun t => ∃ f, Answered s t k (OK f) ∧ f.map Prod.fst = ["tenant", "slot", "gen", "kcv"]) ∧
    Completes (.diagNand k n) s (fun t => ∃ f, Answered s t k (OK f) ∧
      f.map Prod.fst = ["die", "state", "id", "groups", "bad", "maxpe", "retry", "corr"])) ∧
  (∀ (k : Sess) (n : ℕ) (s : State), mayRun s k .view anyState = true → n < cellCount s → Completes (.batTable k n) s fun t =>
    ∃ f, Answered s t k (OK f) ∧ f.map Prod.fst = ["cell", "q", "bins"]) ∧
  (∀ (k : Sess) (n : Fin 64) (s : State), mayRun s k .view anyState = true → Completes (.stakeShow k (some n.val)) s fun t =>
    Answered s t k (OK [("stake", .nat n.val), ("trigger", .nat s.warp.stakes[n.val].trigger), ("state", .kw s.warp.stakes[n.val].state.text),
      ("action", .kw (actionText s.warp.stakes[n.val].action)), ("arg", .nat s.warp.stakes[n.val].arg),
      ("src", .nat s.warp.stakes[n.val].src.toNat), ("late", .nat s.warp.stakes[n.val].late)])) ∧
  (∀ (k : Sess) (x r g b row : ℕ) (s : State), mayRun s k .view anyState = true → geoValid s.map.geom = true →
    coordOk s.map.geom x r g b row = true → Completes (.mapCoord k x r g b row) s fun t => ∃ f, Answered s t k (OK f) ∧
      f.map Prod.fst = ["gidx", "rows", "byte", "bit", "dirty"] ∧ f.head? = some ("gidx", .nat (gidxOf s.map.geom x r g b row))) ∧
  (∀ (k : Sess) (g : ℕ) (s : State), mayRun s k .view anyState = true → geoValid s.map.geom = true → g < geoGranules s.map.geom →
    Completes (.mapCoordGidx k g) s fun t => ∃ f, Answered s t k (OK f) ∧ f.map Prod.fst = ["sub", "rank", "bg", "ba", "rows", "dirty"]) ∧
  (∀ (k : Sess) (o : Option ℕ) (s : State), mayRun s k .view anyState = true →
    Completes (.tenantRangeList k o) s fun t => ∃ f, Answered s t k (OK f) ∧
      f.map Prod.fst = ["entries", "staged"] ++ List.replicate (min 64 (s.ten.map.length - o.getD 0)) "r" ++ ["more"]) ∧
  (∀ (k : Sess) (s : State), mayRun s k .view anyState = true → ∀ c ∈ [Instr.logRead k none none, .logPrev k none none],
    Completes c s fun t => ∃ f, Answered s t k (OK f) ∧ (f.map Prod.fst).take 2 = ["next", "more"] ∧ f.length ≤ 42) ∧
  (∀ (k : Sess) (s : State), mayRun s k .view anyState = true → Completes (.fwMissing k none) s fun t => ∃ f, Answered s t k (OK f) ∧
    f.map Prod.fst = ["missing", "more"]) ∧
  (∀ (k : Sess) (s : State), mayRun s k .view anyState = true → Completes (.flashOpt k) s fun t => ∃ f, Answered s t k (OK f) ∧
    (f.map Prod.fst).take 3 = ["magic", "format", "seq"]) ∧
  (∀ (k : Sess) (r : Report) (s : State), mayRun s k .view anyState = true → s.rst.report = some r →
    Completes (.restoreReport k none none) s fun t => Answered s t k (OK (reportFields r))) ∧
  (∀ (k : Sess) (s : State), mayRun s k .view anyState = true → s.rst.report = none →
    Completes (.restoreReport k none none) s fun t => Answered s t k (ERR 412))

/-- A planned PARK that is accepted in SERVE with img=PENDING (no RESTORE request waits) is answered +OK state=SERVE save=none, and nothing else differs: the machine stays in SERVE. (R33) -/
def Obligations.ParkWithAnImagePending : Prop :=
  ∀ (k : Sess) (s : State), mayRun s k .run [.serve] = true → s.aon.img = .pending → s.rst.req = none → Completes (.park k) s fun t =>
    Answered s t k (OK [("state", .kw "SERVE"), ("save", .kw "none")]) ∧ t.aon.hold = .serve

/-- At KEEP, in SERVE with img=PENDING and no DISCARD under way, RESTORE DISCARD leaves img=NONE and the whole dirty map set (every granule of a valid geometry); the session waits for the record's commit. An unplanned trigger in the state it leaves starts a full save. (R35) -/
def Obligations.RestoreDiscardMakesTheNextSaveFull : Prop :=
  ∀ (k : Sess) (s : State), mayRun s k .keep [.serve] = true → s.aon.img = .pending → discarding s = false → Completes (.restoreDiscard k) s fun t =>
    t.aon.img = .none ∧ t.map.dirty = allGranules s ∧ t.map.geom = s.map.geom ∧ t.aon.hold = .serve ∧ (getSes t k).busy = some .discard ∧
    t.nand.rims = s.nand.rims ∧ t.cfl = s.cfl ∧ t.ten = s.ten ∧
    (t.aon.por = .up → t.nand.prov ≠ .running → Completes .holdLLow t fun u => ∃ v, u.map.save = some v ∧ v.full = true)

/-- PARK at RUN in SERVE while the save path is armed, with no image pending, no request waiting and the host out of self-refresh, enters PARK, its cause SIDEBAND on S5 and S6 and VERB elsewhere, and stops settling; in PARK it is answered again. PARK CANCEL, with the save path fit for SERVE, ends the park with cause NONE, in SERVE it changes nothing. PARK SET stores the wait limit. RESTORE with an image pending whose geometry fits makes the request wait, owned by the session and with its source; RESTORE CANCEL clears it. SETTLE START with img=TRACK runs the engine, STOP stops it, SET stores its four limits. (R30, R34, R42, R122, R145, R159, R309) -/
def Obligations.HoldVerbs : Prop :=
  (∀ (k : Sess) (s : State), mayRun s k .run [.serve] = true → s.aon.img ≠ .pending → s.rst.req = none → armed s = true → allSelfRef s = false →
    Completes (.park k) s fun t => t.aon.hold = .park ∧ t.aon.cause = (if k = 5 ∨ k = 6 then .sideband else .verb) ∧ t.nand.settle.running = false ∧ t.aon.img = s.aon.img ∧
      Said t k (OK [("state", .kw "PARK"), ("cover", coverVal t)]) ∧ t.nand.rims = s.nand.rims ∧ t.nand.dram = s.nand.dram ∧ t.cfl = s.cfl ∧
      t.ten = s.ten ∧ t.pins = s.pins) ∧
  (∀ (k : Sess) (s : State), mayRun s k .run [.park] = true → Completes (.park k) s fun t =>
    Answered s t k (OK [("state", .kw "PARK"), ("cover", coverVal s)])) ∧
  (∀ (k : Sess) (s : State), mayRun s k .run [.park] = true → armLoss s = none →
    (∀ d, (domOf s d).mode = .failed ∨ (domOf s d).mode = modesServe s d) → Completes (.parkCancel k) s fun t =>
      t.aon.hold = .serve ∧ t.aon.cause = .none ∧ t.aon.parkAlarm = false ∧ t.aon.img = s.aon.img ∧ Said t k (OK [("state", .kw "SERVE")]) ∧
      t.nand.rims = s.nand.rims ∧ t.nand.dram = s.nand.dram ∧ t.cfl = s.cfl) ∧
  (∀ (k : Sess) (s : State), mayRun s k .run [.serve] = true → Completes (.parkCancel k) s fun t => Answered s t k (OK [("state", .kw "SERVE")])) ∧
  (∀ (k : Sess) (n : ℕ) (s : State), mayRun s k .keep [.serve, .park, .fault] = true → 1000000000 ≤ n → n ≤ 600000000000 → cfgGuard s k = false →
    Completes (.parkSet k n) s fun t => Answered (storesCfg { s with map := { s.map with parkWaitNs := n } }) t k (OK [("wait", .dur n)])) ∧
  (∀ (k : Sess) (r : Rim) (s : State), mayRun s k .run [.serve] = true → s.aon.img = .pending → s.rst.req = none → chosenRim s = some r →
    r.geom = s.map.geom → allSelfRef s = false → Completes (.restore k) s fun t =>
      Answered (noteIssue
        { s with rst := { s.rst with req := some { source := if k = 5 ∨ k = 6 then .sideband else .verb, session := some k, stagger := none } } }
        (some k) .restore) t k
        (OK [("state", .kw "SERVE"), ("req", .kw "RESTORE")])) ∧
  (∀ (k : Sess) (s : State), mayRun s k .run [.serve] = true → Completes (.restoreCancel k) s fun t =>
    Answered { s with rst := { s.rst with req := none } } t k (OK [("req", .kw "none")])) ∧
  (∀ (k : Sess) (s : State), mayRun s k .run [.serve] = true → s.aon.img = .track → (usableDies s).length ≠ 0 → s.nand.prov ≠ .running →
    Completes (.settleStart k) s fun t =>
    t.nand.settle.running = true ∧ Said t k (OK [("settle", .nat 1)]) ∧
    t.aon = { s.aon with nandDiverged := t.aon.nandDiverged } ∧ t.nand.rims = s.nand.rims ∧ t.nand.dram = s.nand.dram) ∧
  (∀ (k : Sess) (s : State), mayRun s k .run [.serve] = true → Completes (.settleStop k) s fun t =>
    Answered { s with nand := { s.nand with settle := t.nand.settle, dies := t.nand.dies } } t k (OK [("settle", .nat 0)]) ∧
    t.nand.settle.running = false ∧ t.nand.settle.folds.length = s.nand.settle.folds.length ∧
    (∀ d : Die, (dieOf s d).op ≠ .ready .fold → dieOf t d = dieOf s d)) ∧
  (∀ (k : Sess) (a b c d : ℕ) (s : State), mayRun s k .keep [.serve, .fault] = true → 5 ≤ a → a < b → b ≤ 95 → 2 ≤ d → d < c → c ≤ 255 →
    cfgGuard s k = false → Completes (.settleSet k a b c d) s fun t => Answered (storesCfg { s with nand := { s.nand with
      settle := { s.nand.settle with startFree := a, stopFree := b, startLayers := c, stopLayers := d } } }) t k
      (OK [("start_free", .nat a), ("stop_free", .nat b), ("start_layers", .nat c), ("stop_layers", .nat d)]))

/-- At KEEP in SERVE and FAULT: RANGE ADD and RANGE DEL stage a new change of the session; DISCARD drops the staged ones; COMMIT of changes that every check passes hands the new map (the committed entries without the deletions, then the additions) to the reload and keeps the session busy, and without changes is answered at once. TENANT SET, ENABLE and DISABLE change class, policy and the disabled bit of the one tenant, keep its slot and generation, and leave every other tenant's word. (R178, R181, R182, R183, R310, R311) -/
def Obligations.TenantVerbs : Prop :=
  (∀ (k : Sess) (n : ℕ) (r : RangeArg) (s : State), mayRun s k .keep [.serve, .fault] = true → s.aon.img ≠ .pending → rangeBad n r = false →
    stagedChanges s k < 64 → ((getSes s k).adds.any (fun e => decide (e = rangeEntry n r)) = false → Completes (.tenantRangeAdd k n r) s fun t =>
      Answered (setSes s k (fun q => { q with adds := q.adds ++ [rangeEntry n r] })) t k (OK [("staged", .nat (stagedChanges s k + 1))])) ∧
    ((getSes s k).dels.any (fun e => decide (e = rangeEntry n r)) = false → Completes (.tenantRangeDel k n r) s fun t =>
      Answered (setSes s k (fun q => { q with dels := q.dels ++ [rangeEntry n r] })) t k (OK [("staged", .nat (stagedChanges s k + 1))]))) ∧
  (∀ (k : Sess) (s : State), mayRun s k .keep [.serve, .fault] = true → Completes (.tenantDiscard k) s fun t =>
    Answered (setSes s k (fun q => { q with adds := [], dels := [] })) t k (OK [("staged", .nat 0)])) ∧
  (∀ (k : Sess) (s : State), mayRun s k .keep [.serve, .fault] = true → s.map.reload = none → s.aon.img ≠ .pending → cfgGuard s k = false →
    (getSes s k).adds.any (entryOutside s.map.geom) = false → (getSes s k).adds.any (fun e => decide (enSub e = 3)) = false →
    (getSes s k).adds.any (entryUnaligned s.map.geom) = false → sharing s.map.geom (newMap s k) = false → (newMap s k).length ≤ 4096 →
    delUnmatched s k = false → (stagedChanges s k ≠ 0 → Completes (.tenantCommit k) s fun t =>
      t.map = { s.map with reload := some { map := newMap s k, session := some k } } ∧ (getSes t k).busy = some .commit ∧ t.ten = s.ten ∧
      t.aon = s.aon ∧ t.nand = s.nand ∧ t.cfl = s.cfl ∧ t.shb = s.shb) ∧
    (stagedChanges s k = 0 → Completes (.tenantCommit k) s fun t =>
      Answered s t k (OK [("changed", .nat 0), ("entries", .nat s.ten.map.length)]))) ∧
  (∀ (k : Sess) (x : Tenant) (c p : Option ℕ) (s : State), mayRun s k .keep [.serve, .fault] = true → outOf 0 7 c = false → outOf 0 1 p = false →
    cfgGuard s k = false → Completes (.tenantSet k x.val c p) s fun t => attrClass (attrOf t x) = c.getD (attrClass (attrOf s x)) ∧
      (attrVolatile (attrOf t x) = true ↔ p.getD (if attrVolatile (attrOf s x) = true then 1 else 0) = 1) ∧
      attrDisabled (attrOf t x) = attrDisabled (attrOf s x) ∧ attrSlot (attrOf t x) = attrSlot (attrOf s x) ∧
      attrGen (attrOf t x) = attrGen (attrOf s x) ∧ (∀ y, y ≠ x → attrOf t y = attrOf s y) ∧ t.ten.map = s.ten.map ∧ t.nand = s.nand ∧
      Said t k (OK [("tenant", .nat x.val), ("attr", .hex 8 (attrOf t x).toNat)])) ∧
  (∀ (k : Sess) (x : Tenant) (s : State), mayRun s k .keep [.serve, .fault] = true → cfgGuard s k = false →
    s.ten.unusable.any (fun y => decide (y = x)) = false → Completes (.tenantEnable k x.val) s fun t =>
      attrDisabled (attrOf t x) = false ∧ attrClass (attrOf t x) = attrClass (attrOf s x) ∧ attrSlot (attrOf t x) = attrSlot (attrOf s x) ∧
      attrGen (attrOf t x) = attrGen (attrOf s x) ∧ (∀ y, y ≠ x → attrOf t y = attrOf s y) ∧ t.ten.map = s.ten.map ∧ t.nand = s.nand) ∧
  (∀ (k : Sess) (x : Tenant) (s : State), mayRun s k .keep [.serve, .park, .save, .fault] = true → cfgGuard s k = false →
    Completes (.tenantDisable k x.val) s fun t => attrDisabled (attrOf t x) = true ∧ attrClass (attrOf t x) = attrClass (attrOf s x) ∧
      attrSlot (attrOf t x) = attrSlot (attrOf s x) ∧ attrGen (attrOf t x) = attrGen (attrOf s x) ∧ (∀ y, y ≠ x → attrOf t y = attrOf s y) ∧
      t.ten.map = s.ten.map ∧ t.nand = s.nand)

/-- KEY OWNER plain on S0 stores the owner key wrapped under K_store; a wrapped one of 40 bytes, as RFC 3394 wraps 256 bits (the model's reading, log entry 52), is unwrapped under the present one, or answered 109. KEY GEN into a slot that holds no key moves GEN on, sets the slot GENERATED, loads it and marks the tenant's granules dirty; KEY LOAD does so with the key that its blob carries, slot IMPORTED, and is answered 109 when the blob carries none. KEY ERASE of a loaded slot begins a crypto-erase that keeps the session busy; of an empty one it is answered at once. (R186, R189, R194, R297, R312) -/
def Obligations.KeyVerbs : Prop :=
  (∀ (b : List Byte) (s : State), mayRun s 0 .keep [.serve, .fault] = true → b.length = 32 → cfgGuard s 0 = false →
    Completes (.keyOwner 0 true b) s fun t => Answered (writeArea { s with ten := { s.ten with otk := some (keyWrap kStore b) } } .sec) t 0
      (OK [("owner", .kw "SET")]) ∧ ownerKey t = some b) ∧
  (∀ (k : Sess) (o b : List Byte) (s : State), mayRun s k .keep [.serve, .fault] = true → s.ten.otk = some o → b.length = 40 → cfgGuard s k = false →
    Completes (.keyOwner k false b) s fun t =>
      (∀ c x, keyUnwrap kStore o = some c → keyUnwrap c b = some x → x.length = 32 →
        Answered (writeArea { s with ten := { s.ten with otk := some (keyWrap kStore x) } } .sec) t k (OK [("owner", .kw "SET")]) ∧
        ownerKey t = some x) ∧
      (newOwner s false b = none → Answered s t k (ERR 109))) ∧
  (∀ (k : Sess) (x : Tenant) (s : State), mayRun s k .run [.serve, .fault] = true → eraseRuns s x = false → slotLoaded (attrOf s x) = false →
    attrGen (attrOf s x) < 65535 → Completes (.keyGen k x.val) s fun t => attrSlot (attrOf t x) = 2 ∧
      attrGen (attrOf t x) = attrGen (attrOf s x) + 1 ∧ attrClass (attrOf t x) = attrClass (attrOf s x) ∧ x ∈ t.ten.loaded ∧
      (∃ b, t.ten.blobs[x.val] = some b ∧ b.gen = attrGen (attrOf s x) + 1) ∧ (∀ y, y ≠ x → attrOf t y = attrOf s y) ∧
      t.map.dirty = rsUnion s.map.dirty (tenantGranules s s.ten.map x) ∧ t.nand = s.nand ∧ t.cfl = s.cfl) ∧
  (∀ (k : Sess) (x : Tenant) (o b : List Byte) (s : State), mayRun s k .run [.serve, .fault] = true → eraseRuns s x = false → b.length = 72 →
    s.ten.otk = some o → slotLoaded (attrOf s x) = false → attrGen (attrOf s x) < 65535 → Completes (.keyLoad k x.val b) s fun t =>
      (loadedKey s x b = none → Answered s t k (ERR 109)) ∧
      (∀ key, loadedKey s x b = some key → xtsKey t x = key ∧ attrSlot (attrOf t x) = 1 ∧ attrGen (attrOf t x) = attrGen (attrOf s x) + 1 ∧ x ∈ t.ten.loaded ∧
          t.map.dirty = rsUnion s.map.dirty (tenantGranules s s.ten.map x) ∧ (∀ y, y ≠ x → attrOf t y = attrOf s y) ∧ t.nand = s.nand)) ∧
  (∀ (k : Sess) (x : Tenant) (s : State), mayRun s k .keep [.serve, .park, .save, .fault] = true → eraseRuns s x = false →
    (slotLoaded (attrOf s x) = true → Completes (.keyErase k x.val) s fun t => (getSes t k).busy = some (.keyErase x) ∧ eraseRuns t x = true ∧
      t.aon = { s.aon with erases := insertFin x s.aon.erases } ∧ t.ten = { s.ten with jobs := t.ten.jobs } ∧ t.nand = s.nand ∧ t.map = s.map) ∧
    (attrSlot (attrOf s x) = 0 → Completes (.keyErase k x.val) s fun t => Answered s t k
      (OK [("tenant", .nat x.val), ("slot", .kw "EMPTY"), ("gen", .nat (attrGen (attrOf s x))), ("kdestroy", .kw "VERIFIED")])))

/-- MAP GEOMETRY and MAP GRANULE, with no image pending and a word that every check accepts, put the word in force, leave img=NONE and the whole dirty map set. Pieces of a profile and of an OCV table join the session's staging; a profile that its check accepts is stored for the next BOOT, a whole OCV table takes effect. MAP PROVISION starts provisioning. BAT SET stores the keys of its line, BAT CLEAR clears the lock, the faults and the retry time, BAT REST opens a window of 30 min. (R92, R95, R130, R152, R203, R212, R220, R313, R314, R316) -/
def Obligations.MapAndPackVerbs : Prop :=
  (∀ (k : Sess) (n : ℕ) (s : State), mayRun s k .keep [.serve, .fault] = true → (geometryRefusals s k n).all (fun p => !p.1) = true →
    Completes (.mapGeometry k n) s fun t => t.map.geom = BitVec.ofNat 32 n ∧ t.aon.img = .none ∧ t.map.dirty = allGranules t ∧
      Said t k (OK [("geom", .hex 8 (BitVec.ofNat 32 n).toNat), ("img", .kw "NONE")]) ∧ t.aon.hold = s.aon.hold ∧ t.ten = s.ten ∧
      t.nand = { s.nand with settle := { s.nand.settle with running := false } } ∧ t.cfl = s.cfl) ∧
  (∀ (k : Sess) (c : Fin 7) (s : State), mayRun s k .keep [.serve] = true → s.aon.img ≠ .pending → boundariesOff s (withGran s.map.geom c.val) = false →
    cfgGuard s k = false → geoFits (withGran s.map.geom c.val) = true → Completes (.mapGranule k (16384 * 2 ^ c.val)) s fun t =>
      t.map.geom = withGran s.map.geom c.val ∧ t.aon.img = .none ∧ t.map.dirty = allGranules t ∧ t.ten = s.ten ∧
      t.nand = { s.nand with settle := { s.nand.settle with running := false } }) ∧
  (∀ (k : Sess) (o : ℕ) (d : List Byte) (s : State), mayRun s k .keep [.serve, .fault] = true → pieceLen d = false →
    (pieceOut s k .profile o = false → Completes (.mapProfile k o d) s fun t =>
      Answered (stagePiece s k .profile o d) t k (OK [("off", .nat o), ("len", .nat d.length)])) ∧
    (∀ c, c < 2 → pieceOut s k (.ocv c) o = false → Completes (.batOcvload k c o d) s fun t =>
      Answered (stagePiece s k (.ocv c) o d) t k (OK [("off", .nat o), ("len", .nat d.length)]))) ∧
  (∀ (k : Sess) (s : State), mayRun s k .keep [.serve, .fault] = true → profileOk (staged s k .profile) = true → cfgGuard s k = false →
    Completes (.mapProfileCommit k) s fun t => t.nand = { s.nand with nextProfile := some (profileOf (staged s k .profile)) } ∧
      staged t k .profile = [] ∧ t.aon = s.aon ∧ t.map = s.map) ∧
  (∀ (k : Sess) (s : State), mayRun s k .keep [.serve, .fault] = true → mayProvision s = true → Completes (.mapProvision k) s fun t =>
    Answered { s with nand := { s.nand with prov := .running } } t k (OK [("nand", .kw "PROVISIONING")])) ∧
  (∀ (k : Sess) (l : List (BatKey × ℕ)) (s : State), mayRun s k .keep [.serve, .park, .fault] = true → cfgGuard s k = false →
    l.all (fun p => batKeyOk s (putBatKeys s.bat.set l) p.1 p.2) = true → Completes (.batSet k l) s fun t =>
      t.bat.set = putBatKeys s.bat.set l ∧ Said t k (OK (l.map (fun p => (batKeyText p.1, batKeyVal p.1 p.2)))) ∧ t.aon.hold = s.aon.hold ∧
      t.nand = s.nand ∧ t.ten = s.ten ∧ t.cfl = s.cfl) ∧
  (∀ (k : Sess) (s : State), mayRun s k .keep [.serve, .fault] = true → Completes (.batClear k) s fun t =>
    t.aon = { s.aon with retryEnd := none } ∧ t.bat.locked = false ∧ t.bat.chgFaults = [] ∧ t.bat.retryLeft = none ∧
    Said t k (OK [("chg", .kw t.bat.chg.text)]) ∧ t.nand = s.nand ∧ t.map = s.map) ∧
  (∀ (k : Sess) (s : State), mayRun s k .run [.serve, .park] = true → Completes (.batRest k) s fun t =>
    t.bat.restUntil = some (s.aon.us + 1800000000) ∧ PauseCause.rest ∈ t.bat.pauses ∧ t.bat.chg.charging = false ∧
    Said t k (OK [("rest", .kw "ON"), ("until", .nat (s.warp.ns + 1800000000000))]) ∧ t.aon = s.aon ∧ t.nand = s.nand ∧ t.map = s.map) ∧
  (∀ (k : Sess) (s : State), mayRun s k .keep [.serve, .fault] = true → (staged s k (.ocv 1)).length = 168 → Completes (.batOcvloadCommit k 1) s fun t =>
    t.bat.ocvLfp = some (ocvTableOf (staged s k (.ocv 1))) ∧ t.bat.ocvNmc = s.bat.ocvNmc ∧ staged t k (.ocv 1) = [] ∧
    Said t k (OK [("chem", .kw "LFP")]) ∧ t.nand = s.nand)

/-- At KEEP with D05 ON: BUS FILTER programs a firmware filter, RECOVER requests the recovery of a bus-off node, REDETECT begins the rate detection anew, FLUSH empties the transmit FIFO of all but the frame on the wire, SET stores its settings. WARP SET stores its settings; WARP TABLE writes a table that is not the active one; TABLE ACTIVE makes the switch wait for the frame boundary. STAKE SET with a trigger ahead arms the entry for this node, STAKE CANCEL cancels an ARMED one. Nothing else changes but the session's answer. (R238, R242, R244, R245, R261, R268, R273, R317, R318, R319) -/
def Obligations.BusWarpAndStakeVerbs : Prop :=
  (∀ (k : Sess) (n m x f : ℕ) (b : Bool) (s : State), mayRun s k .keep [.serve, .park, .fault] = true → isOn s 5 = true → 6 ≤ n → n ≤ 15 → m < 2 ^ 29 →
    x < 2 ^ 29 → f ≤ 2 → Completes (.busFilter k n m x f (if b = true then 1 else 0)) s fun t =>
      Answered (setFilter s n (fun _ => { en := b, fmt := BitVec.ofNat 2 f, id := BitVec.ofNat 29 m, mask := BitVec.ofNat 29 x })) t k
        (OK [("filter", .nat n), ("match", .hex 8 m), ("mask", .hex 8 x), ("fmt", .nat f), ("en", boolVal b)])) ∧
  (∀ (k : Sess) (s : State), mayRun s k .keep [.serve, .park, .fault] = true → isOn s 5 = true → s.shb.mode = .busoff →
    Completes (.busRecover k) s fun t => Answered { s with shb := { s.shb with recovering := true } } t k (OK [("mode", .kw "BUSOFF")])) ∧
  (∀ (k : Sess) (s : State), mayRun s k .keep [.serve, .park, .fault] = true → isOn s 5 = true → s.shb.mode ≠ .off → s.shb.mode ≠ .dupnode →
    Completes (.busRedetect k) s fun t => (t.shb.mode = .detecting ∨ t.shb.mode = .listen ∨ t.shb.mode = .active) ∧
      t.shb.nrate = s.aon.opt.nomRate.toNat ∧ t.shb.drate = s.aon.opt.dataRate.toNat ∧ t.shb.validRun = 0 ∧
      Said t k (OK [("mode", .kw "DETECTING")]) ∧ t.aon = s.aon ∧ t.nand = s.nand ∧ t.cfl = s.cfl) ∧
  (∀ (k : Sess) (s : State), mayRun s k .keep [.serve, .park, .fault] = true → isOn s 5 = true → s.shb.onWire ≠ .fifo → Completes (.busFlush k) s fun t =>
    Answered { s with shb := { s.shb with fifo := [] } } t k (OK [("flushed", .nat s.shb.fifo.length)])) ∧
  (∀ (k : Sess) (h c b : ℕ) (s : State), mayRun s k .keep [.serve, .park, .fault] = true → isOn s 5 = true → cfgGuard s k = false →
    1000000000 ≤ h → h ≤ 600000000000 → c ≤ 10 → (b = 0 ∨ 1000000000 ≤ b ∧ b ≤ 3600000000000) →
    Completes (.busSet k (some h) (some c) (some b)) s fun t =>
      Answered (storesCfg { s with shb := { s.shb with holdoffNs := h, recovMax := c, beaconNs := b } }) t k
        (OK [("holdoff", .dur h), ("count", .nat c), ("beacon", .dur b)])) ∧
  (∀ (k : Sess) (c : Fin 6) (d m : ℕ) (s : State), mayRun s k .keep [.serve, .park, .fault] = true → cfgGuard s k = false → d ≤ 65535 → 1 ≤ m → m ≤ 64 →
    Completes (.warpSet k (some (31250000 * 2 ^ c.val)) (some d) (some m)) s fun t =>
      Answered (storesCfg { s with warp := { s.warp with interval := c.val, delay := d, restmax := m } }) t k
        (OK [("interval", .dur (31250000 * 2 ^ c.val)), ("delay", .nat d), ("restmax", .nat m)])) ∧
  (∀ (k : Sess) (n : Fin 4) (m x g : ℕ) (s : State), mayRun s k .keep [.serve, .park, .fault] = true → cfgGuard s k = false → 0 < m → m < 2 ^ 40 →
    1 ≤ x → x ≤ 256 → g ≤ 39 → n ≠ s.warp.active → Completes (.warpTable k n.val m x g none none) s fun t =>
      Answered (writeArea { s with warp := { s.warp with
        tables := updNat s.warp.tables n.val (fun _ => some { mask := BitVec.ofNat 40 m, smax := x, stagger := g }) } } .cfg) t k
        (OK [("table", .nat n.val), ("mask", .hex 10 m), ("smax", .nat x), ("stagger", .nat g)])) ∧
  (∀ (k : Sess) (n : Fin 4) (s : State), mayRun s k .keep [.serve, .park, .fault] = true → cfgGuard s k = false → (s.warp.tables[n.val]).isSome = true →
    Completes (.warpTableActive k n.val) s fun t => Answered (storesCfg { s with warp := { s.warp with pending := some n } }) t k
      (OK [("table", .nat n.val), ("at", .nat (nextBoundary s.warp.ns))])) ∧
  (∀ (k : Sess) (i : Fin 64) (a g x : ℕ) (s : State), mayRun s k .keep anyState = true → 1 ≤ a → a ≤ 7 → argOk a g = true →
    x % 1000 = 0 → s.warp.ns < x → x ≤ s.warp.ns + 2 ^ 39 * 1000 → Completes (.stakeSet k i.val a false x (some g) none none) s fun t =>
      Answered { setStake s i (fun _ => { trigger := x, state := .armed, action := a, arg := g, src := 0x3FF, late := 0 }) with
        bat := { s.bat with restStake := s.bat.restStake || decide (a = 5) } } t k
        (OK [("stake", .nat i.val), ("state", .kw "ARMED"), ("trigger", .nat x)])) ∧
  (∀ (k : Sess) (i : Fin 64) (s : State), mayRun s k .keep anyState = true → s.warp.stakes[i.val].state = .armed →
    Completes (.stakeCancel k i.val none) s fun t => Answered (setStake s i (fun x => { x with state := .cancelled })) t k
      (OK [("stake", .nat i.val), ("state", .kw "CANCELLED")]))

/-- A word program that is neither refused nor in conflict and verifies leaves the word's value and no other word changed, advances its count and lets the job go on; one in a protected sector changes no word and ends PROTECTED; a set bit over a cleared one ends PROG_CONFLICT. A sector erase leaves the sector's words erased and no other word changed. A time-out ends TIMEOUT, and a job without a second try makes its write once more. A scrub reads a sector in PV-MARGIN, then in EV-MARGIN, which counts its words. A read waits while an operation runs, and without one is delivered, a poisoned instruction line halting the core. (R347, R348, R353, R354, R355, R356, R357, R358, R359, R360, R362, R364) -/
def Obligations.CodeFlashOperations : Prop :=
  (∀ (n w : ℕ) (v : DWord) (j : CflJob) (o : CflOp) (os : List CflOp) (rest : List CflJob) (s : State), s.cfl.jobs = j :: rest → j.planned = true →
    j.ops = .program w v :: o :: os → s.cfl.waiting = [] → programRefused s w = false → programConflict s w v = false → n < 8 →
    s.cfl.warmDue = false → FlashCanonical s → Completes (.wordProgramDone n true) s fun t => wordAt t w = v ∧ (∀ x, x ≠ w → wordAt t x = wordAt s x) ∧
      t.cfl.jobs = { j with ops := o :: os } :: rest ∧ countOf t w = countOf s w + 1 ∧ t.cfl.status = .ok ∧ t.cfl.pulses = n ∧
      t.cfl.prot = s.cfl.prot ∧ t = { s with cfl := t.cfl }) ∧
  (∀ (n w : ℕ) (b : Bool) (v : DWord) (j : CflJob) (o : CflOp) (os : List CflOp) (s : State), s.cfl.jobs = [j] → j.planned = true →
    j.ops = .program w v :: o :: os → j.use = .abort → j.session = none → s.cfl.waiting = [] →
    s.cfl.warmDue = false → (programRefused s w = true → exec (.wordProgramDone n b) s =
      .next { s with cfl := { s.cfl with jobs := [], status := .protected_, pulses := 0 } }) ∧
    (programRefused s w = false → programConflict s w v = true → exec (.wordProgramDone n b) s =
      .next { s with cfl := { s.cfl with jobs := [], status := .progConflict, pulses := 0 } })) ∧
  (∀ (n e : ℕ) (j : CflJob) (o : CflOp) (os : List CflOp) (rest : List CflJob) (s : State), s.cfl.jobs = j :: rest → j.planned = true →
    j.ops = .erase e :: o :: os → s.cfl.waiting = [] → eraseRefused s e = false → n < 5 → s.cfl.warmDue = false →
    (∀ h, j.use = .openStaging h → e ≠ 482) → Completes (.sectorEraseDone n true) s fun t =>
      (∀ x, x / sectorWords = e → wordAt t x = wordErased) ∧ (∀ x, x / sectorWords ≠ e → wordAt t x = wordAt s x) ∧
      t.cfl.jobs = { j with ops := o :: os } :: rest ∧ t.cfl.status = .ok ∧ t = { s with cfl := t.cfl }) ∧
  (∀ (e : ℕ) (j : CflJob) (os : List CflOp) (rest : List CflJob) (s : State), s.cfl.jobs = j :: rest → j.planned = true → j.ops = .erase e :: os →
    s.cfl.waiting = [] → eraseRefused s e = false → s.cfl.warmDue = false → j.retried = false → j.redo ≠ [] → (∀ i d, j.use ≠ .splint i d) →
    Completes .cflOperationTimeout s fun t => t.cfl.status = .timeout ∧ t.cfl.jobs = { j with ops := j.redo, retried := true } :: rest ∧
      t.cfl.prot = s.cfl.prot ∧ t.aon = s.aon ∧ t.mg = s.mg) ∧
  (∀ (n r : ℕ) (j : CflJob) (o : CflOp) (os : List CflOp) (s : State), s.cfl.jobs = [j] → j.planned = true → j.use = .scrub r →
    s.cfl.waiting = [] → (j.ops = .margin n .pv :: o :: os → exec (.marginReadDone []) s = .next { s with cfl := { s.cfl with
      jobs := [{ j with ops := o :: os }], status := .ok, scrubFound := [] } }) ∧
    (j.ops = .margin n .ev :: o :: os → s.cfl.scrubFound = [] → exec (.marginReadDone []) s = .next { s with cfl := { s.cfl with
      jobs := [{ j with ops := o :: os }], status := .ok, scrubbed := s.cfl.scrubbed + sectorWords } })) ∧
  (∀ (f : FetchKind) (a : ℕ) (s : State), isOn s 3 = true → (currentOp s).isSome = true → exec (.flashFetch f a) s =
    .next { s with cfl := { s.cfl with waiting := s.cfl.waiting ++ [(f, a)] } }) ∧
  (∀ (f : FetchKind) (a : ℕ) (s : State), isOn s 3 = true → currentOp s = none → Completes (.flashFetch f a) s fun t =>
    t.cfl = { s.cfl with fetched := some (fetchLine s f a), corrected := t.cfl.corrected } ∧ s.cfl.corrected ≤ t.cfl.corrected ∧
    t.mg.halted = (s.mg.halted || (decide (f = .instruction) && decide (fetchLine s f a = .poison))) ∧ t.aon = s.aon ∧ t.store = s.store ∧
    t.nand = s.nand ∧ (fetchLine s f a ≠ .poison → t = { s with cfl := t.cfl, free := s.free + 1 }))

/-- The right password at KEEP clears the count and gives the session the unlock, with the latch set; a wrong one is answered 207 and counted, with a backoff; inside the backoff 208. FLASH LOCK takes the session's unlock. With no code-flash work waiting, OPT SET, PROTECT and PASSWORD (under the unlock) and SCRUB put one job of the session at the head of the queue, keep the session busy with it, and change no word of the array at once. (R300, R321, R326, R361, R362, R363) -/
def Obligations.FlashVerbs : Prop :=
  (∀ (k : Sess) (p : List Byte) (s : State), mayRun s k .keep [.serve, .fault] = true → p.length = 16 → s.aon.pwd.fails < 8 →
    (s.aon.pwd.until_ ≤ s.aon.us → p = s.cfl.pwd → Completes (.flashUnlock k p) s fun t => (getSes t k).unlock = true ∧ t.cfl.latch = true ∧
      t.aon = { s.aon with pwd := { fails := 0, until_ := 0 } } ∧ Said t k (OK [("prot", .kw "UNLOCKED")]) ∧ SameFlash s t) ∧
    (s.aon.pwd.until_ ≤ s.aon.us → p ≠ s.cfl.pwd → Completes (.flashUnlock k p) s fun t =>
      Answered { s with aon := { s.aon with pwd := { fails := s.aon.pwd.fails + 1, until_ := s.aon.us + 2 ^ s.aon.pwd.fails * 1000000 } } } t k
        (ERR 207)) ∧
    (s.aon.us < s.aon.pwd.until_ → Completes (.flashUnlock k p) s fun t =>
      Answered s t k (ERR 208 [("wait", .nat (waitSeconds s.aon.us s.aon.pwd.until_))]))) ∧
  (∀ (k : Sess) (s : State), mayRun s k .keep anyState = true → Completes (.flashLock k) s fun t => (getSes t k).unlock = false ∧
    (t.cfl.latch = true → ∃ j, j ≠ k ∧ (getSes s j).isOpen = true ∧ (getSes s j).unlock = true) ∧ Said t k (OK [("prot", .kw "LOCKED")]) ∧
    t.aon = s.aon ∧ SameFlash s t) ∧
  (∀ (k : Sess) (r : ℕ) (s : State), mayRun s k .keep [.serve, .fault] = true → r ≤ 5 → s.cfl.jobs = [] → Completes (.flashScrub k r) s fun t =>
    (getSes t k).busy = some .flashJob ∧ (∃ j, t.cfl.jobs = [j] ∧ j.use = .scrub r ∧ j.session = some k ∧ j.ops = (scrubSectors r).flatMap (fun n => [.margin n .pv, .margin n .ev])) ∧
    SameFlash s t ∧ t.aon = s.aon ∧ t.shb = s.shb) ∧
  (∀ (k : Sess) (a b : ℕ) (on : Bool) (s : State), mayRun s k .keep [.serve, .fault] = true → a ≤ b → b ≤ 447 → (getSes s k).unlock = true →
    s.cfl.jobs = [] → Completes (.flashProtect k a b (if on = true then 1 else 0)) s fun t => (getSes t k).busy = some .flashJob ∧
      (∃ j, t.cfl.jobs = [j] ∧ j.use = .protect a b on ∧ j.session = some k ∧ j.ops ≠ []) ∧ SameFlash s t ∧ t.cfl.prot = s.cfl.prot ∧ t.aon = s.aon) ∧
  (∀ (k : Sess) (p : List Byte) (s : State), mayRun s k .keep [.serve, .fault] = true → p.length = 16 → (getSes s k).unlock = true → s.cfl.jobs = [] →
    Completes (.flashPassword k p) s fun t => (getSes t k).busy = some .flashJob ∧
      (∃ j, t.cfl.jobs = [j] ∧ j.use = .password p ∧ j.session = some k ∧ j.ops ≠ []) ∧ SameFlash s t ∧ t.cfl.pwd = s.cfl.pwd ∧ t.aon = s.aon) ∧
  (∀ (k : Sess) (l : List (OptKey × ℕ)) (s : State), mayRun s k .keep [.serve, .fault] = true → (l.flatMap (optValue s)).all (fun p => !p.1) = true →
    (s.aon.opt.optWp && noUnlock s k) = false → optFull s = false → s.cfl.jobs = [] → Completes (.flashOptSet k l) s fun t =>
      (getSes t k).busy = some .flashJob ∧ (∃ j, t.cfl.jobs = [j] ∧ j.use = .optSet l ∧ j.session = some k ∧ j.ops ≠ []) ∧ SameFlash s t ∧
      t.aon = s.aon)

/-- A HEADER of 512 bytes that the firmware hears makes its source the distributor and is judged: one with a failed check sets its reason, one that opens a staging is queued for writing, and goes into its HDR slot when sector 482 is erased, one of another image during a staging sets BUSY. While code-flash work waits, a SPLINT outside RECEIVING is counted and sets NOHEADER; in RECEIVING a failed check is counted with its reason, and one that passes and is not held is queued. A RECEIPT goes to the distributor at its timer. A COMPLETE image is judged once, its verdict behind that work. FW PUTHDR stages pieces; FW PUT, ACTIVATE and ABORT answer by the stage: outside RECEIVING FW PUT is refused 313; ACTIVATE is refused 313 in IDLE and waits in COMPLETE; ABORT in IDLE changes nothing and else queues the record that closes the staging. (R314, R322, R372, R374, R375, R378, R379, R380, R382) -/
def Obligations.FirmwareUpdate : Prop :=
  (∀ (n : NodeId) (b : List Byte) (s : State), hearsClass4 s = true → b.length = 512 → s.cfl.jobs = [] → Completes (.header n b) s fun t =>
    t.store.distributor = some n ∧ (∀ r, judgeHeader s b = .rejected r → t.store.reason = r ∧ t.cfl = s.cfl ∧ t.store.hdrA = s.store.hdrA ∧ t.store.hdrB = s.store.hdrB) ∧
    (judgeHeader s b = .opens → (∃ j, t.cfl.jobs = [j] ∧ j.use = .openStaging b ∧ j.session = none) ∧ hdrOf t (targetBank s) = hdrOf s (targetBank s)) ∧
    (judgeHeader s b = .resumes → t.store.reason = s.store.reason ∧ t.cfl = s.cfl) ∧
    (judgeHeader s b = .busy → t.store.reason = .busy ∧ t.cfl = s.cfl) ∧ SameFlash s t ∧ t.aon = s.aon ∧ t.nand = s.nand) ∧
  (∀ (n : ℕ) (b : List Byte) (j : CflJob) (o : CflOp) (os : List CflOp) (rest : List CflJob) (s : State), s.cfl.jobs = j :: rest → j.planned = true →
    j.use = .openStaging b → j.ops = .erase 482 :: o :: os → s.cfl.waiting = [] → n < 5 → s.cfl.warmDue = false →
    Completes (.sectorEraseDone n true) s fun t => hdrOf t (targetBank s) = b ∧ hdrOf t (otherBank (targetBank s)) = hdrOf s (otherBank (targetBank s)) ∧
      (∀ x, x / sectorWords = 482 → wordAt t x = wordErased) ∧ (∀ x, x / sectorWords ≠ 482 → wordAt t x = wordAt s x) ∧
      t.cfl.jobs = { j with ops := o :: os } :: rest ∧ t = { s with cfl := t.cfl, store := t.store }) ∧
  (∀ (n : NodeId) (g : BitVec 10) (b : List Byte) (h : CflJob) (rest : List CflJob) (s : State), hearsClass4 s = true →
    s.cfl.jobs = h :: rest → h.planned = true → h.ops ≠ [] → Completes (.splint n g b) s fun t =>
    (receiving s = false → t.store.reason = .noHeader ∧ t.store.classDiscards = s.store.classDiscards + 1 ∧ t.cfl = s.cfl) ∧
    (receiving s = true → (∀ r, splintReason s g.toNat b = some r → t.store.reason = r ∧
        t.store.classDiscards = s.store.classDiscards + 1 ∧ t.cfl = s.cfl ∧ t.store.receiptDue = true) ∧
      (splintReason s g.toNat b = none → if splintHeld s g.toNat = true then
          t.store.classDiscards = s.store.classDiscards + 1 ∧ t.cfl = s.cfl
        else ∃ j, t.cfl.jobs = s.cfl.jobs ++ [j] ∧ j.use = .splint g.toNat (b.drop 32) ∧ j.session = none)) ∧
    SameFlash s t ∧ t.aon = s.aon ∧ t.nand = s.nand) ∧
  (∀ (n : NodeId) (s : State), s.mg.running = true → s.store.receiptDue = true → s.store.distributor = some n → Completes .receiptTimer s fun t =>
    t.store = { s.store with lastReceipt := s.aon.us, receiptDue := false } ∧ t.shb.fifo ++ t.mg.txFeed = s.shb.fifo ++ s.mg.txFeed ++
      segment (fdAllowed s.shb) (makeId 4 2 s.aon.opt.nodeId.toNat n.toNat) (receiptBytes s) ∧ t.cfl = s.cfl ∧ t.aon = s.aon) ∧
  (∀ (h : CflJob) (rest : List CflJob) (s : State), s.cfl.jobs = h :: rest → h.planned = true → h.ops ≠ [] →
    Completes .imageVerificationDone s fun t =>
    (if s.mg.running = true ∧ stageOf s = .complete ∧ s.cfl.jobs.any isVerdict = false then ∃ j p, t.cfl.jobs = s.cfl.jobs ++ [j] ∧ j.use = .verdict p ∧
        (p = true ↔ bodyDigestOk s (targetBank s) = true ∧ bodyTagOk s (targetBank s) = true ∧ floorOf s ≤ hdrSvn (hdrOf s (targetBank s)))
      else t = s) ∧ SameFlash s t ∧ t.aon = s.aon) ∧
  (∀ (k : Sess) (o : ℕ) (d : List Byte) (s : State), mayRun s k .keep [.serve, .park, .fault] = true → pieceLen d = false → o + d.length ≤ 511 →
    pieceOut s k .header o = false → Completes (.fwPutHdr k o d) s fun t =>
      Answered (stagePiece s k .header o d) t k (OK [("off", .nat o), ("len", .nat d.length)])) ∧
  (∀ (k : Sess) (i o : ℕ) (d : List Byte) (s : State), mayRun s k .keep [.serve, .park, .fault] = true → i ≤ 895 → pieceLen d = false →
    pieceOut s k (.splint i) o = false → o + d.length < 32 → Completes (.fwPut k i o d) s fun t =>
      if receiving s = true then Answered (stagePiece s k (.splint i) o d) t k (OK [("off", .nat o), ("len", .nat d.length)])
      else Answered s t k (ERR 313)) ∧
  (∀ (k : Sess) (s : State), mayRun s k .keep [.serve, .park, .save, .restore, .fault] = true → Completes (.fwActivate k) s fun t =>
    (stageOf s = .idle → Answered s t k (ERR 313)) ∧ (stageOf s = .failed → Answered s t k (ERR 505)) ∧
    (stageOf s = .receiving → ∃ f, Said t k (ERR 314 f)) ∧
    (stageOf s = .complete → t.store.verifyWaiters = s.store.verifyWaiters ++ [k] ∧ (getSes t k).busy = some .activate ∧ t.cfl = s.cfl)) ∧
  (∀ (k : Sess) (s : State), mayRun s k .keep [.serve, .park, .fault] = true → s.cfl.jobs = [] → Completes (.fwAbort k) s fun t =>
    if stageOf s = .idle then Answered s t k (OK [("stage", .kw "IDLE")])
    else (getSes t k).busy = some .flashJob ∧ (∃ j, t.cfl.jobs = [j] ∧ j.use = .abort ∧ j.session = some k ∧ j.ops = [clearOp (receiptWord recClosed)]) ∧
      SameFlash s t)

/-- At KEEP in SERVE and FAULT: ENABLE of an optional domain that is off starts its power-up and keeps the session busy, of one that is on it is answered at once; DISABLE of an optional ON domain that nothing requires begins its drain, FORCE gates it at once, which leaves SERVE only where a lost NAND channel held a rim ring that has no other place; DOMAIN SET stores the drain limit. RESET WARM in FAULT goes to BOOT with cause WARM and every session ended, or waits for the code-flash program or erase under way. RESET MGMT ends every session and stops the firmware, its cause MGMT_REQUEST, and leaves the hold state, READY, the image and the running save as they were. DIAG SELFTEST in FAULT answers the three outcomes, which are free values (log entry 4), 507 unless all pass. (R31, R55, R57, R58, R59, R60, R61, R64, R82, R83, R85, R323) -/
def Obligations.DomainAndResetVerbs : Prop :=
  (∀ (k : Sess) (d : Dom) (s : State), mayRun s k .keep [.serve, .fault] = true → (domOf s d).enabling = none → isDraining s d.val = false →
    ((!optional d || isOn s d.val) = true → Completes (.domainEnable k d.val) s fun t => Answered s t k (OK (domFields s d))) ∧
    ((!optional d || isOn s d.val) = false → Completes (.domainEnable k d.val) s fun t => (getSes t k).busy = some (.domainEnable d) ∧
      t.doms = { s.doms with dom := upd s.doms.dom d (fun x => { x with enabling := some (some k) }) } ∧ t.aon = s.aon ∧ t.nand = s.nand ∧
      t.log = s.log ∧ t.shb = s.shb)) ∧
  (∀ (k : Sess) (d : Dom) (s : State), mayRun s k .keep [.serve, .fault] = true → domainRequired s d.val = false →
    isOn s d.val = true → Completes (.domainDisable k d.val) s fun t => (domOf t d).mode = .draining ∧ (domOf t d).issuer = some k ∧
      .drain d ∈ (getSes t k).issued ∧
      (∀ e, e ≠ d → (domOf t e).mode = (domOf s e).mode) ∧ t.aon.hold = s.aon.hold ∧
      t.aon.img = (if 12 ≤ d.val ∧ s.aon.img = .track then .none else s.aon.img) ∧ t.nand.rims = s.nand.rims ∧ t.cfl = s.cfl) ∧
  (∀ (k : Sess) (d : Dom) (s : State), mayRun s k .keep [.serve, .fault] = true → domainRequired s d.val = false → isOn s d.val = true →
    Completes (.domainDisableForce k d.val) s fun t => (t.aon.hold = s.aon.hold ∨ 12 ≤ d.val ∧ s.aon.hold = .serve) ∧
      (t.aon.hold = s.aon.hold → (domOf t d).mode = gatedMode d ∧ ∀ e, e ≠ d → (domOf t e).mode = (domOf s e).mode) ∧
      (d.val < 12 → t.nand.rims = s.nand.rims) ∧ t.cfl = s.cfl) ∧
  (∀ (k : Sess) (n : ℕ) (s : State), mayRun s k .keep [.serve, .fault] = true → 10000000 ≤ n → n ≤ 60000000000 → cfgGuard s k = false →
    Completes (.domainSet k n) s fun t => Answered (storesCfg { s with doms := { s.doms with drainNs := n } }) t k (OK [("drain", .dur n)])) ∧
  (∀ (k : Sess) (s : State), mayRun s k .keep [.fault] = true → flashBusy s = true →
    Completes (.resetWarm k) s fun t =>
      Answered { s with cfl := { s.cfl with warmDue := true } } t k (OK [("rst", .kw "WARM")])) ∧
  (∀ (k : Sess) (s : State), mayRun s k .keep [.fault] = true → flashBusy s = false → Completes (.resetWarm k) s fun t => t.aon.hold = .boot ∧ t.aon.rst = .warm ∧
    t.aon.img = s.aon.img ∧ t.mg.running = false ∧ (∀ j, (getSes t j).isOpen = false) ∧ t.nand.rims = s.nand.rims ∧ t.ten.map = s.ten.map ∧
    (currentOp s = none → SameFlash s t)) ∧
  (∀ (k : Sess) (s : State), mayRun s k .keep anyState = true → Completes (.resetMgmt k) s fun t => t.mg.running = false ∧
    t.aon.rst = .mgmtRequest ∧ (∀ j, (getSes t j).isOpen = false) ∧ t.aon.hold = s.aon.hold ∧ ready t = ready s ∧ t.aon.img = s.aon.img ∧
    t.map.save = s.map.save ∧ t.map.descriptors = s.map.descriptors ∧ t.cfl.key = none ∧ t.cfl.latch = false ∧ t.nand = s.nand ∧ SameFlash s t) ∧
  (∀ (k : Sess) (s : State), mayRun s k .keep [.fault] = true → Completes (.diagSelftest k) s fun t => ∃ a b c : Bool,
    Answered { s with free := s.free + 1 } t k (if (a && b && c) = true then OK [("root", passText a), ("xts", passText b), ("map", passText c)]
      else ERR 507 [("root", passText a), ("xts", passText b), ("map", passText c)]) ∧ (geoValid s.map.geom = false → c = false))

/-- A verb that needs KEEP is answered 202 on a session below it, one that needs RUN is answered 201 on a session at VIEW; a verb in a state that its row does not list is answered 301; with only the recovery set answering, a verb outside it is answered 501. Nothing differs but the session's response. A line that reaches a session that cannot execute now waits behind at most three others; a fifth is answered 410. (R80, R193, R283, R295, R300, R305, R435) -/
def Obligations.RefusalsOfLines : Prop :=
  (∀ (k : Sess) (s : State), lineReady s k = true → (getSes s k).priv ≠ .keep →
    ∀ c ∈ [Instr.parkSet k 0, .restoreDiscard k, .settleSet k 0 0 0 0, .tenantCommit k, .tenantDiscard k, .tenantSet k 0 none none, .tenantEnable k 0,
        .tenantDisable k 0, .keyErase k 0, .mapGeometry k 0, .mapGranule k 0, .mapProfileCommit k, .mapProvision k, .batSet k [], .batClear k,
        .batOcvloadCommit k 0, .busRecover k, .busRedetect k, .busFlush k, .busSet k none none none, .warpSet k none none none, .warpTableActive k 0,
        .stakeCancel k 0 none, .flashOptSet k [], .flashUnlock k [], .flashLock k, .flashProtect k 0 0 0, .flashPassword k [], .flashScrub k 0,
        .fwActivate k, .fwAbort k, .domainEnable k 0, .domainDisable k 0, .domainDisableForce k 0, .domainSet k 0, .resetWarm k, .resetMgmt k,
        .diagSelftest k, .sessionSetIdle k 0],
      Completes c s fun t => Answered s t k (ERR 202)) ∧
  (∀ (k : Sess) (s : State), lineReady s k = true → (getSes s k).priv = .view →
    ∀ c ∈ [Instr.park k, .parkCancel k, .restore k, .restoreCancel k, .settleStart k, .settleStop k, .keyLoad k 0 [], .keyGen k 0, .batRest k, .logMark k 0],
      Completes c s fun t => Answered s t k (ERR 201)) ∧
  (∀ (k : Sess) (s : State), lineReady s k = true → (getSes s k).priv = .keep → s.aon.hold = .boot →
    ∀ c ∈ [Instr.park k, .restore k, .restoreDiscard k, .settleStart k, .tenantCommit k, .keyGen k 0, .keyErase k 0, .mapProvision k, .batRest k,
        .busFlush k, .warpSet k none none none, .flashScrub k 0, .domainSet k 0, .resetWarm k, .diagSelftest k],
      Completes c s fun t => Answered s t k (ERR 301)) ∧
  (∀ (k : Sess) (s : State), (getSes s k).isOpen = true → stalled s k = false → (getSes s k).queue = [] → recovering s = true →
    ∀ c ∈ [Instr.park k, .tenantCommit k, .map k, .bat k, .bus k, .warp k, .flash k, .domain k, .session k, .diagTemp k],
      Completes c s fun t => Answered s t k (ERR 501)) ∧
  (∀ (k : Sess) (s : State), (getSes s k).isOpen = true → stalled s k = true → (getSes s k).queue.length < 4 →
    Completes (.status k) s fun t => (∃ e, t = setSes s k (fun q => { q with queue := q.queue ++ [e] }) ∧ e.line = .cmd (.status k))) ∧
  (∀ (k : Sess) (s : State), (getSes s k).isOpen = true → 4 ≤ (getSes s k).queue.length → Completes (.status k) s fun t => Answered s t k (ERR 410))
end

