-- ==== Sys2Proof/Laws/State.lean ====
section
/-! SUPPORT. What each one-field update of the state writes and leaves: one lemma per field, so that no proof unfolds a record update. -/

namespace Sys2Proof.Machine

/-! ## Entries of a vector -/

@[simp] theorem upd_self {α : Type} {n : Nat} (v : Vector α n) (i : Fin n) (f : α → α) : (upd v i f)[i.val] = f v[i.val] := by
  simp [upd]

theorem upd_other {α : Type} {n : Nat} (v : Vector α n) (i j : Fin n) (f : α → α) (h : j ≠ i) : (upd v i f)[j.val] = v[j.val] := by
  have h' : i.val ≠ j.val := fun e => h (Fin.ext e.symm)
  simp [upd, h']

@[simp] theorem upd_upd {α : Type} {n : Nat} (v : Vector α n) (i : Fin n) (f g : α → α) : upd (upd v i f) i g = upd v i (fun x => g (f x)) := by
  simp [upd]

/-! ## setBoot -/

@[simp] theorem setBoot_aon_boot (s : State) (f : BootSt → BootSt) : (setBoot s f).aon.boot = f s.aon.boot := by rfl
@[simp] theorem setBoot_aon_por (s : State) (f : BootSt → BootSt) : (setBoot s f).aon.por = s.aon.por := by rfl
@[simp] theorem setBoot_aon_us (s : State) (f : BootSt → BootSt) : (setBoot s f).aon.us = s.aon.us := by rfl
@[simp] theorem setBoot_aon_xtal (s : State) (f : BootSt → BootSt) : (setBoot s f).aon.xtal = s.aon.xtal := by rfl
@[simp] theorem setBoot_aon_hold (s : State) (f : BootSt → BootSt) : (setBoot s f).aon.hold = s.aon.hold := by rfl
@[simp] theorem setBoot_aon_img (s : State) (f : BootSt → BootSt) : (setBoot s f).aon.img = s.aon.img := by rfl
@[simp] theorem setBoot_aon_imgKnown (s : State) (f : BootSt → BootSt) : (setBoot s f).aon.imgKnown = s.aon.imgKnown := by rfl
@[simp] theorem setBoot_aon_cont (s : State) (f : BootSt → BootSt) : (setBoot s f).aon.cont = s.aon.cont := by rfl
@[simp] theorem setBoot_aon_stale (s : State) (f : BootSt → BootSt) : (setBoot s f).aon.stale = s.aon.stale := by rfl
@[simp] theorem setBoot_aon_cause (s : State) (f : BootSt → BootSt) : (setBoot s f).aon.cause = s.aon.cause := by rfl
@[simp] theorem setBoot_aon_superseded (s : State) (f : BootSt → BootSt) : (setBoot s f).aon.superseded = s.aon.superseded := by rfl
@[simp] theorem setBoot_aon_failedSave (s : State) (f : BootSt → BootSt) : (setBoot s f).aon.failedSave = s.aon.failedSave := by rfl
@[simp] theorem setBoot_aon_nandDiverged (s : State) (f : BootSt → BootSt) : (setBoot s f).aon.nandDiverged = s.aon.nandDiverged := by rfl
@[simp] theorem setBoot_aon_aonLost (s : State) (f : BootSt → BootSt) : (setBoot s f).aon.aonLost = s.aon.aonLost := by rfl
@[simp] theorem setBoot_aon_rst (s : State) (f : BootSt → BootSt) : (setBoot s f).aon.rst = s.aon.rst := by rfl
@[simp] theorem setBoot_aon_boots (s : State) (f : BootSt → BootSt) : (setBoot s f).aon.boots = s.aon.boots := by rfl
@[simp] theorem setBoot_aon_opt (s : State) (f : BootSt → BootSt) : (setBoot s f).aon.opt = s.aon.opt := by rfl
@[simp] theorem setBoot_aon_optSel (s : State) (f : BootSt → BootSt) : (setBoot s f).aon.optSel = s.aon.optSel := by rfl
@[simp] theorem setBoot_aon_optSeq (s : State) (f : BootSt → BootSt) : (setBoot s f).aon.optSeq = s.aon.optSeq := by rfl
@[simp] theorem setBoot_aon_runDisable (s : State) (f : BootSt → BootSt) : (setBoot s f).aon.runDisable = s.aon.runDisable := by rfl
@[simp] theorem setBoot_aon_wdArmed (s : State) (f : BootSt → BootSt) : (setBoot s f).aon.wdArmed = s.aon.wdArmed := by rfl
@[simp] theorem setBoot_aon_wdKick (s : State) (f : BootSt → BootSt) : (setBoot s f).aon.wdKick = s.aon.wdKick := by rfl
@[simp] theorem setBoot_aon_wdResets (s : State) (f : BootSt → BootSt) : (setBoot s f).aon.wdResets = s.aon.wdResets := by rfl
@[simp] theorem setBoot_aon_mgmtHold (s : State) (f : BootSt → BootSt) : (setBoot s f).aon.mgmtHold = s.aon.mgmtHold := by rfl
@[simp] theorem setBoot_aon_authRun (s : State) (f : BootSt → BootSt) : (setBoot s f).aon.authRun = s.aon.authRun := by rfl
@[simp] theorem setBoot_aon_authKeep (s : State) (f : BootSt → BootSt) : (setBoot s f).aon.authKeep = s.aon.authKeep := by rfl
@[simp] theorem setBoot_aon_pwd (s : State) (f : BootSt → BootSt) : (setBoot s f).aon.pwd = s.aon.pwd := by rfl
@[simp] theorem setBoot_aon_deferred (s : State) (f : BootSt → BootSt) : (setBoot s f).aon.deferred = s.aon.deferred := by rfl
@[simp] theorem setBoot_aon_activated (s : State) (f : BootSt → BootSt) : (setBoot s f).aon.activated = s.aon.activated := by rfl
@[simp] theorem setBoot_aon_erases (s : State) (f : BootSt → BootSt) : (setBoot s f).aon.erases = s.aon.erases := by rfl
@[simp] theorem setBoot_aon_checkpoint (s : State) (f : BootSt → BootSt) : (setBoot s f).aon.checkpoint = s.aon.checkpoint := by rfl
@[simp] theorem setBoot_aon_packAcc (s : State) (f : BootSt → BootSt) : (setBoot s f).aon.packAcc = s.aon.packAcc := by rfl
@[simp] theorem setBoot_aon_retryEnd (s : State) (f : BootSt → BootSt) : (setBoot s f).aon.retryEnd = s.aon.retryEnd := by rfl
@[simp] theorem setBoot_aon_batEmpty (s : State) (f : BootSt → BootSt) : (setBoot s f).aon.batEmpty = s.aon.batEmpty := by rfl
@[simp] theorem setBoot_aon_hwFloor (s : State) (f : BootSt → BootSt) : (setBoot s f).aon.hwFloor = s.aon.hwFloor := by rfl
@[simp] theorem setBoot_aon_tjHigh (s : State) (f : BootSt → BootSt) : (setBoot s f).aon.tjHigh = s.aon.tjHigh := by rfl
@[simp] theorem setBoot_aon_tj (s : State) (f : BootSt → BootSt) : (setBoot s f).aon.tj = s.aon.tj := by rfl
@[simp] theorem setBoot_aon_bank (s : State) (f : BootSt → BootSt) : (setBoot s f).aon.bank = s.aon.bank := by rfl
@[simp] theorem setBoot_aon_fwfb (s : State) (f : BootSt → BootSt) : (setBoot s f).aon.fwfb = s.aon.fwfb := by rfl
@[simp] theorem setBoot_aon_noFirmware (s : State) (f : BootSt → BootSt) : (setBoot s f).aon.noFirmware = s.aon.noFirmware := by rfl
@[simp] theorem setBoot_aon_hpOk (s : State) (f : BootSt → BootSt) : (setBoot s f).aon.hpOk = s.aon.hpOk := by rfl
@[simp] theorem setBoot_aon_faults (s : State) (f : BootSt → BootSt) : (setBoot s f).aon.faults = s.aon.faults := by rfl
@[simp] theorem setBoot_aon_parkAlarm (s : State) (f : BootSt → BootSt) : (setBoot s f).aon.parkAlarm = s.aon.parkAlarm := by rfl
@[simp] theorem setBoot_aon_qualifying (s : State) (f : BootSt → BootSt) : (setBoot s f).aon.qualifying = s.aon.qualifying := by rfl
@[simp] theorem setBoot_aon_checkGrans (s : State) (f : BootSt → BootSt) : (setBoot s f).aon.checkGrans = s.aon.checkGrans := by rfl
@[simp] theorem setBoot_aon_trigAt (s : State) (f : BootSt → BootSt) : (setBoot s f).aon.trigAt = s.aon.trigAt := by rfl
@[simp] theorem setBoot_log (s : State) (f : BootSt → BootSt) : (setBoot s f).log = s.log := by rfl
@[simp] theorem setBoot_pins (s : State) (f : BootSt → BootSt) : (setBoot s f).pins = s.pins := by rfl
@[simp] theorem setBoot_doms (s : State) (f : BootSt → BootSt) : (setBoot s f).doms = s.doms := by rfl
@[simp] theorem setBoot_hp (s : State) (f : BootSt → BootSt) : (setBoot s f).hp = s.hp := by rfl
@[simp] theorem setBoot_map (s : State) (f : BootSt → BootSt) : (setBoot s f).map = s.map := by rfl
@[simp] theorem setBoot_nand (s : State) (f : BootSt → BootSt) : (setBoot s f).nand = s.nand := by rfl
@[simp] theorem setBoot_rst (s : State) (f : BootSt → BootSt) : (setBoot s f).rst = s.rst := by rfl
@[simp] theorem setBoot_ten (s : State) (f : BootSt → BootSt) : (setBoot s f).ten = s.ten := by rfl
@[simp] theorem setBoot_bat (s : State) (f : BootSt → BootSt) : (setBoot s f).bat = s.bat := by rfl
@[simp] theorem setBoot_shb (s : State) (f : BootSt → BootSt) : (setBoot s f).shb = s.shb := by rfl
@[simp] theorem setBoot_warp (s : State) (f : BootSt → BootSt) : (setBoot s f).warp = s.warp := by rfl
@[simp] theorem setBoot_mg (s : State) (f : BootSt → BootSt) : (setBoot s f).mg = s.mg := by rfl
@[simp] theorem setBoot_cfl (s : State) (f : BootSt → BootSt) : (setBoot s f).cfl = s.cfl := by rfl
@[simp] theorem setBoot_store (s : State) (f : BootSt → BootSt) : (setBoot s f).store = s.store := by rfl
@[simp] theorem setBoot_i3c (s : State) (f : BootSt → BootSt) : (setBoot s f).i3c = s.i3c := by rfl
@[simp] theorem setBoot_free (s : State) (f : BootSt → BootSt) : (setBoot s f).free = s.free := by rfl
@[simp] theorem setBoot_pending (s : State) (f : BootSt → BootSt) : (setBoot s f).pending = s.pending := by rfl

/-! ## setPor -/

@[simp] theorem setPor_aon_por (s : State) (p : PorPhase) : (setPor s p).aon.por = p := by rfl
@[simp] theorem setPor_aon_us (s : State) (p : PorPhase) : (setPor s p).aon.us = s.aon.us := by rfl
@[simp] theorem setPor_aon_xtal (s : State) (p : PorPhase) : (setPor s p).aon.xtal = s.aon.xtal := by rfl
@[simp] theorem setPor_aon_hold (s : State) (p : PorPhase) : (setPor s p).aon.hold = s.aon.hold := by rfl
@[simp] theorem setPor_aon_boot (s : State) (p : PorPhase) : (setPor s p).aon.boot = s.aon.boot := by rfl
@[simp] theorem setPor_aon_img (s : State) (p : PorPhase) : (setPor s p).aon.img = s.aon.img := by rfl
@[simp] theorem setPor_aon_imgKnown (s : State) (p : PorPhase) : (setPor s p).aon.imgKnown = s.aon.imgKnown := by rfl
@[simp] theorem setPor_aon_cont (s : State) (p : PorPhase) : (setPor s p).aon.cont = s.aon.cont := by rfl
@[simp] theorem setPor_aon_stale (s : State) (p : PorPhase) : (setPor s p).aon.stale = s.aon.stale := by rfl
@[simp] theorem setPor_aon_cause (s : State) (p : PorPhase) : (setPor s p).aon.cause = s.aon.cause := by rfl
@[simp] theorem setPor_aon_superseded (s : State) (p : PorPhase) : (setPor s p).aon.superseded = s.aon.superseded := by rfl
@[simp] theorem setPor_aon_failedSave (s : State) (p : PorPhase) : (setPor s p).aon.failedSave = s.aon.failedSave := by rfl
@[simp] theorem setPor_aon_nandDiverged (s : State) (p : PorPhase) : (setPor s p).aon.nandDiverged = s.aon.nandDiverged := by rfl
@[simp] theorem setPor_aon_aonLost (s : State) (p : PorPhase) : (setPor s p).aon.aonLost = s.aon.aonLost := by rfl
@[simp] theorem setPor_aon_rst (s : State) (p : PorPhase) : (setPor s p).aon.rst = s.aon.rst := by rfl
@[simp] theorem setPor_aon_boots (s : State) (p : PorPhase) : (setPor s p).aon.boots = s.aon.boots := by rfl
@[simp] theorem setPor_aon_opt (s : State) (p : PorPhase) : (setPor s p).aon.opt = s.aon.opt := by rfl
@[simp] theorem setPor_aon_optSel (s : State) (p : PorPhase) : (setPor s p).aon.optSel = s.aon.optSel := by rfl
@[simp] theorem setPor_aon_optSeq (s : State) (p : PorPhase) : (setPor s p).aon.optSeq = s.aon.optSeq := by rfl
@[simp] theorem setPor_aon_runDisable (s : State) (p : PorPhase) : (setPor s p).aon.runDisable = s.aon.runDisable := by rfl
@[simp] theorem setPor_aon_wdArmed (s : State) (p : PorPhase) : (setPor s p).aon.wdArmed = s.aon.wdArmed := by rfl
@[simp] theorem setPor_aon_wdKick (s : State) (p : PorPhase) : (setPor s p).aon.wdKick = s.aon.wdKick := by rfl
@[simp] theorem setPor_aon_wdResets (s : State) (p : PorPhase) : (setPor s p).aon.wdResets = s.aon.wdResets := by rfl
@[simp] theorem setPor_aon_mgmtHold (s : State) (p : PorPhase) : (setPor s p).aon.mgmtHold = s.aon.mgmtHold := by rfl
@[simp] theorem setPor_aon_authRun (s : State) (p : PorPhase) : (setPor s p).aon.authRun = s.aon.authRun := by rfl
@[simp] theorem setPor_aon_authKeep (s : State) (p : PorPhase) : (setPor s p).aon.authKeep = s.aon.authKeep := by rfl
@[simp] theorem setPor_aon_pwd (s : State) (p : PorPhase) : (setPor s p).aon.pwd = s.aon.pwd := by rfl
@[simp] theorem setPor_aon_deferred (s : State) (p : PorPhase) : (setPor s p).aon.deferred = s.aon.deferred := by rfl
@[simp] theorem setPor_aon_activated (s : State) (p : PorPhase) : (setPor s p).aon.activated = s.aon.activated := by rfl
@[simp] theorem setPor_aon_erases (s : State) (p : PorPhase) : (setPor s p).aon.erases = s.aon.erases := by rfl
@[simp] theorem setPor_aon_checkpoint (s : State) (p : PorPhase) : (setPor s p).aon.checkpoint = s.aon.checkpoint := by rfl
@[simp] theorem setPor_aon_packAcc (s : State) (p : PorPhase) : (setPor s p).aon.packAcc = s.aon.packAcc := by rfl
@[simp] theorem setPor_aon_retryEnd (s : State) (p : PorPhase) : (setPor s p).aon.retryEnd = s.aon.retryEnd := by rfl
@[simp] theorem setPor_aon_batEmpty (s : State) (p : PorPhase) : (setPor s p).aon.batEmpty = s.aon.batEmpty := by rfl
@[simp] theorem setPor_aon_hwFloor (s : State) (p : PorPhase) : (setPor s p).aon.hwFloor = s.aon.hwFloor := by rfl
@[simp] theorem setPor_aon_tjHigh (s : State) (p : PorPhase) : (setPor s p).aon.tjHigh = s.aon.tjHigh := by rfl
@[simp] theorem setPor_aon_tj (s : State) (p : PorPhase) : (setPor s p).aon.tj = s.aon.tj := by rfl
@[simp] theorem setPor_aon_bank (s : State) (p : PorPhase) : (setPor s p).aon.bank = s.aon.bank := by rfl
@[simp] theorem setPor_aon_fwfb (s : State) (p : PorPhase) : (setPor s p).aon.fwfb = s.aon.fwfb := by rfl
@[simp] theorem setPor_aon_noFirmware (s : State) (p : PorPhase) : (setPor s p).aon.noFirmware = s.aon.noFirmware := by rfl
@[simp] theorem setPor_aon_hpOk (s : State) (p : PorPhase) : (setPor s p).aon.hpOk = s.aon.hpOk := by rfl
@[simp] theorem setPor_aon_faults (s : State) (p : PorPhase) : (setPor s p).aon.faults = s.aon.faults := by rfl
@[simp] theorem setPor_aon_parkAlarm (s : State) (p : PorPhase) : (setPor s p).aon.parkAlarm = s.aon.parkAlarm := by rfl
@[simp] theorem setPor_aon_qualifying (s : State) (p : PorPhase) : (setPor s p).aon.qualifying = s.aon.qualifying := by rfl
@[simp] theorem setPor_aon_checkGrans (s : State) (p : PorPhase) : (setPor s p).aon.checkGrans = s.aon.checkGrans := by rfl
@[simp] theorem setPor_aon_trigAt (s : State) (p : PorPhase) : (setPor s p).aon.trigAt = s.aon.trigAt := by rfl
@[simp] theorem setPor_log (s : State) (p : PorPhase) : (setPor s p).log = s.log := by rfl
@[simp] theorem setPor_pins (s : State) (p : PorPhase) : (setPor s p).pins = s.pins := by rfl
@[simp] theorem setPor_doms (s : State) (p : PorPhase) : (setPor s p).doms = s.doms := by rfl
@[simp] theorem setPor_hp (s : State) (p : PorPhase) : (setPor s p).hp = s.hp := by rfl
@[simp] theorem setPor_map (s : State) (p : PorPhase) : (setPor s p).map = s.map := by rfl
@[simp] theorem setPor_nand (s : State) (p : PorPhase) : (setPor s p).nand = s.nand := by rfl
@[simp] theorem setPor_rst (s : State) (p : PorPhase) : (setPor s p).rst = s.rst := by rfl
@[simp] theorem setPor_ten (s : State) (p : PorPhase) : (setPor s p).ten = s.ten := by rfl
@[simp] theorem setPor_bat (s : State) (p : PorPhase) : (setPor s p).bat = s.bat := by rfl
@[simp] theorem setPor_shb (s : State) (p : PorPhase) : (setPor s p).shb = s.shb := by rfl
@[simp] theorem setPor_warp (s : State) (p : PorPhase) : (setPor s p).warp = s.warp := by rfl
@[simp] theorem setPor_mg (s : State) (p : PorPhase) : (setPor s p).mg = s.mg := by rfl
@[simp] theorem setPor_cfl (s : State) (p : PorPhase) : (setPor s p).cfl = s.cfl := by rfl
@[simp] theorem setPor_store (s : State) (p : PorPhase) : (setPor s p).store = s.store := by rfl
@[simp] theorem setPor_i3c (s : State) (p : PorPhase) : (setPor s p).i3c = s.i3c := by rfl
@[simp] theorem setPor_free (s : State) (p : PorPhase) : (setPor s p).free = s.free := by rfl
@[simp] theorem setPor_pending (s : State) (p : PorPhase) : (setPor s p).pending = s.pending := by rfl

/-! ## setXtal -/

@[simp] theorem setXtal_aon_xtal (s : State) (x : Xtal) : (setXtal s x).aon.xtal = x := by rfl
@[simp] theorem setXtal_aon_por (s : State) (x : Xtal) : (setXtal s x).aon.por = s.aon.por := by rfl
@[simp] theorem setXtal_aon_us (s : State) (x : Xtal) : (setXtal s x).aon.us = s.aon.us := by rfl
@[simp] theorem setXtal_aon_hold (s : State) (x : Xtal) : (setXtal s x).aon.hold = s.aon.hold := by rfl
@[simp] theorem setXtal_aon_boot (s : State) (x : Xtal) : (setXtal s x).aon.boot = s.aon.boot := by rfl
@[simp] theorem setXtal_aon_img (s : State) (x : Xtal) : (setXtal s x).aon.img = s.aon.img := by rfl
@[simp] theorem setXtal_aon_imgKnown (s : State) (x : Xtal) : (setXtal s x).aon.imgKnown = s.aon.imgKnown := by rfl
@[simp] theorem setXtal_aon_cont (s : State) (x : Xtal) : (setXtal s x).aon.cont = s.aon.cont := by rfl
@[simp] theorem setXtal_aon_stale (s : State) (x : Xtal) : (setXtal s x).aon.stale = s.aon.stale := by rfl
@[simp] theorem setXtal_aon_cause (s : State) (x : Xtal) : (setXtal s x).aon.cause = s.aon.cause := by rfl
@[simp] theorem setXtal_aon_superseded (s : State) (x : Xtal) : (setXtal s x).aon.superseded = s.aon.superseded := by rfl
@[simp] theorem setXtal_aon_failedSave (s : State) (x : Xtal) : (setXtal s x).aon.failedSave = s.aon.failedSave := by rfl
@[simp] theorem setXtal_aon_nandDiverged (s : State) (x : Xtal) : (setXtal s x).aon.nandDiverged = s.aon.nandDiverged := by rfl
@[simp] theorem setXtal_aon_aonLost (s : State) (x : Xtal) : (setXtal s x).aon.aonLost = s.aon.aonLost := by rfl
@[simp] theorem setXtal_aon_rst (s : State) (x : Xtal) : (setXtal s x).aon.rst = s.aon.rst := by rfl
@[simp] theorem setXtal_aon_boots (s : State) (x : Xtal) : (setXtal s x).aon.boots = s.aon.boots := by rfl
@[simp] theorem setXtal_aon_opt (s : State) (x : Xtal) : (setXtal s x).aon.opt = s.aon.opt := by rfl
@[simp] theorem setXtal_aon_optSel (s : State) (x : Xtal) : (setXtal s x).aon.optSel = s.aon.optSel := by rfl
@[simp] theorem setXtal_aon_optSeq (s : State) (x : Xtal) : (setXtal s x).aon.optSeq = s.aon.optSeq := by rfl
@[simp] theorem setXtal_aon_runDisable (s : State) (x : Xtal) : (setXtal s x).aon.runDisable = s.aon.runDisable := by rfl
@[simp] theorem setXtal_aon_wdArmed (s : State) (x : Xtal) : (setXtal s x).aon.wdArmed = s.aon.wdArmed := by rfl
@[simp] theorem setXtal_aon_wdKick (s : State) (x : Xtal) : (setXtal s x).aon.wdKick = s.aon.wdKick := by rfl
@[simp] theorem setXtal_aon_wdResets (s : State) (x : Xtal) : (setXtal s x).aon.wdResets = s.aon.wdResets := by rfl
@[simp] theorem setXtal_aon_mgmtHold (s : State) (x : Xtal) : (setXtal s x).aon.mgmtHold = s.aon.mgmtHold := by rfl
@[simp] theorem setXtal_aon_authRun (s : State) (x : Xtal) : (setXtal s x).aon.authRun = s.aon.authRun := by rfl
@[simp] theorem setXtal_aon_authKeep (s : State) (x : Xtal) : (setXtal s x).aon.authKeep = s.aon.authKeep := by rfl
@[simp] theorem setXtal_aon_pwd (s : State) (x : Xtal) : (setXtal s x).aon.pwd = s.aon.pwd := by rfl
@[simp] theorem setXtal_aon_deferred (s : State) (x : Xtal) : (setXtal s x).aon.deferred = s.aon.deferred := by rfl
@[simp] theorem setXtal_aon_activated (s : State) (x : Xtal) : (setXtal s x).aon.activated = s.aon.activated := by rfl
@[simp] theorem setXtal_aon_erases (s : State) (x : Xtal) : (setXtal s x).aon.erases = s.aon.erases := by rfl
@[simp] theorem setXtal_aon_checkpoint (s : State) (x : Xtal) : (setXtal s x).aon.checkpoint = s.aon.checkpoint := by rfl
@[simp] theorem setXtal_aon_packAcc (s : State) (x : Xtal) : (setXtal s x).aon.packAcc = s.aon.packAcc := by rfl
@[simp] theorem setXtal_aon_retryEnd (s : State) (x : Xtal) : (setXtal s x).aon.retryEnd = s.aon.retryEnd := by rfl
@[simp] theorem setXtal_aon_batEmpty (s : State) (x : Xtal) : (setXtal s x).aon.batEmpty = s.aon.batEmpty := by rfl
@[simp] theorem setXtal_aon_hwFloor (s : State) (x : Xtal) : (setXtal s x).aon.hwFloor = s.aon.hwFloor := by rfl
@[simp] theorem setXtal_aon_tjHigh (s : State) (x : Xtal) : (setXtal s x).aon.tjHigh = s.aon.tjHigh := by rfl
@[simp] theorem setXtal_aon_tj (s : State) (x : Xtal) : (setXtal s x).aon.tj = s.aon.tj := by rfl
@[simp] theorem setXtal_aon_bank (s : State) (x : Xtal) : (setXtal s x).aon.bank = s.aon.bank := by rfl
@[simp] theorem setXtal_aon_fwfb (s : State) (x : Xtal) : (setXtal s x).aon.fwfb = s.aon.fwfb := by rfl
@[simp] theorem setXtal_aon_noFirmware (s : State) (x : Xtal) : (setXtal s x).aon.noFirmware = s.aon.noFirmware := by rfl
@[simp] theorem setXtal_aon_hpOk (s : State) (x : Xtal) : (setXtal s x).aon.hpOk = s.aon.hpOk := by rfl
@[simp] theorem setXtal_aon_faults (s : State) (x : Xtal) : (setXtal s x).aon.faults = s.aon.faults := by rfl
@[simp] theorem setXtal_aon_parkAlarm (s : State) (x : Xtal) : (setXtal s x).aon.parkAlarm = s.aon.parkAlarm := by rfl
@[simp] theorem setXtal_aon_qualifying (s : State) (x : Xtal) : (setXtal s x).aon.qualifying = s.aon.qualifying := by rfl
@[simp] theorem setXtal_aon_checkGrans (s : State) (x : Xtal) : (setXtal s x).aon.checkGrans = s.aon.checkGrans := by rfl
@[simp] theorem setXtal_aon_trigAt (s : State) (x : Xtal) : (setXtal s x).aon.trigAt = s.aon.trigAt := by rfl
@[simp] theorem setXtal_log (s : State) (x : Xtal) : (setXtal s x).log = s.log := by rfl
@[simp] theorem setXtal_pins (s : State) (x : Xtal) : (setXtal s x).pins = s.pins := by rfl
@[simp] theorem setXtal_doms (s : State) (x : Xtal) : (setXtal s x).doms = s.doms := by rfl
@[simp] theorem setXtal_hp (s : State) (x : Xtal) : (setXtal s x).hp = s.hp := by rfl
@[simp] theorem setXtal_map (s : State) (x : Xtal) : (setXtal s x).map = s.map := by rfl
@[simp] theorem setXtal_nand (s : State) (x : Xtal) : (setXtal s x).nand = s.nand := by rfl
@[simp] theorem setXtal_rst (s : State) (x : Xtal) : (setXtal s x).rst = s.rst := by rfl
@[simp] theorem setXtal_ten (s : State) (x : Xtal) : (setXtal s x).ten = s.ten := by rfl
@[simp] theorem setXtal_bat (s : State) (x : Xtal) : (setXtal s x).bat = s.bat := by rfl
@[simp] theorem setXtal_shb (s : State) (x : Xtal) : (setXtal s x).shb = s.shb := by rfl
@[simp] theorem setXtal_warp (s : State) (x : Xtal) : (setXtal s x).warp = s.warp := by rfl
@[simp] theorem setXtal_mg (s : State) (x : Xtal) : (setXtal s x).mg = s.mg := by rfl
@[simp] theorem setXtal_cfl (s : State) (x : Xtal) : (setXtal s x).cfl = s.cfl := by rfl
@[simp] theorem setXtal_store (s : State) (x : Xtal) : (setXtal s x).store = s.store := by rfl
@[simp] theorem setXtal_i3c (s : State) (x : Xtal) : (setXtal s x).i3c = s.i3c := by rfl
@[simp] theorem setXtal_free (s : State) (x : Xtal) : (setXtal s x).free = s.free := by rfl
@[simp] theorem setXtal_pending (s : State) (x : Xtal) : (setXtal s x).pending = s.pending := by rfl

/-! ## setPhase -/

@[simp] theorem setPhase_hp_phase (s : State) (p : TakePhase) : (setPhase s p).hp.phase = p := by rfl
@[simp] theorem setPhase_hp_rows (s : State) (p : TakePhase) : (setPhase s p).hp.rows = s.hp.rows := by rfl
@[simp] theorem setPhase_hp_selfRef (s : State) (p : TakePhase) : (setPhase s p).hp.selfRef = s.hp.selfRef := by rfl
@[simp] theorem setPhase_hp_capture (s : State) (p : TakePhase) : (setPhase s p).hp.capture = s.hp.capture := by rfl
@[simp] theorem setPhase_hp_pda (s : State) (p : TakePhase) : (setPhase s p).hp.pda = s.hp.pda := by rfl
@[simp] theorem setPhase_hp_enums (s : State) (p : TakePhase) : (setPhase s p).hp.enums = s.hp.enums := by rfl
@[simp] theorem setPhase_hp_mrcapOvf (s : State) (p : TakePhase) : (setPhase s p).hp.mrcapOvf = s.hp.mrcapOvf := by rfl
@[simp] theorem setPhase_hp_rcd (s : State) (p : TakePhase) : (setPhase s p).hp.rcd = s.hp.rcd := by rfl
@[simp] theorem setPhase_hp_snoop (s : State) (p : TakePhase) : (setPhase s p).hp.snoop = s.hp.snoop := by rfl
@[simp] theorem setPhase_hp_filter (s : State) (p : TakePhase) : (setPhase s p).hp.filter = s.hp.filter := by rfl
@[simp] theorem setPhase_hp_dckAbsent (s : State) (p : TakePhase) : (setPhase s p).hp.dckAbsent = s.hp.dckAbsent := by rfl
@[simp] theorem setPhase_hp_parityErrors (s : State) (p : TakePhase) : (setPhase s p).hp.parityErrors = s.hp.parityErrors := by rfl
@[simp] theorem setPhase_hp_replayed (s : State) (p : TakePhase) : (setPhase s p).hp.replayed = s.hp.replayed := by rfl
@[simp] theorem setPhase_hp_training (s : State) (p : TakePhase) : (setPhase s p).hp.training = s.hp.training := by rfl
@[simp] theorem setPhase_aon (s : State) (p : TakePhase) : (setPhase s p).aon = s.aon := by rfl
@[simp] theorem setPhase_log (s : State) (p : TakePhase) : (setPhase s p).log = s.log := by rfl
@[simp] theorem setPhase_pins (s : State) (p : TakePhase) : (setPhase s p).pins = s.pins := by rfl
@[simp] theorem setPhase_doms (s : State) (p : TakePhase) : (setPhase s p).doms = s.doms := by rfl
@[simp] theorem setPhase_map (s : State) (p : TakePhase) : (setPhase s p).map = s.map := by rfl
@[simp] theorem setPhase_nand (s : State) (p : TakePhase) : (setPhase s p).nand = s.nand := by rfl
@[simp] theorem setPhase_rst (s : State) (p : TakePhase) : (setPhase s p).rst = s.rst := by rfl
@[simp] theorem setPhase_ten (s : State) (p : TakePhase) : (setPhase s p).ten = s.ten := by rfl
@[simp] theorem setPhase_bat (s : State) (p : TakePhase) : (setPhase s p).bat = s.bat := by rfl
@[simp] theorem setPhase_shb (s : State) (p : TakePhase) : (setPhase s p).shb = s.shb := by rfl
@[simp] theorem setPhase_warp (s : State) (p : TakePhase) : (setPhase s p).warp = s.warp := by rfl
@[simp] theorem setPhase_mg (s : State) (p : TakePhase) : (setPhase s p).mg = s.mg := by rfl
@[simp] theorem setPhase_cfl (s : State) (p : TakePhase) : (setPhase s p).cfl = s.cfl := by rfl
@[simp] theorem setPhase_store (s : State) (p : TakePhase) : (setPhase s p).store = s.store := by rfl
@[simp] theorem setPhase_i3c (s : State) (p : TakePhase) : (setPhase s p).i3c = s.i3c := by rfl
@[simp] theorem setPhase_free (s : State) (p : TakePhase) : (setPhase s p).free = s.free := by rfl
@[simp] theorem setPhase_pending (s : State) (p : TakePhase) : (setPhase s p).pending = s.pending := by rfl

/-! ## setSave -/

@[simp] theorem setSave_map_save (s : State) (v : Save) : (setSave s v).map.save = some v := by rfl
@[simp] theorem setSave_map_geom (s : State) (v : Save) : (setSave s v).map.geom = s.map.geom := by rfl
@[simp] theorem setSave_map_dirty (s : State) (v : Save) : (setSave s v).map.dirty = s.map.dirty := by rfl
@[simp] theorem setSave_map_descriptors (s : State) (v : Save) : (setSave s v).map.descriptors = s.map.descriptors := by rfl
@[simp] theorem setSave_map_classes (s : State) (v : Save) : (setSave s v).map.classes = s.map.classes := by rfl
@[simp] theorem setSave_map_reload (s : State) (v : Save) : (setSave s v).map.reload = s.map.reload := by rfl
@[simp] theorem setSave_map_eRem (s : State) (v : Save) : (setSave s v).map.eRem = s.map.eRem := by rfl
@[simp] theorem setSave_map_eStale (s : State) (v : Save) : (setSave s v).map.eStale = s.map.eStale := by rfl
@[simp] theorem setSave_map_cover (s : State) (v : Save) : (setSave s v).map.cover = s.map.cover := by rfl
@[simp] theorem setSave_map_eg (s : State) (v : Save) : (setSave s v).map.eg = s.map.eg := by rfl
@[simp] theorem setSave_map_eFix (s : State) (v : Save) : (setSave s v).map.eFix = s.map.eFix := by rfl
@[simp] theorem setSave_map_eTail (s : State) (v : Save) : (setSave s v).map.eTail = s.map.eTail := by rfl
@[simp] theorem setSave_map_dqFailA (s : State) (v : Save) : (setSave s v).map.dqFailA = s.map.dqFailA := by rfl
@[simp] theorem setSave_map_dqFailB (s : State) (v : Save) : (setSave s v).map.dqFailB = s.map.dqFailB := by rfl
@[simp] theorem setSave_map_parkWaitNs (s : State) (v : Save) : (setSave s v).map.parkWaitNs = s.map.parkWaitNs := by rfl
@[simp] theorem setSave_map_descDies (s : State) (v : Save) : (setSave s v).map.descDies = s.map.descDies := by rfl
@[simp] theorem setSave_map_tabLens (s : State) (v : Save) : (setSave s v).map.tabLens = s.map.tabLens := by rfl
@[simp] theorem setSave_aon (s : State) (v : Save) : (setSave s v).aon = s.aon := by rfl
@[simp] theorem setSave_log (s : State) (v : Save) : (setSave s v).log = s.log := by rfl
@[simp] theorem setSave_pins (s : State) (v : Save) : (setSave s v).pins = s.pins := by rfl
@[simp] theorem setSave_doms (s : State) (v : Save) : (setSave s v).doms = s.doms := by rfl
@[simp] theorem setSave_hp (s : State) (v : Save) : (setSave s v).hp = s.hp := by rfl
@[simp] theorem setSave_nand (s : State) (v : Save) : (setSave s v).nand = s.nand := by rfl
@[simp] theorem setSave_rst (s : State) (v : Save) : (setSave s v).rst = s.rst := by rfl
@[simp] theorem setSave_ten (s : State) (v : Save) : (setSave s v).ten = s.ten := by rfl
@[simp] theorem setSave_bat (s : State) (v : Save) : (setSave s v).bat = s.bat := by rfl
@[simp] theorem setSave_shb (s : State) (v : Save) : (setSave s v).shb = s.shb := by rfl
@[simp] theorem setSave_warp (s : State) (v : Save) : (setSave s v).warp = s.warp := by rfl
@[simp] theorem setSave_mg (s : State) (v : Save) : (setSave s v).mg = s.mg := by rfl
@[simp] theorem setSave_cfl (s : State) (v : Save) : (setSave s v).cfl = s.cfl := by rfl
@[simp] theorem setSave_store (s : State) (v : Save) : (setSave s v).store = s.store := by rfl
@[simp] theorem setSave_i3c (s : State) (v : Save) : (setSave s v).i3c = s.i3c := by rfl
@[simp] theorem setSave_free (s : State) (v : Save) : (setSave s v).free = s.free := by rfl
@[simp] theorem setSave_pending (s : State) (v : Save) : (setSave s v).pending = s.pending := by rfl

/-! ## setDirty -/

@[simp] theorem setDirty_map_dirty (s : State) (r : RangeSet) : (setDirty s r).map.dirty = rsUnion s.map.dirty r := by rfl
@[simp] theorem setDirty_map_geom (s : State) (r : RangeSet) : (setDirty s r).map.geom = s.map.geom := by rfl
@[simp] theorem setDirty_map_descriptors (s : State) (r : RangeSet) : (setDirty s r).map.descriptors = s.map.descriptors := by rfl
@[simp] theorem setDirty_map_classes (s : State) (r : RangeSet) : (setDirty s r).map.classes = s.map.classes := by rfl
@[simp] theorem setDirty_map_reload (s : State) (r : RangeSet) : (setDirty s r).map.reload = s.map.reload := by rfl
@[simp] theorem setDirty_map_eRem (s : State) (r : RangeSet) : (setDirty s r).map.eRem = s.map.eRem := by rfl
@[simp] theorem setDirty_map_eStale (s : State) (r : RangeSet) : (setDirty s r).map.eStale = s.map.eStale := by rfl
@[simp] theorem setDirty_map_cover (s : State) (r : RangeSet) : (setDirty s r).map.cover = s.map.cover := by rfl
@[simp] theorem setDirty_map_eg (s : State) (r : RangeSet) : (setDirty s r).map.eg = s.map.eg := by rfl
@[simp] theorem setDirty_map_eFix (s : State) (r : RangeSet) : (setDirty s r).map.eFix = s.map.eFix := by rfl
@[simp] theorem setDirty_map_eTail (s : State) (r : RangeSet) : (setDirty s r).map.eTail = s.map.eTail := by rfl
@[simp] theorem setDirty_map_save (s : State) (r : RangeSet) : (setDirty s r).map.save = s.map.save := by rfl
@[simp] theorem setDirty_map_dqFailA (s : State) (r : RangeSet) : (setDirty s r).map.dqFailA = s.map.dqFailA := by rfl
@[simp] theorem setDirty_map_dqFailB (s : State) (r : RangeSet) : (setDirty s r).map.dqFailB = s.map.dqFailB := by rfl
@[simp] theorem setDirty_map_parkWaitNs (s : State) (r : RangeSet) : (setDirty s r).map.parkWaitNs = s.map.parkWaitNs := by rfl
@[simp] theorem setDirty_map_descDies (s : State) (r : RangeSet) : (setDirty s r).map.descDies = s.map.descDies := by rfl
@[simp] theorem setDirty_map_tabLens (s : State) (r : RangeSet) : (setDirty s r).map.tabLens = s.map.tabLens := by rfl
@[simp] theorem setDirty_aon (s : State) (r : RangeSet) : (setDirty s r).aon = s.aon := by rfl
@[simp] theorem setDirty_log (s : State) (r : RangeSet) : (setDirty s r).log = s.log := by rfl
@[simp] theorem setDirty_pins (s : State) (r : RangeSet) : (setDirty s r).pins = s.pins := by rfl
@[simp] theorem setDirty_doms (s : State) (r : RangeSet) : (setDirty s r).doms = s.doms := by rfl
@[simp] theorem setDirty_hp (s : State) (r : RangeSet) : (setDirty s r).hp = s.hp := by rfl
@[simp] theorem setDirty_nand (s : State) (r : RangeSet) : (setDirty s r).nand = s.nand := by rfl
@[simp] theorem setDirty_rst (s : State) (r : RangeSet) : (setDirty s r).rst = s.rst := by rfl
@[simp] theorem setDirty_ten (s : State) (r : RangeSet) : (setDirty s r).ten = s.ten := by rfl
@[simp] theorem setDirty_bat (s : State) (r : RangeSet) : (setDirty s r).bat = s.bat := by rfl
@[simp] theorem setDirty_shb (s : State) (r : RangeSet) : (setDirty s r).shb = s.shb := by rfl
@[simp] theorem setDirty_warp (s : State) (r : RangeSet) : (setDirty s r).warp = s.warp := by rfl
@[simp] theorem setDirty_mg (s : State) (r : RangeSet) : (setDirty s r).mg = s.mg := by rfl
@[simp] theorem setDirty_cfl (s : State) (r : RangeSet) : (setDirty s r).cfl = s.cfl := by rfl
@[simp] theorem setDirty_store (s : State) (r : RangeSet) : (setDirty s r).store = s.store := by rfl
@[simp] theorem setDirty_i3c (s : State) (r : RangeSet) : (setDirty s r).i3c = s.i3c := by rfl
@[simp] theorem setDirty_free (s : State) (r : RangeSet) : (setDirty s r).free = s.free := by rfl
@[simp] theorem setDirty_pending (s : State) (r : RangeSet) : (setDirty s r).pending = s.pending := by rfl

/-! ## setAllDirty -/

@[simp] theorem setAllDirty_map_dirty (s : State) : (setAllDirty s).map.dirty = allGranules s := by rfl
@[simp] theorem setAllDirty_map_geom (s : State) : (setAllDirty s).map.geom = s.map.geom := by rfl
@[simp] theorem setAllDirty_map_descriptors (s : State) : (setAllDirty s).map.descriptors = s.map.descriptors := by rfl
@[simp] theorem setAllDirty_map_classes (s : State) : (setAllDirty s).map.classes = s.map.classes := by rfl
@[simp] theorem setAllDirty_map_reload (s : State) : (setAllDirty s).map.reload = s.map.reload := by rfl
@[simp] theorem setAllDirty_map_eRem (s : State) : (setAllDirty s).map.eRem = s.map.eRem := by rfl
@[simp] theorem setAllDirty_map_eStale (s : State) : (setAllDirty s).map.eStale = s.map.eStale := by rfl
@[simp] theorem setAllDirty_map_cover (s : State) : (setAllDirty s).map.cover = s.map.cover := by rfl
@[simp] theorem setAllDirty_map_eg (s : State) : (setAllDirty s).map.eg = s.map.eg := by rfl
@[simp] theorem setAllDirty_map_eFix (s : State) : (setAllDirty s).map.eFix = s.map.eFix := by rfl
@[simp] theorem setAllDirty_map_eTail (s : State) : (setAllDirty s).map.eTail = s.map.eTail := by rfl
@[simp] theorem setAllDirty_map_save (s : State) : (setAllDirty s).map.save = s.map.save := by rfl
@[simp] theorem setAllDirty_map_dqFailA (s : State) : (setAllDirty s).map.dqFailA = s.map.dqFailA := by rfl
@[simp] theorem setAllDirty_map_dqFailB (s : State) : (setAllDirty s).map.dqFailB = s.map.dqFailB := by rfl
@[simp] theorem setAllDirty_map_parkWaitNs (s : State) : (setAllDirty s).map.parkWaitNs = s.map.parkWaitNs := by rfl
@[simp] theorem setAllDirty_map_descDies (s : State) : (setAllDirty s).map.descDies = s.map.descDies := by rfl
@[simp] theorem setAllDirty_map_tabLens (s : State) : (setAllDirty s).map.tabLens = s.map.tabLens := by rfl
@[simp] theorem setAllDirty_aon (s : State) : (setAllDirty s).aon = s.aon := by rfl
@[simp] theorem setAllDirty_log (s : State) : (setAllDirty s).log = s.log := by rfl
@[simp] theorem setAllDirty_pins (s : State) : (setAllDirty s).pins = s.pins := by rfl
@[simp] theorem setAllDirty_doms (s : State) : (setAllDirty s).doms = s.doms := by rfl
@[simp] theorem setAllDirty_hp (s : State) : (setAllDirty s).hp = s.hp := by rfl
@[simp] theorem setAllDirty_nand (s : State) : (setAllDirty s).nand = s.nand := by rfl
@[simp] theorem setAllDirty_rst (s : State) : (setAllDirty s).rst = s.rst := by rfl
@[simp] theorem setAllDirty_ten (s : State) : (setAllDirty s).ten = s.ten := by rfl
@[simp] theorem setAllDirty_bat (s : State) : (setAllDirty s).bat = s.bat := by rfl
@[simp] theorem setAllDirty_shb (s : State) : (setAllDirty s).shb = s.shb := by rfl
@[simp] theorem setAllDirty_warp (s : State) : (setAllDirty s).warp = s.warp := by rfl
@[simp] theorem setAllDirty_mg (s : State) : (setAllDirty s).mg = s.mg := by rfl
@[simp] theorem setAllDirty_cfl (s : State) : (setAllDirty s).cfl = s.cfl := by rfl
@[simp] theorem setAllDirty_store (s : State) : (setAllDirty s).store = s.store := by rfl
@[simp] theorem setAllDirty_i3c (s : State) : (setAllDirty s).i3c = s.i3c := by rfl
@[simp] theorem setAllDirty_free (s : State) : (setAllDirty s).free = s.free := by rfl
@[simp] theorem setAllDirty_pending (s : State) : (setAllDirty s).pending = s.pending := by rfl

/-! ## setRun -/

@[simp] theorem setRun_rst_run (s : State) (r : RestoreRun) : (setRun s r).rst.run = some r := by rfl
@[simp] theorem setRun_rst_req (s : State) (r : RestoreRun) : (setRun s r).rst.req = s.rst.req := by rfl
@[simp] theorem setRun_rst_report (s : State) (r : RestoreRun) : (setRun s r).rst.report = s.rst.report := by rfl
@[simp] theorem setRun_aon (s : State) (r : RestoreRun) : (setRun s r).aon = s.aon := by rfl
@[simp] theorem setRun_log (s : State) (r : RestoreRun) : (setRun s r).log = s.log := by rfl
@[simp] theorem setRun_pins (s : State) (r : RestoreRun) : (setRun s r).pins = s.pins := by rfl
@[simp] theorem setRun_doms (s : State) (r : RestoreRun) : (setRun s r).doms = s.doms := by rfl
@[simp] theorem setRun_hp (s : State) (r : RestoreRun) : (setRun s r).hp = s.hp := by rfl
@[simp] theorem setRun_map (s : State) (r : RestoreRun) : (setRun s r).map = s.map := by rfl
@[simp] theorem setRun_nand (s : State) (r : RestoreRun) : (setRun s r).nand = s.nand := by rfl
@[simp] theorem setRun_ten (s : State) (r : RestoreRun) : (setRun s r).ten = s.ten := by rfl
@[simp] theorem setRun_bat (s : State) (r : RestoreRun) : (setRun s r).bat = s.bat := by rfl
@[simp] theorem setRun_shb (s : State) (r : RestoreRun) : (setRun s r).shb = s.shb := by rfl
@[simp] theorem setRun_warp (s : State) (r : RestoreRun) : (setRun s r).warp = s.warp := by rfl
@[simp] theorem setRun_mg (s : State) (r : RestoreRun) : (setRun s r).mg = s.mg := by rfl
@[simp] theorem setRun_cfl (s : State) (r : RestoreRun) : (setRun s r).cfl = s.cfl := by rfl
@[simp] theorem setRun_store (s : State) (r : RestoreRun) : (setRun s r).store = s.store := by rfl
@[simp] theorem setRun_i3c (s : State) (r : RestoreRun) : (setRun s r).i3c = s.i3c := by rfl
@[simp] theorem setRun_free (s : State) (r : RestoreRun) : (setRun s r).free = s.free := by rfl
@[simp] theorem setRun_pending (s : State) (r : RestoreRun) : (setRun s r).pending = s.pending := by rfl

/-! ## setAttr -/

@[simp] theorem setAttr_ten_attr (s : State) (t : Tenant) (a : Word) : (setAttr s t a).ten.attr = upd s.ten.attr t (fun _ => a) := by rfl
@[simp] theorem setAttr_ten_map (s : State) (t : Tenant) (a : Word) : (setAttr s t a).ten.map = s.ten.map := by rfl
@[simp] theorem setAttr_ten_blobs (s : State) (t : Tenant) (a : Word) : (setAttr s t a).ten.blobs = s.ten.blobs := by rfl
@[simp] theorem setAttr_ten_otk (s : State) (t : Tenant) (a : Word) : (setAttr s t a).ten.otk = s.ten.otk := by rfl
@[simp] theorem setAttr_ten_eraseList (s : State) (t : Tenant) (a : Word) : (setAttr s t a).ten.eraseList = s.ten.eraseList := by rfl
@[simp] theorem setAttr_ten_oldDirty (s : State) (t : Tenant) (a : Word) : (setAttr s t a).ten.oldDirty = s.ten.oldDirty := by rfl
@[simp] theorem setAttr_ten_loaded (s : State) (t : Tenant) (a : Word) : (setAttr s t a).ten.loaded = s.ten.loaded := by rfl
@[simp] theorem setAttr_ten_unusable (s : State) (t : Tenant) (a : Word) : (setAttr s t a).ten.unusable = s.ten.unusable := by rfl
@[simp] theorem setAttr_ten_jobs (s : State) (t : Tenant) (a : Word) : (setAttr s t a).ten.jobs = s.ten.jobs := by rfl
@[simp] theorem setAttr_ten_kdestroy (s : State) (t : Tenant) (a : Word) : (setAttr s t a).ten.kdestroy = s.ten.kdestroy := by rfl
@[simp] theorem setAttr_ten_keyloss (s : State) (t : Tenant) (a : Word) : (setAttr s t a).ten.keyloss = s.ten.keyloss := by rfl
@[simp] theorem setAttr_aon (s : State) (t : Tenant) (a : Word) : (setAttr s t a).aon = s.aon := by rfl
@[simp] theorem setAttr_log (s : State) (t : Tenant) (a : Word) : (setAttr s t a).log = s.log := by rfl
@[simp] theorem setAttr_pins (s : State) (t : Tenant) (a : Word) : (setAttr s t a).pins = s.pins := by rfl
@[simp] theorem setAttr_doms (s : State) (t : Tenant) (a : Word) : (setAttr s t a).doms = s.doms := by rfl
@[simp] theorem setAttr_hp (s : State) (t : Tenant) (a : Word) : (setAttr s t a).hp = s.hp := by rfl
@[simp] theorem setAttr_map (s : State) (t : Tenant) (a : Word) : (setAttr s t a).map = s.map := by rfl
@[simp] theorem setAttr_nand (s : State) (t : Tenant) (a : Word) : (setAttr s t a).nand = s.nand := by rfl
@[simp] theorem setAttr_rst (s : State) (t : Tenant) (a : Word) : (setAttr s t a).rst = s.rst := by rfl
@[simp] theorem setAttr_bat (s : State) (t : Tenant) (a : Word) : (setAttr s t a).bat = s.bat := by rfl
@[simp] theorem setAttr_shb (s : State) (t : Tenant) (a : Word) : (setAttr s t a).shb = s.shb := by rfl
@[simp] theorem setAttr_warp (s : State) (t : Tenant) (a : Word) : (setAttr s t a).warp = s.warp := by rfl
@[simp] theorem setAttr_mg (s : State) (t : Tenant) (a : Word) : (setAttr s t a).mg = s.mg := by rfl
@[simp] theorem setAttr_cfl (s : State) (t : Tenant) (a : Word) : (setAttr s t a).cfl = s.cfl := by rfl
@[simp] theorem setAttr_store (s : State) (t : Tenant) (a : Word) : (setAttr s t a).store = s.store := by rfl
@[simp] theorem setAttr_i3c (s : State) (t : Tenant) (a : Word) : (setAttr s t a).i3c = s.i3c := by rfl
@[simp] theorem setAttr_free (s : State) (t : Tenant) (a : Word) : (setAttr s t a).free = s.free := by rfl
@[simp] theorem setAttr_pending (s : State) (t : Tenant) (a : Word) : (setAttr s t a).pending = s.pending := by rfl

/-! ## setSes -/

@[simp] theorem setSes_mg_ses (s : State) (k : Sess) (f : Ses → Ses) : (setSes s k f).mg.ses = upd s.mg.ses k f := by rfl
@[simp] theorem setSes_mg_running (s : State) (k : Sess) (f : Ses → Ses) : (setSes s k f).mg.running = s.mg.running := by rfl
@[simp] theorem setSes_mg_idleNs (s : State) (k : Sess) (f : Ses → Ses) : (setSes s k f).mg.idleNs = s.mg.idleNs := by rfl
@[simp] theorem setSes_mg_secRun (s : State) (k : Sess) (f : Ses → Ses) : (setSes s k f).mg.secRun = s.mg.secRun := by rfl
@[simp] theorem setSes_mg_secKeep (s : State) (k : Sess) (f : Ses → Ses) : (setSes s k f).mg.secKeep = s.mg.secKeep := by rfl
@[simp] theorem setSes_mg_secBad (s : State) (k : Sess) (f : Ses → Ses) : (setSes s k f).mg.secBad = s.mg.secBad := by rfl
@[simp] theorem setSes_mg_txFeed (s : State) (k : Sess) (f : Ses → Ses) : (setSes s k f).mg.txFeed = s.mg.txFeed := by rfl
@[simp] theorem setSes_mg_halted (s : State) (k : Sess) (f : Ses → Ses) : (setSes s k f).mg.halted = s.mg.halted := by rfl
@[simp] theorem setSes_mg_announce (s : State) (k : Sess) (f : Ses → Ses) : (setSes s k f).mg.announce = s.mg.announce := by rfl
@[simp] theorem setSes_aon (s : State) (k : Sess) (f : Ses → Ses) : (setSes s k f).aon = s.aon := by rfl
@[simp] theorem setSes_log (s : State) (k : Sess) (f : Ses → Ses) : (setSes s k f).log = s.log := by rfl
@[simp] theorem setSes_pins (s : State) (k : Sess) (f : Ses → Ses) : (setSes s k f).pins = s.pins := by rfl
@[simp] theorem setSes_doms (s : State) (k : Sess) (f : Ses → Ses) : (setSes s k f).doms = s.doms := by rfl
@[simp] theorem setSes_hp (s : State) (k : Sess) (f : Ses → Ses) : (setSes s k f).hp = s.hp := by rfl
@[simp] theorem setSes_map (s : State) (k : Sess) (f : Ses → Ses) : (setSes s k f).map = s.map := by rfl
@[simp] theorem setSes_nand (s : State) (k : Sess) (f : Ses → Ses) : (setSes s k f).nand = s.nand := by rfl
@[simp] theorem setSes_rst (s : State) (k : Sess) (f : Ses → Ses) : (setSes s k f).rst = s.rst := by rfl
@[simp] theorem setSes_ten (s : State) (k : Sess) (f : Ses → Ses) : (setSes s k f).ten = s.ten := by rfl
@[simp] theorem setSes_bat (s : State) (k : Sess) (f : Ses → Ses) : (setSes s k f).bat = s.bat := by rfl
@[simp] theorem setSes_shb (s : State) (k : Sess) (f : Ses → Ses) : (setSes s k f).shb = s.shb := by rfl
@[simp] theorem setSes_warp (s : State) (k : Sess) (f : Ses → Ses) : (setSes s k f).warp = s.warp := by rfl
@[simp] theorem setSes_cfl (s : State) (k : Sess) (f : Ses → Ses) : (setSes s k f).cfl = s.cfl := by rfl
@[simp] theorem setSes_store (s : State) (k : Sess) (f : Ses → Ses) : (setSes s k f).store = s.store := by rfl
@[simp] theorem setSes_i3c (s : State) (k : Sess) (f : Ses → Ses) : (setSes s k f).i3c = s.i3c := by rfl
@[simp] theorem setSes_free (s : State) (k : Sess) (f : Ses → Ses) : (setSes s k f).free = s.free := by rfl
@[simp] theorem setSes_pending (s : State) (k : Sess) (f : Ses → Ses) : (setSes s k f).pending = s.pending := by rfl

/-! ## setDom -/

@[simp] theorem setDom_doms_dom (s : State) (d : Dom) (f : DomSt → DomSt) : (setDom s d f).doms.dom = upd s.doms.dom d f := by rfl
@[simp] theorem setDom_doms_lanes (s : State) (d : Dom) (f : DomSt → DomSt) : (setDom s d f).doms.lanes = s.doms.lanes := by rfl
@[simp] theorem setDom_doms_pllF (s : State) (d : Dom) (f : DomSt → DomSt) : (setDom s d f).doms.pllF = s.doms.pllF := by rfl
@[simp] theorem setDom_doms_pllM (s : State) (d : Dom) (f : DomSt → DomSt) : (setDom s d f).doms.pllM = s.doms.pllM := by rfl
@[simp] theorem setDom_doms_pllN (s : State) (d : Dom) (f : DomSt → DomSt) : (setDom s d f).doms.pllN = s.doms.pllN := by rfl
@[simp] theorem setDom_doms_drainNs (s : State) (d : Dom) (f : DomSt → DomSt) : (setDom s d f).doms.drainNs = s.doms.drainNs := by rfl
@[simp] theorem setDom_aon (s : State) (d : Dom) (f : DomSt → DomSt) : (setDom s d f).aon = s.aon := by rfl
@[simp] theorem setDom_log (s : State) (d : Dom) (f : DomSt → DomSt) : (setDom s d f).log = s.log := by rfl
@[simp] theorem setDom_pins (s : State) (d : Dom) (f : DomSt → DomSt) : (setDom s d f).pins = s.pins := by rfl
@[simp] theorem setDom_hp (s : State) (d : Dom) (f : DomSt → DomSt) : (setDom s d f).hp = s.hp := by rfl
@[simp] theorem setDom_map (s : State) (d : Dom) (f : DomSt → DomSt) : (setDom s d f).map = s.map := by rfl
@[simp] theorem setDom_nand (s : State) (d : Dom) (f : DomSt → DomSt) : (setDom s d f).nand = s.nand := by rfl
@[simp] theorem setDom_rst (s : State) (d : Dom) (f : DomSt → DomSt) : (setDom s d f).rst = s.rst := by rfl
@[simp] theorem setDom_ten (s : State) (d : Dom) (f : DomSt → DomSt) : (setDom s d f).ten = s.ten := by rfl
@[simp] theorem setDom_bat (s : State) (d : Dom) (f : DomSt → DomSt) : (setDom s d f).bat = s.bat := by rfl
@[simp] theorem setDom_shb (s : State) (d : Dom) (f : DomSt → DomSt) : (setDom s d f).shb = s.shb := by rfl
@[simp] theorem setDom_warp (s : State) (d : Dom) (f : DomSt → DomSt) : (setDom s d f).warp = s.warp := by rfl
@[simp] theorem setDom_mg (s : State) (d : Dom) (f : DomSt → DomSt) : (setDom s d f).mg = s.mg := by rfl
@[simp] theorem setDom_cfl (s : State) (d : Dom) (f : DomSt → DomSt) : (setDom s d f).cfl = s.cfl := by rfl
@[simp] theorem setDom_store (s : State) (d : Dom) (f : DomSt → DomSt) : (setDom s d f).store = s.store := by rfl
@[simp] theorem setDom_i3c (s : State) (d : Dom) (f : DomSt → DomSt) : (setDom s d f).i3c = s.i3c := by rfl
@[simp] theorem setDom_free (s : State) (d : Dom) (f : DomSt → DomSt) : (setDom s d f).free = s.free := by rfl
@[simp] theorem setDom_pending (s : State) (d : Dom) (f : DomSt → DomSt) : (setDom s d f).pending = s.pending := by rfl

/-! ## setLane -/

@[simp] theorem setLane_doms_lanes (s : State) (n : LaneId) (f : Lane → Lane) : (setLane s n f).doms.lanes = upd s.doms.lanes n f := by rfl
@[simp] theorem setLane_doms_dom (s : State) (n : LaneId) (f : Lane → Lane) : (setLane s n f).doms.dom = s.doms.dom := by rfl
@[simp] theorem setLane_doms_pllF (s : State) (n : LaneId) (f : Lane → Lane) : (setLane s n f).doms.pllF = s.doms.pllF := by rfl
@[simp] theorem setLane_doms_pllM (s : State) (n : LaneId) (f : Lane → Lane) : (setLane s n f).doms.pllM = s.doms.pllM := by rfl
@[simp] theorem setLane_doms_pllN (s : State) (n : LaneId) (f : Lane → Lane) : (setLane s n f).doms.pllN = s.doms.pllN := by rfl
@[simp] theorem setLane_doms_drainNs (s : State) (n : LaneId) (f : Lane → Lane) : (setLane s n f).doms.drainNs = s.doms.drainNs := by rfl
@[simp] theorem setLane_aon (s : State) (n : LaneId) (f : Lane → Lane) : (setLane s n f).aon = s.aon := by rfl
@[simp] theorem setLane_log (s : State) (n : LaneId) (f : Lane → Lane) : (setLane s n f).log = s.log := by rfl
@[simp] theorem setLane_pins (s : State) (n : LaneId) (f : Lane → Lane) : (setLane s n f).pins = s.pins := by rfl
@[simp] theorem setLane_hp (s : State) (n : LaneId) (f : Lane → Lane) : (setLane s n f).hp = s.hp := by rfl
@[simp] theorem setLane_map (s : State) (n : LaneId) (f : Lane → Lane) : (setLane s n f).map = s.map := by rfl
@[simp] theorem setLane_nand (s : State) (n : LaneId) (f : Lane → Lane) : (setLane s n f).nand = s.nand := by rfl
@[simp] theorem setLane_rst (s : State) (n : LaneId) (f : Lane → Lane) : (setLane s n f).rst = s.rst := by rfl
@[simp] theorem setLane_ten (s : State) (n : LaneId) (f : Lane → Lane) : (setLane s n f).ten = s.ten := by rfl
@[simp] theorem setLane_bat (s : State) (n : LaneId) (f : Lane → Lane) : (setLane s n f).bat = s.bat := by rfl
@[simp] theorem setLane_shb (s : State) (n : LaneId) (f : Lane → Lane) : (setLane s n f).shb = s.shb := by rfl
@[simp] theorem setLane_warp (s : State) (n : LaneId) (f : Lane → Lane) : (setLane s n f).warp = s.warp := by rfl
@[simp] theorem setLane_mg (s : State) (n : LaneId) (f : Lane → Lane) : (setLane s n f).mg = s.mg := by rfl
@[simp] theorem setLane_cfl (s : State) (n : LaneId) (f : Lane → Lane) : (setLane s n f).cfl = s.cfl := by rfl
@[simp] theorem setLane_store (s : State) (n : LaneId) (f : Lane → Lane) : (setLane s n f).store = s.store := by rfl
@[simp] theorem setLane_i3c (s : State) (n : LaneId) (f : Lane → Lane) : (setLane s n f).i3c = s.i3c := by rfl
@[simp] theorem setLane_free (s : State) (n : LaneId) (f : Lane → Lane) : (setLane s n f).free = s.free := by rfl
@[simp] theorem setLane_pending (s : State) (n : LaneId) (f : Lane → Lane) : (setLane s n f).pending = s.pending := by rfl

/-! ## setDie -/

@[simp] theorem setDie_nand_dies (s : State) (d : Die) (f : DieSt → DieSt) : (setDie s d f).nand.dies = upd s.nand.dies d f := by rfl
@[simp] theorem setDie_nand_profile (s : State) (d : Die) (f : DieSt → DieSt) : (setDie s d f).nand.profile = s.nand.profile := by rfl
@[simp] theorem setDie_nand_nextProfile (s : State) (d : Die) (f : DieSt → DieSt) : (setDie s d f).nand.nextProfile = s.nand.nextProfile := by rfl
@[simp] theorem setDie_nand_groups (s : State) (d : Die) (f : DieSt → DieSt) : (setDie s d f).nand.groups = s.nand.groups := by rfl
@[simp] theorem setDie_nand_erased (s : State) (d : Die) (f : DieSt → DieSt) : (setDie s d f).nand.erased = s.nand.erased := by rfl
@[simp] theorem setDie_nand_bbt (s : State) (d : Die) (f : DieSt → DieSt) : (setDie s d f).nand.bbt = s.nand.bbt := by rfl
@[simp] theorem setDie_nand_bbtGen (s : State) (d : Die) (f : DieSt → DieSt) : (setDie s d f).nand.bbtGen = s.nand.bbtGen := by rfl
@[simp] theorem setDie_nand_bbtFull (s : State) (d : Die) (f : DieSt → DieSt) : (setDie s d f).nand.bbtFull = s.nand.bbtFull := by rfl
@[simp] theorem setDie_nand_fbbt (s : State) (d : Die) (f : DieSt → DieSt) : (setDie s d f).nand.fbbt = s.nand.fbbt := by rfl
@[simp] theorem setDie_nand_ringA (s : State) (d : Die) (f : DieSt → DieSt) : (setDie s d f).nand.ringA = s.nand.ringA := by rfl
@[simp] theorem setDie_nand_ringB (s : State) (d : Die) (f : DieSt → DieSt) : (setDie s d f).nand.ringB = s.nand.ringB := by rfl
@[simp] theorem setDie_nand_rims (s : State) (d : Die) (f : DieSt → DieSt) : (setDie s d f).nand.rims = s.nand.rims := by rfl
@[simp] theorem setDie_nand_layers (s : State) (d : Die) (f : DieSt → DieSt) : (setDie s d f).nand.layers = s.nand.layers := by rfl
@[simp] theorem setDie_nand_rimJob (s : State) (d : Die) (f : DieSt → DieSt) : (setDie s d f).nand.rimJob = s.nand.rimJob := by rfl
@[simp] theorem setDie_nand_settle (s : State) (d : Die) (f : DieSt → DieSt) : (setDie s d f).nand.settle = s.nand.settle := by rfl
@[simp] theorem setDie_nand_prov (s : State) (d : Die) (f : DieSt → DieSt) : (setDie s d f).nand.prov = s.nand.prov := by rfl
@[simp] theorem setDie_nand_noProfile (s : State) (d : Die) (f : DieSt → DieSt) : (setDie s d f).nand.noProfile = s.nand.noProfile := by rfl
@[simp] theorem setDie_nand_imgloss (s : State) (d : Die) (f : DieSt → DieSt) : (setDie s d f).nand.imgloss = s.nand.imgloss := by rfl
@[simp] theorem setDie_nand_rimfb (s : State) (d : Die) (f : DieSt → DieSt) : (setDie s d f).nand.rimfb = s.nand.rimfb := by rfl
@[simp] theorem setDie_nand_rimDead (s : State) (d : Die) (f : DieSt → DieSt) : (setDie s d f).nand.rimDead = s.nand.rimDead := by rfl
@[simp] theorem setDie_nand_chosen (s : State) (d : Die) (f : DieSt → DieSt) : (setDie s d f).nand.chosen = s.nand.chosen := by rfl
@[simp] theorem setDie_nand_dram (s : State) (d : Die) (f : DieSt → DieSt) : (setDie s d f).nand.dram = s.nand.dram := by rfl
@[simp] theorem setDie_nand_tags (s : State) (d : Die) (f : DieSt → DieSt) : (setDie s d f).nand.tags = s.nand.tags := by rfl
@[simp] theorem setDie_nand_bbtCfg (s : State) (d : Die) (f : DieSt → DieSt) : (setDie s d f).nand.bbtCfg = s.nand.bbtCfg := by rfl
@[simp] theorem setDie_nand_bbtTab (s : State) (d : Die) (f : DieSt → DieSt) : (setDie s d f).nand.bbtTab = s.nand.bbtTab := by rfl
@[simp] theorem setDie_nand_tab (s : State) (d : Die) (f : DieSt → DieSt) : (setDie s d f).nand.tab = s.nand.tab := by rfl
@[simp] theorem setDie_nand_dramSr (s : State) (d : Die) (f : DieSt → DieSt) : (setDie s d f).nand.dramSr = s.nand.dramSr := by rfl
@[simp] theorem setDie_aon (s : State) (d : Die) (f : DieSt → DieSt) : (setDie s d f).aon = s.aon := by rfl
@[simp] theorem setDie_log (s : State) (d : Die) (f : DieSt → DieSt) : (setDie s d f).log = s.log := by rfl
@[simp] theorem setDie_pins (s : State) (d : Die) (f : DieSt → DieSt) : (setDie s d f).pins = s.pins := by rfl
@[simp] theorem setDie_doms (s : State) (d : Die) (f : DieSt → DieSt) : (setDie s d f).doms = s.doms := by rfl
@[simp] theorem setDie_hp (s : State) (d : Die) (f : DieSt → DieSt) : (setDie s d f).hp = s.hp := by rfl
@[simp] theorem setDie_map (s : State) (d : Die) (f : DieSt → DieSt) : (setDie s d f).map = s.map := by rfl
@[simp] theorem setDie_rst (s : State) (d : Die) (f : DieSt → DieSt) : (setDie s d f).rst = s.rst := by rfl
@[simp] theorem setDie_ten (s : State) (d : Die) (f : DieSt → DieSt) : (setDie s d f).ten = s.ten := by rfl
@[simp] theorem setDie_bat (s : State) (d : Die) (f : DieSt → DieSt) : (setDie s d f).bat = s.bat := by rfl
@[simp] theorem setDie_shb (s : State) (d : Die) (f : DieSt → DieSt) : (setDie s d f).shb = s.shb := by rfl
@[simp] theorem setDie_warp (s : State) (d : Die) (f : DieSt → DieSt) : (setDie s d f).warp = s.warp := by rfl
@[simp] theorem setDie_mg (s : State) (d : Die) (f : DieSt → DieSt) : (setDie s d f).mg = s.mg := by rfl
@[simp] theorem setDie_cfl (s : State) (d : Die) (f : DieSt → DieSt) : (setDie s d f).cfl = s.cfl := by rfl
@[simp] theorem setDie_store (s : State) (d : Die) (f : DieSt → DieSt) : (setDie s d f).store = s.store := by rfl
@[simp] theorem setDie_i3c (s : State) (d : Die) (f : DieSt → DieSt) : (setDie s d f).i3c = s.i3c := by rfl
@[simp] theorem setDie_free (s : State) (d : Die) (f : DieSt → DieSt) : (setDie s d f).free = s.free := by rfl
@[simp] theorem setDie_pending (s : State) (d : Die) (f : DieSt → DieSt) : (setDie s d f).pending = s.pending := by rfl

/-! ## setStake -/

@[simp] theorem setStake_warp_stakes (s : State) (i : Fin 64) (f : Stake → Stake) : (setStake s i f).warp.stakes = upd s.warp.stakes i f := by rfl
@[simp] theorem setStake_warp_state (s : State) (i : Fin 64) (f : Stake → Stake) : (setStake s i f).warp.state = s.warp.state := by rfl
@[simp] theorem setStake_warp_ns (s : State) (i : Fin 64) (f : Stake → Stake) : (setStake s i f).warp.ns = s.warp.ns := by rfl
@[simp] theorem setStake_warp_keeper (s : State) (i : Fin 64) (f : Stake → Stake) : (setStake s i f).warp.keeper = s.warp.keeper := by rfl
@[simp] theorem setStake_warp_await (s : State) (i : Fin 64) (f : Stake → Stake) : (setStake s i f).warp.await = s.warp.await := by rfl
@[simp] theorem setStake_warp_good (s : State) (i : Fin 64) (f : Stake → Stake) : (setStake s i f).warp.good = s.warp.good := by rfl
@[simp] theorem setStake_warp_missed (s : State) (i : Fin 64) (f : Stake → Stake) : (setStake s i f).warp.missed = s.warp.missed := by rfl
@[simp] theorem setStake_warp_lastSync (s : State) (i : Fin 64) (f : Stake → Stake) : (setStake s i f).warp.lastSync = s.warp.lastSync := by rfl
@[simp] theorem setStake_warp_growthFs (s : State) (i : Fin 64) (f : Stake → Stake) : (setStake s i f).warp.growthFs = s.warp.growthFs := by rfl
@[simp] theorem setStake_warp_step (s : State) (i : Fin 64) (f : Stake → Stake) : (setStake s i f).warp.step = s.warp.step := by rfl
@[simp] theorem setStake_warp_trim (s : State) (i : Fin 64) (f : Stake → Stake) : (setStake s i f).warp.trim = s.warp.trim := by rfl
@[simp] theorem setStake_warp_interval (s : State) (i : Fin 64) (f : Stake → Stake) : (setStake s i f).warp.interval = s.warp.interval := by rfl
@[simp] theorem setStake_warp_delay (s : State) (i : Fin 64) (f : Stake → Stake) : (setStake s i f).warp.delay = s.warp.delay := by rfl
@[simp] theorem setStake_warp_restmax (s : State) (i : Fin 64) (f : Stake → Stake) : (setStake s i f).warp.restmax = s.warp.restmax := by rfl
@[simp] theorem setStake_warp_tables (s : State) (i : Fin 64) (f : Stake → Stake) : (setStake s i f).warp.tables = s.warp.tables := by rfl
@[simp] theorem setStake_warp_active (s : State) (i : Fin 64) (f : Stake → Stake) : (setStake s i f).warp.active = s.warp.active := by rfl
@[simp] theorem setStake_warp_pending (s : State) (i : Fin 64) (f : Stake → Stake) : (setStake s i f).warp.pending = s.warp.pending := by rfl
@[simp] theorem setStake_warp_discards (s : State) (i : Fin 64) (f : Stake → Stake) : (setStake s i f).warp.discards = s.warp.discards := by rfl
@[simp] theorem setStake_warp_ignored (s : State) (i : Fin 64) (f : Stake → Stake) : (setStake s i f).warp.ignored = s.warp.ignored := by rfl
@[simp] theorem setStake_warp_stored (s : State) (i : Fin 64) (f : Stake → Stake) : (setStake s i f).warp.stored = s.warp.stored := by rfl
@[simp] theorem setStake_warp_storeBad (s : State) (i : Fin 64) (f : Stake → Stake) : (setStake s i f).warp.storeBad = s.warp.storeBad := by rfl
@[simp] theorem setStake_warp_syncSeq (s : State) (i : Fin 64) (f : Stake → Stake) : (setStake s i f).warp.syncSeq = s.warp.syncSeq := by rfl
@[simp] theorem setStake_warp_candidate (s : State) (i : Fin 64) (f : Stake → Stake) : (setStake s i f).warp.candidate = s.warp.candidate := by rfl
@[simp] theorem setStake_warp_unset_ (s : State) (i : Fin 64) (f : Stake → Stake) : (setStake s i f).warp.unset_ = s.warp.unset_ := by rfl
@[simp] theorem setStake_warp_sof (s : State) (i : Fin 64) (f : Stake → Stake) : (setStake s i f).warp.sof = s.warp.sof := by rfl
@[simp] theorem setStake_warp_staged (s : State) (i : Fin 64) (f : Stake → Stake) : (setStake s i f).warp.staged = s.warp.staged := by rfl
@[simp] theorem setStake_warp_frac (s : State) (i : Fin 64) (f : Stake → Stake) : (setStake s i f).warp.frac = s.warp.frac := by rfl
@[simp] theorem setStake_warp_rests (s : State) (i : Fin 64) (f : Stake → Stake) : (setStake s i f).warp.rests = s.warp.rests := by rfl
@[simp] theorem setStake_warp_followUs (s : State) (i : Fin 64) (f : Stake → Stake) : (setStake s i f).warp.followUs = s.warp.followUs := by rfl
@[simp] theorem setStake_aon (s : State) (i : Fin 64) (f : Stake → Stake) : (setStake s i f).aon = s.aon := by rfl
@[simp] theorem setStake_log (s : State) (i : Fin 64) (f : Stake → Stake) : (setStake s i f).log = s.log := by rfl
@[simp] theorem setStake_pins (s : State) (i : Fin 64) (f : Stake → Stake) : (setStake s i f).pins = s.pins := by rfl
@[simp] theorem setStake_doms (s : State) (i : Fin 64) (f : Stake → Stake) : (setStake s i f).doms = s.doms := by rfl
@[simp] theorem setStake_hp (s : State) (i : Fin 64) (f : Stake → Stake) : (setStake s i f).hp = s.hp := by rfl
@[simp] theorem setStake_map (s : State) (i : Fin 64) (f : Stake → Stake) : (setStake s i f).map = s.map := by rfl
@[simp] theorem setStake_nand (s : State) (i : Fin 64) (f : Stake → Stake) : (setStake s i f).nand = s.nand := by rfl
@[simp] theorem setStake_rst (s : State) (i : Fin 64) (f : Stake → Stake) : (setStake s i f).rst = s.rst := by rfl
@[simp] theorem setStake_ten (s : State) (i : Fin 64) (f : Stake → Stake) : (setStake s i f).ten = s.ten := by rfl
@[simp] theorem setStake_bat (s : State) (i : Fin 64) (f : Stake → Stake) : (setStake s i f).bat = s.bat := by rfl
@[simp] theorem setStake_shb (s : State) (i : Fin 64) (f : Stake → Stake) : (setStake s i f).shb = s.shb := by rfl
@[simp] theorem setStake_mg (s : State) (i : Fin 64) (f : Stake → Stake) : (setStake s i f).mg = s.mg := by rfl
@[simp] theorem setStake_cfl (s : State) (i : Fin 64) (f : Stake → Stake) : (setStake s i f).cfl = s.cfl := by rfl
@[simp] theorem setStake_store (s : State) (i : Fin 64) (f : Stake → Stake) : (setStake s i f).store = s.store := by rfl
@[simp] theorem setStake_i3c (s : State) (i : Fin 64) (f : Stake → Stake) : (setStake s i f).i3c = s.i3c := by rfl
@[simp] theorem setStake_free (s : State) (i : Fin 64) (f : Stake → Stake) : (setStake s i f).free = s.free := by rfl
@[simp] theorem setStake_pending (s : State) (i : Fin 64) (f : Stake → Stake) : (setStake s i f).pending = s.pending := by rfl

/-! ## setMbox -/

@[simp] theorem setMbox_shb_mbox (s : State) (n : Fin 16) (f : Mbox → Mbox) : (setMbox s n f).shb.mbox = upd s.shb.mbox n f := by rfl
@[simp] theorem setMbox_shb_mode (s : State) (n : Fin 16) (f : Mbox → Mbox) : (setMbox s n f).shb.mode = s.shb.mode := by rfl
@[simp] theorem setMbox_shb_integrating (s : State) (n : Fin 16) (f : Mbox → Mbox) : (setMbox s n f).shb.integrating = s.shb.integrating := by rfl
@[simp] theorem setMbox_shb_recovering (s : State) (n : Fin 16) (f : Mbox → Mbox) : (setMbox s n f).shb.recovering = s.shb.recovering := by rfl
@[simp] theorem setMbox_shb_nrate (s : State) (n : Fin 16) (f : Mbox → Mbox) : (setMbox s n f).shb.nrate = s.shb.nrate := by rfl
@[simp] theorem setMbox_shb_drate (s : State) (n : Fin 16) (f : Mbox → Mbox) : (setMbox s n f).shb.drate = s.shb.drate := by rfl
@[simp] theorem setMbox_shb_cand (s : State) (n : Fin 16) (f : Mbox → Mbox) : (setMbox s n f).shb.cand = s.shb.cand := by rfl
@[simp] theorem setMbox_shb_validRun (s : State) (n : Fin 16) (f : Mbox → Mbox) : (setMbox s n f).shb.validRun = s.shb.validRun := by rfl
@[simp] theorem setMbox_shb_errRun (s : State) (n : Fin 16) (f : Mbox → Mbox) : (setMbox s n f).shb.errRun = s.shb.errRun := by rfl
@[simp] theorem setMbox_shb_dcand (s : State) (n : Fin 16) (f : Mbox → Mbox) : (setMbox s n f).shb.dcand = s.shb.dcand := by rfl
@[simp] theorem setMbox_shb_dvalid (s : State) (n : Fin 16) (f : Mbox → Mbox) : (setMbox s n f).shb.dvalid = s.shb.dvalid := by rfl
@[simp] theorem setMbox_shb_derr (s : State) (n : Fin 16) (f : Mbox → Mbox) : (setMbox s n f).shb.derr = s.shb.derr := by rfl
@[simp] theorem setMbox_shb_tec (s : State) (n : Fin 16) (f : Mbox → Mbox) : (setMbox s n f).shb.tec = s.shb.tec := by rfl
@[simp] theorem setMbox_shb_recCnt (s : State) (n : Fin 16) (f : Mbox → Mbox) : (setMbox s n f).shb.recCnt = s.shb.recCnt := by rfl
@[simp] theorem setMbox_shb_last (s : State) (n : Fin 16) (f : Mbox → Mbox) : (setMbox s n f).shb.last = s.shb.last := by rfl
@[simp] theorem setMbox_shb_passive (s : State) (n : Fin 16) (f : Mbox → Mbox) : (setMbox s n f).shb.passive = s.shb.passive := by rfl
@[simp] theorem setMbox_shb_counts (s : State) (n : Fin 16) (f : Mbox → Mbox) : (setMbox s n f).shb.counts = s.shb.counts := by rfl
@[simp] theorem setMbox_shb_filters (s : State) (n : Fin 16) (f : Mbox → Mbox) : (setMbox s n f).shb.filters = s.shb.filters := by rfl
@[simp] theorem setMbox_shb_q0 (s : State) (n : Fin 16) (f : Mbox → Mbox) : (setMbox s n f).shb.q0 = s.shb.q0 := by rfl
@[simp] theorem setMbox_shb_q1 (s : State) (n : Fin 16) (f : Mbox → Mbox) : (setMbox s n f).shb.q1 = s.shb.q1 := by rfl
@[simp] theorem setMbox_shb_q1seq (s : State) (n : Fin 16) (f : Mbox → Mbox) : (setMbox s n f).shb.q1seq = s.shb.q1seq := by rfl
@[simp] theorem setMbox_shb_q1ovf (s : State) (n : Fin 16) (f : Mbox → Mbox) : (setMbox s n f).shb.q1ovf = s.shb.q1ovf := by rfl
@[simp] theorem setMbox_shb_fifo (s : State) (n : Fin 16) (f : Mbox → Mbox) : (setMbox s n f).shb.fifo = s.shb.fifo := by rfl
@[simp] theorem setMbox_shb_onWire (s : State) (n : Fin 16) (f : Mbox → Mbox) : (setMbox s n f).shb.onWire = s.shb.onWire := by rfl
@[simp] theorem setMbox_shb_partials (s : State) (n : Fin 16) (f : Mbox → Mbox) : (setMbox s n f).shb.partials = s.shb.partials := by rfl
@[simp] theorem setMbox_shb_recov (s : State) (n : Fin 16) (f : Mbox → Mbox) : (setMbox s n f).shb.recov = s.shb.recov := by rfl
@[simp] theorem setMbox_shb_holdoffNs (s : State) (n : Fin 16) (f : Mbox → Mbox) : (setMbox s n f).shb.holdoffNs = s.shb.holdoffNs := by rfl
@[simp] theorem setMbox_shb_recovMax (s : State) (n : Fin 16) (f : Mbox → Mbox) : (setMbox s n f).shb.recovMax = s.shb.recovMax := by rfl
@[simp] theorem setMbox_shb_beaconNs (s : State) (n : Fin 16) (f : Mbox → Mbox) : (setMbox s n f).shb.beaconNs = s.shb.beaconNs := by rfl
@[simp] theorem setMbox_shb_stuck (s : State) (n : Fin 16) (f : Mbox → Mbox) : (setMbox s n f).shb.stuck = s.shb.stuck := by rfl
@[simp] theorem setMbox_shb_winEn (s : State) (n : Fin 16) (f : Mbox → Mbox) : (setMbox s n f).shb.winEn = s.shb.winEn := by rfl
@[simp] theorem setMbox_shb_ibiEn (s : State) (n : Fin 16) (f : Mbox → Mbox) : (setMbox s n f).shb.ibiEn = s.shb.ibiEn := by rfl
@[simp] theorem setMbox_shb_irq (s : State) (n : Fin 16) (f : Mbox → Mbox) : (setMbox s n f).shb.irq = s.shb.irq := by rfl
@[simp] theorem setMbox_shb_irqen (s : State) (n : Fin 16) (f : Mbox → Mbox) : (setMbox s n f).shb.irqen = s.shb.irqen := by rfl
@[simp] theorem setMbox_shb_sent (s : State) (n : Fin 16) (f : Mbox → Mbox) : (setMbox s n f).shb.sent = s.shb.sent := by rfl
@[simp] theorem setMbox_aon (s : State) (n : Fin 16) (f : Mbox → Mbox) : (setMbox s n f).aon = s.aon := by rfl
@[simp] theorem setMbox_log (s : State) (n : Fin 16) (f : Mbox → Mbox) : (setMbox s n f).log = s.log := by rfl
@[simp] theorem setMbox_pins (s : State) (n : Fin 16) (f : Mbox → Mbox) : (setMbox s n f).pins = s.pins := by rfl
@[simp] theorem setMbox_doms (s : State) (n : Fin 16) (f : Mbox → Mbox) : (setMbox s n f).doms = s.doms := by rfl
@[simp] theorem setMbox_hp (s : State) (n : Fin 16) (f : Mbox → Mbox) : (setMbox s n f).hp = s.hp := by rfl
@[simp] theorem setMbox_map (s : State) (n : Fin 16) (f : Mbox → Mbox) : (setMbox s n f).map = s.map := by rfl
@[simp] theorem setMbox_nand (s : State) (n : Fin 16) (f : Mbox → Mbox) : (setMbox s n f).nand = s.nand := by rfl
@[simp] theorem setMbox_rst (s : State) (n : Fin 16) (f : Mbox → Mbox) : (setMbox s n f).rst = s.rst := by rfl
@[simp] theorem setMbox_ten (s : State) (n : Fin 16) (f : Mbox → Mbox) : (setMbox s n f).ten = s.ten := by rfl
@[simp] theorem setMbox_bat (s : State) (n : Fin 16) (f : Mbox → Mbox) : (setMbox s n f).bat = s.bat := by rfl
@[simp] theorem setMbox_warp (s : State) (n : Fin 16) (f : Mbox → Mbox) : (setMbox s n f).warp = s.warp := by rfl
@[simp] theorem setMbox_mg (s : State) (n : Fin 16) (f : Mbox → Mbox) : (setMbox s n f).mg = s.mg := by rfl
@[simp] theorem setMbox_cfl (s : State) (n : Fin 16) (f : Mbox → Mbox) : (setMbox s n f).cfl = s.cfl := by rfl
@[simp] theorem setMbox_store (s : State) (n : Fin 16) (f : Mbox → Mbox) : (setMbox s n f).store = s.store := by rfl
@[simp] theorem setMbox_i3c (s : State) (n : Fin 16) (f : Mbox → Mbox) : (setMbox s n f).i3c = s.i3c := by rfl
@[simp] theorem setMbox_free (s : State) (n : Fin 16) (f : Mbox → Mbox) : (setMbox s n f).free = s.free := by rfl
@[simp] theorem setMbox_pending (s : State) (n : Fin 16) (f : Mbox → Mbox) : (setMbox s n f).pending = s.pending := by rfl

/-! ## setWord -/

@[simp] theorem setWord_cfl_words (s : State) (w : Nat) (v : DWord) : (setWord s w v).cfl.words = flashPut s.cfl.words w v := by rfl
@[simp] theorem setWord_cfl_counts (s : State) (w : Nat) (v : DWord) : (setWord s w v).cfl.counts = s.cfl.counts := by rfl
@[simp] theorem setWord_cfl_jobs (s : State) (w : Nat) (v : DWord) : (setWord s w v).cfl.jobs = s.cfl.jobs := by rfl
@[simp] theorem setWord_cfl_waiting (s : State) (w : Nat) (v : DWord) : (setWord s w v).cfl.waiting = s.cfl.waiting := by rfl
@[simp] theorem setWord_cfl_fetched (s : State) (w : Nat) (v : DWord) : (setWord s w v).cfl.fetched = s.cfl.fetched := by rfl
@[simp] theorem setWord_cfl_key (s : State) (w : Nat) (v : DWord) : (setWord s w v).cfl.key = s.cfl.key := by rfl
@[simp] theorem setWord_cfl_latch (s : State) (w : Nat) (v : DWord) : (setWord s w v).cfl.latch = s.cfl.latch := by rfl
@[simp] theorem setWord_cfl_prot (s : State) (w : Nat) (v : DWord) : (setWord s w v).cfl.prot = s.cfl.prot := by rfl
@[simp] theorem setWord_cfl_pwd (s : State) (w : Nat) (v : DWord) : (setWord s w v).cfl.pwd = s.cfl.pwd := by rfl
@[simp] theorem setWord_cfl_protSeq (s : State) (w : Nat) (v : DWord) : (setWord s w v).cfl.protSeq = s.cfl.protSeq := by rfl
@[simp] theorem setWord_cfl_protSel (s : State) (w : Nat) (v : DWord) : (setWord s w v).cfl.protSel = s.cfl.protSel := by rfl
@[simp] theorem setWord_cfl_status (s : State) (w : Nat) (v : DWord) : (setWord s w v).cfl.status = s.cfl.status := by rfl
@[simp] theorem setWord_cfl_pulses (s : State) (w : Nat) (v : DWord) : (setWord s w v).cfl.pulses = s.cfl.pulses := by rfl
@[simp] theorem setWord_cfl_maxpulse (s : State) (w : Nat) (v : DWord) : (setWord s w v).cfl.maxpulse = s.cfl.maxpulse := by rfl
@[simp] theorem setWord_cfl_warn8 (s : State) (w : Nat) (v : DWord) : (setWord s w v).cfl.warn8 = s.cfl.warn8 := by rfl
@[simp] theorem setWord_cfl_uncorr (s : State) (w : Nat) (v : DWord) : (setWord s w v).cfl.uncorr = s.cfl.uncorr := by rfl
@[simp] theorem setWord_cfl_weak (s : State) (w : Nat) (v : DWord) : (setWord s w v).cfl.weak = s.cfl.weak := by rfl
@[simp] theorem setWord_cfl_scrubbed (s : State) (w : Nat) (v : DWord) : (setWord s w v).cfl.scrubbed = s.cfl.scrubbed := by rfl
@[simp] theorem setWord_cfl_scrubWeak (s : State) (w : Nat) (v : DWord) : (setWord s w v).cfl.scrubWeak = s.cfl.scrubWeak := by rfl
@[simp] theorem setWord_cfl_refreshed (s : State) (w : Nat) (v : DWord) : (setWord s w v).cfl.refreshed = s.cfl.refreshed := by rfl
@[simp] theorem setWord_cfl_warmDue (s : State) (w : Nat) (v : DWord) : (setWord s w v).cfl.warmDue = s.cfl.warmDue := by rfl
@[simp] theorem setWord_cfl_scrubFound (s : State) (w : Nat) (v : DWord) : (setWord s w v).cfl.scrubFound = s.cfl.scrubFound := by rfl
@[simp] theorem setWord_cfl_corrected (s : State) (w : Nat) (v : DWord) : (setWord s w v).cfl.corrected = s.cfl.corrected := by rfl
@[simp] theorem setWord_aon (s : State) (w : Nat) (v : DWord) : (setWord s w v).aon = s.aon := by rfl
@[simp] theorem setWord_log (s : State) (w : Nat) (v : DWord) : (setWord s w v).log = s.log := by rfl
@[simp] theorem setWord_pins (s : State) (w : Nat) (v : DWord) : (setWord s w v).pins = s.pins := by rfl
@[simp] theorem setWord_doms (s : State) (w : Nat) (v : DWord) : (setWord s w v).doms = s.doms := by rfl
@[simp] theorem setWord_hp (s : State) (w : Nat) (v : DWord) : (setWord s w v).hp = s.hp := by rfl
@[simp] theorem setWord_map (s : State) (w : Nat) (v : DWord) : (setWord s w v).map = s.map := by rfl
@[simp] theorem setWord_nand (s : State) (w : Nat) (v : DWord) : (setWord s w v).nand = s.nand := by rfl
@[simp] theorem setWord_rst (s : State) (w : Nat) (v : DWord) : (setWord s w v).rst = s.rst := by rfl
@[simp] theorem setWord_ten (s : State) (w : Nat) (v : DWord) : (setWord s w v).ten = s.ten := by rfl
@[simp] theorem setWord_bat (s : State) (w : Nat) (v : DWord) : (setWord s w v).bat = s.bat := by rfl
@[simp] theorem setWord_shb (s : State) (w : Nat) (v : DWord) : (setWord s w v).shb = s.shb := by rfl
@[simp] theorem setWord_warp (s : State) (w : Nat) (v : DWord) : (setWord s w v).warp = s.warp := by rfl
@[simp] theorem setWord_mg (s : State) (w : Nat) (v : DWord) : (setWord s w v).mg = s.mg := by rfl
@[simp] theorem setWord_store (s : State) (w : Nat) (v : DWord) : (setWord s w v).store = s.store := by rfl
@[simp] theorem setWord_i3c (s : State) (w : Nat) (v : DWord) : (setWord s w v).i3c = s.i3c := by rfl
@[simp] theorem setWord_free (s : State) (w : Nat) (v : DWord) : (setWord s w v).free = s.free := by rfl
@[simp] theorem setWord_pending (s : State) (w : Nat) (v : DWord) : (setWord s w v).pending = s.pending := by rfl

/-! ## setReply -/

@[simp] theorem setReply_i3c_reply (s : State) (l : List Byte) : (setReply s l).i3c.reply = l := by rfl
@[simp] theorem setReply_i3c_dyn (s : State) (l : List Byte) : (setReply s l).i3c.dyn = s.i3c.dyn := by rfl
@[simp] theorem setReply_i3c_instance_ (s : State) (l : List Byte) : (setReply s l).i3c.instance_ = s.i3c.instance_ := by rfl
@[simp] theorem setReply_i3c_hotJoin (s : State) (l : List Byte) : (setReply s l).i3c.hotJoin = s.i3c.hotJoin := by rfl
@[simp] theorem setReply_i3c_ibi (s : State) (l : List Byte) : (setReply s l).i3c.ibi = s.i3c.ibi := by rfl
@[simp] theorem setReply_aon (s : State) (l : List Byte) : (setReply s l).aon = s.aon := by rfl
@[simp] theorem setReply_log (s : State) (l : List Byte) : (setReply s l).log = s.log := by rfl
@[simp] theorem setReply_pins (s : State) (l : List Byte) : (setReply s l).pins = s.pins := by rfl
@[simp] theorem setReply_doms (s : State) (l : List Byte) : (setReply s l).doms = s.doms := by rfl
@[simp] theorem setReply_hp (s : State) (l : List Byte) : (setReply s l).hp = s.hp := by rfl
@[simp] theorem setReply_map (s : State) (l : List Byte) : (setReply s l).map = s.map := by rfl
@[simp] theorem setReply_nand (s : State) (l : List Byte) : (setReply s l).nand = s.nand := by rfl
@[simp] theorem setReply_rst (s : State) (l : List Byte) : (setReply s l).rst = s.rst := by rfl
@[simp] theorem setReply_ten (s : State) (l : List Byte) : (setReply s l).ten = s.ten := by rfl
@[simp] theorem setReply_bat (s : State) (l : List Byte) : (setReply s l).bat = s.bat := by rfl
@[simp] theorem setReply_shb (s : State) (l : List Byte) : (setReply s l).shb = s.shb := by rfl
@[simp] theorem setReply_warp (s : State) (l : List Byte) : (setReply s l).warp = s.warp := by rfl
@[simp] theorem setReply_mg (s : State) (l : List Byte) : (setReply s l).mg = s.mg := by rfl
@[simp] theorem setReply_cfl (s : State) (l : List Byte) : (setReply s l).cfl = s.cfl := by rfl
@[simp] theorem setReply_store (s : State) (l : List Byte) : (setReply s l).store = s.store := by rfl
@[simp] theorem setReply_free (s : State) (l : List Byte) : (setReply s l).free = s.free := by rfl
@[simp] theorem setReply_pending (s : State) (l : List Byte) : (setReply s l).pending = s.pending := by rfl

/-! ## setReason -/

@[simp] theorem setReason_store_reason (s : State) (r : Reason) : (setReason s r).store.reason = r := by rfl
@[simp] theorem setReason_store_areas (s : State) (r : Reason) : (setReason s r).store.areas = s.store.areas := by rfl
@[simp] theorem setReason_store_hdrA (s : State) (r : Reason) : (setReason s r).store.hdrA = s.store.hdrA := by rfl
@[simp] theorem setReason_store_hdrB (s : State) (r : Reason) : (setReason s r).store.hdrB = s.store.hdrB := by rfl
@[simp] theorem setReason_store_distributor (s : State) (r : Reason) : (setReason s r).store.distributor = s.store.distributor := by rfl
@[simp] theorem setReason_store_lastReceipt (s : State) (r : Reason) : (setReason s r).store.lastReceipt = s.store.lastReceipt := by rfl
@[simp] theorem setReason_store_classDiscards (s : State) (r : Reason) : (setReason s r).store.classDiscards = s.store.classDiscards := by rfl
@[simp] theorem setReason_store_verifyWaiters (s : State) (r : Reason) : (setReason s r).store.verifyWaiters = s.store.verifyWaiters := by rfl
@[simp] theorem setReason_store_receiptDue (s : State) (r : Reason) : (setReason s r).store.receiptDue = s.store.receiptDue := by rfl
@[simp] theorem setReason_store_cfg (s : State) (r : Reason) : (setReason s r).store.cfg = s.store.cfg := by rfl
@[simp] theorem setReason_aon (s : State) (r : Reason) : (setReason s r).aon = s.aon := by rfl
@[simp] theorem setReason_log (s : State) (r : Reason) : (setReason s r).log = s.log := by rfl
@[simp] theorem setReason_pins (s : State) (r : Reason) : (setReason s r).pins = s.pins := by rfl
@[simp] theorem setReason_doms (s : State) (r : Reason) : (setReason s r).doms = s.doms := by rfl
@[simp] theorem setReason_hp (s : State) (r : Reason) : (setReason s r).hp = s.hp := by rfl
@[simp] theorem setReason_map (s : State) (r : Reason) : (setReason s r).map = s.map := by rfl
@[simp] theorem setReason_nand (s : State) (r : Reason) : (setReason s r).nand = s.nand := by rfl
@[simp] theorem setReason_rst (s : State) (r : Reason) : (setReason s r).rst = s.rst := by rfl
@[simp] theorem setReason_ten (s : State) (r : Reason) : (setReason s r).ten = s.ten := by rfl
@[simp] theorem setReason_bat (s : State) (r : Reason) : (setReason s r).bat = s.bat := by rfl
@[simp] theorem setReason_shb (s : State) (r : Reason) : (setReason s r).shb = s.shb := by rfl
@[simp] theorem setReason_warp (s : State) (r : Reason) : (setReason s r).warp = s.warp := by rfl
@[simp] theorem setReason_mg (s : State) (r : Reason) : (setReason s r).mg = s.mg := by rfl
@[simp] theorem setReason_cfl (s : State) (r : Reason) : (setReason s r).cfl = s.cfl := by rfl
@[simp] theorem setReason_i3c (s : State) (r : Reason) : (setReason s r).i3c = s.i3c := by rfl
@[simp] theorem setReason_free (s : State) (r : Reason) : (setReason s r).free = s.free := by rfl
@[simp] theorem setReason_pending (s : State) (r : Reason) : (setReason s r).pending = s.pending := by rfl

/-! ## setWarp -/

@[simp] theorem setWarp_warp (s : State) (f : Warp → Warp) : (setWarp s f).warp = f s.warp := by rfl
@[simp] theorem setWarp_aon (s : State) (f : Warp → Warp) : (setWarp s f).aon = s.aon := by rfl
@[simp] theorem setWarp_log (s : State) (f : Warp → Warp) : (setWarp s f).log = s.log := by rfl
@[simp] theorem setWarp_pins (s : State) (f : Warp → Warp) : (setWarp s f).pins = s.pins := by rfl
@[simp] theorem setWarp_doms (s : State) (f : Warp → Warp) : (setWarp s f).doms = s.doms := by rfl
@[simp] theorem setWarp_hp (s : State) (f : Warp → Warp) : (setWarp s f).hp = s.hp := by rfl
@[simp] theorem setWarp_map (s : State) (f : Warp → Warp) : (setWarp s f).map = s.map := by rfl
@[simp] theorem setWarp_nand (s : State) (f : Warp → Warp) : (setWarp s f).nand = s.nand := by rfl
@[simp] theorem setWarp_rst (s : State) (f : Warp → Warp) : (setWarp s f).rst = s.rst := by rfl
@[simp] theorem setWarp_ten (s : State) (f : Warp → Warp) : (setWarp s f).ten = s.ten := by rfl
@[simp] theorem setWarp_bat (s : State) (f : Warp → Warp) : (setWarp s f).bat = s.bat := by rfl
@[simp] theorem setWarp_shb (s : State) (f : Warp → Warp) : (setWarp s f).shb = s.shb := by rfl
@[simp] theorem setWarp_mg (s : State) (f : Warp → Warp) : (setWarp s f).mg = s.mg := by rfl
@[simp] theorem setWarp_cfl (s : State) (f : Warp → Warp) : (setWarp s f).cfl = s.cfl := by rfl
@[simp] theorem setWarp_store (s : State) (f : Warp → Warp) : (setWarp s f).store = s.store := by rfl
@[simp] theorem setWarp_i3c (s : State) (f : Warp → Warp) : (setWarp s f).i3c = s.i3c := by rfl
@[simp] theorem setWarp_free (s : State) (f : Warp → Warp) : (setWarp s f).free = s.free := by rfl
@[simp] theorem setWarp_pending (s : State) (f : Warp → Warp) : (setWarp s f).pending = s.pending := by rfl

/-! ## setShb -/

@[simp] theorem setShb_shb (s : State) (f : Shb → Shb) : (setShb s f).shb = f s.shb := by rfl
@[simp] theorem setShb_aon (s : State) (f : Shb → Shb) : (setShb s f).aon = s.aon := by rfl
@[simp] theorem setShb_log (s : State) (f : Shb → Shb) : (setShb s f).log = s.log := by rfl
@[simp] theorem setShb_pins (s : State) (f : Shb → Shb) : (setShb s f).pins = s.pins := by rfl
@[simp] theorem setShb_doms (s : State) (f : Shb → Shb) : (setShb s f).doms = s.doms := by rfl
@[simp] theorem setShb_hp (s : State) (f : Shb → Shb) : (setShb s f).hp = s.hp := by rfl
@[simp] theorem setShb_map (s : State) (f : Shb → Shb) : (setShb s f).map = s.map := by rfl
@[simp] theorem setShb_nand (s : State) (f : Shb → Shb) : (setShb s f).nand = s.nand := by rfl
@[simp] theorem setShb_rst (s : State) (f : Shb → Shb) : (setShb s f).rst = s.rst := by rfl
@[simp] theorem setShb_ten (s : State) (f : Shb → Shb) : (setShb s f).ten = s.ten := by rfl
@[simp] theorem setShb_bat (s : State) (f : Shb → Shb) : (setShb s f).bat = s.bat := by rfl
@[simp] theorem setShb_warp (s : State) (f : Shb → Shb) : (setShb s f).warp = s.warp := by rfl
@[simp] theorem setShb_mg (s : State) (f : Shb → Shb) : (setShb s f).mg = s.mg := by rfl
@[simp] theorem setShb_cfl (s : State) (f : Shb → Shb) : (setShb s f).cfl = s.cfl := by rfl
@[simp] theorem setShb_store (s : State) (f : Shb → Shb) : (setShb s f).store = s.store := by rfl
@[simp] theorem setShb_i3c (s : State) (f : Shb → Shb) : (setShb s f).i3c = s.i3c := by rfl
@[simp] theorem setShb_free (s : State) (f : Shb → Shb) : (setShb s f).free = s.free := by rfl
@[simp] theorem setShb_pending (s : State) (f : Shb → Shb) : (setShb s f).pending = s.pending := by rfl

/-! ## setI3c -/

@[simp] theorem setI3c_i3c (s : State) (f : I3c → I3c) : (setI3c s f).i3c = f s.i3c := by rfl
@[simp] theorem setI3c_aon (s : State) (f : I3c → I3c) : (setI3c s f).aon = s.aon := by rfl
@[simp] theorem setI3c_log (s : State) (f : I3c → I3c) : (setI3c s f).log = s.log := by rfl
@[simp] theorem setI3c_pins (s : State) (f : I3c → I3c) : (setI3c s f).pins = s.pins := by rfl
@[simp] theorem setI3c_doms (s : State) (f : I3c → I3c) : (setI3c s f).doms = s.doms := by rfl
@[simp] theorem setI3c_hp (s : State) (f : I3c → I3c) : (setI3c s f).hp = s.hp := by rfl
@[simp] theorem setI3c_map (s : State) (f : I3c → I3c) : (setI3c s f).map = s.map := by rfl
@[simp] theorem setI3c_nand (s : State) (f : I3c → I3c) : (setI3c s f).nand = s.nand := by rfl
@[simp] theorem setI3c_rst (s : State) (f : I3c → I3c) : (setI3c s f).rst = s.rst := by rfl
@[simp] theorem setI3c_ten (s : State) (f : I3c → I3c) : (setI3c s f).ten = s.ten := by rfl
@[simp] theorem setI3c_bat (s : State) (f : I3c → I3c) : (setI3c s f).bat = s.bat := by rfl
@[simp] theorem setI3c_shb (s : State) (f : I3c → I3c) : (setI3c s f).shb = s.shb := by rfl
@[simp] theorem setI3c_warp (s : State) (f : I3c → I3c) : (setI3c s f).warp = s.warp := by rfl
@[simp] theorem setI3c_mg (s : State) (f : I3c → I3c) : (setI3c s f).mg = s.mg := by rfl
@[simp] theorem setI3c_cfl (s : State) (f : I3c → I3c) : (setI3c s f).cfl = s.cfl := by rfl
@[simp] theorem setI3c_store (s : State) (f : I3c → I3c) : (setI3c s f).store = s.store := by rfl
@[simp] theorem setI3c_free (s : State) (f : I3c → I3c) : (setI3c s f).free = s.free := by rfl
@[simp] theorem setI3c_pending (s : State) (f : I3c → I3c) : (setI3c s f).pending = s.pending := by rfl

/-! ## Reading back -/

@[simp] theorem getSes_setSes (s : State) (k : Sess) (f : Ses → Ses) : getSes (setSes s k f) k = f (getSes s k) := by
  simp [getSes]
theorem getSes_setSes_other (s : State) (k j : Sess) (f : Ses → Ses) (h : j ≠ k) : getSes (setSes s k f) j = getSes s j := by
  simp [getSes, upd_other _ _ _ _ h]
@[simp] theorem setSes_setSes (s : State) (k : Sess) (f g : Ses → Ses) : setSes (setSes s k f) k g = setSes s k (fun x => g (f x)) := by
  simp [setSes]

@[simp] theorem laneOf_setLane (s : State) (n : LaneId) (f : Lane → Lane) : laneOf (setLane s n f) n = f (laneOf s n) := by
  simp [laneOf]
theorem laneOf_setLane_other (s : State) (n j : LaneId) (f : Lane → Lane) (h : j ≠ n) : laneOf (setLane s n f) j = laneOf s j := by
  simp [laneOf, upd_other _ _ _ _ h]
@[simp] theorem setLane_setLane (s : State) (n : LaneId) (f g : Lane → Lane) : setLane (setLane s n f) n g = setLane s n (fun x => g (f x)) := by
  simp [setLane]

@[simp] theorem domOf_setDom (s : State) (d : Dom) (f : DomSt → DomSt) : domOf (setDom s d f) d = f (domOf s d) := by
  simp [domOf]
theorem domOf_setDom_other (s : State) (d j : Dom) (f : DomSt → DomSt) (h : j ≠ d) : domOf (setDom s d f) j = domOf s j := by
  simp [domOf, upd_other _ _ _ _ h]
@[simp] theorem setDom_setDom (s : State) (d : Dom) (f g : DomSt → DomSt) : setDom (setDom s d f) d g = setDom s d (fun x => g (f x)) := by
  simp [setDom]

@[simp] theorem dieOf_setDie (s : State) (d : Die) (f : DieSt → DieSt) : dieOf (setDie s d f) d = f (dieOf s d) := by
  simp [dieOf]
theorem dieOf_setDie_other (s : State) (d j : Die) (f : DieSt → DieSt) (h : j ≠ d) : dieOf (setDie s d f) j = dieOf s j := by
  simp [dieOf, upd_other _ _ _ _ h]
@[simp] theorem setDie_setDie (s : State) (d : Die) (f g : DieSt → DieSt) : setDie (setDie s d f) d g = setDie s d (fun x => g (f x)) := by
  simp [setDie]

@[simp] theorem attrOf_setAttr (s : State) (t : Tenant) (a : Word) : attrOf (setAttr s t a) t = a := by
  simp [attrOf]
theorem attrOf_setAttr_other (s : State) (t u : Tenant) (a : Word) (h : u ≠ t) : attrOf (setAttr s t a) u = attrOf s u := by
  simp [attrOf, upd_other _ _ _ _ h]

end Sys2Proof.Machine
end

