-- ==== Sys2Proof/Laws/Answers.lean ====
section
/-! SUPPORT. What answering a line does, once for every verb: a session that is ready runs the verb at once, and a response line changes
the session's output path and nothing else. -/

namespace Sys2Proof.Machine

/-- Two changes that agree on the entry agree. -/
theorem upd_congr {α : Type} {n : Nat} (v : Vector α n) (i : Fin n) (f g : α → α) (h : f v[i.val] = g v[i.val]) : upd v i f = upd v i g := by
  unfold upd
  rw [h]

/-- Handing frames to the FIFO touches the FIFO and the firmware's waiting frames alone. -/
theorem sendMessage_eq (s : State) (id : CanId) (p : List Byte) :
    ∃ fifo feed, sendMessage s id p = { s with shb := { s.shb with fifo := fifo }, mg := { s.mg with txFeed := feed } } := by
  unfold sendMessage fifoSend refillFifo
  exact ⟨_, _, rfl⟩

/-- A state that differs from another in one session's output path alone is that state after the answer. -/
theorem answered_of (s : State) (k : Sess) (l : Line) (x : Byte) (out : List Byte) (last : Option Byte) (resp : List Byte)
    (fifo feed : List Frame) (ibi : List Byte)
    (h1 : isTunnel k = false → fifo = s.shb.fifo ∧ feed = s.mg.txFeed ∧ out = (getSes s k).out ++ l.bytes ++
      (if isPipe k = true then [0x0A] else [0x0D, 0x0A] ++ consolePrompt (getSes s k)))
    (h2 : isPipe k = false → ibi = s.i3c.ibi) :
    Answered s { s with
      mg := { s.mg with
        ses := upd s.mg.ses k (fun q => { q with curLseq := x, resp := some l, out := out, lastLseq := last, lastResp := resp })
        txFeed := feed }
      shb := { s.shb with fifo := fifo }
      i3c := { s.i3c with ibi := ibi } } k l := by
  have hg : getSes { s with
      mg := { s.mg with
        ses := upd s.mg.ses k (fun q => { q with curLseq := x, resp := some l, out := out, lastLseq := last, lastResp := resp })
        txFeed := feed }
      shb := { s.shb with fifo := fifo }
      i3c := { s.i3c with ibi := ibi } } k =
      { getSes s k with curLseq := x, resp := some l, out := out, lastLseq := last, lastResp := resp } := by
    unfold getSes
    exact upd_self _ _ _
  unfold Answered Said
  rw [hg]
  exact ⟨rfl, h1, h2, rfl⟩

/-- A response line changes the session's output path and nothing else. -/
theorem respond_answered (s : State) (k : Sess) (x : Byte) (l : Line) :
    Answered s (respond (setSes s k (fun q => { q with curLseq := x })) k l) k l := by
  unfold respond respondSeq
  by_cases ht : isTunnel k = true
  · have hp : isPipe k = false := by
      revert ht; unfold isTunnel isPipe; simp only [Bool.and_eq_true, decide_eq_true_eq]; simp; omega
    simp only [ht, if_true, setSes_setSes, getSes_setSes]
    cases hn : (getSes s k).node with
    | none =>
      have h := answered_of s k l x (getSes s k).out (getSes s k).lastLseq (getSes s k).lastResp s.shb.fifo s.mg.txFeed s.i3c.ibi
        (by simp [ht]) (fun _ => rfl)
      rw [upd_congr s.mg.ses k _ (fun q => { q with curLseq := x, resp := some l }) rfl] at h
      exact h
    | some n =>
      unfold tunnelSend
      obtain ⟨a, b, e⟩ := sendMessage_eq (setSes s k (fun q => { q with curLseq := x, resp := some l, lastLseq := some x, lastResp := tunnelPayload x false l.bytes }))
        (makeId 3 1 s.aon.opt.nodeId.toNat n.toNat) (tunnelPayload x false l.bytes)
      have h := answered_of s k l x (getSes s k).out (some x) (tunnelPayload x false l.bytes) a b s.i3c.ibi (by simp [ht]) (fun _ => rfl)
      rw [upd_congr s.mg.ses k _ (fun q => { q with curLseq := x, resp := some l, lastLseq := some x, lastResp := tunnelPayload x false l.bytes }) rfl] at h
      simp only [setSes_aon]
      rw [e]
      exact h
  · have ht' : isTunnel k = false := by simpa using ht
    by_cases hp : isPipe k = true
    · simp only [ht', hp, if_true, Bool.false_eq_true, if_false, setSes_setSes]
      have h := fun i => answered_of s k l x ((getSes s k).out ++ l.bytes ++ [0x0A]) (getSes s k).lastLseq (getSes s k).lastResp s.shb.fifo s.mg.txFeed i
        (by simp [hp]) (by simp [hp])
      rw [upd_congr s.mg.ses k _ (fun q => { q with curLseq := x, resp := some l, out := q.out ++ (l.bytes ++ [0x0A]) })
        (by simp [getSes])] at h
      unfold pipePut
      simp only [setSes_setSes, getSes_setSes]
      split
      · exact h _
      · exact h _
    · have hp' : isPipe k = false := by simpa using hp
      have hk : k = 0 := by
        revert ht' hp'; unfold isTunnel isPipe; simp only [Bool.and_eq_false_iff, decide_eq_false_iff_not]
        intro h1 h2; ext; show k.val = 0; omega
      subst hk
      simp only [ht', hp', Bool.false_eq_true, if_false, setSes_setSes, getSes_setSes]
      have h := answered_of s 0 l x ((getSes s 0).out ++ l.bytes ++ ([0x0D, 0x0A] ++ consolePrompt (getSes s 0))) (getSes s 0).lastLseq (getSes s 0).lastResp
        s.shb.fifo s.mg.txFeed s.i3c.ibi (by simp [hp']) (fun _ => rfl)
      rw [upd_congr s.mg.ses 0 _ (fun q => { q with curLseq := x, resp := some l, out := q.out ++ (l.bytes ++ [0x0D, 0x0A] ++ consolePrompt (getSes s 0)) })
        (by simp [getSes])] at h
      unfold consolePut
      simp only [setSes_setSes]
      exact h

/-- A session that is ready runs the verb at once (R300). -/
theorem onVerb_ready (s : State) (k : Sess) (i : Instr) (b : Bool) (f : Verb) (h : lineReady s k = true) :
    onVerb s k i b f = runLine s k (nextLseq (getSes s k).curLseq) f := by
  unfold lineReady at h
  simp only [Bool.and_eq_true, Bool.not_eq_true', decide_eq_true_eq] at h
  obtain ⟨⟨⟨h1, h2⟩, h3⟩, h4⟩ := h
  have h5 : ∀ g, recovering (setSes s k g) = false := fun _ => h4
  unfold onVerb onLineSeq runLine
  simp [h1, h2, h3, h5]

/-- A line that answers at once. -/
theorem runLine_line (s : State) (k : Sess) (x : Byte) (f : Verb) (t : State) (l : Line)
    (h : f (setSes s k (fun q => { q with curLseq := x })) = (t, .line l)) : runLine s k x f = respond t k l := by
  unfold runLine
  simp only [h]

/-- A verb that answers a line and changes nothing else (R300, R305). -/
theorem onVerb_answered (s : State) (k : Sess) (i : Instr) (b : Bool) (f : Verb) (l : Line) (h : lineReady s k = true)
    (hf : f (setSes s k (fun q => { q with curLseq := nextLseq (getSes s k).curLseq })) =
      (setSes s k (fun q => { q with curLseq := nextLseq (getSes s k).curLseq }), .line l)) :
    Answered s (onVerb s k i b f) k l := by
  rw [onVerb_ready s k i b f h, runLine_line s k _ f _ l hf]
  exact respond_answered s k _ l

/-- A verb whose level and states are met goes on to its own refusals (R435). -/
theorem verb_runs (k : Sess) (need : Priv) (states : List HoldState) (refusals : State → List (Bool × Nat)) (f : Verb) (s : State)
    (hp : need.rank ≤ (getSes s k).priv.rank) (hs : s.aon.hold ∈ states) :
    verb k need false states refusals f s = match firstOf (refusals s) with
      | some c => err s c
      | none => f s := by
  unfold verb privError
  rw [if_pos hp]
  cases firstOf (refusals s) <;> simp [hs]

/-- A line below the verb's level is refused (R295). -/
theorem verb_below (k : Sess) (need : Priv) (b : Bool) (states : List HoldState) (refusals : State → List (Bool × Nat)) (f : Verb) (s : State)
    (hp : ¬ need.rank ≤ (getSes s k).priv.rank) : verb k need b states refusals f s = err s (if need = .keep then 202 else 201) := by
  unfold verb privError
  rw [if_neg hp]
  cases need <;> rfl

/-- A line outside the verb's states is refused (R305). -/
theorem verb_outside (k : Sess) (need : Priv) (states : List HoldState) (refusals : State → List (Bool × Nat)) (f : Verb) (s : State)
    (hp : need.rank ≤ (getSes s k).priv.rank) (hs : s.aon.hold ∉ states) : verb k need false states refusals f s = err s 301 := by
  unfold verb privError
  simp [hp, hs]

end Sys2Proof.Machine
end

