-- ==== Sys2Proof/Laws/Contents.lean ====
section
/-! SUPPORT. The laws of DRAM contents: read after write, and every operation keeps the canonical form. -/

namespace Sys2Proof.Machine

/-- Two neighbours in canonical order. -/
def segApart (a b : Seg) : Prop := a.hi < b.lo ∨ (a.hi = b.lo ∧ a.c ≠ b.c)

/-- A segment that may be listed. -/
def segOk (base : Content) (a : Seg) : Prop := a.lo < a.hi ∧ a.c ≠ base

/-- The canonical form, said of every pair. -/
theorem segsWf_iff (base : Content) (l : List Seg) :
    segsWf base l = true ↔ (∀ q ∈ l, segOk base q) ∧ l.Pairwise segApart := by
  induction l with
  | nil => simp [segsWf]
  | cons a t ih =>
    rw [segsWf.eq_def]
    dsimp only
    simp only [Bool.and_eq_true, decide_eq_true_eq, ih, List.mem_cons, forall_eq_or_imp, List.pairwise_cons]
    constructor
    · rintro ⟨⟨⟨h1, h2⟩, h3⟩, h4, h5⟩
      refine ⟨⟨⟨h1, h2⟩, h4⟩, fun q hq => ?_, h5⟩
      cases t with
      | nil => cases hq
      | cons b u =>
        simp only [Bool.or_eq_true, Bool.and_eq_true, decide_eq_true_eq] at h3
        rcases List.mem_cons.1 hq with rfl | hu
        · exact h3
        · have hb := (h4 b (List.mem_cons_self ..)).1
          have hr := (List.pairwise_cons.1 h5).1 q hu
          simp only [segApart] at hr ⊢
          omega
    · rintro ⟨⟨⟨h1, h2⟩, h4⟩, h5, h6⟩
      refine ⟨⟨⟨h1, h2⟩, ?_⟩, h4, h6⟩
      cases t with
      | nil => rfl
      | cons b u =>
        simpa [segApart] using h5 b (List.mem_cons_self ..)

/-- What a piece of a cut segment is. -/
theorem segCut_piece (q x : Seg) (lo hi : Nat)
    (h : x ∈ (if q.lo < min q.hi lo then [{ q with hi := min q.hi lo }] else []) ++
      (if max q.lo hi < q.hi then [{ q with lo := max q.lo hi }] else [])) :
    x.lo < x.hi ∧ q.lo ≤ x.lo ∧ x.hi ≤ q.hi ∧ x.c = q.c ∧ (x.hi ≤ lo ∨ hi ≤ x.lo) := by
  rw [List.mem_append] at h
  rcases h with h | h <;> split at h <;> simp at h <;> subst h <;> dsimp only <;> refine ⟨?_, ?_, ?_, rfl, ?_⟩ <;> omega

/-- A segment of a cut list is a part of one of the list, outside the interval. -/
theorem segCut_mem (l : List Seg) (lo hi : Nat) (x : Seg) (h : x ∈ segCut l lo hi) :
    x.lo < x.hi ∧ (x.hi ≤ lo ∨ hi ≤ x.lo) ∧ ∃ q ∈ l, x.c = q.c := by
  simp only [segCut, List.mem_flatMap] at h
  obtain ⟨q, hq, hx⟩ := h
  have p := segCut_piece q x lo hi hx
  exact ⟨p.1, p.2.2.2.2, q, hq, p.2.2.2.1⟩

/-- Cutting keeps the canonical form. -/
theorem segCut_wf (base : Content) (l : List Seg) (lo hi : Nat) (hl : lo < hi) (h : segsWf base l = true) :
    segsWf base (segCut l lo hi) = true := by
  rw [segsWf_iff] at h ⊢
  refine ⟨fun x hx => ?_, ?_⟩
  · obtain ⟨h1, -, q, hq, hc⟩ := segCut_mem l lo hi x hx
    exact ⟨h1, hc ▸ (h.1 q hq).2⟩
  · unfold segCut
    rw [List.pairwise_flatMap]
    refine ⟨fun q _ => ?_, h.2.imp fun {a b} hab x hx y hy => ?_⟩
    · rw [List.pairwise_append]
      refine ⟨by split <;> simp, by split <;> simp, fun x hx y hy => ?_⟩
      split at hx <;> simp at hx
      split at hy <;> simp at hy
      subst hx hy
      left
      dsimp only
      omega
    · have p := segCut_piece a x lo hi hx
      have q := segCut_piece b y lo hi hy
      rcases hab with hab | ⟨hab, hc⟩
      · left; omega
      · by_cases e : x.hi = y.lo
        · exact .inr ⟨e, by rw [p.2.2.2.1, q.2.2.2.1]; exact hc⟩
        · left; omega

/-- Putting a segment before a list keeps the canonical form. -/
theorem segCons_wf (base : Content) (s : Seg) (l : List Seg) (hs : segOk base s) (hl : ∀ q ∈ l, s.hi ≤ q.lo)
    (h : segsWf base l = true) : segsWf base (segCons s l) = true := by
  rw [segsWf_iff] at h ⊢
  obtain ⟨h1, h2⟩ := h
  cases l with
  | nil => simpa [segCons] using hs
  | cons q t =>
    have hq := h1 q (List.mem_cons_self ..)
    have hsq := hl q (List.mem_cons_self ..)
    obtain ⟨h3, h4⟩ := List.pairwise_cons.1 h2
    rw [segCons]
    split
    · rename_i e
      refine ⟨fun x hx => ?_, List.pairwise_cons.2 ⟨fun x hx => ?_, h4⟩⟩
      · rcases List.mem_cons.1 hx with rfl | hx
        · exact ⟨by dsimp only; have := hs.1; have := hq.1; omega, hs.2⟩
        · exact h1 x (List.mem_cons_of_mem _ hx)
      · have := h3 x hx
        rw [segApart, e.2] at this
        exact this
    · rename_i e
      refine ⟨fun x hx => ?_, List.pairwise_cons.2 ⟨fun x hx => ?_, h2⟩⟩
      · rcases List.mem_cons.1 hx with rfl | hx
        · exact hs
        · exact h1 x hx
      · rcases List.mem_cons.1 hx with rfl | hx
        · by_cases e' : s.hi = x.lo
          · exact .inr ⟨e', fun c => e ⟨e', c.symm⟩⟩
          · left; omega
        · have := h3 x hx
          have := hq.1
          simp only [segApart] at *
          omega

/-- A segment of an extended list begins as one of the parts does. -/
theorem segCons_mem (s : Seg) (l : List Seg) (x : Seg) (h : x ∈ segCons s l) : ∃ y ∈ s :: l, x.lo = y.lo ∧ x.c = y.c := by
  cases l with
  | nil => exact ⟨x, h, rfl, rfl⟩
  | cons q t =>
    rw [segCons] at h
    split at h
    · rcases List.mem_cons.1 h with rfl | h
      · exact ⟨s, List.mem_cons_self .., rfl, rfl⟩
      · exact ⟨x, List.mem_cons_of_mem _ (List.mem_cons_of_mem _ h), rfl, rfl⟩
    · exact ⟨x, h, rfl, rfl⟩

theorem segInsert_mem (s : Seg) (l : List Seg) (x : Seg) (h : x ∈ segInsert s l) : ∃ y ∈ s :: l, x.lo = y.lo ∧ x.c = y.c := by
  induction l with
  | nil => exact ⟨x, h, rfl, rfl⟩
  | cons q t ih =>
    unfold segInsert at h
    split at h
    · rename_i e
      obtain ⟨y, hy, e1, e2⟩ := segCons_mem _ _ _ h
      rcases List.mem_cons.1 hy with rfl | hy
      · exact ⟨q, by simp, e1, e2.trans e.2.symm⟩
      · exact ⟨y, by simp [hy], e1, e2⟩
    · split at h
      · exact segCons_mem _ _ _ h
      · rcases List.mem_cons.1 h with rfl | h
        · exact ⟨x, by simp, rfl, rfl⟩
        · obtain ⟨y, hy, e⟩ := ih h
          rcases List.mem_cons.1 hy with rfl | hy
          · exact ⟨y, by simp, e⟩
          · exact ⟨y, by simp [hy], e⟩

/-- Putting a segment in its place keeps the canonical form. -/
theorem segInsert_wf (base : Content) (s : Seg) (l : List Seg) (hs : segOk base s) (hl : ∀ q ∈ l, q.hi ≤ s.lo ∨ s.hi ≤ q.lo)
    (h : segsWf base l = true) : segsWf base (segInsert s l) = true := by
  induction l with
  | nil => simpa [segInsert, segsWf_iff] using hs
  | cons q t ih =>
    have h' := (segsWf_iff base (q :: t)).1 h
    have hq := h'.1 q (List.mem_cons_self ..)
    obtain ⟨h3, h4⟩ := List.pairwise_cons.1 h'.2
    have ht : segsWf base t = true := (segsWf_iff base t).2 ⟨fun x hx => h'.1 x (List.mem_cons_of_mem _ hx), h4⟩
    unfold segInsert
    split
    · rename_i e
      refine segCons_wf base _ t ⟨by dsimp only; have := hs.1; have := hq.1; omega, hs.2⟩ (fun x hx => ?_) ht
      have h1 := h3 x hx
      have h2 := hl x (List.mem_cons_of_mem _ hx)
      have h5 := (h'.1 x (List.mem_cons_of_mem _ hx)).1
      have := hs.1
      simp only [segApart] at *
      omega
    · rename_i e
      split
      · rename_i e2
        refine segCons_wf base s _ hs (fun x hx => ?_) h
        rcases List.mem_cons.1 hx with rfl | hx
        · exact e2
        · have := h3 x hx
          have := hq.1
          simp only [segApart] at *
          omega
      · rename_i e2
        have hqs : q.hi ≤ s.lo := by
          rcases hl q (List.mem_cons_self ..) with h | h
          · exact h
          · exact absurd h e2
        have w := (segsWf_iff base _).1 (ih (fun x hx => hl x (List.mem_cons_of_mem _ hx)) ht)
        refine (segsWf_iff base _).2 ⟨fun x hx => ?_, List.pairwise_cons.2 ⟨fun x hx => ?_, w.2⟩⟩
        · rcases List.mem_cons.1 hx with rfl | hx
          · exact hq
          · exact w.1 x hx
        · obtain ⟨y, hy, e3, e4⟩ := segInsert_mem s t x hx
          rw [segApart, e3, e4]
          rcases List.mem_cons.1 hy with rfl | hy
          · by_cases e5 : q.hi = y.lo
            · exact .inr ⟨e5, fun c => e ⟨e5, c⟩⟩
            · left; omega
          · exact h3 y hy

/-- Writing a range keeps the canonical form. -/
theorem setRange_wf (c : Contents) (lo hi : Nat) (x : Content) (h : c.wf = true) : (c.setRange lo hi x).wf = true := by
  unfold Contents.setRange
  split
  · exact h
  · have hc := segCut_wf c.base c.segs lo hi (by omega) h
    unfold Contents.wf
    dsimp only
    split
    · exact hc
    · rename_i e
      refine segInsert_wf c.base _ _ ⟨by dsimp only; omega, e⟩ (fun q hq => ?_) hc
      exact (segCut_mem c.segs lo hi q hq).2.1

/-- Writing a set keeps the canonical form. -/
theorem fill_wf (r : RangeSet) (x : Content) (c : Contents) (h : c.wf = true) : (c.fill r x).wf = true := by
  unfold Contents.fill
  induction r generalizing c with
  | nil => exact h
  | cons p t ih => exact ih _ (setRange_wf c p.1 p.2 x h)

/-- Copying a set keeps the canonical form. -/
theorem copy_wf (c src : Contents) (r : RangeSet) (h : c.wf = true) : (c.copy src r).wf = true := by
  unfold Contents.copy
  generalize c.fill r src.base = d, fill_wf r src.base c h = hd
  induction src.segs generalizing d with
  | nil => exact hd
  | cons q t ih => exact ih _ (fill_wf _ _ _ hd)

/-! ## Reading -/

/-- What a list of segments holds at a granule. -/
def segGet (base : Content) (l : List Seg) (g : Nat) : Content :=
  match l.find? (fun q => q.lo ≤ g && g < q.hi) with
  | some q => q.c
  | none => base

theorem get_eq_segGet (c : Contents) (g : Nat) : c.get g = segGet c.base c.segs g := rfl

@[simp] theorem segGet_cons (base : Content) (q : Seg) (t : List Seg) (g : Nat) :
    segGet base (q :: t) g = if q.lo ≤ g ∧ g < q.hi then q.c else segGet base t g := by
  unfold segGet
  rw [List.find?_cons]
  by_cases h : q.lo ≤ g ∧ g < q.hi
  · simp [h]
  · have : (decide (q.lo ≤ g) && decide (g < q.hi)) = false := by
      rw [Bool.and_eq_false_iff, decide_eq_false_iff_not, decide_eq_false_iff_not]; omega
    simp [h, this]

theorem segGet_segCut (base : Content) (l : List Seg) (lo hi : Nat) (hl : lo < hi) (g : Nat) :
    segGet base (segCut l lo hi) g = if lo ≤ g ∧ g < hi then base else segGet base l g := by
  induction l with
  | nil => simp [segCut, segGet]
  | cons q t ih =>
    have : segCut (q :: t) lo hi = (if q.lo < min q.hi lo then [{ q with hi := min q.hi lo }] else []) ++
      (if max q.lo hi < q.hi then [{ q with lo := max q.lo hi }] else []) ++ segCut t lo hi := rfl
    rw [this]
    split <;> split <;> simp only [List.cons_append, List.nil_append, segGet_cons, ih] <;> (repeat' split) <;> first | rfl | omega

theorem segGet_segCons (base : Content) (s : Seg) (l : List Seg) (g : Nat) (hs : s.lo ≤ s.hi) (hl : ∀ q ∈ l, q.lo < q.hi) :
    segGet base (segCons s l) g = if s.lo ≤ g ∧ g < s.hi then s.c else segGet base l g := by
  cases l with
  | nil => simp [segCons]
  | cons q t =>
    have := hl q (List.mem_cons_self ..)
    rw [segCons]
    split
    · rename_i e
      simp only [segGet_cons]
      (repeat' split) <;> first | rfl | omega | exact e.2.symm
    · simp only [segGet_cons]

theorem segGet_segInsert (base : Content) (s : Seg) (l : List Seg) (g : Nat) (hs : s.lo ≤ s.hi)
    (hl : ∀ q ∈ l, q.lo < q.hi ∧ (q.hi ≤ s.lo ∨ s.hi ≤ q.lo)) :
    segGet base (segInsert s l) g = if s.lo ≤ g ∧ g < s.hi then s.c else segGet base l g := by
  induction l with
  | nil => simp [segInsert]
  | cons q t ih =>
    have hq := hl q (List.mem_cons_self ..)
    have ht : ∀ x ∈ t, x.lo < x.hi := fun x hx => (hl x (List.mem_cons_of_mem _ hx)).1
    unfold segInsert
    split
    · rename_i e
      rw [segGet_segCons _ _ _ _ (by dsimp only; omega) ht]
      simp only [segGet_cons]
      (repeat' split) <;> first | rfl | omega | exact e.2.symm
    · split
      · rw [segGet_segCons _ _ _ _ hs (fun x hx => (hl x hx).1)]
      · rw [segGet_cons, ih (fun x hx => hl x (List.mem_cons_of_mem _ hx))]
        simp only [segGet_cons]
        (repeat' split) <;> first | rfl | omega

/-- Read after write: the range reads the new content, every other granule as before. -/
theorem get_setRange (c : Contents) (lo hi : Nat) (x : Content) (g : Nat) :
    (c.setRange lo hi x).get g = if lo ≤ g ∧ g < hi then x else c.get g := by
  unfold Contents.setRange
  split
  · rw [if_neg (by omega)]
  · have hl : lo < hi := by omega
    simp only [get_eq_segGet]
    split
    · rename_i e
      rw [segGet_segCut _ _ _ _ hl, e]
    · rw [segGet_segInsert _ _ _ _ (le_of_lt hl)
        (fun q hq => ⟨(segCut_mem _ _ _ _ hq).1, (segCut_mem _ _ _ _ hq).2.1⟩), segGet_segCut _ _ _ _ hl]
      dsimp only
      split <;> rfl

/-- Read after write of a set. -/
theorem get_fill (r : RangeSet) (x : Content) (c : Contents) (g : Nat) :
    (c.fill r x).get g = if rsMem r g = true then x else c.get g := by
  unfold Contents.fill
  induction r generalizing c with
  | nil => rfl
  | cons p t ih =>
    rw [List.foldl_cons, ih, get_setRange]
    have : rsMem (p :: t) g = ((p.1 ≤ g && g < p.2) || rsMem t g) := rfl
    simp only [this, Bool.or_eq_true, Bool.and_eq_true, decide_eq_true_eq]
    by_cases h : rsMem t g = true <;> by_cases h' : p.1 ≤ g ∧ g < p.2 <;> simp [h, h']

/-- The clip of a set holds what the set holds inside the interval. -/
theorem rsMem_rsClip (r : RangeSet) (lo hi g : Nat) : rsMem (rsClip r lo hi) g = (rsMem r g && (lo ≤ g && g < hi)) := by
  unfold rsMem rsClip
  induction r with
  | nil => rfl
  | cons p t ih =>
    rw [List.filterMap_cons, List.any_cons]
    rw [Bool.eq_iff_iff] at ih ⊢
    split
    · rename_i e
      split at e
      · cases e
      · rw [ih]
        simp only [Bool.and_eq_true, Bool.or_eq_true, decide_eq_true_eq]
        constructor
        · rintro ⟨h1, h2⟩; exact ⟨.inr h1, h2⟩
        · rintro ⟨h1 | h1, h2⟩
          · omega
          · exact ⟨h1, h2⟩
    · rename_i e
      split at e
      · cases e
        rw [List.any_cons]
        simp only [Bool.and_eq_true, Bool.or_eq_true, decide_eq_true_eq, ih]
        constructor
        · rintro (h | ⟨h1, h2⟩)
          · exact ⟨.inl (by omega), by omega⟩
          · exact ⟨.inr h1, h2⟩
        · rintro ⟨h1 | h1, h2⟩
          · exact .inl (by omega)
          · exact .inr ⟨h1, h2⟩
      · cases e

/-- Read after copy: the set reads as the source, every other granule as before. -/
theorem get_copy (c src : Contents) (r : RangeSet) (g : Nat) (h : src.wf = true) :
    (c.copy src r).get g = if rsMem r g = true then src.get g else c.get g := by
  have key : ∀ (l : List Seg) (d : Contents), l.Pairwise segApart → (∀ q ∈ l, q.lo < q.hi) →
      (l.foldl (fun acc q => acc.fill (rsClip r q.lo q.hi) q.c) d).get g =
        if rsMem r g = true then segGet (d.get g) l g else d.get g := by
    intro l
    induction l with
    | nil => intro d _ _; simp [segGet]
    | cons q t ih =>
      intro d hp hn
      obtain ⟨h1, h2⟩ := List.pairwise_cons.1 hp
      have htail : ∀ (b : Content), q.lo ≤ g ∧ g < q.hi → segGet b t g = b := by
        intro b hg
        have : t.find? (fun q => decide (q.lo ≤ g) && decide (g < q.hi)) = none := by
          rw [List.find?_eq_none]
          intro x hx
          have := h1 x hx
          have := hn x (List.mem_cons_of_mem _ hx)
          simp only [Bool.and_eq_true, decide_eq_true_eq, segApart] at *
          omega
        unfold segGet
        rw [this]
      rw [List.foldl_cons, ih _ h2 (fun x hx => hn x (List.mem_cons_of_mem _ hx)), segGet_cons, get_fill, rsMem_rsClip]
      by_cases hr : rsMem r g = true
      · by_cases hg : q.lo ≤ g ∧ g < q.hi
        · simp [hr, hg, htail]
        · have : (decide (q.lo ≤ g) && decide (g < q.hi)) = false := by
            rw [Bool.and_eq_false_iff, decide_eq_false_iff_not, decide_eq_false_iff_not]; omega
          simp [hr, hg, this]
      · simp [hr]
  have hw := (segsWf_iff src.base src.segs).1 h
  unfold Contents.copy
  rw [key _ _ hw.2 (fun q hq => (hw.1 q hq).1), get_fill]
  by_cases hr : rsMem r g = true
  · simp [hr, get_eq_segGet]
  · simp [hr]

end Sys2Proof.Machine
end

