-- ==== Sys2Proof/Laws/FlashArray.lean ====
section
/-! SUPPORT. The laws of the code-flash array: read after write, and every operation keeps the canonical form. -/

namespace Sys2Proof.Machine

/-- What the canonical form says of the first word and the rest. -/
theorem flashWf_cons (a : Nat) (v : DWord) (t : List (Nat × DWord)) :
    flashWf ((a, v) :: t) = true ↔ v ≠ wordErased ∧ (∀ p ∈ t, a < p.1) ∧ flashWf t = true := by
  induction t generalizing a v with
  | nil => simp [flashWf]
  | cons q t ih =>
    obtain ⟨b, w⟩ := q
    rw [flashWf]
    simp only [Bool.and_eq_true, decide_eq_true_eq, List.mem_cons, forall_eq_or_imp]
    constructor
    · rintro ⟨⟨h1, h2⟩, h3⟩
      exact ⟨h1, ⟨h2, fun p hp => lt_trans h2 (((ih b w).1 h3).2.1 p hp)⟩, h3⟩
    · rintro ⟨h1, ⟨h2, _⟩, h3⟩
      exact ⟨⟨h1, h2⟩, h3⟩

/-- Erasing a sector keeps the canonical form. -/
theorem flashErase_wf (l : List (Nat × DWord)) (n : Nat) (h : flashWf l = true) : flashWf (flashErase l n) = true := by
  unfold flashErase
  induction l with
  | nil => rfl
  | cons q t ih =>
    obtain ⟨a, v⟩ := q
    rw [flashWf_cons] at h
    rw [List.filter_cons]
    split
    · rw [flashWf_cons]
      exact ⟨h.1, fun p hp => h.2.1 p (List.mem_of_mem_filter hp), ih h.2.2⟩
    · exact ih h.2.2

/-- Writing lists no other word. -/
theorem flashPut_mem (l : List (Nat × DWord)) (w : Nat) (v : DWord) (p : Nat × DWord) (h : p ∈ flashPut l w v) : p.1 = w ∨ p ∈ l := by
  induction l with
  | nil =>
    unfold flashPut at h
    split at h <;> simp_all
  | cons q t ih =>
    obtain ⟨a, b⟩ := q
    unfold flashPut at h
    split at h
    · split at h <;> simp_all
      rcases h with h | h <;> simp_all
    · split at h
      · split at h <;> simp_all
        rcases h with h | h <;> simp_all
      · rcases List.mem_cons.1 h with h | h
        · simp_all
        · rcases ih h with h | h <;> simp_all

/-- Writing a word keeps the canonical form. -/
theorem flashPut_wf (l : List (Nat × DWord)) (w : Nat) (v : DWord) (h : flashWf l = true) : flashWf (flashPut l w v) = true := by
  induction l with
  | nil => unfold flashPut; split <;> simp_all [flashWf]
  | cons q t ih =>
    obtain ⟨a, b⟩ := q
    have h' := (flashWf_cons a b t).1 h
    unfold flashPut
    split
    · next hlt =>
      split
      · exact h
      · next hv =>
        rw [flashWf_cons]
        refine ⟨hv, fun p hp => ?_, h⟩
        rcases List.mem_cons.1 hp with rfl | hp
        · exact hlt
        · exact lt_trans hlt (h'.2.1 p hp)
    · next hlt =>
      split
      · next he =>
        subst he
        split
        · exact h'.2.2
        · next hv => exact (flashWf_cons w v t).2 ⟨hv, h'.2.1, h'.2.2⟩
      · next he =>
        rw [flashWf_cons]
        refine ⟨h'.1, fun p hp => ?_, ih h'.2.2⟩
        rcases flashPut_mem t w v p hp with hp | hp
        · omega
        · exact h'.2.1 p hp

/-- A word reads as it was written. -/
theorem flashGet_put_same (l : List (Nat × DWord)) (w : Nat) (v : DWord) (h : flashWf l = true) : flashGet (flashPut l w v) w = v := by
  induction l with
  | nil => unfold flashPut; split <;> simp_all [flashGet]
  | cons q t ih =>
    obtain ⟨a, b⟩ := q
    have h' := (flashWf_cons a b t).1 h
    have out : ∀ (t : List (Nat × DWord)), (∀ p ∈ t, w < p.1) → flashGet t w = wordErased := by
      intro t
      induction t with
      | nil => intro _; rfl
      | cons q t ih =>
        intro hq
        have := hq q (by simp)
        rw [flashGet, if_neg (by omega)]
        exact ih (fun p hp => hq p (by simp [hp]))
    unfold flashPut
    split
    · next hlt =>
      split
      · next hv =>
        rw [hv]
        refine out _ (fun p hp => ?_)
        rcases List.mem_cons.1 hp with rfl | hp
        · exact hlt
        · exact lt_trans hlt (h'.2.1 p hp)
      · simp [flashGet]
    · split
      · next he =>
        subst he
        split
        · next hv =>
          rw [hv]
          exact out _ h'.2.1
        · simp [flashGet]
      · next he =>
        rw [flashGet, if_neg (fun e => he e.symm)]
        exact ih h'.2.2

/-- Writing a word leaves every other word. -/
theorem flashGet_put_other (l : List (Nat × DWord)) (w x : Nat) (v : DWord) (hx : x ≠ w) : flashGet (flashPut l w v) x = flashGet l x := by
  induction l with
  | nil => unfold flashPut; split <;> simp [flashGet, Ne.symm hx]
  | cons q t ih =>
    obtain ⟨a, b⟩ := q
    unfold flashPut
    split
    · split
      · rfl
      · rw [flashGet, if_neg (Ne.symm hx)]
    · split
      · next he =>
        subst he
        split
        · rw [flashGet, if_neg (Ne.symm hx)]
        · rw [flashGet, flashGet, if_neg (Ne.symm hx), if_neg (Ne.symm hx)]
      · rw [flashGet, flashGet, ih]

/-- Every word of an erased sector reads erased. -/
theorem flashGet_erase_same (l : List (Nat × DWord)) (n w : Nat) (h : w / sectorWords = n) : flashGet (flashErase l n) w = wordErased := by
  unfold flashErase
  induction l with
  | nil => rfl
  | cons q t ih =>
    rw [List.filter_cons]
    split
    · next hq =>
      have : q.1 ≠ w := by
        intro e
        simp [e, h] at hq
      obtain ⟨a, v⟩ := q
      rw [flashGet, if_neg this]
      exact ih
    · exact ih

/-- Erasing a sector leaves every word outside it. -/
theorem flashGet_erase_other (l : List (Nat × DWord)) (n w : Nat) (h : w / sectorWords ≠ n) : flashGet (flashErase l n) w = flashGet l w := by
  unfold flashErase
  induction l with
  | nil => rfl
  | cons q t ih =>
    obtain ⟨a, v⟩ := q
    rw [List.filter_cons]
    split
    · rw [flashGet, flashGet, ih]
    · next hq =>
      have : a ≠ w := by
        intro e
        subst e
        simp [h] at hq
      rw [flashGet, if_neg this]
      exact ih

end Sys2Proof.Machine
end

