-- ==== Sys2Proof/Laws/FlashKept.lean ====
section
/-! SUPPORT. What each shared operation of the machine does to the words of the code flash: it leaves them (an equation), or it keeps
their canonical form. One lemma per operation, named after it. -/

namespace Sys2Proof.Machine

@[simp] theorem ite_words {c : Prop} [Decidable c] (a b : State) :
    (if c then a else b).cfl.words = if c then a.cfl.words else b.cfl.words := by split <;> rfl

@[simp] theorem flashWf_ite {c : Prop} [Decidable c] (a b : List (Nat × DWord)) :
    flashWf (if c then a else b) = if c then flashWf a else flashWf b := by split <;> rfl

@[simp] theorem ite_fst_words {α : Type} {c : Prop} [Decidable c] (a b : State × α) :
    (if c then a else b).1.cfl.words = if c then a.1.cfl.words else b.1.cfl.words := by split <;> rfl

theorem foldl_words {α : Type} (f : State → α → State) (h : ∀ s x, (f s x).cfl.words = s.cfl.words) (l : List α) (s : State) :
    (l.foldl f s).cfl.words = s.cfl.words := by
  induction l generalizing s with
  | nil => rfl
  | cons x t ih => rw [List.foldl_cons, ih, h]

theorem foldl_fst_words {α β : Type} (f : State × β → α → State × β) (h : ∀ p x, (f p x).1.cfl.words = p.1.cfl.words)
    (l : List α) (p : State × β) : (l.foldl f p).1.cfl.words = p.1.cfl.words := by
  induction l generalizing p with
  | nil => rfl
  | cons x t ih => rw [List.foldl_cons, ih, h]

theorem foldl_wf {α : Type} (f : State → α → State) (h : ∀ s x, flashWf s.cfl.words = true → flashWf (f s x).cfl.words = true)
    (l : List α) (s : State) (hs : flashWf s.cfl.words = true) : flashWf (l.foldl f s).cfl.words = true := by
  induction l generalizing s with
  | nil => exact hs
  | cons x t ih => exact ih _ (h _ _ hs)

@[simp] theorem fresh_words (s : State) : (fresh s).2.cfl.words = s.cfl.words := by
  unfold fresh
  simp

@[simp] theorem setArea_words (s : State) (a : Area) (x : AreaSt) : (setArea s a x).cfl.words = s.cfl.words := by
  unfold setArea
  simp

@[simp] theorem writeArea_words (s : State) (a : Area) : (writeArea s a).cfl.words = s.cfl.words := by
  unfold writeArea
  simp

@[simp] theorem logSev_words (s : State) (d : Dom) (e : EvCode) (sev : BitVec 3) (args : Vector Word 4) :
    (logSev s d e sev args).cfl.words = s.cfl.words := by
  unfold logSev
  simp

@[simp] theorem logEv_words (s : State) (d : Dom) (k : EvKind) (a0 : Nat := 0) (a1 : Nat := 0) (a2 : Nat := 0) (a3 : Nat := 0) :
    (logEv s d k a0 a1 a2 a3).cfl.words = s.cfl.words := by
  unfold logEv
  simp

@[simp] theorem logPstate_words (s : State) (d : Dom) (m : DMode) : (logPstate s d m).cfl.words = s.cfl.words := by
  unfold logPstate
  simp

@[simp] theorem raiseIrq_words (s : State) (bits : Word) : (raiseIrq s bits).cfl.words = s.cfl.words := by
  unfold raiseIrq
  simp

@[simp] theorem mboxRequest_words (s : State) (n : Fin 16) (fdf brs : Bool) (dlc : BitVec 4) (attempts : Nat) :
    (mboxRequest s n fdf brs dlc attempts).cfl.words = s.cfl.words := by
  unfold mboxRequest
  simp

@[simp] theorem fwSend_words (s : State) (id : CanId) (data : List Byte) : (fwSend s id data).cfl.words = s.cfl.words := by
  unfold fwSend
  ((repeat' split) <;> simp)

@[simp] theorem refillFifo_words (s : State) : (refillFifo s).cfl.words = s.cfl.words := by
  unfold refillFifo
  simp

@[simp] theorem fifoSend_words (s : State) (l : List Frame) : (fifoSend s l).cfl.words = s.cfl.words := by
  unfold fifoSend
  simp

@[simp] theorem sendMessage_words (s : State) (id : CanId) (payload : List Byte) : (sendMessage s id payload).cfl.words = s.cfl.words := by
  unfold sendMessage
  simp

@[simp] theorem holdElection_words (s : State) : (holdElection s).cfl.words = s.cfl.words := by
  unfold holdElection
  simp

@[simp] theorem dropKeeper_words (s : State) : (dropKeeper s).cfl.words = s.cfl.words := by
  unfold dropKeeper
  simp

@[simp] theorem setBusMode_words (s : State) (m : BusMode) : (setBusMode s m).cfl.words = s.cfl.words := by
  unfold setBusMode
  simp

@[simp] theorem joinBus_words (s : State) : (joinBus s).cfl.words = s.cfl.words := by
  unfold joinBus
  simp

@[simp] theorem detect_words (s : State) : (detect s).cfl.words = s.cfl.words := by
  unfold detect
  simp

@[simp] theorem setSes_words (s : State) (k : Sess) (f : Ses → Ses) : (setSes s k f).cfl.words = s.cfl.words := by
  unfold setSes
  simp

@[simp] theorem pipePut_words (s : State) (k : Sess) (b : List Byte) : (pipePut s k b).cfl.words = s.cfl.words := by
  unfold pipePut
  simp

@[simp] theorem consolePut_words (s : State) (b : List Byte) : (consolePut s b).cfl.words = s.cfl.words := by
  unfold consolePut
  simp

@[simp] theorem tunnelSend_words (s : State) (node : NodeId) (payload : List Byte) :
    (tunnelSend s node payload).cfl.words = s.cfl.words := by
  unfold tunnelSend
  simp

@[simp] theorem respondSeq_words (s : State) (k : Sess) (lseq : Byte) (l : Line) : (respondSeq s k lseq l).cfl.words = s.cfl.words := by
  unfold respondSeq
  simp
  (repeat' split) <;> simp [foldl_words]

@[simp] theorem respond_words (s : State) (k : Sess) (l : Line) : (respond s k l).cfl.words = s.cfl.words := by
  unfold respond
  simp

@[simp] theorem noticeTo_words (s : State) (p : Sess → Ses → Bool) (l : Line) : (noticeTo s p l).cfl.words = s.cfl.words := by
  unfold noticeTo
  simp

@[simp] theorem noticeGeneral_words (s : State) (l : Line) : (noticeGeneral s l).cfl.words = s.cfl.words := by
  unfold noticeGeneral
  simp

@[simp] theorem noticeAll_words (s : State) (l : Line) : (noticeAll s l).cfl.words = s.cfl.words := by
  unfold noticeAll
  simp

@[simp] theorem noteIssue_words (s : State) (k : Option Sess) (x : Issue) : (noteIssue s k x).cfl.words = s.cfl.words := by
  unfold noteIssue
  split <;> simp

@[simp] theorem noticeIssuer_words (s : State) (k : Option Sess) (x : Issue) (l : Line) : (noticeIssuer s k x l).cfl.words = s.cfl.words := by
  unfold noticeIssuer
  ((repeat' split) <;> simp)

@[simp] theorem drainNotices_words (s : State) (k : Sess) : (drainNotices s k).cfl.words = s.cfl.words := by
  unfold drainNotices
  simp
  (repeat' split) <;> simp [foldl_words]

@[simp] theorem openSessions_words (s : State) : (openSessions s).cfl.words = s.cfl.words := by
  unfold openSessions
  simp

@[simp] theorem closeSessions_words (s : State) : (closeSessions s).cfl.words = s.cfl.words := by
  unfold closeSessions
  simp

@[simp] theorem closeTunnels_words (s : State) : (closeTunnels s).cfl.words = s.cfl.words := by
  unfold closeTunnels
  simp

@[simp] theorem ans_words (s : State) (l : Line) : (ans s l).1.cfl.words = s.cfl.words := by
  unfold ans
  simp

@[simp] theorem err_words (s : State) (code : Nat) (fields : List (String × Val) := []) :
    (err s code fields).1.cfl.words = s.cfl.words := by
  unfold err
  simp

@[simp] theorem runLine_words (s : State) (k : Sess) (lseq : Byte) (f : Verb) (hf : ∀ s, flashWf s.cfl.words = true → flashWf (f s).1.cfl.words = true) (hw : flashWf s.cfl.words = true) :
    flashWf (runLine s k lseq f).cfl.words = true := by
  have h := hf (setSes s k (fun q => { q with curLseq := lseq })) (by simpa using hw)
  unfold runLine
  dsimp only
  split <;> next e => simpa [e] using h

@[simp] theorem onLineSeq_words (s : State) (k : Sess) (lseq : Byte) (line : QLine) (f : Verb) (hf : ∀ s, flashWf s.cfl.words = true → flashWf (f s).1.cfl.words = true) (hw : flashWf s.cfl.words = true) :
    flashWf (onLineSeq s k lseq line f).cfl.words = true := by
  unfold onLineSeq
  dsimp only
  (repeat' split) <;> try simp [hw]
  exact runLine_words _ _ _ _ hf hw

@[simp] theorem onVerb_words (s : State) (k : Sess) (i : Instr) (inRecovery : Bool) (f : Verb) (hf : ∀ s, flashWf s.cfl.words = true → flashWf (f s).1.cfl.words = true) (hw : flashWf s.cfl.words = true) :
    flashWf (onVerb s k i inRecovery f).cfl.words = true := by
  unfold onVerb
  refine onLineSeq_words _ _ _ _ _ (fun s h => ?_) hw
  split
  · simpa using h
  · exact hf s h

@[simp] theorem answerBusy_words (s : State) (k : Option Sess) (b : Busy) (l : Line) : (answerBusy s k b l).cfl.words = s.cfl.words := by
  unfold answerBusy
  ((repeat' split) <;> simp)

@[simp] theorem setDom_words (s : State) (d : Dom) (f : DomSt → DomSt) : (setDom s d f).cfl.words = s.cfl.words := by
  unfold setDom
  simp

@[simp] theorem setPll_words (s : State) (p : Pll) (x : PllSt) : (setPll s p x).cfl.words = s.cfl.words := by
  unfold setPll
  (repeat' split) <;> simp

@[simp] theorem setLane_words (s : State) (n : LaneId) (f : Lane → Lane) : (setLane s n f).cfl.words = s.cfl.words := by
  unfold setLane
  simp

@[simp] theorem sendFlit_words (s : State) (n : LaneId) (f : Flit) : (sendFlit s n f).cfl.words = s.cfl.words := by
  unfold sendFlit
  simp

@[simp] theorem resetLane_words (s : State) (n : LaneId) : (resetLane s n).cfl.words = s.cfl.words := by
  unfold resetLane
  simp

@[simp] theorem resetLanesOf_words (s : State) (d : Dom) : (resetLanesOf s d).cfl.words = s.cfl.words := by
  unfold resetLanesOf
  simp [foldl_words]

@[simp] theorem settleLanes_words (s : State) : (settleLanes s).cfl.words = s.cfl.words := by
  unfold settleLanes
  simp

@[simp] theorem abortWork_words (s : State) (d : Dom) : (abortWork s d).cfl.words = s.cfl.words := by
  unfold abortWork
  simp
  (repeat' split) <;> simp [foldl_words]

@[simp] theorem wakeLanes_words (before s : State) : (wakeLanes before s).cfl.words = s.cfl.words := by
  unfold wakeLanes
  exact foldl_words _ (fun s n => resetLane_words s n) _ _

@[simp] theorem settlePlls_words (s : State) : (settlePlls s).cfl.words = s.cfl.words := by
  unfold settlePlls
  simp

@[simp] theorem latchEnables_words (s : State) : (latchEnables s).cfl.words = s.cfl.words := by
  unfold latchEnables
  simp

@[simp] theorem setEnabled_words (s : State) (d : Dom) (b : Bool) : (setEnabled s d b).cfl.words = s.cfl.words := by
  unfold setEnabled
  simp

@[simp] theorem setRunDisable_words (s : State) (d : Dom) (b : Bool) : (setRunDisable s d b).cfl.words = s.cfl.words := by
  unfold setRunDisable
  simp

@[simp] theorem dropRxQueues_words (s : State) : (dropRxQueues s).cfl.words = s.cfl.words := by
  unfold dropRxQueues
  simp

@[simp] theorem leaveShb_words (s : State) : (leaveShb s).cfl.words = s.cfl.words := by
  unfold leaveShb
  simp

@[simp] theorem enterShb_words (s : State) : (enterShb s).cfl.words = s.cfl.words := by
  unfold enterShb
  simp

@[simp] theorem darkWarp_words (s : State) (hw : flashWf s.cfl.words = true) : flashWf (darkWarp s).cfl.words = true := by
  unfold darkWarp
  simp (maxDischargeDepth := 8) [*]

@[simp] theorem setMode_words (s : State) (d : Dom) (m : DMode) (hw : flashWf s.cfl.words = true) :
    flashWf (setMode s d m).cfl.words = true := by
  unfold setMode
  simp (maxDischargeDepth := 8) [*]

@[simp] theorem applyModes_words (s : State) (target : State → Dom → DMode) (hw : flashWf s.cfl.words = true) :
    flashWf (applyModes s target).cfl.words = true := by
  unfold applyModes
  (repeat' split) <;> simp_all (maxDischargeDepth := 12) [foldl_words, foldl_wf]

@[simp] theorem setWord_words (s : State) (w : Nat) (v : DWord) (hw : flashWf s.cfl.words = true) :
    flashWf (setWord s w v).cfl.words = true := by
  exact flashPut_wf _ _ _ hw

@[simp] theorem advanceCount_words (s : State) (w : Nat) : (advanceCount s w).cfl.words = s.cfl.words := by
  unfold advanceCount
  simp

@[simp] theorem spoilWord_words (s : State) (w : Nat) (hw : flashWf s.cfl.words = true) : flashWf (spoilWord s w).cfl.words = true := by
  unfold spoilWord
  simp (maxDischargeDepth := 8) [*, flashPut_wf]

@[simp] theorem wipeSector_words (s : State) (n : Nat) (hw : flashWf s.cfl.words = true) : flashWf (wipeSector s n).cfl.words = true := by
  exact flashErase_wf _ _ hw

@[simp] theorem spoilSector_words (s : State) (n : Nat) (hw : flashWf s.cfl.words = true) : flashWf (spoilSector s n).cfl.words = true := by
  unfold spoilSector
  generalize List.range sectorWords = l
  refine foldl_wf _ ?_ _ _ (wipeSector_words _ _ hw)
  intro s i h
  exact spoilWord_words _ _ h

@[simp] theorem interruptCfl_words (s : State) (hw : flashWf s.cfl.words = true) : flashWf (interruptCfl s).cfl.words = true := by
  unfold interruptCfl
  ((repeat' split) <;> simp (maxDischargeDepth := 8) [*])

@[simp] theorem looseCfl_words (s : State) : (looseCfl s).cfl.words = s.cfl.words := by
  unfold looseCfl
  simp

@[simp] theorem loadOptions_words (s : State) : (loadOptions s).cfl.words = s.cfl.words := by
  unfold loadOptions
  simp [foldl_words]

@[simp] theorem loadProtection_words (s : State) : (loadProtection s).cfl.words = s.cfl.words := by
  unfold loadProtection
  ((repeat' split) <;> simp)

@[simp] theorem setAttr_words (s : State) (t : Tenant) (a : Word) : (setAttr s t a).cfl.words = s.cfl.words := by
  unfold setAttr
  simp

@[simp] theorem setDirty_words (s : State) (r : RangeSet) : (setDirty s r).cfl.words = s.cfl.words := by
  unfold setDirty
  simp

@[simp] theorem setAllDirty_words (s : State) : (setAllDirty s).cfl.words = s.cfl.words := by
  unfold setAllDirty
  simp

@[simp] theorem endWaiting_words (s : State) : (endWaiting s).cfl.words = s.cfl.words := by
  unfold endWaiting
  simp

@[simp] theorem dropImage_words (s : State) : (dropImage s).cfl.words = s.cfl.words := by
  unfold dropImage
  simp

@[simp] theorem loadClasses_words (s : State) : (loadClasses s).cfl.words = s.cfl.words := by
  unfold loadClasses
  simp

@[simp] theorem setDie_words (s : State) (d : Die) (f : DieSt → DieSt) : (setDie s d f).cfl.words = s.cfl.words := by
  unfold setDie
  simp

@[simp] theorem setOp_words (s : State) (d : Die) (o : DieOp) : (setOp s d o).cfl.words = s.cfl.words := by
  unfold setOp
  simp

@[simp] theorem setGroup_words (s : State) (g : Group) : (setGroup s g).cfl.words = s.cfl.words := by
  unfold setGroup
  simp

@[simp] theorem setRole_words (s : State) (d : Die) (b : Nat) (r : Role) : (setRole s d b r).cfl.words = s.cfl.words := by
  unfold setRole
  simp

@[simp] theorem openGroup_words (s : State) (d : Die) (r : Role) : (openGroup s d r).1.cfl.words = s.cfl.words := by
  unfold openGroup
  ((repeat' split) <;> simp)

@[simp] theorem nextPage_words (s : State) (d : Die) : (nextPage s d).1.cfl.words = s.cfl.words := by
  have h := openGroup_words s d .deltaOpen
  unfold nextPage
  generalize openGroup s d .deltaOpen = r at h ⊢
  obtain ⟨t, o⟩ := r
  cases o <;> simpa using h

@[simp] theorem advancePage_words (s : State) (p : Page) : (advancePage s p).cfl.words = s.cfl.words := by
  unfold advancePage
  simp

@[simp] theorem tagPage_words (s : State) (p : Page) (t : StrandTag) : (tagPage s p t).cfl.words = s.cfl.words := by
  unfold tagPage
  simp

@[simp] theorem diverge_words (s : State) : (diverge s).cfl.words = s.cfl.words := by
  unfold diverge
  simp

@[simp] theorem forgetGroup_words (s : State) (d : Die) (b : Nat) : (forgetGroup s d b).cfl.words = s.cfl.words := by
  unfold forgetGroup
  simp

@[simp] theorem addGrown_words (s : State) (cause : Nat) (d : Die) (plane b : Nat) :
    (addGrown s cause d plane b).cfl.words = s.cfl.words := by
  unfold addGrown
  simp

@[simp] theorem retire_words (s : State) (cause : Nat) (d : Die) (plane b : Nat) : (retire s cause d plane b).cfl.words = s.cfl.words := by
  unfold retire
  simp

@[simp] theorem reseedEg_words (s : State) : (reseedEg s).cfl.words = s.cfl.words := by
  unfold reseedEg
  simp

@[simp] theorem reseedAll_words (s : State) : (reseedAll s).cfl.words = s.cfl.words := by
  unfold reseedAll
  simp

@[simp] theorem growRing_words (s : State) (r : Ring) (held : Option Nat) : (growRing s r held).1.cfl.words = s.cfl.words := by
  unfold growRing
  (repeat' split) <;> simp

@[simp] theorem makeRing_words (s : State) (d : Die) : (makeRing s d).1.cfl.words = s.cfl.words := by
  unfold makeRing
  exact foldl_fst_words _ (fun p _ => growRing_words p.1 p.2 none) _ _

@[simp] theorem startRing_words (s : State) (d : Die) : (startRing s d).1.cfl.words = s.cfl.words := by
  unfold startRing
  simp

@[simp] theorem fillRing_words (s : State) (copyB : Bool) : (fillRing s copyB).cfl.words = s.cfl.words := by
  unfold fillRing
  simp

@[simp] theorem freeRing_words (s : State) (r : Ring) : (freeRing s r).cfl.words = s.cfl.words := by
  unfold freeRing
  simp [foldl_words]

@[simp] theorem estNow_words (s : State) : (estNow s).cfl.words = s.cfl.words := by
  unfold estNow
  simp

@[simp] theorem refreshEnergy_words (s : State) : (refreshEnergy s).cfl.words = s.cfl.words := by
  unfold refreshEnergy
  simp

@[simp] theorem sendHoldAlarm_words (s : State) (reason : Nat) : (sendHoldAlarm s reason).cfl.words = s.cfl.words := by
  unfold sendHoldAlarm
  simp

@[simp] theorem takeMargin_words (s : State) (m : Margin) : (takeMargin s m).cfl.words = s.cfl.words := by
  unfold takeMargin
  simp

@[simp] theorem judgeMargin_words (s : State) : (judgeMargin s).cfl.words = s.cfl.words := by
  unfold judgeMargin
  simp

@[simp] theorem takeCover_words (s : State) : (takeCover s).cfl.words = s.cfl.words := by
  unfold takeCover
  simp

@[simp] theorem recomputeCover_words (s : State) : (recomputeCover s).cfl.words = s.cfl.words := by
  unfold recomputeCover
  simp

@[simp] theorem dramLost_words (s : State) : (dramLost s).cfl.words = s.cfl.words := by
  unfold dramLost
  simp

@[simp] theorem warpHold_words (s : State) : (warpHold s).cfl.words = s.cfl.words := by
  unfold warpHold
  ((repeat' split) <;> simp)

@[simp] theorem abandonReload_words (s : State) : (abandonReload s).cfl.words = s.cfl.words := by
  unfold abandonReload
  ((repeat' split) <;> simp)

@[simp] theorem dropRestore_words (s : State) : (dropRestore s).cfl.words = s.cfl.words := by
  unfold dropRestore
  ((repeat' split) <;> simp)

@[simp] theorem stopSettle_words (s : State) : (stopSettle s).cfl.words = s.cfl.words := by
  unfold stopSettle
  simp

@[simp] theorem stopArrays_words (s : State) : (stopArrays s).cfl.words = s.cfl.words := by
  unfold stopArrays
  simp

@[simp] theorem dropRimJob_words (s : State) : (dropRimJob s).cfl.words = s.cfl.words := by
  unfold dropRimJob
  simp

@[simp] theorem powerDown_words (s : State) (hw : flashWf s.cfl.words = true) : flashWf (powerDown s).cfl.words = true := by
  unfold powerDown
  simp (maxDischargeDepth := 8) [*]

@[simp] theorem checkpointCells_words (s : State) : (checkpointCells s).cfl.words = s.cfl.words := by
  unfold checkpointCells
  simp

@[simp] theorem enterHeld_words (s : State) (hw : flashWf s.cfl.words = true) : flashWf (enterHeld s).cfl.words = true := by
  unfold enterHeld
  simp (maxDischargeDepth := 8) [*]

@[simp] theorem enterDark_words (s : State) (hw : flashWf s.cfl.words = true) : flashWf (enterDark s).cfl.words = true := by
  unfold enterDark
  simp (maxDischargeDepth := 8) [*]

@[simp] theorem enterHeldOrDark_words (s : State) (held : Bool) (hw : flashWf s.cfl.words = true) :
    flashWf (enterHeldOrDark s held).cfl.words = true := by
  unfold enterHeldOrDark
  simp (maxDischargeDepth := 8) [*]

@[simp] theorem faultMark_words (s : State) (causes : List FaultCause) : (faultMark s causes).cfl.words = s.cfl.words := by
  unfold faultMark
  simp

@[simp] theorem faultPins_words (s : State) : (faultPins s).cfl.words = s.cfl.words := by
  unfold faultPins
  simp

@[simp] theorem enterFault_words (s : State) (causes : List FaultCause) (tno : Nat) (hw : flashWf s.cfl.words = true) :
    flashWf (enterFault s causes tno).cfl.words = true := by
  unfold enterFault
  simp (maxDischargeDepth := 12) [*, foldl_words, foldl_wf]

@[simp] theorem unarm_words (s : State) (c : FaultCause) (hw : flashWf s.cfl.words = true) : flashWf (unarm s c).cfl.words = true := by
  unfold unarm
  simp (maxDischargeDepth := 8) [*]

@[simp] theorem checkStripe_words (s : State) (hw : flashWf s.cfl.words = true) : flashWf (checkStripe s).cfl.words = true := by
  unfold checkStripe
  simp (maxDischargeDepth := 8) [*]

@[simp] theorem hostReset_words (s : State) : (hostReset s).cfl.words = s.cfl.words := by
  unfold hostReset
  simp

@[simp] theorem enterServe_words (s : State) (hw : flashWf s.cfl.words = true) : flashWf (enterServe s).cfl.words = true := by
  unfold enterServe
  dsimp only
  (repeat' split) <;> simp_all (maxDischargeDepth := 12) [foldl_words, foldl_wf]

@[simp] theorem applySnoop_words (s : State) (x : Snoop) : (applySnoop s x).cfl.words = s.cfl.words := by
  unfold applySnoop
  ((repeat' split) <;> simp)

@[simp] theorem applyFlit_words (s : State) (f : Flit) : (applyFlit s f).cfl.words = s.cfl.words := by
  unfold applyFlit
  simp
  (repeat' split) <;> simp [foldl_words]

@[simp] theorem packSnoops_words (s : State) : (packSnoops s).cfl.words = s.cfl.words := by
  unfold packSnoops
  simp
  (repeat' split) <;> simp [foldl_words]

@[simp] theorem snoopPut_words (s : State) (x : Snoop) : (snoopPut s x).cfl.words = s.cfl.words := by
  unfold snoopPut
  simp

@[simp] theorem flushSnoops_words (s : State) : (flushSnoops s).cfl.words = s.cfl.words := by
  unfold flushSnoops
  simp [foldl_words]

@[simp] theorem newSave_words (s : State) (planned : Bool) : (newSave s planned).cfl.words = s.cfl.words := by
  unfold newSave
  simp

@[simp] theorem assertBatsw_words (s : State) : (assertBatsw s).cfl.words = s.cfl.words := by
  unfold assertBatsw
  simp

@[simp] theorem startSave_words (s : State) (planned : Bool) (cause : Cause) (hw : flashWf s.cfl.words = true) :
    flashWf (startSave s planned cause).cfl.words = true := by
  unfold startSave
  simp (maxDischargeDepth := 8) [*]

@[simp] theorem startRestore_words (s : State) (hw : flashWf s.cfl.words = true) : flashWf (startRestore s).cfl.words = true := by
  unfold startRestore
  ((repeat' split) <;> simp (maxDischargeDepth := 8) [*])

@[simp] theorem startRim_words (s : State) (rim : Rim) (use : RimUse) : (startRim s rim use).cfl.words = s.cfl.words := by
  unfold startRim
  simp

@[simp] theorem cutHandback_words (s : State) (r : RestoreRun) (c : Cause) : (cutHandback s r c).cfl.words = s.cfl.words := by
  unfold cutHandback
  simp

@[simp] theorem unplanned_words (s : State) (c : Cause) (hw : flashWf s.cfl.words = true) : flashWf (unplanned s c).cfl.words = true := by
  unfold unplanned
  dsimp only
  (repeat' split) <;> simp (maxDischargeDepth := 8) [hw]

@[simp] theorem observeSelfRef_words (s : State) (hw : flashWf s.cfl.words = true) : flashWf (observeSelfRef s).cfl.words = true := by
  unfold observeSelfRef
  simp (maxDischargeDepth := 8) [*]

@[simp] theorem parkRequest_words (s : State) (c : Cause) (hw : flashWf s.cfl.words = true) :
    flashWf (parkRequest s c).1.cfl.words = true := by
  unfold parkRequest
  ((repeat' split) <;> simp (maxDischargeDepth := 8) [*])

@[simp] theorem restoreRequest_words (s : State) (source : Cause) (session : Option Sess) (stagger : Option (Nat × Nat)) (hw : flashWf s.cfl.words = true) :
    flashWf (restoreRequest s source session stagger).1.cfl.words = true := by
  unfold restoreRequest
  (repeat' split) <;> simp (maxDischargeDepth := 8) [*]

@[simp] theorem setHdr_words (s : State) (b : Bank) (h : List Byte) : (setHdr s b h).cfl.words = s.cfl.words := by
  unfold setHdr
  ((repeat' split) <;> simp)

@[simp] theorem sendReceipt_words (s : State) : (sendReceipt s).cfl.words = s.cfl.words := by
  unfold sendReceipt
  ((repeat' split) <;> simp)

@[simp] theorem setReason_words (s : State) (r : Reason) : (setReason s r).cfl.words = s.cfl.words := by
  unfold setReason
  simp

@[simp] theorem deliverDescriptors_words (s : State) : (deliverDescriptors s).cfl.words = s.cfl.words := by
  unfold deliverDescriptors
  simp

@[simp] theorem managementReset_words (s : State) (cause : ResetCause) : (managementReset s cause).cfl.words = s.cfl.words := by
  unfold managementReset
  simp

@[simp] theorem reopenSessions_words (s : State) : (reopenSessions s).cfl.words = s.cfl.words := by
  unfold reopenSessions
  simp

@[simp] theorem relatch_words (s : State) : (relatch s).cfl.words = s.cfl.words := by
  unfold relatch
  simp

@[simp] theorem dropUnlock_words (s : State) (k : Sess) : (dropUnlock s k).cfl.words = s.cfl.words := by
  unfold dropUnlock
  simp

@[simp] theorem setSlot_words (s : State) (t : Tenant) (slot : Nat) : (setSlot s t slot).cfl.words = s.cfl.words := by
  unfold setSlot
  simp

@[simp] theorem dirtyTenant_words (s : State) (t : Tenant) : (dirtyTenant s t).cfl.words = s.cfl.words := by
  unfold dirtyTenant
  simp

@[simp] theorem placeKey_words (s : State) (t : Tenant) (slot : Nat) (key : List Byte) :
    (placeKey s t slot key).cfl.words = s.cfl.words := by
  unfold placeKey
  simp

@[simp] theorem installKey_words (s : State) (t : Tenant) (slot : Nat) (key : List Byte) :
    (installKey s t slot key).cfl.words = s.cfl.words := by
  unfold installKey
  simp

@[simp] theorem drawKey_words (s : State) (t : Tenant) : (drawKey s t).cfl.words = s.cfl.words := by
  unfold drawKey
  simp

@[simp] theorem generateKey_words (s : State) (t : Tenant) : (generateKey s t).cfl.words = s.cfl.words := by
  unfold generateKey
  simp

@[simp] theorem generateAll_words (s : State) : (generateAll s).cfl.words = s.cfl.words := by
  unfold generateAll
  simp
  (repeat' split) <;> simp [foldl_words]

@[simp] theorem setSave_words (s : State) (v : Save) : (setSave s v).cfl.words = s.cfl.words := by
  unfold setSave
  simp

@[simp] theorem wakeDie_words (s : State) (d : Die) (work : Page → Work) : (wakeDie s d work).1.cfl.words = s.cfl.words := by
  have h := nextPage_words s d
  unfold wakeDie
  split
  · rfl
  · generalize nextPage s d = r at h ⊢
    obtain ⟨t, o⟩ := r
    cases o <;> simpa using h

@[simp] theorem wakeStrand_words (acc : State × List Strand) (x : Strand) : (wakeStrand acc x).1.cfl.words = acc.1.cfl.words := by
  unfold wakeStrand
  split <;> simp

@[simp] theorem wakePlait_words (acc : State × List OpenPlait) (p : OpenPlait) : (wakePlait acc p).1.cfl.words = acc.1.cfl.words := by
  unfold wakePlait
  exact foldl_fst_words _ wakeStrand_words _ _

@[simp] theorem wakeTable_words (acc : State × List TabStrand) (x : TabStrand) : (wakeTable acc x).1.cfl.words = acc.1.cfl.words := by
  unfold wakeTable
  split <;> simp

@[simp] theorem abandonPlaits_words (s : State) (v : Save) (gone : OpenPlait → Bool) :
    (abandonPlaits s v gone).cfl.words = s.cfl.words := by
  unfold abandonPlaits
  dsimp only
  rw [setSave_words]
  refine foldl_words _ (fun s p => foldl_words _ (fun s x => ?_) _ _) _ _
  (repeat' split) <;> simp

@[simp] theorem wakeOnce_words (s : State) : (wakeOnce s).cfl.words = s.cfl.words := by
  have hp : ∀ (l : List OpenPlait) (s : State), (l.foldl wakePlait (s, [])).1.cfl.words = s.cfl.words :=
    fun l s => foldl_fst_words _ wakePlait_words l _
  have ht : ∀ (l : List TabStrand) (s : State), (l.foldl wakeTable (s, [])).1.cfl.words = s.cfl.words :=
    fun l s => foldl_fst_words _ wakeTable_words l _
  unfold wakeOnce
  extract_lets t
  have h : t.cfl.words = s.cfl.words := by
    simp only [t]
    split <;> simp [hp]
  split <;> simp [h, ht]

@[simp] theorem wakeStrands_words (s : State) (hw : flashWf s.cfl.words = true) : flashWf (wakeStrands s).cfl.words = true := by
  unfold wakeStrands
  simp (maxDischargeDepth := 8) [*]

@[simp] theorem startTables_words (s : State) (use : RimUse) (types : List Nat) (last : Option Die) (hw : flashWf s.cfl.words = true) :
    flashWf (startTables s use types last).cfl.words = true := by
  unfold startTables
  (repeat' split) <;> simp (maxDischargeDepth := 8) [*]

@[simp] theorem saveAdvance_words (s : State) (hw : flashWf s.cfl.words = true) : flashWf (saveAdvance s).cfl.words = true := by
  unfold saveAdvance
  (repeat' split) <;> simp (maxDischargeDepth := 8) [*]

@[simp] theorem stopPlaits_words (s : State) (hw : flashWf s.cfl.words = true) : flashWf (stopPlaits s).cfl.words = true := by
  unfold stopPlaits
  (repeat' split) <;> simp (maxDischargeDepth := 8) [*]

@[simp] theorem addLayer_words (s : State) (v : Save) : (addLayer s v).cfl.words = s.cfl.words := by
  unfold addLayer
  simp

@[simp] theorem learnEnergy_words (s : State) (v : Save) (n : Nat) : (learnEnergy s v n).cfl.words = s.cfl.words := by
  unfold learnEnergy
  simp

@[simp] theorem pruneLayers_words (s : State) : (pruneLayers s).cfl.words = s.cfl.words := by
  unfold pruneLayers
  simp

@[simp] theorem buryGroup_words (s : State) (g : Group) : (buryGroup s g).cfl.words = s.cfl.words := by
  unfold buryGroup
  simp

theorem reclaim_words (s : State) (fold : Bool) : (reclaim s fold).cfl.words = s.cfl.words := by
  unfold reclaim
  rw [foldl_words, pruneLayers_words]
  intro s g
  dsimp only
  (repeat' split) <;> simp

@[simp] theorem proveErases_words (s : State) (r : Rim) : (proveErases s r).cfl.words = s.cfl.words := by
  unfold proveErases
  simp [foldl_words]

@[simp] theorem commitRecord_words (s : State) (r : Rim) : (commitRecord s r).cfl.words = s.cfl.words := by
  have h : ∀ (l : List (Die × Nat)) (s : State), (l.foldl (fun s x =>
      let g := groupOf s x.1 x.2
      setGroup s { g with role := .free, erases := g.erases + 1, wp := 0 }) s).cfl.words = s.cfl.words :=
    fun l s => foldl_words _ (fun s x => by simp) l s
  unfold commitRecord
  simp [reclaim_words, h]

@[simp] theorem commitSave_words (s : State) (r : Rim) (hw : flashWf s.cfl.words = true) : flashWf (commitSave s r).cfl.words = true := by
  unfold commitSave
  ((repeat' split) <;> simp (maxDischargeDepth := 8) [*])

@[simp] theorem saveFails_words (s : State) (c : FaultCause := .noRimCommit) (hw : flashWf s.cfl.words = true) :
    flashWf (saveFails s c).cfl.words = true := by
  unfold saveFails
  simp (maxDischargeDepth := 8) [*]

@[simp] theorem restoreFails_words (s : State) (hw : flashWf s.cfl.words = true) : flashWf (restoreFails s).cfl.words = true := by
  unfold restoreFails
  simp (maxDischargeDepth := 8) [*]

@[simp] theorem discardImage_words (s : State) : (discardImage s).cfl.words = s.cfl.words := by
  unfold discardImage
  simp

@[simp] theorem commitDiscard_words (s : State) (r : Rim) (session : Option Sess) :
    (commitDiscard s r session).cfl.words = s.cfl.words := by
  unfold commitDiscard
  simp

@[simp] theorem commitFormat_words (s : State) (r : Rim) : (commitFormat s r).cfl.words = s.cfl.words := by
  unfold commitFormat
  simp

@[simp] theorem commitFold_words (s : State) (r : Rim) : (commitFold s r).cfl.words = s.cfl.words := by
  unfold commitFold
  simp
  (repeat' split) <;> simp [foldl_words]

@[simp] theorem commitRestored_words (s : State) (r : Rim) : (commitRestored s r).cfl.words = s.cfl.words := by
  unfold commitRestored
  simp
  (repeat' split) <;> simp [foldl_words]

@[simp] theorem commitZero_words (s : State) (r : Rim) (hw : flashWf s.cfl.words = true) : flashWf (commitZero s r).cfl.words = true := by
  unfold commitZero
  simp (maxDischargeDepth := 8) [*]

@[simp] theorem startProof_words (s : State) (hw : flashWf s.cfl.words = true) : flashWf (startProof s).cfl.words = true := by
  unfold startProof
  simp (maxDischargeDepth := 8) [*]

@[simp] theorem endPark_words (s : State) (hw : flashWf s.cfl.words = true) : flashWf (endPark s).cfl.words = true := by
  unfold endPark
  simp (maxDischargeDepth := 8) [*]

@[simp] theorem rimCommits_words (s : State) (j : RimJob) (hw : flashWf s.cfl.words = true) :
    flashWf (rimCommits s j).cfl.words = true := by
  unfold rimCommits
  ((repeat' split) <;> simp (maxDischargeDepth := 8) [*])

@[simp] theorem rimImpossible_words (s : State) (use : RimUse) (hw : flashWf s.cfl.words = true) :
    flashWf (rimImpossible s use).cfl.words = true := by
  unfold rimImpossible
  (repeat' split) <;> simp (maxDischargeDepth := 8) [*]

@[simp] theorem tablesReady_words (s : State) : (tablesReady s).cfl.words = s.cfl.words := by
  unfold tablesReady
  (repeat' split) <;> simp

@[simp] theorem setRing_words (s : State) (copyB : Bool) (r : Ring) : (setRing s copyB r).cfl.words = s.cfl.words := by
  unfold setRing
  simp

@[simp] theorem placeRing_words (s : State) (copyB : Bool) (d : Die) : (placeRing s copyB d).cfl.words = s.cfl.words := by
  unfold placeRing
  simp

theorem moveRing_words {s t : State} {copyB : Bool} (h : moveRing s copyB = some t) : t.cfl.words = s.cfl.words := by
  unfold moveRing at h
  obtain ⟨d, -, rfl⟩ := Option.map_eq_some_iff.1 h
  simp

theorem moveBoth_words {s t : State} (h : moveBoth s = some t) : t.cfl.words = s.cfl.words := by
  unfold moveBoth at h
  obtain ⟨d, -, rfl⟩ := Option.map_eq_some_iff.1 h
  simp

@[simp] theorem againCopy_words (s : State) (copyB : Bool) (attempts : Nat) : (againCopy s copyB attempts).cfl.words = s.cfl.words := by
  unfold againCopy
  (repeat' split) <;> simp

@[simp] theorem relocateCopy_words (s : State) (copyB : Bool) (hw : flashWf s.cfl.words = true) :
    flashWf (relocateCopy s copyB).cfl.words = true := by
  unfold relocateCopy
  split
  · exact hw
  · split
    · next t h => simpa [moveRing_words h] using hw
    · exact rimImpossible_words _ _ hw

@[simp] theorem relocateBoth_words (s : State) (hw : flashWf s.cfl.words = true) : flashWf (relocateBoth s).cfl.words = true := by
  unfold relocateBoth
  split
  · exact hw
  · split
    · next t h => simpa [moveBoth_words h] using hw
    · exact rimImpossible_words _ _ hw

@[simp] theorem copyFails_words (s : State) (j : RimJob) (copyB : Bool) (hw : flashWf s.cfl.words = true) :
    flashWf (copyFails s j copyB).cfl.words = true := by
  unfold copyFails
  split <;> simp (maxDischargeDepth := 8) [hw]

@[simp] theorem copiesFail_words (s : State) (j : RimJob) (hw : flashWf s.cfl.words = true) :
    flashWf (copiesFail s j).cfl.words = true := by
  have h := copyFails_words s j false hw
  unfold copiesFail
  dsimp only
  split
  · exact relocateBoth_words _ hw
  · split
    · exact copyFails_words _ _ _ h
    · exact h

@[simp] theorem queueCopy_words (s : State) (copyB : Bool) (hw : flashWf s.cfl.words = true) :
    flashWf (queueCopy s copyB).cfl.words = true := by
  unfold queueCopy
  (repeat' split) <;> simp (maxDischargeDepth := 8) [*]

@[simp] theorem queueRim_words (s : State) (hw : flashWf s.cfl.words = true) : flashWf (queueRim s).cfl.words = true := by
  unfold queueRim
  simp (maxDischargeDepth := 8) [*]

@[simp] theorem useRingPage_words (s : State) (copyB : Bool) (seq : Nat) (p : Page) :
    (useRingPage s copyB seq p).cfl.words = s.cfl.words := by
  unfold useRingPage
  simp

@[simp] theorem rimProgramDone_words (s : State) (copyB pass : Bool) (hw : flashWf s.cfl.words = true) :
    flashWf (rimProgramDone s copyB pass).cfl.words = true := by
  unfold rimProgramDone
  dsimp only
  (repeat' split) <;> simp_all (maxDischargeDepth := 12) [foldl_words, foldl_wf]

@[simp] theorem rimDwellEnd_words (s : State) : (rimDwellEnd s).cfl.words = s.cfl.words := by
  unfold rimDwellEnd
  ((repeat' split) <;> simp)

@[simp] theorem rimMarginDone_words (s : State) (a b : MarginRead) (hw : flashWf s.cfl.words = true) :
    flashWf (rimMarginDone s a b).cfl.words = true := by
  unfold rimMarginDone
  (repeat' split) <;> simp (maxDischargeDepth := 8) [*]

@[simp] theorem onForward_words (s : State) (f : State → State) (hf : ∀ s, flashWf s.cfl.words = true → flashWf (f s).cfl.words = true) (hw : flashWf s.cfl.words = true) :
    flashWf (onForward s f).cfl.words = true := by
  unfold onForward
  (repeat' split) <;> first | exact hw | exact hf _ hw

@[simp] theorem openRow_words (s : State) (k : BankKey) (row : BitVec 18) : (openRow s k row).cfl.words = s.cfl.words := by
  unfold openRow
  simp

@[simp] theorem closeRows_words (s : State) (p : BankKey → Bool) : (closeRows s p).cfl.words = s.cfl.words := by
  unfold closeRows
  simp

@[simp] theorem snoopGranule_words (s : State) (g : Nat) : (snoopGranule s g).cfl.words = s.cfl.words := by
  unfold snoopGranule
  simp

@[simp] theorem forwardWrite_words (s : State) (k : BankKey) (data : Nat) : (forwardWrite s k data).cfl.words = s.cfl.words := by
  unfold forwardWrite
  simp
  (repeat' split) <;> simp [foldl_words]

@[simp] theorem hostWrite_words (s : State) (sub : Sub) (rank : Rank) (bank : BankAddr) (data : Nat) (close : Bool) :
    (hostWrite s sub rank bank data close).cfl.words = s.cfl.words := by
  unfold hostWrite onForward
  (repeat' split) <;> simp

@[simp] theorem enterSelfRef_words (s : State) (sub : Sub) (rank : Rank) : (enterSelfRef s sub rank).cfl.words = s.cfl.words := by
  unfold enterSelfRef
  simp

@[simp] theorem capture_words (s : State) (e : CapEntry) : (capture s e).cfl.words = s.cfl.words := by
  unfold capture
  simp

@[simp] theorem captureWrite_words (s : State) (sub : Sub) (ranks : List Rank) (key : MrKey) (value : Byte) :
    (captureWrite s sub ranks key value).cfl.words = s.cfl.words := by
  unfold captureWrite
  refine foldl_words _ ?_ _ _
  intro s r
  dsimp only
  split <;> simp

@[simp] theorem damageWord_words (s : State) (w : Nat) : (damageWord s w).cfl.words = s.cfl.words := by
  unfold damageWord
  simp

@[simp] theorem planOps_words (s : State) (use : CflUse) : (planOps s use).1.cfl.words = s.cfl.words := by
  unfold planOps
  ((repeat' split) <;> simp)

@[simp] theorem pushJob_words (s : State) (use : CflUse) (session : Option Sess) : (pushJob s use session).cfl.words = s.cfl.words := by
  unfold pushJob
  simp

@[simp] theorem activateReq_words (s : State) (k : Sess) : (activateReq s k).cfl.words = s.cfl.words := by
  unfold activateReq
  simp

@[simp] theorem finishActivation_words (s : State) (session : Option Sess) (recovery : Bool) :
    (finishActivation s session recovery).cfl.words = s.cfl.words := by
  unfold finishActivation
  simp

@[simp] theorem finishJob_words (s : State) (j : CflJob) : (finishJob s j).cfl.words = s.cfl.words := by
  unfold finishJob
  simp
  (repeat' split) <;> simp [foldl_words]

@[simp] theorem failJob_words (s : State) (j : CflJob) (st : CflStatus) (pulses : Nat) :
    (failJob s j st pulses).cfl.words = s.cfl.words := by
  unfold failJob
  simp
  (repeat' split) <;> simp [foldl_words]

@[simp] theorem refuseFull_words (s : State) (j : CflJob) : (refuseFull s j).cfl.words = s.cfl.words := by
  unfold refuseFull
  simp

theorem pumpJobs_words (n : Nat) (s : State) : (pumpJobs n s).cfl.words = s.cfl.words := by
  induction n generalizing s with
  | zero => rfl
  | succ n ih =>
    unfold pumpJobs
    split
    · rfl
    · split
      · split
        · rw [ih, finishJob_words]
        · rfl
      · split
        · rw [ih, refuseFull_words]
        · dsimp only
          split
          · rw [ih, finishJob_words]
            exact planOps_words s _
          · exact planOps_words s _

@[simp] theorem pump_words (s : State) : (pump s).cfl.words = s.cfl.words := by
  exact pumpJobs_words _ _

@[simp] theorem startJob_words (s : State) (use : CflUse) (session : Option Sess) : (startJob s use session).cfl.words = s.cfl.words := by
  unfold startJob
  simp

@[simp] theorem deliver_words (s : State) (kind : FetchKind) (addr : Nat) : (deliver s kind addr).cfl.words = s.cfl.words := by
  unfold deliver
  simp
  (repeat' split) <;> simp [foldl_words]

@[simp] theorem releaseReads_words (s : State) : (releaseReads s).cfl.words = s.cfl.words := by
  unfold releaseReads
  simp [foldl_words]

@[simp] theorem replaceHead_words (s : State) (j : CflJob) : (replaceHead s j).cfl.words = s.cfl.words := by
  unfold replaceHead
  simp

@[simp] theorem stageHeader_words (s : State) (j : CflJob) : (stageHeader s j).cfl.words = s.cfl.words := by
  unfold stageHeader
  split <;> simp

@[simp] theorem endOp_words (s : State) (st : CflStatus) (pulses : Nat) : (endOp s st pulses).cfl.words = s.cfl.words := by
  unfold endOp
  simp
  (repeat' split) <;> simp [foldl_words]

@[simp] theorem notePulses_words (s : State) (isProgram : Bool) (addr pulses : Nat) :
    (notePulses s isProgram addr pulses).cfl.words = s.cfl.words := by
  unfold notePulses
  simp

@[simp] theorem programEnds_words (pulses : Nat) (pass : Bool) (s : State) (hw : flashWf s.cfl.words = true) :
    flashWf (programEnds pulses pass s).cfl.words = true := by
  unfold programEnds
  (repeat' split) <;> simp (maxDischargeDepth := 8) [hw, flashPut_wf]

@[simp] theorem eraseEnds_words (pulses : Nat) (pass : Bool) (s : State) (hw : flashWf s.cfl.words = true) :
    flashWf (eraseEnds pulses pass s).cfl.words = true := by
  unfold eraseEnds
  (repeat' split) <;> simp (maxDischargeDepth := 8) [*]

@[simp] theorem operationExpires_words (s : State) (hw : flashWf s.cfl.words = true) : flashWf (operationExpires s).cfl.words = true := by
  unfold operationExpires
  (repeat' split) <;> simp (maxDischargeDepth := 8) [*]

@[simp] theorem refreshSector_words (s : State) (session : Option Sess) (n : Nat) :
    (refreshSector s session n).1.cfl.words = s.cfl.words := by
  unfold refreshSector
  (repeat' split) <;> simp

@[simp] theorem scrubSector_words (s : State) (j : CflJob) (n : Nat) (rest : List CflOp) (weak : List Nat) :
    (scrubSector s j n rest weak).cfl.words = s.cfl.words := by
  unfold scrubSector
  simp

@[simp] theorem beginPlait_words (s : State) (v : Save) (hw : flashWf s.cfl.words = true) : flashWf (beginPlait s v).cfl.words = true := by
  unfold beginPlait
  simp (maxDischargeDepth := 8) [*]

@[simp] theorem stripeShort_words (s : State) (hw : flashWf s.cfl.words = true) : flashWf (stripeShort s).cfl.words = true := by
  unfold stripeShort
  (repeat' split) <;> simp (maxDischargeDepth := 8) [*]

@[simp] theorem stepSave_words (s : State) (d : Die) (old new : StrandSt) (page : Option Page) :
    (stepSave s d old new page).cfl.words = s.cfl.words := by
  unfold stepSave
  (repeat' split) <;> simp

@[simp] theorem stepTable_words (s : State) (d : Die) (old new : StrandSt) (page : Option Page) :
    (stepTable s d old new page).cfl.words = s.cfl.words := by
  unfold stepTable
  (repeat' split) <;> simp

@[simp] theorem tableFailed_words (s : State) (d : Die) (hw : flashWf s.cfl.words = true) :
    flashWf (tableFailed s d).cfl.words = true := by
  unfold tableFailed
  (repeat' split) <;> simp (maxDischargeDepth := 8) [*]

@[simp] theorem diesChanged_words (s : State) : (diesChanged s).cfl.words = s.cfl.words := by
  unfold diesChanged
  simp

@[simp] theorem strandFailed_words (s : State) (die : Die) (hw : flashWf s.cfl.words = true) :
    flashWf (strandFailed s die).cfl.words = true := by
  unfold strandFailed
  dsimp only
  (repeat' split) <;> simp_all (maxDischargeDepth := 12) [foldl_words, foldl_wf]

@[simp] theorem startWork_words (s : State) (d : Die) (hw : flashWf s.cfl.words = true) : flashWf (startWork s d).cfl.words = true := by
  unfold startWork
  (repeat' split) <;> simp (maxDischargeDepth := 8) [*]

@[simp] theorem queueErases_words (s : State) : (queueErases s).cfl.words = s.cfl.words := by
  unfold queueErases
  split
  · rfl
  · refine foldl_words _ (fun s c => ?_) _ _
    (repeat' split) <;> simp

@[simp] theorem closePlaits_words (s : State) : (closePlaits s).cfl.words = s.cfl.words := by
  unfold closePlaits
  (repeat' split) <;> simp

@[simp] theorem setFold_words (s : State) (f : FoldDie) : (setFold s f).cfl.words = s.cfl.words := by
  unfold setFold
  simp

@[simp] theorem dropFold_words (s : State) (d : Die) : (dropFold s d).cfl.words = s.cfl.words := by
  unfold dropFold
  simp

@[simp] theorem abandonDie_words (s : State) (d : Die) (hw : flashWf s.cfl.words = true) : flashWf (abandonDie s d).cfl.words = true := by
  unfold abandonDie
  dsimp only
  (repeat' split) <;> simp_all (maxDischargeDepth := 12) [foldl_words, foldl_wf]

@[simp] theorem loseRing1_words (s : State) (die : Die) (copyB : Bool) (hw : flashWf s.cfl.words = true) :
    flashWf (loseRing1 s die copyB).cfl.words = true := by
  unfold loseRing1
  (repeat' split) <;> try simp (maxDischargeDepth := 8) [hw]
  all_goals (rename_i h; simpa [moveRing_words h] using hw)

@[simp] theorem loseRingDie_words (s : State) (die : Die) (hw : flashWf s.cfl.words = true) :
    flashWf (loseRingDie s die).cfl.words = true := by
  exact loseRing1_words _ _ _ (loseRing1_words _ _ _ hw)

@[simp] theorem moveRings_words (s : State) (d : Dom) (hw : flashWf s.cfl.words = true) : flashWf (moveRings s d).cfl.words = true := by
  unfold moveRings
  simp (maxDischargeDepth := 8) [*]

@[simp] theorem checkReadPath_words (s : State) (hw : flashWf s.cfl.words = true) : flashWf (checkReadPath s).cfl.words = true := by
  unfold checkReadPath
  (repeat' split) <;> simp (maxDischargeDepth := 8) [*]

@[simp] theorem channelLost_words (s : State) (d : Dom) (hw : flashWf s.cfl.words = true) :
    flashWf (channelLost s d).cfl.words = true := by
  unfold channelLost
  (repeat' split) <;> simp_all (maxDischargeDepth := 12) [foldl_words, foldl_wf]

@[simp] theorem takePhase_words (s : State) (p : TakePhase) (f : State → State) (hf : ∀ s, flashWf s.cfl.words = true → flashWf (f s).cfl.words = true) (hw : flashWf s.cfl.words = true) :
    flashWf (takePhase s p f).cfl.words = true := by
  unfold takePhase
  (repeat' split) <;> first | exact hw | exact hf _ hw

@[simp] theorem setPhase_words (s : State) (p : TakePhase) : (setPhase s p).cfl.words = s.cfl.words := by
  unfold setPhase
  simp

@[simp] theorem skipSub_words (s : State) (sub : Sub) : (skipSub s sub).cfl.words = s.cfl.words := by
  unfold skipSub
  ((repeat' split) <;> simp)

@[simp] theorem retrainEvents_words (s : State) (aOk bOk : Bool) : (retrainEvents s aOk bOk).cfl.words = s.cfl.words := by
  unfold retrainEvents
  simp

@[simp] theorem retrained_words (s : State) (aOk bOk : Bool) (hw : flashWf s.cfl.words = true) :
    flashWf (retrained s aOk bOk).cfl.words = true := by
  unfold retrained
  dsimp only
  (repeat' split) <;> simp_all (maxDischargeDepth := 12) [foldl_words, foldl_wf]

@[simp] theorem takeDescriptors_words (s : State) : (takeDescriptors s).cfl.words = s.cfl.words := by
  unfold takeDescriptors
  simp

@[simp] theorem startFold_words (s : State) (d : Die) : (startFold s d).cfl.words = s.cfl.words := by
  have h := openGroup_words s d .baseOpen
  unfold startFold
  generalize openGroup s d .baseOpen = r at h ⊢
  obtain ⟨t, o⟩ := r
  cases o with
  | none => simpa using h
  | some g =>
    dsimp only
    split <;> simpa using h

@[simp] theorem closeFolds_words (s : State) (hw : flashWf s.cfl.words = true) : flashWf (closeFolds s).cfl.words = true := by
  unfold closeFolds
  simp (maxDischargeDepth := 8) [*]

@[simp] theorem nextFolds_words (s : State) (hw : flashWf s.cfl.words = true) : flashWf (nextFolds s).cfl.words = true := by
  unfold nextFolds
  split
  · exact hw
  · split
    · simpa using hw
    · split
      · simp (maxDischargeDepth := 8) [hw]
      · have h : ∀ (f : State → Nat → State), (∀ s c, flashWf s.cfl.words = true → flashWf (f s c).cfl.words = true) →
            flashWf (closeFolds ((List.range 8).foldl f s)).cfl.words = true :=
          fun f hf => by simp (maxDischargeDepth := 8) [foldl_wf f hf _ _ hw]
        refine h _ (fun s c h => ?_)
        (repeat' split) <;> simp (maxDischargeDepth := 8) [h]

@[simp] theorem startSettle_words (s : State) (hw : flashWf s.cfl.words = true) : flashWf (startSettle s).cfl.words = true := by
  unfold startSettle
  simp (maxDischargeDepth := 8) [*]

@[simp] theorem foldMarginFailed_words (s : State) (f : FoldDie) (plane : Nat) : (foldMarginFailed s f plane).cfl.words = s.cfl.words := by
  unfold foldMarginFailed
  simp

@[simp] theorem groupErased_words (s : State) (die : Die) (block : Nat) : (groupErased s die block).cfl.words = s.cfl.words := by
  unfold groupErased
  simp

@[simp] theorem ringWithout_words (s : State) (die : Die) (block : Nat) : (ringWithout s die block).cfl.words = s.cfl.words := by
  unfold ringWithout
  simp

@[simp] theorem noteWear_words (s : State) (die : Die) (depth bits : Nat) : (noteWear s die depth bits).cfl.words = s.cfl.words := by
  unfold noteWear
  simp

@[simp] theorem setRun_words (s : State) (r : RestoreRun) : (setRun s r).cfl.words = s.cfl.words := by
  unfold setRun
  simp

@[simp] theorem withRun_words (s : State) (f : RestoreRun → State) (hf : ∀ r, flashWf (f r).cfl.words = true) (hw : flashWf s.cfl.words = true) :
    flashWf (withRun s f).cfl.words = true := by
  unfold withRun
  (repeat' split) <;> first | exact hw | exact hf _

@[simp] theorem loadLost_words (s : State) (run : RestoreRun) : (loadLost s run).cfl.words = s.cfl.words := by
  unfold loadLost
  simp

@[simp] theorem handPhase_words (s : State) (p : TakePhase) (f : State → State) (hf : ∀ s, flashWf s.cfl.words = true → flashWf (f s).cfl.words = true) (hw : flashWf s.cfl.words = true) :
    flashWf (handPhase s p f).cfl.words = true := by
  unfold handPhase
  (repeat' split) <;> first | exact hw | exact hf _ hw

@[simp] theorem finishRestore_words (s : State) (r : RestoreRun) (hw : flashWf s.cfl.words = true) :
    flashWf (finishRestore s r).cfl.words = true := by
  unfold finishRestore
  simp (maxDischargeDepth := 8) [*]

end Sys2Proof.Machine
end

