-- ==== Sys2Proof/Laws/FramesBase.lean ====
section
/-! SUPPORT. What the operations over the recorder, the bus and the sessions leave as it was: one lemma for each. -/

set_option linter.unusedSimpArgs false
set_option linter.unreachableTactic false
set_option linter.unusedTactic false

namespace Sys2Proof.Machine

/-! ## Fields through a choice and a fold -/

@[simp] theorem ite_aon {c : Prop} [Decidable c] (a b : State) : (if c then a else b).aon = if c then a.aon else b.aon := by
  split <;> rfl
@[simp] theorem ite_fst_aon {α : Type} {c : Prop} [Decidable c] (a b : State × α) :
    (if c then a else b).1.aon = if c then a.1.aon else b.1.aon := by split <;> rfl
@[simp] theorem foldl_aon {α : Type} (f : State → α → State) (h : ∀ s x, (f s x).aon = s.aon) (l : List α) (s : State) :
    (l.foldl f s).aon = s.aon := by
  induction l generalizing s with
  | nil => rfl
  | cons x t ih => rw [List.foldl_cons, ih, h]

@[simp] theorem ite_log {c : Prop} [Decidable c] (a b : State) : (if c then a else b).log = if c then a.log else b.log := by
  split <;> rfl
@[simp] theorem ite_fst_log {α : Type} {c : Prop} [Decidable c] (a b : State × α) :
    (if c then a else b).1.log = if c then a.1.log else b.1.log := by split <;> rfl
@[simp] theorem foldl_log {α : Type} (f : State → α → State) (h : ∀ s x, (f s x).log = s.log) (l : List α) (s : State) :
    (l.foldl f s).log = s.log := by
  induction l generalizing s with
  | nil => rfl
  | cons x t ih => rw [List.foldl_cons, ih, h]

@[simp] theorem ite_pins {c : Prop} [Decidable c] (a b : State) : (if c then a else b).pins = if c then a.pins else b.pins := by
  split <;> rfl
@[simp] theorem ite_fst_pins {α : Type} {c : Prop} [Decidable c] (a b : State × α) :
    (if c then a else b).1.pins = if c then a.1.pins else b.1.pins := by split <;> rfl
@[simp] theorem foldl_pins {α : Type} (f : State → α → State) (h : ∀ s x, (f s x).pins = s.pins) (l : List α) (s : State) :
    (l.foldl f s).pins = s.pins := by
  induction l generalizing s with
  | nil => rfl
  | cons x t ih => rw [List.foldl_cons, ih, h]

@[simp] theorem ite_doms {c : Prop} [Decidable c] (a b : State) : (if c then a else b).doms = if c then a.doms else b.doms := by
  split <;> rfl
@[simp] theorem ite_fst_doms {α : Type} {c : Prop} [Decidable c] (a b : State × α) :
    (if c then a else b).1.doms = if c then a.1.doms else b.1.doms := by split <;> rfl
@[simp] theorem foldl_doms {α : Type} (f : State → α → State) (h : ∀ s x, (f s x).doms = s.doms) (l : List α) (s : State) :
    (l.foldl f s).doms = s.doms := by
  induction l generalizing s with
  | nil => rfl
  | cons x t ih => rw [List.foldl_cons, ih, h]

@[simp] theorem ite_hp {c : Prop} [Decidable c] (a b : State) : (if c then a else b).hp = if c then a.hp else b.hp := by
  split <;> rfl
@[simp] theorem ite_fst_hp {α : Type} {c : Prop} [Decidable c] (a b : State × α) :
    (if c then a else b).1.hp = if c then a.1.hp else b.1.hp := by split <;> rfl
@[simp] theorem foldl_hp {α : Type} (f : State → α → State) (h : ∀ s x, (f s x).hp = s.hp) (l : List α) (s : State) :
    (l.foldl f s).hp = s.hp := by
  induction l generalizing s with
  | nil => rfl
  | cons x t ih => rw [List.foldl_cons, ih, h]

@[simp] theorem ite_map {c : Prop} [Decidable c] (a b : State) : (if c then a else b).map = if c then a.map else b.map := by
  split <;> rfl
@[simp] theorem ite_fst_map {α : Type} {c : Prop} [Decidable c] (a b : State × α) :
    (if c then a else b).1.map = if c then a.1.map else b.1.map := by split <;> rfl
@[simp] theorem foldl_map {α : Type} (f : State → α → State) (h : ∀ s x, (f s x).map = s.map) (l : List α) (s : State) :
    (l.foldl f s).map = s.map := by
  induction l generalizing s with
  | nil => rfl
  | cons x t ih => rw [List.foldl_cons, ih, h]

@[simp] theorem ite_nand {c : Prop} [Decidable c] (a b : State) : (if c then a else b).nand = if c then a.nand else b.nand := by
  split <;> rfl
@[simp] theorem ite_fst_nand {α : Type} {c : Prop} [Decidable c] (a b : State × α) :
    (if c then a else b).1.nand = if c then a.1.nand else b.1.nand := by split <;> rfl
@[simp] theorem foldl_nand {α : Type} (f : State → α → State) (h : ∀ s x, (f s x).nand = s.nand) (l : List α) (s : State) :
    (l.foldl f s).nand = s.nand := by
  induction l generalizing s with
  | nil => rfl
  | cons x t ih => rw [List.foldl_cons, ih, h]

@[simp] theorem ite_rst {c : Prop} [Decidable c] (a b : State) : (if c then a else b).rst = if c then a.rst else b.rst := by
  split <;> rfl
@[simp] theorem ite_fst_rst {α : Type} {c : Prop} [Decidable c] (a b : State × α) :
    (if c then a else b).1.rst = if c then a.1.rst else b.1.rst := by split <;> rfl
@[simp] theorem foldl_rst {α : Type} (f : State → α → State) (h : ∀ s x, (f s x).rst = s.rst) (l : List α) (s : State) :
    (l.foldl f s).rst = s.rst := by
  induction l generalizing s with
  | nil => rfl
  | cons x t ih => rw [List.foldl_cons, ih, h]

@[simp] theorem ite_ten {c : Prop} [Decidable c] (a b : State) : (if c then a else b).ten = if c then a.ten else b.ten := by
  split <;> rfl
@[simp] theorem ite_fst_ten {α : Type} {c : Prop} [Decidable c] (a b : State × α) :
    (if c then a else b).1.ten = if c then a.1.ten else b.1.ten := by split <;> rfl
@[simp] theorem foldl_ten {α : Type} (f : State → α → State) (h : ∀ s x, (f s x).ten = s.ten) (l : List α) (s : State) :
    (l.foldl f s).ten = s.ten := by
  induction l generalizing s with
  | nil => rfl
  | cons x t ih => rw [List.foldl_cons, ih, h]

@[simp] theorem ite_bat {c : Prop} [Decidable c] (a b : State) : (if c then a else b).bat = if c then a.bat else b.bat := by
  split <;> rfl
@[simp] theorem ite_fst_bat {α : Type} {c : Prop} [Decidable c] (a b : State × α) :
    (if c then a else b).1.bat = if c then a.1.bat else b.1.bat := by split <;> rfl
@[simp] theorem foldl_bat {α : Type} (f : State → α → State) (h : ∀ s x, (f s x).bat = s.bat) (l : List α) (s : State) :
    (l.foldl f s).bat = s.bat := by
  induction l generalizing s with
  | nil => rfl
  | cons x t ih => rw [List.foldl_cons, ih, h]

@[simp] theorem ite_shb {c : Prop} [Decidable c] (a b : State) : (if c then a else b).shb = if c then a.shb else b.shb := by
  split <;> rfl
@[simp] theorem ite_fst_shb {α : Type} {c : Prop} [Decidable c] (a b : State × α) :
    (if c then a else b).1.shb = if c then a.1.shb else b.1.shb := by split <;> rfl
@[simp] theorem foldl_shb {α : Type} (f : State → α → State) (h : ∀ s x, (f s x).shb = s.shb) (l : List α) (s : State) :
    (l.foldl f s).shb = s.shb := by
  induction l generalizing s with
  | nil => rfl
  | cons x t ih => rw [List.foldl_cons, ih, h]

@[simp] theorem ite_warp {c : Prop} [Decidable c] (a b : State) : (if c then a else b).warp = if c then a.warp else b.warp := by
  split <;> rfl
@[simp] theorem ite_fst_warp {α : Type} {c : Prop} [Decidable c] (a b : State × α) :
    (if c then a else b).1.warp = if c then a.1.warp else b.1.warp := by split <;> rfl
@[simp] theorem foldl_warp {α : Type} (f : State → α → State) (h : ∀ s x, (f s x).warp = s.warp) (l : List α) (s : State) :
    (l.foldl f s).warp = s.warp := by
  induction l generalizing s with
  | nil => rfl
  | cons x t ih => rw [List.foldl_cons, ih, h]

@[simp] theorem ite_mg {c : Prop} [Decidable c] (a b : State) : (if c then a else b).mg = if c then a.mg else b.mg := by
  split <;> rfl
@[simp] theorem ite_fst_mg {α : Type} {c : Prop} [Decidable c] (a b : State × α) :
    (if c then a else b).1.mg = if c then a.1.mg else b.1.mg := by split <;> rfl
@[simp] theorem foldl_mg {α : Type} (f : State → α → State) (h : ∀ s x, (f s x).mg = s.mg) (l : List α) (s : State) :
    (l.foldl f s).mg = s.mg := by
  induction l generalizing s with
  | nil => rfl
  | cons x t ih => rw [List.foldl_cons, ih, h]

@[simp] theorem ite_cfl {c : Prop} [Decidable c] (a b : State) : (if c then a else b).cfl = if c then a.cfl else b.cfl := by
  split <;> rfl
@[simp] theorem ite_fst_cfl {α : Type} {c : Prop} [Decidable c] (a b : State × α) :
    (if c then a else b).1.cfl = if c then a.1.cfl else b.1.cfl := by split <;> rfl
@[simp] theorem foldl_cfl {α : Type} (f : State → α → State) (h : ∀ s x, (f s x).cfl = s.cfl) (l : List α) (s : State) :
    (l.foldl f s).cfl = s.cfl := by
  induction l generalizing s with
  | nil => rfl
  | cons x t ih => rw [List.foldl_cons, ih, h]

@[simp] theorem ite_store {c : Prop} [Decidable c] (a b : State) : (if c then a else b).store = if c then a.store else b.store := by
  split <;> rfl
@[simp] theorem ite_fst_store {α : Type} {c : Prop} [Decidable c] (a b : State × α) :
    (if c then a else b).1.store = if c then a.1.store else b.1.store := by split <;> rfl
@[simp] theorem foldl_store {α : Type} (f : State → α → State) (h : ∀ s x, (f s x).store = s.store) (l : List α) (s : State) :
    (l.foldl f s).store = s.store := by
  induction l generalizing s with
  | nil => rfl
  | cons x t ih => rw [List.foldl_cons, ih, h]

@[simp] theorem ite_i3c {c : Prop} [Decidable c] (a b : State) : (if c then a else b).i3c = if c then a.i3c else b.i3c := by
  split <;> rfl
@[simp] theorem ite_fst_i3c {α : Type} {c : Prop} [Decidable c] (a b : State × α) :
    (if c then a else b).1.i3c = if c then a.1.i3c else b.1.i3c := by split <;> rfl
@[simp] theorem foldl_i3c {α : Type} (f : State → α → State) (h : ∀ s x, (f s x).i3c = s.i3c) (l : List α) (s : State) :
    (l.foldl f s).i3c = s.i3c := by
  induction l generalizing s with
  | nil => rfl
  | cons x t ih => rw [List.foldl_cons, ih, h]

@[simp] theorem ite_free {c : Prop} [Decidable c] (a b : State) : (if c then a else b).free = if c then a.free else b.free := by
  split <;> rfl
@[simp] theorem ite_fst_free {α : Type} {c : Prop} [Decidable c] (a b : State × α) :
    (if c then a else b).1.free = if c then a.1.free else b.1.free := by split <;> rfl
@[simp] theorem foldl_free {α : Type} (f : State → α → State) (h : ∀ s x, (f s x).free = s.free) (l : List α) (s : State) :
    (l.foldl f s).free = s.free := by
  induction l generalizing s with
  | nil => rfl
  | cons x t ih => rw [List.foldl_cons, ih, h]

@[simp] theorem ite_pending {c : Prop} [Decidable c] (a b : State) : (if c then a else b).pending = if c then a.pending else b.pending := by
  split <;> rfl
@[simp] theorem ite_fst_pending {α : Type} {c : Prop} [Decidable c] (a b : State × α) :
    (if c then a else b).1.pending = if c then a.1.pending else b.1.pending := by split <;> rfl
@[simp] theorem foldl_pending {α : Type} (f : State → α → State) (h : ∀ s x, (f s x).pending = s.pending) (l : List α) (s : State) :
    (l.foldl f s).pending = s.pending := by
  induction l generalizing s with
  | nil => rfl
  | cons x t ih => rw [List.foldl_cons, ih, h]

@[simp] theorem ite_aon_hold {c : Prop} [Decidable c] (a b : State) : (if c then a else b).aon.hold = if c then a.aon.hold else b.aon.hold := by
  split <;> rfl
@[simp] theorem ite_fst_aon_hold {α : Type} {c : Prop} [Decidable c] (a b : State × α) :
    (if c then a else b).1.aon.hold = if c then a.1.aon.hold else b.1.aon.hold := by split <;> rfl
@[simp] theorem foldl_aon_hold {α : Type} (f : State → α → State) (h : ∀ s x, (f s x).aon.hold = s.aon.hold) (l : List α) (s : State) :
    (l.foldl f s).aon.hold = s.aon.hold := by
  induction l generalizing s with
  | nil => rfl
  | cons x t ih => rw [List.foldl_cons, ih, h]

@[simp] theorem ite_aon_img {c : Prop} [Decidable c] (a b : State) : (if c then a else b).aon.img = if c then a.aon.img else b.aon.img := by
  split <;> rfl
@[simp] theorem ite_fst_aon_img {α : Type} {c : Prop} [Decidable c] (a b : State × α) :
    (if c then a else b).1.aon.img = if c then a.1.aon.img else b.1.aon.img := by split <;> rfl
@[simp] theorem foldl_aon_img {α : Type} (f : State → α → State) (h : ∀ s x, (f s x).aon.img = s.aon.img) (l : List α) (s : State) :
    (l.foldl f s).aon.img = s.aon.img := by
  induction l generalizing s with
  | nil => rfl
  | cons x t ih => rw [List.foldl_cons, ih, h]

@[simp] theorem ite_aon_por {c : Prop} [Decidable c] (a b : State) : (if c then a else b).aon.por = if c then a.aon.por else b.aon.por := by
  split <;> rfl
@[simp] theorem ite_fst_aon_por {α : Type} {c : Prop} [Decidable c] (a b : State × α) :
    (if c then a else b).1.aon.por = if c then a.1.aon.por else b.1.aon.por := by split <;> rfl
@[simp] theorem foldl_aon_por {α : Type} (f : State → α → State) (h : ∀ s x, (f s x).aon.por = s.aon.por) (l : List α) (s : State) :
    (l.foldl f s).aon.por = s.aon.por := by
  induction l generalizing s with
  | nil => rfl
  | cons x t ih => rw [List.foldl_cons, ih, h]

@[simp] theorem ite_aon_opt {c : Prop} [Decidable c] (a b : State) : (if c then a else b).aon.opt = if c then a.aon.opt else b.aon.opt := by
  split <;> rfl
@[simp] theorem ite_fst_aon_opt {α : Type} {c : Prop} [Decidable c] (a b : State × α) :
    (if c then a else b).1.aon.opt = if c then a.1.aon.opt else b.1.aon.opt := by split <;> rfl
@[simp] theorem foldl_aon_opt {α : Type} (f : State → α → State) (h : ∀ s x, (f s x).aon.opt = s.aon.opt) (l : List α) (s : State) :
    (l.foldl f s).aon.opt = s.aon.opt := by
  induction l generalizing s with
  | nil => rfl
  | cons x t ih => rw [List.foldl_cons, ih, h]

@[simp] theorem ite_nand_rims {c : Prop} [Decidable c] (a b : State) : (if c then a else b).nand.rims = if c then a.nand.rims else b.nand.rims := by
  split <;> rfl
@[simp] theorem ite_fst_nand_rims {α : Type} {c : Prop} [Decidable c] (a b : State × α) :
    (if c then a else b).1.nand.rims = if c then a.1.nand.rims else b.1.nand.rims := by split <;> rfl
@[simp] theorem foldl_nand_rims {α : Type} (f : State → α → State) (h : ∀ s x, (f s x).nand.rims = s.nand.rims) (l : List α) (s : State) :
    (l.foldl f s).nand.rims = s.nand.rims := by
  induction l generalizing s with
  | nil => rfl
  | cons x t ih => rw [List.foldl_cons, ih, h]

@[simp] theorem ite_nand_dram {c : Prop} [Decidable c] (a b : State) : (if c then a else b).nand.dram = if c then a.nand.dram else b.nand.dram := by
  split <;> rfl
@[simp] theorem ite_fst_nand_dram {α : Type} {c : Prop} [Decidable c] (a b : State × α) :
    (if c then a else b).1.nand.dram = if c then a.1.nand.dram else b.1.nand.dram := by split <;> rfl
@[simp] theorem foldl_nand_dram {α : Type} (f : State → α → State) (h : ∀ s x, (f s x).nand.dram = s.nand.dram) (l : List α) (s : State) :
    (l.foldl f s).nand.dram = s.nand.dram := by
  induction l generalizing s with
  | nil => rfl
  | cons x t ih => rw [List.foldl_cons, ih, h]

@[simp] theorem ite_map_geom {c : Prop} [Decidable c] (a b : State) : (if c then a else b).map.geom = if c then a.map.geom else b.map.geom := by
  split <;> rfl
@[simp] theorem ite_fst_map_geom {α : Type} {c : Prop} [Decidable c] (a b : State × α) :
    (if c then a else b).1.map.geom = if c then a.1.map.geom else b.1.map.geom := by split <;> rfl
@[simp] theorem foldl_map_geom {α : Type} (f : State → α → State) (h : ∀ s x, (f s x).map.geom = s.map.geom) (l : List α) (s : State) :
    (l.foldl f s).map.geom = s.map.geom := by
  induction l generalizing s with
  | nil => rfl
  | cons x t ih => rw [List.foldl_cons, ih, h]

@[simp] theorem ite_mg_running {c : Prop} [Decidable c] (a b : State) : (if c then a else b).mg.running = if c then a.mg.running else b.mg.running := by
  split <;> rfl
@[simp] theorem ite_fst_mg_running {α : Type} {c : Prop} [Decidable c] (a b : State × α) :
    (if c then a else b).1.mg.running = if c then a.1.mg.running else b.1.mg.running := by split <;> rfl
@[simp] theorem foldl_mg_running {α : Type} (f : State → α → State) (h : ∀ s x, (f s x).mg.running = s.mg.running) (l : List α) (s : State) :
    (l.foldl f s).mg.running = s.mg.running := by
  induction l generalizing s with
  | nil => rfl
  | cons x t ih => rw [List.foldl_cons, ih, h]

@[simp] theorem ite_cfl_words {c : Prop} [Decidable c] (a b : State) : (if c then a else b).cfl.words = if c then a.cfl.words else b.cfl.words := by
  split <;> rfl
@[simp] theorem ite_fst_cfl_words {α : Type} {c : Prop} [Decidable c] (a b : State × α) :
    (if c then a else b).1.cfl.words = if c then a.1.cfl.words else b.1.cfl.words := by split <;> rfl
@[simp] theorem foldl_cfl_words {α : Type} (f : State → α → State) (h : ∀ s x, (f s x).cfl.words = s.cfl.words) (l : List α) (s : State) :
    (l.foldl f s).cfl.words = s.cfl.words := by
  induction l generalizing s with
  | nil => rfl
  | cons x t ih => rw [List.foldl_cons, ih, h]

@[simp] theorem ite_of_aon_hold {c : Prop} [Decidable c] (a b : Aon) : (if c then a else b).hold = if c then a.hold else b.hold := by
  split <;> rfl
@[simp] theorem ite_of_aon_img {c : Prop} [Decidable c] (a b : Aon) : (if c then a else b).img = if c then a.img else b.img := by
  split <;> rfl
@[simp] theorem ite_of_aon_por {c : Prop} [Decidable c] (a b : Aon) : (if c then a else b).por = if c then a.por else b.por := by
  split <;> rfl
@[simp] theorem ite_of_aon_opt {c : Prop} [Decidable c] (a b : Aon) : (if c then a else b).opt = if c then a.opt else b.opt := by
  split <;> rfl
@[simp] theorem ite_of_nand_rims {c : Prop} [Decidable c] (a b : Nand) : (if c then a else b).rims = if c then a.rims else b.rims := by
  split <;> rfl
@[simp] theorem ite_of_nand_dram {c : Prop} [Decidable c] (a b : Nand) : (if c then a else b).dram = if c then a.dram else b.dram := by
  split <;> rfl
@[simp] theorem ite_of_map_geom {c : Prop} [Decidable c] (a b : MapSt) : (if c then a else b).geom = if c then a.geom else b.geom := by
  split <;> rfl
@[simp] theorem ite_of_mg_running {c : Prop} [Decidable c] (a b : Mgmt) : (if c then a else b).running = if c then a.running else b.running := by
  split <;> rfl
@[simp] theorem ite_of_cfl_words {c : Prop} [Decidable c] (a b : Cfl) : (if c then a else b).words = if c then a.words else b.words := by
  split <;> rfl

/-! ## Data.lean -/

@[simp] theorem fresh_frame (s : State) :
    (fresh s).2.aon = s.aon ∧ (fresh s).2.log = s.log ∧ (fresh s).2.pins = s.pins ∧ (fresh s).2.doms = s.doms ∧ (fresh s).2.hp = s.hp ∧
    (fresh s).2.map = s.map ∧ (fresh s).2.nand = s.nand ∧ (fresh s).2.rst = s.rst ∧ (fresh s).2.ten = s.ten ∧ (fresh s).2.bat = s.bat ∧
    (fresh s).2.shb = s.shb ∧ (fresh s).2.warp = s.warp ∧ (fresh s).2.mg = s.mg ∧ (fresh s).2.cfl = s.cfl ∧ (fresh s).2.store = s.store ∧
    (fresh s).2.i3c = s.i3c ∧ (fresh s).2.pending = s.pending := by
  unfold fresh
  and_intros <;> first | with_reducible rfl | (simp; done) | ((repeat' split) <;> first | with_reducible rfl | simp; done)

@[simp] theorem setArea_frame (s : State) (a : Area) (x : AreaSt) :
    (setArea s a x).aon = s.aon ∧ (setArea s a x).log = s.log ∧ (setArea s a x).pins = s.pins ∧ (setArea s a x).doms = s.doms ∧ (setArea
    s a x).hp = s.hp ∧ (setArea s a x).map = s.map ∧ (setArea s a x).nand = s.nand ∧ (setArea s a x).rst = s.rst ∧ (setArea s a x).ten =
    s.ten ∧ (setArea s a x).bat = s.bat ∧ (setArea s a x).shb = s.shb ∧ (setArea s a x).warp = s.warp ∧ (setArea s a x).mg = s.mg ∧
    (setArea s a x).cfl = s.cfl ∧ (setArea s a x).i3c = s.i3c ∧ (setArea s a x).free = s.free ∧ (setArea s a x).pending = s.pending := by
  unfold setArea
  and_intros <;> first | with_reducible rfl | (simp; done) | ((repeat' split) <;> first | with_reducible rfl | simp; done)

@[simp] theorem writeArea_frame (s : State) (a : Area) :
    (writeArea s a).aon = s.aon ∧ (writeArea s a).log = s.log ∧ (writeArea s a).pins = s.pins ∧ (writeArea s a).doms = s.doms ∧
    (writeArea s a).hp = s.hp ∧ (writeArea s a).map = s.map ∧ (writeArea s a).nand = s.nand ∧ (writeArea s a).rst = s.rst ∧ (writeArea s
    a).ten = s.ten ∧ (writeArea s a).bat = s.bat ∧ (writeArea s a).shb = s.shb ∧ (writeArea s a).warp = s.warp ∧ (writeArea s a).mg =
    s.mg ∧ (writeArea s a).cfl = s.cfl ∧ (writeArea s a).i3c = s.i3c ∧ (writeArea s a).free = s.free ∧ (writeArea s a).pending =
    s.pending := by
  unfold writeArea
  and_intros <;> first | with_reducible rfl | (simp; done) | ((repeat' split) <;> first | with_reducible rfl | simp; done)

/-! ## Recorder.lean -/

@[simp] theorem logSev_frame (s : State) (d : Dom) (e : EvCode) (sev : BitVec 3) (args : Vector Word 4) :
    (logSev s d e sev args).aon = s.aon ∧ (logSev s d e sev args).pins = s.pins ∧ (logSev s d e sev args).doms = s.doms ∧ (logSev s d e
    sev args).hp = s.hp ∧ (logSev s d e sev args).map = s.map ∧ (logSev s d e sev args).nand = s.nand ∧ (logSev s d e sev args).rst =
    s.rst ∧ (logSev s d e sev args).ten = s.ten ∧ (logSev s d e sev args).bat = s.bat ∧ (logSev s d e sev args).shb = s.shb ∧ (logSev s d
    e sev args).warp = s.warp ∧ (logSev s d e sev args).mg = s.mg ∧ (logSev s d e sev args).cfl = s.cfl ∧ (logSev s d e sev args).store =
    s.store ∧ (logSev s d e sev args).i3c = s.i3c ∧ (logSev s d e sev args).free = s.free ∧ (logSev s d e sev args).pending = s.pending := by
  unfold logSev
  and_intros <;> first | with_reducible rfl | (simp; done) | ((repeat' split) <;> first | with_reducible rfl | simp; done)

@[simp] theorem logEv_frame (s : State) (d : Dom) (k : EvKind) (a0 : Nat) (a1 : Nat) (a2 : Nat) (a3 : Nat) :
    (logEv s d k a0 a1 a2 a3).aon = s.aon ∧ (logEv s d k a0 a1 a2 a3).pins = s.pins ∧ (logEv s d k a0 a1 a2 a3).doms = s.doms ∧ (logEv s
    d k a0 a1 a2 a3).hp = s.hp ∧ (logEv s d k a0 a1 a2 a3).map = s.map ∧ (logEv s d k a0 a1 a2 a3).nand = s.nand ∧ (logEv s d k a0 a1 a2
    a3).rst = s.rst ∧ (logEv s d k a0 a1 a2 a3).ten = s.ten ∧ (logEv s d k a0 a1 a2 a3).bat = s.bat ∧ (logEv s d k a0 a1 a2 a3).shb =
    s.shb ∧ (logEv s d k a0 a1 a2 a3).warp = s.warp ∧ (logEv s d k a0 a1 a2 a3).mg = s.mg ∧ (logEv s d k a0 a1 a2 a3).cfl = s.cfl ∧
    (logEv s d k a0 a1 a2 a3).store = s.store ∧ (logEv s d k a0 a1 a2 a3).i3c = s.i3c ∧ (logEv s d k a0 a1 a2 a3).free = s.free ∧ (logEv
    s d k a0 a1 a2 a3).pending = s.pending := by
  unfold logEv
  and_intros <;> first | with_reducible rfl | (simp; done) | ((repeat' split) <;> first | with_reducible rfl | simp; done)

@[simp] theorem logPstate_frame (s : State) (d : Dom) (m : DMode) :
    (logPstate s d m).aon = s.aon ∧ (logPstate s d m).pins = s.pins ∧ (logPstate s d m).doms = s.doms ∧ (logPstate s d m).hp = s.hp ∧
    (logPstate s d m).map = s.map ∧ (logPstate s d m).nand = s.nand ∧ (logPstate s d m).rst = s.rst ∧ (logPstate s d m).ten = s.ten ∧
    (logPstate s d m).bat = s.bat ∧ (logPstate s d m).shb = s.shb ∧ (logPstate s d m).warp = s.warp ∧ (logPstate s d m).mg = s.mg ∧
    (logPstate s d m).cfl = s.cfl ∧ (logPstate s d m).store = s.store ∧ (logPstate s d m).i3c = s.i3c ∧ (logPstate s d m).free = s.free ∧
    (logPstate s d m).pending = s.pending := by
  unfold logPstate
  and_intros <;> first | with_reducible rfl | (simp; done) | ((repeat' split) <;> first | with_reducible rfl | simp; done)

/-! ## BusOps.lean -/

@[simp] theorem raiseIrq_frame (s : State) (bits : Word) :
    (raiseIrq s bits).aon = s.aon ∧ (raiseIrq s bits).log = s.log ∧ (raiseIrq s bits).pins = s.pins ∧ (raiseIrq s bits).doms = s.doms ∧
    (raiseIrq s bits).hp = s.hp ∧ (raiseIrq s bits).map = s.map ∧ (raiseIrq s bits).nand = s.nand ∧ (raiseIrq s bits).rst = s.rst ∧
    (raiseIrq s bits).ten = s.ten ∧ (raiseIrq s bits).bat = s.bat ∧ (raiseIrq s bits).warp = s.warp ∧ (raiseIrq s bits).mg = s.mg ∧
    (raiseIrq s bits).cfl = s.cfl ∧ (raiseIrq s bits).store = s.store ∧ (raiseIrq s bits).free = s.free ∧ (raiseIrq s bits).pending =
    s.pending := by
  unfold raiseIrq
  and_intros <;> first | with_reducible rfl | (simp; done) | ((repeat' split) <;> first | with_reducible rfl | simp; done)

@[simp] theorem mboxRequest_frame (s : State) (n : Fin 16) (fdf : Bool) (brs : Bool) (dlc : BitVec 4) (attempts : Nat) :
    (mboxRequest s n fdf brs dlc attempts).aon = s.aon ∧ (mboxRequest s n fdf brs dlc attempts).log = s.log ∧ (mboxRequest s n fdf brs
    dlc attempts).pins = s.pins ∧ (mboxRequest s n fdf brs dlc attempts).doms = s.doms ∧ (mboxRequest s n fdf brs dlc attempts).hp = s.hp
    ∧ (mboxRequest s n fdf brs dlc attempts).map = s.map ∧ (mboxRequest s n fdf brs dlc attempts).nand = s.nand ∧ (mboxRequest s n fdf
    brs dlc attempts).rst = s.rst ∧ (mboxRequest s n fdf brs dlc attempts).ten = s.ten ∧ (mboxRequest s n fdf brs dlc attempts).bat =
    s.bat ∧ (mboxRequest s n fdf brs dlc attempts).warp = s.warp ∧ (mboxRequest s n fdf brs dlc attempts).mg = s.mg ∧ (mboxRequest s n
    fdf brs dlc attempts).cfl = s.cfl ∧ (mboxRequest s n fdf brs dlc attempts).store = s.store ∧ (mboxRequest s n fdf brs dlc
    attempts).free = s.free ∧ (mboxRequest s n fdf brs dlc attempts).pending = s.pending := by
  unfold mboxRequest
  and_intros <;> first | with_reducible rfl | (simp; done) | ((repeat' split) <;> first | with_reducible rfl | simp; done)

@[simp] theorem fwSend_frame (s : State) (id : CanId) (data : List Byte) :
    (fwSend s id data).aon = s.aon ∧ (fwSend s id data).log = s.log ∧ (fwSend s id data).pins = s.pins ∧ (fwSend s id data).doms = s.doms
    ∧ (fwSend s id data).hp = s.hp ∧ (fwSend s id data).map = s.map ∧ (fwSend s id data).nand = s.nand ∧ (fwSend s id data).rst = s.rst ∧
    (fwSend s id data).ten = s.ten ∧ (fwSend s id data).bat = s.bat ∧ (fwSend s id data).warp = s.warp ∧ (fwSend s id data).mg = s.mg ∧
    (fwSend s id data).cfl = s.cfl ∧ (fwSend s id data).store = s.store ∧ (fwSend s id data).free = s.free ∧ (fwSend s id data).pending =
    s.pending := by
  unfold fwSend
  and_intros <;> first | with_reducible rfl | (simp; done) | ((repeat' split) <;> first | with_reducible rfl | simp; done)

@[simp] theorem refillFifo_frame (s : State) :
    (refillFifo s).aon = s.aon ∧ (refillFifo s).log = s.log ∧ (refillFifo s).pins = s.pins ∧ (refillFifo s).doms = s.doms ∧ (refillFifo
    s).hp = s.hp ∧ (refillFifo s).map = s.map ∧ (refillFifo s).nand = s.nand ∧ (refillFifo s).rst = s.rst ∧ (refillFifo s).ten = s.ten ∧
    (refillFifo s).bat = s.bat ∧ (refillFifo s).warp = s.warp ∧ (refillFifo s).cfl = s.cfl ∧ (refillFifo s).store = s.store ∧ (refillFifo
    s).i3c = s.i3c ∧ (refillFifo s).free = s.free ∧ (refillFifo s).pending = s.pending ∧ (refillFifo s).mg.running = s.mg.running := by
  unfold refillFifo
  and_intros <;> first | with_reducible rfl | (simp; done) | ((repeat' split) <;> first | with_reducible rfl | simp; done)

@[simp] theorem fifoSend_frame (s : State) (l : List Frame) :
    (fifoSend s l).aon = s.aon ∧ (fifoSend s l).log = s.log ∧ (fifoSend s l).pins = s.pins ∧ (fifoSend s l).doms = s.doms ∧ (fifoSend s
    l).hp = s.hp ∧ (fifoSend s l).map = s.map ∧ (fifoSend s l).nand = s.nand ∧ (fifoSend s l).rst = s.rst ∧ (fifoSend s l).ten = s.ten ∧
    (fifoSend s l).bat = s.bat ∧ (fifoSend s l).warp = s.warp ∧ (fifoSend s l).cfl = s.cfl ∧ (fifoSend s l).store = s.store ∧ (fifoSend s
    l).i3c = s.i3c ∧ (fifoSend s l).free = s.free ∧ (fifoSend s l).pending = s.pending ∧ (fifoSend s l).mg.running = s.mg.running := by
  unfold fifoSend
  and_intros <;> first | with_reducible rfl | (simp; done) | ((repeat' split) <;> first | with_reducible rfl | simp; done)

@[simp] theorem sendMessage_frame (s : State) (id : CanId) (payload : List Byte) :
    (sendMessage s id payload).aon = s.aon ∧ (sendMessage s id payload).log = s.log ∧ (sendMessage s id payload).pins = s.pins ∧
    (sendMessage s id payload).doms = s.doms ∧ (sendMessage s id payload).hp = s.hp ∧ (sendMessage s id payload).map = s.map ∧
    (sendMessage s id payload).nand = s.nand ∧ (sendMessage s id payload).rst = s.rst ∧ (sendMessage s id payload).ten = s.ten ∧
    (sendMessage s id payload).bat = s.bat ∧ (sendMessage s id payload).warp = s.warp ∧ (sendMessage s id payload).cfl = s.cfl ∧
    (sendMessage s id payload).store = s.store ∧ (sendMessage s id payload).i3c = s.i3c ∧ (sendMessage s id payload).free = s.free ∧
    (sendMessage s id payload).pending = s.pending ∧ (sendMessage s id payload).mg.running = s.mg.running := by
  unfold sendMessage
  and_intros <;> first | with_reducible rfl | (simp; done) | ((repeat' split) <;> first | with_reducible rfl | simp; done)

@[simp] theorem dropKeeper_frame (s : State) :
    (dropKeeper s).aon = s.aon ∧ (dropKeeper s).log = s.log ∧ (dropKeeper s).pins = s.pins ∧ (dropKeeper s).doms = s.doms ∧ (dropKeeper
    s).hp = s.hp ∧ (dropKeeper s).map = s.map ∧ (dropKeeper s).nand = s.nand ∧ (dropKeeper s).rst = s.rst ∧ (dropKeeper s).ten = s.ten ∧
    (dropKeeper s).bat = s.bat ∧ (dropKeeper s).shb = s.shb ∧ (dropKeeper s).mg = s.mg ∧ (dropKeeper s).cfl = s.cfl ∧ (dropKeeper
    s).store = s.store ∧ (dropKeeper s).i3c = s.i3c ∧ (dropKeeper s).free = s.free ∧ (dropKeeper s).pending = s.pending := by
  unfold dropKeeper
  and_intros <;> first | with_reducible rfl | (simp; done) | ((repeat' split) <;> first | with_reducible rfl | simp; done)

@[simp] theorem setBusMode_frame (s : State) (m : BusMode) :
    (setBusMode s m).aon = s.aon ∧ (setBusMode s m).log = s.log ∧ (setBusMode s m).pins = s.pins ∧ (setBusMode s m).doms = s.doms ∧
    (setBusMode s m).hp = s.hp ∧ (setBusMode s m).map = s.map ∧ (setBusMode s m).nand = s.nand ∧ (setBusMode s m).rst = s.rst ∧
    (setBusMode s m).ten = s.ten ∧ (setBusMode s m).bat = s.bat ∧ (setBusMode s m).mg = s.mg ∧ (setBusMode s m).cfl = s.cfl ∧ (setBusMode
    s m).store = s.store ∧ (setBusMode s m).free = s.free ∧ (setBusMode s m).pending = s.pending := by
  unfold setBusMode
  and_intros <;> first | with_reducible rfl | (simp; done) | ((repeat' split) <;> first | with_reducible rfl | simp; done)

@[simp] theorem joinBus_frame (s : State) :
    (joinBus s).aon = s.aon ∧ (joinBus s).log = s.log ∧ (joinBus s).pins = s.pins ∧ (joinBus s).doms = s.doms ∧ (joinBus s).hp = s.hp ∧
    (joinBus s).map = s.map ∧ (joinBus s).nand = s.nand ∧ (joinBus s).rst = s.rst ∧ (joinBus s).ten = s.ten ∧ (joinBus s).bat = s.bat ∧
    (joinBus s).mg = s.mg ∧ (joinBus s).cfl = s.cfl ∧ (joinBus s).store = s.store ∧ (joinBus s).free = s.free ∧ (joinBus s).pending =
    s.pending := by
  unfold joinBus
  and_intros <;> first | with_reducible rfl | (simp; done) | ((repeat' split) <;> first | with_reducible rfl | simp; done)

@[simp] theorem detect_frame (s : State) :
    (detect s).aon = s.aon ∧ (detect s).log = s.log ∧ (detect s).pins = s.pins ∧ (detect s).doms = s.doms ∧ (detect s).hp = s.hp ∧
    (detect s).map = s.map ∧ (detect s).nand = s.nand ∧ (detect s).rst = s.rst ∧ (detect s).ten = s.ten ∧ (detect s).bat = s.bat ∧
    (detect s).mg = s.mg ∧ (detect s).cfl = s.cfl ∧ (detect s).store = s.store ∧ (detect s).free = s.free ∧ (detect s).pending =
    s.pending := by
  unfold detect
  and_intros <;> first | with_reducible rfl | (simp; done) | ((repeat' split) <;> first | with_reducible rfl | simp; done)

/-! ## Sessions.lean -/

@[simp] theorem setSes_frame (s : State) (k : Sess) (f : Ses → Ses) :
    (setSes s k f).aon = s.aon ∧ (setSes s k f).log = s.log ∧ (setSes s k f).pins = s.pins ∧ (setSes s k f).doms = s.doms ∧ (setSes s k
    f).hp = s.hp ∧ (setSes s k f).map = s.map ∧ (setSes s k f).nand = s.nand ∧ (setSes s k f).rst = s.rst ∧ (setSes s k f).ten = s.ten ∧
    (setSes s k f).bat = s.bat ∧ (setSes s k f).shb = s.shb ∧ (setSes s k f).warp = s.warp ∧ (setSes s k f).cfl = s.cfl ∧ (setSes s k
    f).store = s.store ∧ (setSes s k f).i3c = s.i3c ∧ (setSes s k f).free = s.free ∧ (setSes s k f).pending = s.pending ∧ (setSes s k
    f).mg.running = s.mg.running := by
  unfold setSes
  and_intros <;> first | with_reducible rfl | (simp; done) | ((repeat' split) <;> first | with_reducible rfl | simp; done)

@[simp] theorem pipePut_frame (s : State) (k : Sess) (b : List Byte) :
    (pipePut s k b).aon = s.aon ∧ (pipePut s k b).log = s.log ∧ (pipePut s k b).pins = s.pins ∧ (pipePut s k b).doms = s.doms ∧ (pipePut
    s k b).hp = s.hp ∧ (pipePut s k b).map = s.map ∧ (pipePut s k b).nand = s.nand ∧ (pipePut s k b).rst = s.rst ∧ (pipePut s k b).ten =
    s.ten ∧ (pipePut s k b).bat = s.bat ∧ (pipePut s k b).shb = s.shb ∧ (pipePut s k b).warp = s.warp ∧ (pipePut s k b).cfl = s.cfl ∧
    (pipePut s k b).store = s.store ∧ (pipePut s k b).free = s.free ∧ (pipePut s k b).pending = s.pending ∧ (pipePut s k b).mg.running =
    s.mg.running := by
  unfold pipePut
  and_intros <;> first | with_reducible rfl | (simp; done) | ((repeat' split) <;> first | with_reducible rfl | simp; done)

@[simp] theorem consolePut_frame (s : State) (b : List Byte) :
    (consolePut s b).aon = s.aon ∧ (consolePut s b).log = s.log ∧ (consolePut s b).pins = s.pins ∧ (consolePut s b).doms = s.doms ∧
    (consolePut s b).hp = s.hp ∧ (consolePut s b).map = s.map ∧ (consolePut s b).nand = s.nand ∧ (consolePut s b).rst = s.rst ∧
    (consolePut s b).ten = s.ten ∧ (consolePut s b).bat = s.bat ∧ (consolePut s b).shb = s.shb ∧ (consolePut s b).warp = s.warp ∧
    (consolePut s b).cfl = s.cfl ∧ (consolePut s b).store = s.store ∧ (consolePut s b).i3c = s.i3c ∧ (consolePut s b).free = s.free ∧
    (consolePut s b).pending = s.pending ∧ (consolePut s b).mg.running = s.mg.running := by
  unfold consolePut
  and_intros <;> first | with_reducible rfl | (simp; done) | ((repeat' split) <;> first | with_reducible rfl | simp; done)

@[simp] theorem tunnelSend_frame (s : State) (node : NodeId) (payload : List Byte) :
    (tunnelSend s node payload).aon = s.aon ∧ (tunnelSend s node payload).log = s.log ∧ (tunnelSend s node payload).pins = s.pins ∧
    (tunnelSend s node payload).doms = s.doms ∧ (tunnelSend s node payload).hp = s.hp ∧ (tunnelSend s node payload).map = s.map ∧
    (tunnelSend s node payload).nand = s.nand ∧ (tunnelSend s node payload).rst = s.rst ∧ (tunnelSend s node payload).ten = s.ten ∧
    (tunnelSend s node payload).bat = s.bat ∧ (tunnelSend s node payload).warp = s.warp ∧ (tunnelSend s node payload).cfl = s.cfl ∧
    (tunnelSend s node payload).store = s.store ∧ (tunnelSend s node payload).i3c = s.i3c ∧ (tunnelSend s node payload).free = s.free ∧
    (tunnelSend s node payload).pending = s.pending ∧ (tunnelSend s node payload).mg.running = s.mg.running := by
  unfold tunnelSend
  and_intros <;> first | with_reducible rfl | (simp; done) | ((repeat' split) <;> first | with_reducible rfl | simp; done)

@[simp] theorem noticeTo_frame (s : State) (p : Sess → Ses → Bool) (l : Line) :
    (noticeTo s p l).aon = s.aon ∧ (noticeTo s p l).log = s.log ∧ (noticeTo s p l).pins = s.pins ∧ (noticeTo s p l).doms = s.doms ∧
    (noticeTo s p l).hp = s.hp ∧ (noticeTo s p l).map = s.map ∧ (noticeTo s p l).nand = s.nand ∧ (noticeTo s p l).rst = s.rst ∧ (noticeTo
    s p l).ten = s.ten ∧ (noticeTo s p l).bat = s.bat ∧ (noticeTo s p l).shb = s.shb ∧ (noticeTo s p l).warp = s.warp ∧ (noticeTo s p
    l).cfl = s.cfl ∧ (noticeTo s p l).store = s.store ∧ (noticeTo s p l).i3c = s.i3c ∧ (noticeTo s p l).free = s.free ∧ (noticeTo s p
    l).pending = s.pending ∧ (noticeTo s p l).mg.running = s.mg.running := by
  unfold noticeTo
  and_intros <;> first | with_reducible rfl | (simp; done) | ((repeat' split) <;> first | with_reducible rfl | simp; done)

@[simp] theorem noticeGeneral_frame (s : State) (l : Line) :
    (noticeGeneral s l).aon = s.aon ∧ (noticeGeneral s l).log = s.log ∧ (noticeGeneral s l).pins = s.pins ∧ (noticeGeneral s l).doms =
    s.doms ∧ (noticeGeneral s l).hp = s.hp ∧ (noticeGeneral s l).map = s.map ∧ (noticeGeneral s l).nand = s.nand ∧ (noticeGeneral s
    l).rst = s.rst ∧ (noticeGeneral s l).ten = s.ten ∧ (noticeGeneral s l).bat = s.bat ∧ (noticeGeneral s l).shb = s.shb ∧ (noticeGeneral
    s l).warp = s.warp ∧ (noticeGeneral s l).cfl = s.cfl ∧ (noticeGeneral s l).store = s.store ∧ (noticeGeneral s l).i3c = s.i3c ∧
    (noticeGeneral s l).free = s.free ∧ (noticeGeneral s l).pending = s.pending ∧ (noticeGeneral s l).mg.running = s.mg.running := by
  unfold noticeGeneral
  and_intros <;> first | with_reducible rfl | (simp; done) | ((repeat' split) <;> first | with_reducible rfl | simp; done)

@[simp] theorem noticeAll_frame (s : State) (l : Line) :
    (noticeAll s l).aon = s.aon ∧ (noticeAll s l).log = s.log ∧ (noticeAll s l).pins = s.pins ∧ (noticeAll s l).doms = s.doms ∧
    (noticeAll s l).hp = s.hp ∧ (noticeAll s l).map = s.map ∧ (noticeAll s l).nand = s.nand ∧ (noticeAll s l).rst = s.rst ∧ (noticeAll s
    l).ten = s.ten ∧ (noticeAll s l).bat = s.bat ∧ (noticeAll s l).shb = s.shb ∧ (noticeAll s l).warp = s.warp ∧ (noticeAll s l).cfl =
    s.cfl ∧ (noticeAll s l).store = s.store ∧ (noticeAll s l).i3c = s.i3c ∧ (noticeAll s l).free = s.free ∧ (noticeAll s l).pending =
    s.pending ∧ (noticeAll s l).mg.running = s.mg.running := by
  unfold noticeAll
  and_intros <;> first | with_reducible rfl | (simp; done) | ((repeat' split) <;> first | with_reducible rfl | simp; done)

@[simp] theorem noticeIssuer_frame (s : State) (k : Option Sess) (x : Issue) (l : Line) :
    (noticeIssuer s k x l).aon = s.aon ∧ (noticeIssuer s k x l).log = s.log ∧ (noticeIssuer s k x l).pins = s.pins ∧ (noticeIssuer s k x l).doms
    = s.doms ∧ (noticeIssuer s k x l).hp = s.hp ∧ (noticeIssuer s k x l).map = s.map ∧ (noticeIssuer s k x l).nand = s.nand ∧ (noticeIssuer s k x
    l).rst = s.rst ∧ (noticeIssuer s k x l).ten = s.ten ∧ (noticeIssuer s k x l).bat = s.bat ∧ (noticeIssuer s k x l).shb = s.shb ∧
    (noticeIssuer s k x l).warp = s.warp ∧ (noticeIssuer s k x l).cfl = s.cfl ∧ (noticeIssuer s k x l).store = s.store ∧ (noticeIssuer s k x
    l).i3c = s.i3c ∧ (noticeIssuer s k x l).free = s.free ∧ (noticeIssuer s k x l).pending = s.pending ∧ (noticeIssuer s k x l).mg.running =
    s.mg.running := by
  unfold noticeIssuer
  and_intros <;> first | with_reducible rfl | (simp; done) | ((repeat' split) <;> first | with_reducible rfl | simp; done)

@[simp] theorem openSessions_frame (s : State) :
    (openSessions s).aon = s.aon ∧ (openSessions s).log = s.log ∧ (openSessions s).pins = s.pins ∧ (openSessions s).doms = s.doms ∧
    (openSessions s).hp = s.hp ∧ (openSessions s).map = s.map ∧ (openSessions s).nand = s.nand ∧ (openSessions s).rst = s.rst ∧
    (openSessions s).ten = s.ten ∧ (openSessions s).bat = s.bat ∧ (openSessions s).shb = s.shb ∧ (openSessions s).warp = s.warp ∧
    (openSessions s).cfl = s.cfl ∧ (openSessions s).store = s.store ∧ (openSessions s).i3c = s.i3c ∧ (openSessions s).free = s.free ∧
    (openSessions s).pending = s.pending ∧ (openSessions s).mg.running = s.mg.running := by
  unfold openSessions
  and_intros <;> first | with_reducible rfl | (simp; done) | ((repeat' split) <;> first | with_reducible rfl | simp; done)

@[simp] theorem closeSessions_frame (s : State) :
    (closeSessions s).aon = s.aon ∧ (closeSessions s).log = s.log ∧ (closeSessions s).pins = s.pins ∧ (closeSessions s).doms = s.doms ∧
    (closeSessions s).hp = s.hp ∧ (closeSessions s).map = s.map ∧ (closeSessions s).nand = s.nand ∧ (closeSessions s).rst = s.rst ∧
    (closeSessions s).ten = s.ten ∧ (closeSessions s).bat = s.bat ∧ (closeSessions s).shb = s.shb ∧ (closeSessions s).warp = s.warp ∧
    (closeSessions s).cfl = s.cfl ∧ (closeSessions s).store = s.store ∧ (closeSessions s).i3c = s.i3c ∧ (closeSessions s).free = s.free ∧
    (closeSessions s).pending = s.pending ∧ (closeSessions s).mg.running = s.mg.running := by
  unfold closeSessions
  and_intros <;> first | with_reducible rfl | (simp; done) | ((repeat' split) <;> first | with_reducible rfl | simp; done)

@[simp] theorem closeTunnels_frame (s : State) :
    (closeTunnels s).aon = s.aon ∧ (closeTunnels s).log = s.log ∧ (closeTunnels s).pins = s.pins ∧ (closeTunnels s).doms = s.doms ∧
    (closeTunnels s).hp = s.hp ∧ (closeTunnels s).map = s.map ∧ (closeTunnels s).nand = s.nand ∧ (closeTunnels s).rst = s.rst ∧
    (closeTunnels s).ten = s.ten ∧ (closeTunnels s).bat = s.bat ∧ (closeTunnels s).shb = s.shb ∧ (closeTunnels s).warp = s.warp ∧
    (closeTunnels s).cfl = s.cfl ∧ (closeTunnels s).store = s.store ∧ (closeTunnels s).i3c = s.i3c ∧ (closeTunnels s).free = s.free ∧
    (closeTunnels s).pending = s.pending ∧ (closeTunnels s).mg.running = s.mg.running := by
  unfold closeTunnels
  and_intros <;> first | with_reducible rfl | (simp; done) | ((repeat' split) <;> first | with_reducible rfl | simp; done)

@[simp] theorem ans_frame (s : State) (l : Line) :
    (ans s l).1.aon = s.aon ∧ (ans s l).1.log = s.log ∧ (ans s l).1.pins = s.pins ∧ (ans s l).1.doms = s.doms ∧ (ans s l).1.hp = s.hp ∧
    (ans s l).1.map = s.map ∧ (ans s l).1.nand = s.nand ∧ (ans s l).1.rst = s.rst ∧ (ans s l).1.ten = s.ten ∧ (ans s l).1.bat = s.bat ∧
    (ans s l).1.shb = s.shb ∧ (ans s l).1.warp = s.warp ∧ (ans s l).1.mg = s.mg ∧ (ans s l).1.cfl = s.cfl ∧ (ans s l).1.store = s.store ∧
    (ans s l).1.i3c = s.i3c ∧ (ans s l).1.free = s.free ∧ (ans s l).1.pending = s.pending := by
  unfold ans
  and_intros <;> first | with_reducible rfl | (simp; done) | ((repeat' split) <;> first | with_reducible rfl | simp; done)

@[simp] theorem err_frame (s : State) (code : Nat) (fields : List (String × Val)) :
    (err s code fields).1.aon = s.aon ∧ (err s code fields).1.log = s.log ∧ (err s code fields).1.pins = s.pins ∧ (err s code
    fields).1.doms = s.doms ∧ (err s code fields).1.hp = s.hp ∧ (err s code fields).1.map = s.map ∧ (err s code fields).1.nand = s.nand ∧
    (err s code fields).1.rst = s.rst ∧ (err s code fields).1.ten = s.ten ∧ (err s code fields).1.bat = s.bat ∧ (err s code fields).1.shb
    = s.shb ∧ (err s code fields).1.warp = s.warp ∧ (err s code fields).1.mg = s.mg ∧ (err s code fields).1.cfl = s.cfl ∧ (err s code
    fields).1.store = s.store ∧ (err s code fields).1.i3c = s.i3c ∧ (err s code fields).1.free = s.free ∧ (err s code fields).1.pending =
    s.pending := by
  unfold err
  and_intros <;> first | with_reducible rfl | (simp; done) | ((repeat' split) <;> first | with_reducible rfl | simp; done)

end Sys2Proof.Machine
end

