-- ==== Sys2Proof/Laws/FramesDevice.lean ====
section
/-! SUPPORT. What the operations over domains, code flash, geometry, NAND and options leave as it was: one lemma for each. -/

set_option linter.unusedSimpArgs false
set_option linter.unreachableTactic false
set_option linter.unusedTactic false

namespace Sys2Proof.Machine


/-! ## Domains.lean -/

@[simp] theorem setDom_frame (s : State) (d : Dom) (f : DomSt → DomSt) :
    (setDom s d f).aon = s.aon ∧ (setDom s d f).log = s.log ∧ (setDom s d f).pins = s.pins ∧ (setDom s d f).hp = s.hp ∧ (setDom s d
    f).map = s.map ∧ (setDom s d f).nand = s.nand ∧ (setDom s d f).rst = s.rst ∧ (setDom s d f).ten = s.ten ∧ (setDom s d f).bat = s.bat
    ∧ (setDom s d f).shb = s.shb ∧ (setDom s d f).warp = s.warp ∧ (setDom s d f).mg = s.mg ∧ (setDom s d f).cfl = s.cfl ∧ (setDom s d
    f).store = s.store ∧ (setDom s d f).i3c = s.i3c ∧ (setDom s d f).free = s.free ∧ (setDom s d f).pending = s.pending := by
  unfold setDom
  and_intros <;> first | with_reducible rfl | (simp; done) | ((repeat' split) <;> first | with_reducible rfl | simp; done)

@[simp] theorem setPll_frame (s : State) (p : Pll) (x : PllSt) :
    (setPll s p x).aon = s.aon ∧ (setPll s p x).log = s.log ∧ (setPll s p x).pins = s.pins ∧ (setPll s p x).hp = s.hp ∧ (setPll s p x).map
    = s.map ∧ (setPll s p x).nand = s.nand ∧ (setPll s p x).rst = s.rst ∧ (setPll s p x).ten = s.ten ∧ (setPll s p x).bat = s.bat ∧
    (setPll s p x).shb = s.shb ∧ (setPll s p x).warp = s.warp ∧ (setPll s p x).mg = s.mg ∧ (setPll s p x).cfl = s.cfl ∧ (setPll s p
    x).store = s.store ∧ (setPll s p x).i3c = s.i3c ∧ (setPll s p x).free = s.free ∧ (setPll s p x).pending = s.pending := by
  unfold setPll
  and_intros <;> first | with_reducible rfl | (simp; done) | ((repeat' split) <;> first | with_reducible rfl | simp; done)

@[simp] theorem setLane_frame (s : State) (n : LaneId) (f : Lane → Lane) :
    (setLane s n f).aon = s.aon ∧ (setLane s n f).log = s.log ∧ (setLane s n f).pins = s.pins ∧ (setLane s n f).hp = s.hp ∧ (setLane s n
    f).map = s.map ∧ (setLane s n f).nand = s.nand ∧ (setLane s n f).rst = s.rst ∧ (setLane s n f).ten = s.ten ∧ (setLane s n f).bat =
    s.bat ∧ (setLane s n f).shb = s.shb ∧ (setLane s n f).warp = s.warp ∧ (setLane s n f).mg = s.mg ∧ (setLane s n f).cfl = s.cfl ∧
    (setLane s n f).store = s.store ∧ (setLane s n f).i3c = s.i3c ∧ (setLane s n f).free = s.free ∧ (setLane s n f).pending = s.pending :=
    by
  unfold setLane
  and_intros <;> first | with_reducible rfl | (simp; done) | ((repeat' split) <;> first | with_reducible rfl | simp; done)

@[simp] theorem sendFlit_frame (s : State) (n : LaneId) (f : Flit) :
    (sendFlit s n f).aon = s.aon ∧ (sendFlit s n f).pins = s.pins ∧ (sendFlit s n f).hp = s.hp ∧ (sendFlit s n f).map = s.map ∧ (sendFlit
    s n f).nand = s.nand ∧ (sendFlit s n f).rst = s.rst ∧ (sendFlit s n f).ten = s.ten ∧ (sendFlit s n f).bat = s.bat ∧ (sendFlit s n
    f).shb = s.shb ∧ (sendFlit s n f).warp = s.warp ∧ (sendFlit s n f).mg = s.mg ∧ (sendFlit s n f).cfl = s.cfl ∧ (sendFlit s n f).store =
    s.store ∧ (sendFlit s n f).i3c = s.i3c ∧ (sendFlit s n f).free = s.free ∧ (sendFlit s n f).pending = s.pending := by
  unfold sendFlit
  and_intros <;> first | with_reducible rfl | (simp; done) | ((repeat' split) <;> first | with_reducible rfl | simp; done)

@[simp] theorem resetLane_frame (s : State) (n : LaneId) :
    (resetLane s n).aon = s.aon ∧ (resetLane s n).pins = s.pins ∧ (resetLane s n).hp = s.hp ∧ (resetLane s n).map = s.map ∧ (resetLane s
    n).nand = s.nand ∧ (resetLane s n).rst = s.rst ∧ (resetLane s n).ten = s.ten ∧ (resetLane s n).bat = s.bat ∧ (resetLane s n).shb =
    s.shb ∧ (resetLane s n).warp = s.warp ∧ (resetLane s n).mg = s.mg ∧ (resetLane s n).cfl = s.cfl ∧ (resetLane s n).store = s.store ∧
    (resetLane s n).i3c = s.i3c ∧ (resetLane s n).free = s.free ∧ (resetLane s n).pending = s.pending := by
  unfold resetLane
  and_intros <;> first | with_reducible rfl | (simp; done) | ((repeat' split) <;> first | with_reducible rfl | simp; done)

@[simp] theorem resetLanesOf_frame (s : State) (d : Dom) :
    (resetLanesOf s d).aon = s.aon ∧ (resetLanesOf s d).pins = s.pins ∧ (resetLanesOf s d).hp = s.hp ∧ (resetLanesOf s d).map = s.map ∧
    (resetLanesOf s d).nand = s.nand ∧ (resetLanesOf s d).rst = s.rst ∧ (resetLanesOf s d).ten = s.ten ∧ (resetLanesOf s d).bat = s.bat ∧
    (resetLanesOf s d).shb = s.shb ∧ (resetLanesOf s d).warp = s.warp ∧ (resetLanesOf s d).mg = s.mg ∧ (resetLanesOf s d).cfl = s.cfl ∧
    (resetLanesOf s d).store = s.store ∧ (resetLanesOf s d).i3c = s.i3c ∧ (resetLanesOf s d).free = s.free ∧ (resetLanesOf s d).pending =
    s.pending := by
  unfold resetLanesOf
  and_intros <;> first | with_reducible rfl | (simp; done) | ((repeat' split) <;> first | with_reducible rfl | simp; done)

@[simp] theorem settleLanes_frame (s : State) :
    (settleLanes s).aon = s.aon ∧ (settleLanes s).log = s.log ∧ (settleLanes s).pins = s.pins ∧ (settleLanes s).hp = s.hp ∧ (settleLanes
    s).map = s.map ∧ (settleLanes s).nand = s.nand ∧ (settleLanes s).rst = s.rst ∧ (settleLanes s).ten = s.ten ∧ (settleLanes s).bat =
    s.bat ∧ (settleLanes s).shb = s.shb ∧ (settleLanes s).warp = s.warp ∧ (settleLanes s).mg = s.mg ∧ (settleLanes s).cfl = s.cfl ∧
    (settleLanes s).store = s.store ∧ (settleLanes s).i3c = s.i3c ∧ (settleLanes s).free = s.free ∧ (settleLanes s).pending = s.pending := by
  unfold settleLanes
  and_intros <;> first | with_reducible rfl | (simp; done) | ((repeat' split) <;> first | with_reducible rfl | simp; done)

@[simp] theorem abortWork_frame (s : State) (d : Dom) :
    (abortWork s d).aon = s.aon ∧ (abortWork s d).log = s.log ∧ (abortWork s d).pins = s.pins ∧ (abortWork s d).hp = s.hp ∧ (abortWork s
    d).map = s.map ∧ (abortWork s d).nand = s.nand ∧ (abortWork s d).rst = s.rst ∧ (abortWork s d).ten = s.ten ∧ (abortWork s d).bat =
    s.bat ∧ (abortWork s d).shb = s.shb ∧ (abortWork s d).warp = s.warp ∧ (abortWork s d).mg = s.mg ∧ (abortWork s d).cfl = s.cfl ∧
    (abortWork s d).store = s.store ∧ (abortWork s d).i3c = s.i3c ∧ (abortWork s d).free = s.free ∧ (abortWork s d).pending = s.pending :=
    by
  unfold abortWork
  and_intros <;> first | with_reducible rfl | (simp; done) | ((repeat' split) <;> first | with_reducible rfl | simp; done)

@[simp] theorem wakeLanes_frame (before s : State) :
    (wakeLanes before s).aon = s.aon ∧ (wakeLanes before s).pins = s.pins ∧ (wakeLanes before s).hp = s.hp ∧ (wakeLanes before s).map =
    s.map ∧ (wakeLanes before s).nand = s.nand ∧ (wakeLanes before s).rst = s.rst ∧ (wakeLanes before s).ten = s.ten ∧ (wakeLanes before
    s).bat = s.bat ∧ (wakeLanes before s).shb = s.shb ∧ (wakeLanes before s).warp = s.warp ∧ (wakeLanes before s).mg = s.mg ∧ (wakeLanes
    before s).cfl = s.cfl ∧ (wakeLanes before s).store = s.store ∧ (wakeLanes before s).i3c = s.i3c ∧ (wakeLanes before s).free = s.free ∧
    (wakeLanes before s).pending = s.pending := by
  unfold wakeLanes
  and_intros <;> first | with_reducible rfl | (simp; done) | ((repeat' split) <;> first | with_reducible rfl | simp; done)

@[simp] theorem settlePlls_frame (s : State) :
    (settlePlls s).aon = s.aon ∧ (settlePlls s).log = s.log ∧ (settlePlls s).pins = s.pins ∧ (settlePlls s).hp = s.hp ∧ (settlePlls s).map
    = s.map ∧ (settlePlls s).nand = s.nand ∧ (settlePlls s).rst = s.rst ∧ (settlePlls s).ten = s.ten ∧ (settlePlls s).bat = s.bat ∧
    (settlePlls s).shb = s.shb ∧ (settlePlls s).warp = s.warp ∧ (settlePlls s).mg = s.mg ∧ (settlePlls s).cfl = s.cfl ∧ (settlePlls
    s).store = s.store ∧ (settlePlls s).i3c = s.i3c ∧ (settlePlls s).free = s.free ∧ (settlePlls s).pending = s.pending := by
  unfold settlePlls
  and_intros <;> first | with_reducible rfl | (simp; done) | ((repeat' split) <;> first | with_reducible rfl | simp; done)

@[simp] theorem latchEnables_frame (s : State) :
    (latchEnables s).aon = s.aon ∧ (latchEnables s).log = s.log ∧ (latchEnables s).pins = s.pins ∧ (latchEnables s).hp = s.hp ∧
    (latchEnables s).map = s.map ∧ (latchEnables s).nand = s.nand ∧ (latchEnables s).rst = s.rst ∧ (latchEnables s).ten = s.ten ∧
    (latchEnables s).bat = s.bat ∧ (latchEnables s).shb = s.shb ∧ (latchEnables s).warp = s.warp ∧ (latchEnables s).mg = s.mg ∧
    (latchEnables s).cfl = s.cfl ∧ (latchEnables s).store = s.store ∧ (latchEnables s).i3c = s.i3c ∧ (latchEnables s).free = s.free ∧
    (latchEnables s).pending = s.pending := by
  unfold latchEnables
  and_intros <;> first | with_reducible rfl | (simp; done) | ((repeat' split) <;> first | with_reducible rfl | simp; done)

@[simp] theorem setEnabled_frame (s : State) (d : Dom) (b : Bool) :
    (setEnabled s d b).aon = s.aon ∧ (setEnabled s d b).log = s.log ∧ (setEnabled s d b).pins = s.pins ∧ (setEnabled s d b).hp = s.hp ∧
    (setEnabled s d b).map = s.map ∧ (setEnabled s d b).nand = s.nand ∧ (setEnabled s d b).rst = s.rst ∧ (setEnabled s d b).ten = s.ten ∧
    (setEnabled s d b).bat = s.bat ∧ (setEnabled s d b).shb = s.shb ∧ (setEnabled s d b).warp = s.warp ∧ (setEnabled s d b).mg = s.mg ∧
    (setEnabled s d b).cfl = s.cfl ∧ (setEnabled s d b).store = s.store ∧ (setEnabled s d b).i3c = s.i3c ∧ (setEnabled s d b).free =
    s.free ∧ (setEnabled s d b).pending = s.pending := by
  unfold setEnabled
  and_intros <;> first | with_reducible rfl | (simp; done) | ((repeat' split) <;> first | with_reducible rfl | simp; done)

@[simp] theorem setRunDisable_frame (s : State) (d : Dom) (b : Bool) :
    (setRunDisable s d b).log = s.log ∧ (setRunDisable s d b).pins = s.pins ∧ (setRunDisable s d b).doms = s.doms ∧ (setRunDisable s d
    b).hp = s.hp ∧ (setRunDisable s d b).map = s.map ∧ (setRunDisable s d b).nand = s.nand ∧ (setRunDisable s d b).rst = s.rst ∧
    (setRunDisable s d b).ten = s.ten ∧ (setRunDisable s d b).bat = s.bat ∧ (setRunDisable s d b).shb = s.shb ∧ (setRunDisable s d
    b).warp = s.warp ∧ (setRunDisable s d b).mg = s.mg ∧ (setRunDisable s d b).cfl = s.cfl ∧ (setRunDisable s d b).store = s.store ∧
    (setRunDisable s d b).i3c = s.i3c ∧ (setRunDisable s d b).free = s.free ∧ (setRunDisable s d b).pending = s.pending ∧ (setRunDisable
    s d b).aon.hold = s.aon.hold ∧ (setRunDisable s d b).aon.img = s.aon.img ∧ (setRunDisable s d b).aon.por = s.aon.por ∧ (setRunDisable
    s d b).aon.opt = s.aon.opt := by
  unfold setRunDisable
  and_intros <;> first | with_reducible rfl | (simp; done) | ((repeat' split) <;> first | with_reducible rfl | simp; done)

@[simp] theorem dropRxQueues_frame (s : State) :
    (dropRxQueues s).aon = s.aon ∧ (dropRxQueues s).pins = s.pins ∧ (dropRxQueues s).doms = s.doms ∧ (dropRxQueues s).hp = s.hp ∧
    (dropRxQueues s).map = s.map ∧ (dropRxQueues s).nand = s.nand ∧ (dropRxQueues s).rst = s.rst ∧ (dropRxQueues s).ten = s.ten ∧
    (dropRxQueues s).bat = s.bat ∧ (dropRxQueues s).warp = s.warp ∧ (dropRxQueues s).mg = s.mg ∧ (dropRxQueues s).cfl = s.cfl ∧
    (dropRxQueues s).store = s.store ∧ (dropRxQueues s).i3c = s.i3c ∧ (dropRxQueues s).free = s.free ∧ (dropRxQueues s).pending =
    s.pending := by
  unfold dropRxQueues
  and_intros <;> first | with_reducible rfl | (simp; done) | ((repeat' split) <;> first | with_reducible rfl | simp; done)

@[simp] theorem leaveShb_frame (s : State) :
    (leaveShb s).aon = s.aon ∧ (leaveShb s).pins = s.pins ∧ (leaveShb s).doms = s.doms ∧ (leaveShb s).hp = s.hp ∧ (leaveShb s).map =
    s.map ∧ (leaveShb s).nand = s.nand ∧ (leaveShb s).rst = s.rst ∧ (leaveShb s).ten = s.ten ∧ (leaveShb s).bat = s.bat ∧ (leaveShb
    s).cfl = s.cfl ∧ (leaveShb s).store = s.store ∧ (leaveShb s).i3c = s.i3c ∧ (leaveShb s).free = s.free ∧ (leaveShb s).pending =
    s.pending ∧ (leaveShb s).mg.running = s.mg.running := by
  unfold leaveShb
  and_intros <;> first | with_reducible rfl | (simp; done) | ((repeat' split) <;> first | with_reducible rfl | simp; done)

@[simp] theorem enterShb_frame (s : State) :
    (enterShb s).aon = s.aon ∧ (enterShb s).log = s.log ∧ (enterShb s).pins = s.pins ∧ (enterShb s).doms = s.doms ∧ (enterShb s).hp =
    s.hp ∧ (enterShb s).map = s.map ∧ (enterShb s).nand = s.nand ∧ (enterShb s).rst = s.rst ∧ (enterShb s).ten = s.ten ∧ (enterShb s).bat
    = s.bat ∧ (enterShb s).mg = s.mg ∧ (enterShb s).cfl = s.cfl ∧ (enterShb s).store = s.store ∧ (enterShb s).free = s.free ∧ (enterShb
    s).pending = s.pending := by
  unfold enterShb
  and_intros <;> first | with_reducible rfl | (simp; done) | ((repeat' split) <;> first | with_reducible rfl | simp; done)

@[simp] theorem darkWarp_frame (s : State) :
    (darkWarp s).aon = s.aon ∧ (darkWarp s).log = s.log ∧ (darkWarp s).pins = s.pins ∧ (darkWarp s).doms = s.doms ∧ (darkWarp s).hp =
    s.hp ∧ (darkWarp s).map = s.map ∧ (darkWarp s).nand = s.nand ∧ (darkWarp s).rst = s.rst ∧ (darkWarp s).ten = s.ten ∧ (darkWarp s).bat
    = s.bat ∧ (darkWarp s).shb = s.shb ∧ (darkWarp s).mg = s.mg ∧ (darkWarp s).cfl = s.cfl ∧ (darkWarp s).store = s.store ∧ (darkWarp
    s).i3c = s.i3c ∧ (darkWarp s).free = s.free := by
  unfold darkWarp
  and_intros <;> first | with_reducible rfl | (simp; done) | ((repeat' split) <;> first | with_reducible rfl | simp; done)

@[simp] theorem setMode_frame (s : State) (d : Dom) (m : DMode) :
    (setMode s d m).pins = s.pins ∧ (setMode s d m).hp = s.hp ∧ (setMode s d m).map = s.map ∧ (setMode s d m).nand = s.nand ∧ (setMode s d
    m).rst = s.rst ∧ (setMode s d m).ten = s.ten ∧ (setMode s d m).cfl = s.cfl ∧ (setMode s d m).store = s.store ∧ (setMode s d m).free =
    s.free ∧ (setMode s d m).aon.hold = s.aon.hold ∧ (setMode s d m).aon.img = s.aon.img ∧ (setMode s d m).aon.por = s.aon.por ∧ (setMode
    s d m).aon.opt = s.aon.opt := by
  unfold setMode
  and_intros <;> first | with_reducible rfl | (simp; done) | ((repeat' split) <;> first | with_reducible rfl | simp; done)

@[simp] theorem applyModes_frame (s : State) (target : State → Dom → DMode) :
    (applyModes s target).pins = s.pins ∧ (applyModes s target).hp = s.hp ∧ (applyModes s target).map = s.map ∧ (applyModes s target).nand
    = s.nand ∧ (applyModes s target).rst = s.rst ∧ (applyModes s target).ten = s.ten ∧ (applyModes s target).cfl = s.cfl ∧ (applyModes s
    target).store = s.store ∧ (applyModes s target).free = s.free ∧ (applyModes s target).aon.hold = s.aon.hold ∧ (applyModes s
    target).aon.img = s.aon.img ∧ (applyModes s target).aon.por = s.aon.por ∧ (applyModes s target).aon.opt = s.aon.opt := by
  unfold applyModes
  and_intros <;> first | with_reducible rfl | (simp; done) | ((repeat' split) <;> first | with_reducible rfl | simp; done)

/-! ## Flash.lean -/

@[simp] theorem setWord_frame (s : State) (w : Nat) (v : DWord) :
    (setWord s w v).aon = s.aon ∧ (setWord s w v).log = s.log ∧ (setWord s w v).pins = s.pins ∧ (setWord s w v).doms = s.doms ∧ (setWord
    s w v).hp = s.hp ∧ (setWord s w v).map = s.map ∧ (setWord s w v).nand = s.nand ∧ (setWord s w v).rst = s.rst ∧ (setWord s w v).ten =
    s.ten ∧ (setWord s w v).bat = s.bat ∧ (setWord s w v).shb = s.shb ∧ (setWord s w v).warp = s.warp ∧ (setWord s w v).mg = s.mg ∧
    (setWord s w v).store = s.store ∧ (setWord s w v).i3c = s.i3c ∧ (setWord s w v).free = s.free ∧ (setWord s w v).pending = s.pending := by
  unfold setWord
  and_intros <;> first | with_reducible rfl | (simp; done) | ((repeat' split) <;> first | with_reducible rfl | simp; done)

@[simp] theorem advanceCount_frame (s : State) (w : Nat) :
    (advanceCount s w).aon = s.aon ∧ (advanceCount s w).log = s.log ∧ (advanceCount s w).pins = s.pins ∧ (advanceCount s w).doms = s.doms
    ∧ (advanceCount s w).hp = s.hp ∧ (advanceCount s w).map = s.map ∧ (advanceCount s w).nand = s.nand ∧ (advanceCount s w).rst = s.rst ∧
    (advanceCount s w).ten = s.ten ∧ (advanceCount s w).bat = s.bat ∧ (advanceCount s w).shb = s.shb ∧ (advanceCount s w).warp = s.warp ∧
    (advanceCount s w).mg = s.mg ∧ (advanceCount s w).store = s.store ∧ (advanceCount s w).i3c = s.i3c ∧ (advanceCount s w).free = s.free
    ∧ (advanceCount s w).pending = s.pending ∧ (advanceCount s w).cfl.words = s.cfl.words := by
  unfold advanceCount
  and_intros <;> first | with_reducible rfl | (simp; done) | ((repeat' split) <;> first | with_reducible rfl | simp; done)

@[simp] theorem spoilWord_frame (s : State) (w : Nat) :
    (spoilWord s w).aon = s.aon ∧ (spoilWord s w).log = s.log ∧ (spoilWord s w).pins = s.pins ∧ (spoilWord s w).doms = s.doms ∧
    (spoilWord s w).hp = s.hp ∧ (spoilWord s w).map = s.map ∧ (spoilWord s w).nand = s.nand ∧ (spoilWord s w).rst = s.rst ∧ (spoilWord s
    w).ten = s.ten ∧ (spoilWord s w).bat = s.bat ∧ (spoilWord s w).shb = s.shb ∧ (spoilWord s w).warp = s.warp ∧ (spoilWord s w).mg =
    s.mg ∧ (spoilWord s w).store = s.store ∧ (spoilWord s w).i3c = s.i3c ∧ (spoilWord s w).pending = s.pending := by
  unfold spoilWord
  and_intros <;> first | with_reducible rfl | (simp; done) | ((repeat' split) <;> first | with_reducible rfl | simp; done)

@[simp] theorem wipeSector_frame (s : State) (n : Nat) :
    (wipeSector s n).aon = s.aon ∧ (wipeSector s n).log = s.log ∧ (wipeSector s n).pins = s.pins ∧ (wipeSector s n).doms = s.doms ∧
    (wipeSector s n).hp = s.hp ∧ (wipeSector s n).map = s.map ∧ (wipeSector s n).nand = s.nand ∧ (wipeSector s n).rst = s.rst ∧
    (wipeSector s n).ten = s.ten ∧ (wipeSector s n).bat = s.bat ∧ (wipeSector s n).shb = s.shb ∧ (wipeSector s n).warp = s.warp ∧
    (wipeSector s n).mg = s.mg ∧ (wipeSector s n).store = s.store ∧ (wipeSector s n).i3c = s.i3c ∧ (wipeSector s n).free = s.free ∧
    (wipeSector s n).pending = s.pending := by
  unfold wipeSector
  and_intros <;> first | with_reducible rfl | (simp; done) | ((repeat' split) <;> first | with_reducible rfl | simp; done)

@[simp] theorem spoilSector_frame (s : State) (n : Nat) :
    (spoilSector s n).aon = s.aon ∧ (spoilSector s n).log = s.log ∧ (spoilSector s n).pins = s.pins ∧ (spoilSector s n).doms = s.doms ∧
    (spoilSector s n).hp = s.hp ∧ (spoilSector s n).map = s.map ∧ (spoilSector s n).nand = s.nand ∧ (spoilSector s n).rst = s.rst ∧
    (spoilSector s n).ten = s.ten ∧ (spoilSector s n).bat = s.bat ∧ (spoilSector s n).shb = s.shb ∧ (spoilSector s n).warp = s.warp ∧
    (spoilSector s n).mg = s.mg ∧ (spoilSector s n).store = s.store ∧ (spoilSector s n).i3c = s.i3c ∧ (spoilSector s n).pending =
    s.pending := by
  unfold spoilSector
  and_intros <;> first | with_reducible rfl | (simp; done) | ((repeat' split) <;> first | with_reducible rfl | simp; done)

@[simp] theorem interruptCfl_frame (s : State) :
    (interruptCfl s).aon = s.aon ∧ (interruptCfl s).log = s.log ∧ (interruptCfl s).pins = s.pins ∧ (interruptCfl s).doms = s.doms ∧
    (interruptCfl s).hp = s.hp ∧ (interruptCfl s).map = s.map ∧ (interruptCfl s).nand = s.nand ∧ (interruptCfl s).rst = s.rst ∧
    (interruptCfl s).ten = s.ten ∧ (interruptCfl s).bat = s.bat ∧ (interruptCfl s).shb = s.shb ∧ (interruptCfl s).warp = s.warp ∧
    (interruptCfl s).mg = s.mg ∧ (interruptCfl s).store = s.store ∧ (interruptCfl s).i3c = s.i3c ∧ (interruptCfl s).pending = s.pending :=
    by
  unfold interruptCfl
  and_intros <;> first | with_reducible rfl | (simp; done) | ((repeat' split) <;> first | with_reducible rfl | simp; done)

@[simp] theorem looseCfl_frame (s : State) :
    (looseCfl s).aon = s.aon ∧ (looseCfl s).log = s.log ∧ (looseCfl s).pins = s.pins ∧ (looseCfl s).doms = s.doms ∧ (looseCfl s).hp =
    s.hp ∧ (looseCfl s).map = s.map ∧ (looseCfl s).nand = s.nand ∧ (looseCfl s).rst = s.rst ∧ (looseCfl s).ten = s.ten ∧ (looseCfl s).bat
    = s.bat ∧ (looseCfl s).shb = s.shb ∧ (looseCfl s).warp = s.warp ∧ (looseCfl s).mg = s.mg ∧ (looseCfl s).store = s.store ∧ (looseCfl
    s).i3c = s.i3c ∧ (looseCfl s).free = s.free ∧ (looseCfl s).pending = s.pending ∧ (looseCfl s).cfl.words = s.cfl.words := by
  unfold looseCfl
  and_intros <;> first | with_reducible rfl | (simp; done) | ((repeat' split) <;> first | with_reducible rfl | simp; done)

/-! ## Geometry.lean -/

@[simp] theorem setAttr_frame (s : State) (t : Tenant) (a : Word) :
    (setAttr s t a).aon = s.aon ∧ (setAttr s t a).log = s.log ∧ (setAttr s t a).pins = s.pins ∧ (setAttr s t a).doms = s.doms ∧ (setAttr
    s t a).hp = s.hp ∧ (setAttr s t a).map = s.map ∧ (setAttr s t a).nand = s.nand ∧ (setAttr s t a).rst = s.rst ∧ (setAttr s t a).bat =
    s.bat ∧ (setAttr s t a).shb = s.shb ∧ (setAttr s t a).warp = s.warp ∧ (setAttr s t a).mg = s.mg ∧ (setAttr s t a).cfl = s.cfl ∧
    (setAttr s t a).store = s.store ∧ (setAttr s t a).i3c = s.i3c ∧ (setAttr s t a).free = s.free ∧ (setAttr s t a).pending = s.pending := by
  unfold setAttr
  and_intros <;> first | with_reducible rfl | (simp; done) | ((repeat' split) <;> first | with_reducible rfl | simp; done)

@[simp] theorem setDirty_frame (s : State) (r : RangeSet) :
    (setDirty s r).aon = s.aon ∧ (setDirty s r).log = s.log ∧ (setDirty s r).pins = s.pins ∧ (setDirty s r).doms = s.doms ∧ (setDirty s
    r).hp = s.hp ∧ (setDirty s r).nand = s.nand ∧ (setDirty s r).rst = s.rst ∧ (setDirty s r).ten = s.ten ∧ (setDirty s r).bat = s.bat ∧
    (setDirty s r).shb = s.shb ∧ (setDirty s r).warp = s.warp ∧ (setDirty s r).mg = s.mg ∧ (setDirty s r).cfl = s.cfl ∧ (setDirty s
    r).store = s.store ∧ (setDirty s r).i3c = s.i3c ∧ (setDirty s r).free = s.free ∧ (setDirty s r).pending = s.pending ∧ (setDirty s
    r).map.geom = s.map.geom := by
  unfold setDirty
  and_intros <;> first | with_reducible rfl | (simp; done) | ((repeat' split) <;> first | with_reducible rfl | simp; done)

@[simp] theorem setAllDirty_frame (s : State) :
    (setAllDirty s).aon = s.aon ∧ (setAllDirty s).log = s.log ∧ (setAllDirty s).pins = s.pins ∧ (setAllDirty s).doms = s.doms ∧
    (setAllDirty s).hp = s.hp ∧ (setAllDirty s).nand = s.nand ∧ (setAllDirty s).rst = s.rst ∧ (setAllDirty s).ten = s.ten ∧ (setAllDirty
    s).bat = s.bat ∧ (setAllDirty s).shb = s.shb ∧ (setAllDirty s).warp = s.warp ∧ (setAllDirty s).mg = s.mg ∧ (setAllDirty s).cfl =
    s.cfl ∧ (setAllDirty s).store = s.store ∧ (setAllDirty s).i3c = s.i3c ∧ (setAllDirty s).free = s.free ∧ (setAllDirty s).pending =
    s.pending ∧ (setAllDirty s).map.geom = s.map.geom := by
  unfold setAllDirty
  and_intros <;> first | with_reducible rfl | (simp; done) | ((repeat' split) <;> first | with_reducible rfl | simp; done)

@[simp] theorem endWaiting_frame (s : State) :
    (endWaiting s).aon = s.aon ∧ (endWaiting s).log = s.log ∧ (endWaiting s).pins = s.pins ∧ (endWaiting s).hp = s.hp ∧ (endWaiting
    s).map = s.map ∧ (endWaiting s).nand = s.nand ∧ (endWaiting s).rst = s.rst ∧ (endWaiting s).ten = s.ten ∧ (endWaiting s).bat = s.bat
    ∧ (endWaiting s).shb = s.shb ∧ (endWaiting s).warp = s.warp ∧ (endWaiting s).mg = s.mg ∧ (endWaiting s).cfl = s.cfl ∧ (endWaiting
    s).store = s.store ∧ (endWaiting s).i3c = s.i3c ∧ (endWaiting s).free = s.free ∧ (endWaiting s).pending = s.pending := by
  unfold endWaiting
  and_intros <;> first | with_reducible rfl | (simp; done) | ((repeat' split) <;> first | with_reducible rfl | simp; done)

@[simp] theorem dropImage_frame (s : State) :
    (dropImage s).log = s.log ∧ (dropImage s).pins = s.pins ∧ (dropImage s).hp = s.hp ∧ (dropImage s).rst = s.rst ∧ (dropImage s).ten =
    s.ten ∧ (dropImage s).bat = s.bat ∧ (dropImage s).shb = s.shb ∧ (dropImage s).warp = s.warp ∧ (dropImage s).mg = s.mg ∧ (dropImage
    s).cfl = s.cfl ∧ (dropImage s).store = s.store ∧ (dropImage s).i3c = s.i3c ∧ (dropImage s).free = s.free ∧ (dropImage s).pending =
    s.pending ∧ (dropImage s).aon.hold = s.aon.hold ∧ (dropImage s).aon.por = s.aon.por ∧ (dropImage s).aon.opt = s.aon.opt ∧ (dropImage
    s).map.geom = s.map.geom := by
  unfold dropImage
  and_intros <;> first | with_reducible rfl | (simp; done) | ((repeat' split) <;> first | with_reducible rfl | simp; done)

@[simp] theorem loadClasses_frame (s : State) :
    (loadClasses s).aon = s.aon ∧ (loadClasses s).log = s.log ∧ (loadClasses s).pins = s.pins ∧ (loadClasses s).doms = s.doms ∧
    (loadClasses s).hp = s.hp ∧ (loadClasses s).nand = s.nand ∧ (loadClasses s).rst = s.rst ∧ (loadClasses s).ten = s.ten ∧ (loadClasses
    s).bat = s.bat ∧ (loadClasses s).shb = s.shb ∧ (loadClasses s).warp = s.warp ∧ (loadClasses s).mg = s.mg ∧ (loadClasses s).cfl =
    s.cfl ∧ (loadClasses s).store = s.store ∧ (loadClasses s).i3c = s.i3c ∧ (loadClasses s).free = s.free ∧ (loadClasses s).pending =
    s.pending ∧ (loadClasses s).map.geom = s.map.geom := by
  unfold loadClasses
  and_intros <;> first | with_reducible rfl | (simp; done) | ((repeat' split) <;> first | with_reducible rfl | simp; done)

/-! ## NandOps.lean -/

@[simp] theorem setDie_frame (s : State) (d : Die) (f : DieSt → DieSt) :
    (setDie s d f).aon = s.aon ∧ (setDie s d f).log = s.log ∧ (setDie s d f).pins = s.pins ∧ (setDie s d f).doms = s.doms ∧ (setDie s d
    f).hp = s.hp ∧ (setDie s d f).map = s.map ∧ (setDie s d f).rst = s.rst ∧ (setDie s d f).ten = s.ten ∧ (setDie s d f).bat = s.bat ∧
    (setDie s d f).shb = s.shb ∧ (setDie s d f).warp = s.warp ∧ (setDie s d f).mg = s.mg ∧ (setDie s d f).cfl = s.cfl ∧ (setDie s d
    f).store = s.store ∧ (setDie s d f).i3c = s.i3c ∧ (setDie s d f).free = s.free ∧ (setDie s d f).pending = s.pending ∧ (setDie s d
    f).nand.rims = s.nand.rims ∧ (setDie s d f).nand.dram = s.nand.dram := by
  unfold setDie
  and_intros <;> first | with_reducible rfl | (simp; done) | ((repeat' split) <;> first | with_reducible rfl | simp; done)

@[simp] theorem setOp_frame (s : State) (d : Die) (o : DieOp) :
    (setOp s d o).aon = s.aon ∧ (setOp s d o).log = s.log ∧ (setOp s d o).pins = s.pins ∧ (setOp s d o).doms = s.doms ∧ (setOp s d o).hp =
    s.hp ∧ (setOp s d o).map = s.map ∧ (setOp s d o).rst = s.rst ∧ (setOp s d o).ten = s.ten ∧ (setOp s d o).bat = s.bat ∧ (setOp s d
    o).shb = s.shb ∧ (setOp s d o).warp = s.warp ∧ (setOp s d o).mg = s.mg ∧ (setOp s d o).cfl = s.cfl ∧ (setOp s d o).store = s.store ∧
    (setOp s d o).i3c = s.i3c ∧ (setOp s d o).free = s.free ∧ (setOp s d o).pending = s.pending := by
  unfold setOp
  and_intros <;> first | with_reducible rfl | (simp; done) | ((repeat' split) <;> first | with_reducible rfl | simp; done)

@[simp] theorem setGroup_frame (s : State) (g : Group) :
    (setGroup s g).aon = s.aon ∧ (setGroup s g).log = s.log ∧ (setGroup s g).pins = s.pins ∧ (setGroup s g).doms = s.doms ∧ (setGroup s
    g).hp = s.hp ∧ (setGroup s g).map = s.map ∧ (setGroup s g).rst = s.rst ∧ (setGroup s g).ten = s.ten ∧ (setGroup s g).bat = s.bat ∧
    (setGroup s g).shb = s.shb ∧ (setGroup s g).warp = s.warp ∧ (setGroup s g).mg = s.mg ∧ (setGroup s g).cfl = s.cfl ∧ (setGroup s
    g).store = s.store ∧ (setGroup s g).i3c = s.i3c ∧ (setGroup s g).free = s.free ∧ (setGroup s g).pending = s.pending ∧ (setGroup s
    g).nand.rims = s.nand.rims ∧ (setGroup s g).nand.dram = s.nand.dram := by
  unfold setGroup
  and_intros <;> first | with_reducible rfl | (simp; done) | ((repeat' split) <;> first | with_reducible rfl | simp; done)

@[simp] theorem setRole_frame (s : State) (d : Die) (b : Nat) (r : Role) :
    (setRole s d b r).aon = s.aon ∧ (setRole s d b r).log = s.log ∧ (setRole s d b r).pins = s.pins ∧ (setRole s d b r).doms = s.doms ∧
    (setRole s d b r).hp = s.hp ∧ (setRole s d b r).map = s.map ∧ (setRole s d b r).rst = s.rst ∧ (setRole s d b r).ten = s.ten ∧ (setRole
    s d b r).bat = s.bat ∧ (setRole s d b r).shb = s.shb ∧ (setRole s d b r).warp = s.warp ∧ (setRole s d b r).mg = s.mg ∧ (setRole s d b
    r).cfl = s.cfl ∧ (setRole s d b r).store = s.store ∧ (setRole s d b r).i3c = s.i3c ∧ (setRole s d b r).free = s.free ∧ (setRole s d b
    r).pending = s.pending := by
  unfold setRole
  and_intros <;> first | with_reducible rfl | (simp; done) | ((repeat' split) <;> first | with_reducible rfl | simp; done)

@[simp] theorem openGroup_frame (s : State) (d : Die) (r : Role) :
    (openGroup s d r).1.aon = s.aon ∧ (openGroup s d r).1.log = s.log ∧ (openGroup s d r).1.pins = s.pins ∧ (openGroup s d r).1.doms =
    s.doms ∧ (openGroup s d r).1.hp = s.hp ∧ (openGroup s d r).1.map = s.map ∧ (openGroup s d r).1.rst = s.rst ∧ (openGroup s d r).1.ten =
    s.ten ∧ (openGroup s d r).1.bat = s.bat ∧ (openGroup s d r).1.shb = s.shb ∧ (openGroup s d r).1.warp = s.warp ∧ (openGroup s d r).1.mg
    = s.mg ∧ (openGroup s d r).1.cfl = s.cfl ∧ (openGroup s d r).1.store = s.store ∧ (openGroup s d r).1.i3c = s.i3c ∧ (openGroup s d
    r).1.free = s.free ∧ (openGroup s d r).1.pending = s.pending := by
  unfold openGroup
  and_intros <;> first | with_reducible rfl | (simp; done) | ((repeat' split) <;> first | with_reducible rfl | simp; done)

@[simp] theorem advancePage_frame (s : State) (p : Page) :
    (advancePage s p).aon = s.aon ∧ (advancePage s p).log = s.log ∧ (advancePage s p).pins = s.pins ∧ (advancePage s p).doms = s.doms ∧
    (advancePage s p).hp = s.hp ∧ (advancePage s p).map = s.map ∧ (advancePage s p).rst = s.rst ∧ (advancePage s p).ten = s.ten ∧
    (advancePage s p).bat = s.bat ∧ (advancePage s p).shb = s.shb ∧ (advancePage s p).warp = s.warp ∧ (advancePage s p).mg = s.mg ∧
    (advancePage s p).cfl = s.cfl ∧ (advancePage s p).store = s.store ∧ (advancePage s p).i3c = s.i3c ∧ (advancePage s p).free = s.free ∧
    (advancePage s p).pending = s.pending := by
  unfold advancePage
  and_intros <;> first | with_reducible rfl | (simp; done) | ((repeat' split) <;> first | with_reducible rfl | simp; done)

@[simp] theorem tagPage_frame (s : State) (p : Page) (t : StrandTag) :
    (tagPage s p t).aon = s.aon ∧ (tagPage s p t).log = s.log ∧ (tagPage s p t).pins = s.pins ∧ (tagPage s p t).doms = s.doms ∧ (tagPage s
    p t).hp = s.hp ∧ (tagPage s p t).map = s.map ∧ (tagPage s p t).rst = s.rst ∧ (tagPage s p t).ten = s.ten ∧ (tagPage s p t).bat = s.bat
    ∧ (tagPage s p t).shb = s.shb ∧ (tagPage s p t).warp = s.warp ∧ (tagPage s p t).mg = s.mg ∧ (tagPage s p t).cfl = s.cfl ∧ (tagPage s p
    t).store = s.store ∧ (tagPage s p t).i3c = s.i3c ∧ (tagPage s p t).free = s.free ∧ (tagPage s p t).pending = s.pending := by
  unfold tagPage
  and_intros <;> first | with_reducible rfl | (simp; done) | ((repeat' split) <;> first | with_reducible rfl | simp; done)

@[simp] theorem diverge_frame (s : State) :
    (diverge s).log = s.log ∧ (diverge s).pins = s.pins ∧ (diverge s).doms = s.doms ∧ (diverge s).hp = s.hp ∧ (diverge s).map = s.map ∧
    (diverge s).nand = s.nand ∧ (diverge s).rst = s.rst ∧ (diverge s).ten = s.ten ∧ (diverge s).bat = s.bat ∧ (diverge s).shb = s.shb ∧
    (diverge s).warp = s.warp ∧ (diverge s).mg = s.mg ∧ (diverge s).cfl = s.cfl ∧ (diverge s).store = s.store ∧ (diverge s).i3c = s.i3c ∧
    (diverge s).free = s.free ∧ (diverge s).pending = s.pending ∧ (diverge s).aon.hold = s.aon.hold ∧ (diverge s).aon.img = s.aon.img ∧
    (diverge s).aon.por = s.aon.por ∧ (diverge s).aon.opt = s.aon.opt := by
  unfold diverge
  and_intros <;> first | with_reducible rfl | (simp; done) | ((repeat' split) <;> first | with_reducible rfl | simp; done)

@[simp] theorem forgetGroup_frame (s : State) (d : Die) (b : Nat) :
    (forgetGroup s d b).aon = s.aon ∧ (forgetGroup s d b).log = s.log ∧ (forgetGroup s d b).pins = s.pins ∧ (forgetGroup s d b).doms =
    s.doms ∧ (forgetGroup s d b).hp = s.hp ∧ (forgetGroup s d b).map = s.map ∧ (forgetGroup s d b).rst = s.rst ∧ (forgetGroup s d b).ten =
    s.ten ∧ (forgetGroup s d b).bat = s.bat ∧ (forgetGroup s d b).shb = s.shb ∧ (forgetGroup s d b).warp = s.warp ∧ (forgetGroup s d b).mg
    = s.mg ∧ (forgetGroup s d b).cfl = s.cfl ∧ (forgetGroup s d b).store = s.store ∧ (forgetGroup s d b).i3c = s.i3c ∧ (forgetGroup s d
    b).free = s.free ∧ (forgetGroup s d b).pending = s.pending := by
  unfold forgetGroup
  and_intros <;> first | with_reducible rfl | (simp; done) | ((repeat' split) <;> first | with_reducible rfl | simp; done)

@[simp] theorem addGrown_frame (s : State) (cause : Nat) (d : Die) (plane b : Nat) :
    (addGrown s cause d plane b).aon = s.aon ∧ (addGrown s cause d plane b).pins = s.pins ∧ (addGrown s cause d plane b).doms = s.doms ∧
    (addGrown s cause d plane b).hp = s.hp ∧ (addGrown s cause d plane b).map = s.map ∧ (addGrown s cause d plane b).rst = s.rst ∧
    (addGrown s cause d plane b).ten = s.ten ∧ (addGrown s cause d plane b).bat = s.bat ∧ (addGrown s cause d plane b).shb = s.shb ∧
    (addGrown s cause d plane b).warp = s.warp ∧ (addGrown s cause d plane b).mg = s.mg ∧ (addGrown s cause d plane b).cfl = s.cfl ∧
    (addGrown s cause d plane b).i3c = s.i3c ∧ (addGrown s cause d plane b).free = s.free ∧ (addGrown s cause d plane b).pending =
    s.pending := by
  unfold addGrown
  and_intros <;> first | with_reducible rfl | (simp; done) | ((repeat' split) <;> first | with_reducible rfl | simp; done)

@[simp] theorem retire_frame (s : State) (cause : Nat) (d : Die) (plane b : Nat) :
    (retire s cause d plane b).aon = s.aon ∧ (retire s cause d plane b).pins = s.pins ∧ (retire s cause d plane b).doms = s.doms ∧ (retire
    s cause d plane b).hp = s.hp ∧ (retire s cause d plane b).map = s.map ∧ (retire s cause d plane b).rst = s.rst ∧ (retire s cause d
    plane b).ten = s.ten ∧ (retire s cause d plane b).bat = s.bat ∧ (retire s cause d plane b).shb = s.shb ∧ (retire s cause d plane
    b).warp = s.warp ∧ (retire s cause d plane b).mg = s.mg ∧ (retire s cause d plane b).cfl = s.cfl ∧ (retire s cause d plane b).i3c =
    s.i3c ∧ (retire s cause d plane b).free = s.free ∧ (retire s cause d plane b).pending = s.pending := by
  unfold retire
  and_intros <;> first | with_reducible rfl | (simp; done) | ((repeat' split) <;> first | with_reducible rfl | simp; done)

@[simp] theorem reseedEg_frame (s : State) :
    (reseedEg s).aon = s.aon ∧ (reseedEg s).log = s.log ∧ (reseedEg s).pins = s.pins ∧ (reseedEg s).doms = s.doms ∧ (reseedEg s).hp = s.hp
    ∧ (reseedEg s).nand = s.nand ∧ (reseedEg s).rst = s.rst ∧ (reseedEg s).ten = s.ten ∧ (reseedEg s).bat = s.bat ∧ (reseedEg s).shb =
    s.shb ∧ (reseedEg s).warp = s.warp ∧ (reseedEg s).mg = s.mg ∧ (reseedEg s).cfl = s.cfl ∧ (reseedEg s).store = s.store ∧ (reseedEg
    s).i3c = s.i3c ∧ (reseedEg s).free = s.free ∧ (reseedEg s).pending = s.pending ∧ (reseedEg s).map.geom = s.map.geom := by
  unfold reseedEg
  and_intros <;> first | with_reducible rfl | (simp; done) | ((repeat' split) <;> first | with_reducible rfl | simp; done)

@[simp] theorem reseedAll_frame (s : State) :
    (reseedAll s).aon = s.aon ∧ (reseedAll s).log = s.log ∧ (reseedAll s).pins = s.pins ∧ (reseedAll s).doms = s.doms ∧ (reseedAll s).hp =
    s.hp ∧ (reseedAll s).nand = s.nand ∧ (reseedAll s).rst = s.rst ∧ (reseedAll s).ten = s.ten ∧ (reseedAll s).bat = s.bat ∧ (reseedAll
    s).shb = s.shb ∧ (reseedAll s).warp = s.warp ∧ (reseedAll s).mg = s.mg ∧ (reseedAll s).cfl = s.cfl ∧ (reseedAll s).store = s.store ∧
    (reseedAll s).i3c = s.i3c ∧ (reseedAll s).free = s.free ∧ (reseedAll s).pending = s.pending ∧ (reseedAll s).map.geom = s.map.geom :=
    by
  unfold reseedAll
  and_intros <;> first | with_reducible rfl | (simp; done) | ((repeat' split) <;> first | with_reducible rfl | simp; done)

@[simp] theorem growRing_frame (s : State) (r : Ring) (held : Option Nat) :
    (growRing s r held).1.aon = s.aon ∧ (growRing s r held).1.log = s.log ∧ (growRing s r held).1.pins = s.pins ∧ (growRing s r
    held).1.doms = s.doms ∧ (growRing s r held).1.hp = s.hp ∧ (growRing s r held).1.map = s.map ∧ (growRing s r held).1.rst = s.rst ∧
    (growRing s r held).1.ten = s.ten ∧ (growRing s r held).1.bat = s.bat ∧ (growRing s r held).1.shb = s.shb ∧ (growRing s r held).1.warp
    = s.warp ∧ (growRing s r held).1.mg = s.mg ∧ (growRing s r held).1.cfl = s.cfl ∧ (growRing s r held).1.store = s.store ∧ (growRing s r
    held).1.i3c = s.i3c ∧ (growRing s r held).1.free = s.free ∧ (growRing s r held).1.pending = s.pending := by
  unfold growRing
  and_intros <;> first | with_reducible rfl | (simp; done) | ((repeat' split) <;> first | with_reducible rfl | simp; done)

@[simp] theorem startRing_frame (s : State) (d : Die) :
    (startRing s d).1.aon = s.aon ∧ (startRing s d).1.log = s.log ∧ (startRing s d).1.pins = s.pins ∧ (startRing s d).1.doms = s.doms ∧
    (startRing s d).1.hp = s.hp ∧ (startRing s d).1.map = s.map ∧ (startRing s d).1.rst = s.rst ∧ (startRing s d).1.ten = s.ten ∧
    (startRing s d).1.bat = s.bat ∧ (startRing s d).1.shb = s.shb ∧ (startRing s d).1.warp = s.warp ∧ (startRing s d).1.mg = s.mg ∧
    (startRing s d).1.cfl = s.cfl ∧ (startRing s d).1.store = s.store ∧ (startRing s d).1.i3c = s.i3c ∧ (startRing s d).1.free = s.free ∧
    (startRing s d).1.pending = s.pending := by
  unfold startRing
  and_intros <;> first | with_reducible rfl | (simp; done) | ((repeat' split) <;> first | with_reducible rfl | simp; done)

@[simp] theorem fillRing_frame (s : State) (copyB : Bool) :
    (fillRing s copyB).aon = s.aon ∧ (fillRing s copyB).log = s.log ∧ (fillRing s copyB).pins = s.pins ∧ (fillRing s copyB).doms = s.doms
    ∧ (fillRing s copyB).hp = s.hp ∧ (fillRing s copyB).map = s.map ∧ (fillRing s copyB).rst = s.rst ∧ (fillRing s copyB).ten = s.ten ∧
    (fillRing s copyB).bat = s.bat ∧ (fillRing s copyB).shb = s.shb ∧ (fillRing s copyB).warp = s.warp ∧ (fillRing s copyB).mg = s.mg ∧
    (fillRing s copyB).cfl = s.cfl ∧ (fillRing s copyB).store = s.store ∧ (fillRing s copyB).i3c = s.i3c ∧ (fillRing s copyB).free =
    s.free ∧ (fillRing s copyB).pending = s.pending := by
  unfold fillRing
  and_intros <;> first | with_reducible rfl | (simp; done) | ((repeat' split) <;> first | with_reducible rfl | simp; done)

@[simp] theorem freeRing_frame (s : State) (r : Ring) :
    (freeRing s r).aon = s.aon ∧ (freeRing s r).log = s.log ∧ (freeRing s r).pins = s.pins ∧ (freeRing s r).doms = s.doms ∧ (freeRing s
    r).hp = s.hp ∧ (freeRing s r).map = s.map ∧ (freeRing s r).rst = s.rst ∧ (freeRing s r).ten = s.ten ∧ (freeRing s r).bat = s.bat ∧
    (freeRing s r).shb = s.shb ∧ (freeRing s r).warp = s.warp ∧ (freeRing s r).mg = s.mg ∧ (freeRing s r).cfl = s.cfl ∧ (freeRing s
    r).store = s.store ∧ (freeRing s r).i3c = s.i3c ∧ (freeRing s r).free = s.free ∧ (freeRing s r).pending = s.pending := by
  unfold freeRing
  and_intros <;> first | with_reducible rfl | (simp; done) | ((repeat' split) <;> first | with_reducible rfl | simp; done)

/-! ## Options.lean -/

@[simp] theorem loadOptions_frame (s : State) :
    (loadOptions s).pins = s.pins ∧ (loadOptions s).doms = s.doms ∧ (loadOptions s).hp = s.hp ∧ (loadOptions s).map = s.map ∧ (loadOptions
    s).nand = s.nand ∧ (loadOptions s).rst = s.rst ∧ (loadOptions s).ten = s.ten ∧ (loadOptions s).bat = s.bat ∧ (loadOptions s).shb =
    s.shb ∧ (loadOptions s).warp = s.warp ∧ (loadOptions s).mg = s.mg ∧ (loadOptions s).cfl = s.cfl ∧ (loadOptions s).store = s.store ∧
    (loadOptions s).i3c = s.i3c ∧ (loadOptions s).free = s.free ∧ (loadOptions s).pending = s.pending ∧ (loadOptions s).aon.hold =
    s.aon.hold ∧ (loadOptions s).aon.img = s.aon.img ∧ (loadOptions s).aon.por = s.aon.por := by
  unfold loadOptions
  and_intros <;> first | with_reducible rfl | (simp; done) | ((repeat' split) <;> first | with_reducible rfl | simp; done)

@[simp] theorem loadProtection_frame (s : State) :
    (loadProtection s).aon = s.aon ∧ (loadProtection s).pins = s.pins ∧ (loadProtection s).doms = s.doms ∧ (loadProtection s).hp = s.hp ∧
    (loadProtection s).map = s.map ∧ (loadProtection s).nand = s.nand ∧ (loadProtection s).rst = s.rst ∧ (loadProtection s).ten = s.ten ∧
    (loadProtection s).bat = s.bat ∧ (loadProtection s).shb = s.shb ∧ (loadProtection s).warp = s.warp ∧ (loadProtection s).mg = s.mg ∧
    (loadProtection s).store = s.store ∧ (loadProtection s).i3c = s.i3c ∧ (loadProtection s).free = s.free ∧ (loadProtection s).pending =
    s.pending ∧ (loadProtection s).cfl.words = s.cfl.words := by
  unfold loadProtection
  and_intros <;> first | with_reducible rfl | (simp; done) | ((repeat' split) <;> first | with_reducible rfl | simp; done)

end Sys2Proof.Machine
end

