-- ==== Sys2Proof/Laws/KeyWrap.lean ====
section
/-! SUPPORT. The key wrap of RFC 3394: unwrapping what was wrapped under the same key gives it back. -/

namespace Sys2Proof.Machine

theorem blocks64_bytes64 (x : DWord) (l : List Byte) : blocks64 (bytes64 x ++ l) = x :: blocks64 l := by
  have h : x.extractLsb' 56 8 ++ x.extractLsb' 48 8 ++ x.extractLsb' 40 8 ++ x.extractLsb' 32 8 ++ x.extractLsb' 24 8 ++ x.extractLsb' 16 8 ++
      x.extractLsb' 8 8 ++ x.extractLsb' 0 8 = x := by
    have j : ∀ a b c : Nat, a = b + 8 → x.extractLsb' a c ++ x.extractLsb' b 8 = x.extractLsb' b (c + 8) := fun a b c h => by
      rw [h, BitVec.extractLsb'_append_extractLsb'_eq_extractLsb' rfl]
    rw [j 56 48 _ rfl, j 48 40 _ rfl, j 40 32 _ rfl, j 32 24 _ rfl, j 24 16 _ rfl, j 16 8 _ rfl, j 8 0 _ rfl]
    exact BitVec.extractLsb'_eq_self
  simp only [bytes64, List.cons_append, List.nil_append, blocks64]
  exact congrArg (· :: _) h

theorem blocks64_flatMap (l : List DWord) : blocks64 (l.flatMap bytes64) = l := by
  induction l with
  | nil => rfl
  | cons x l ih => rw [List.flatMap_cons, blocks64_bytes64, ih]

theorem flatMap_bytes64_length (l : List DWord) : (l.flatMap bytes64).length = 8 * l.length := by
  induction l with
  | nil => rfl
  | cons x l ih => simp only [List.flatMap_cons, List.length_append, ih, List.length_cons]; simp [bytes64]; omega

/-- A byte string of whole blocks is the bytes of its blocks. -/
theorem flatMap_blocks64 : ∀ l : List Byte, l.length % 8 = 0 → (blocks64 l).flatMap bytes64 = l
  | [], _ => rfl
  | a :: b :: c :: d :: e :: f :: g :: h :: t, hl => by
    have ih := flatMap_blocks64 t (by simp only [List.length_cons] at hl; omega)
    rw [blocks64, List.flatMap_cons, ih]
    have lo : ∀ {n : Nat} (x : BitVec n) (y : BitVec 8), (x ++ y).extractLsb' 0 8 = y := fun x y => by
      rw [BitVec.extractLsb'_append_eq_of_add_le (by omega)]; exact BitVec.extractLsb'_eq_self
    have hi : ∀ (i : Nat) {n : Nat} (x : BitVec n) (y : BitVec 8), (x ++ y).extractLsb' (i + 8) 8 = x.extractLsb' i 8 := fun i _ x y => by
      rw [BitVec.extractLsb'_append_eq_of_le (by omega), Nat.add_sub_cancel]
    have p8 : ∀ {n : Nat} (x : BitVec n) (y : BitVec 8), (x ++ y).extractLsb' 8 8 = _ := @hi 0
    have p16 : ∀ {n : Nat} (x : BitVec n) (y : BitVec 8), (x ++ y).extractLsb' 16 8 = _ := @hi 8
    have p24 : ∀ {n : Nat} (x : BitVec n) (y : BitVec 8), (x ++ y).extractLsb' 24 8 = _ := @hi 16
    have p32 : ∀ {n : Nat} (x : BitVec n) (y : BitVec 8), (x ++ y).extractLsb' 32 8 = _ := @hi 24
    have p40 : ∀ {n : Nat} (x : BitVec n) (y : BitVec 8), (x ++ y).extractLsb' 40 8 = _ := @hi 32
    have p48 : ∀ {n : Nat} (x : BitVec n) (y : BitVec 8), (x ++ y).extractLsb' 48 8 = _ := @hi 40
    have p56 : ∀ {n : Nat} (x : BitVec n) (y : BitVec 8), (x ++ y).extractLsb' 56 8 = _ := @hi 48
    have e : bytes64 (a ++ b ++ c ++ d ++ e ++ f ++ g ++ h) = [a, b, c, d, e, f, g, h] := by
      simp only [bytes64, p8, p16, p24, p32, p40, p48, p56, lo, BitVec.extractLsb'_eq_self]
    rw [e]; rfl
  | [_], h | [_, _], h | [_, _, _], h | [_, _, _, _], h | [_, _, _, _, _], h | [_, _, _, _, _, _], h | [_, _, _, _, _, _, _], h => by
    simp at h

theorem unwrapStep_wrapStep (k : List Byte) (t : Nat) (a r : DWord) : unwrapStep k t (wrapStep k t a r).1 (wrapStep k t a r).2 = (a, r) := by
  simp only [unwrapStep, wrapStep, BitVec.xor_assoc, BitVec.xor_self, BitVec.xor_zero]
  have h : ∀ x : BitVec 128, x.extractLsb' 64 64 ++ x.extractLsb' 0 64 = x := fun x => by
    show x.extractLsb' (0 + 64) 64 ++ _ = x
    rw [BitVec.extractLsb'_append_extractLsb'_eq_extractLsb' rfl]; exact BitVec.extractLsb'_eq_self
  have h1 : (a ++ r).extractLsb' 64 64 = a := by
    rw [BitVec.extractLsb'_append_eq_of_le (by omega)]; exact BitVec.extractLsb'_eq_self
  have h2 : (a ++ r).extractLsb' 0 64 = r := by
    rw [BitVec.extractLsb'_append_eq_of_add_le (by omega)]; exact BitVec.extractLsb'_eq_self
  rw [h, Equiv.symm_apply_apply, h1, h2]

theorem unwrapPass_wrapPass (k : List Byte) (t : Nat) (a : DWord) (l : List DWord) :
    unwrapPass k t (wrapPass k t a l).1 (wrapPass k t a l).2 = (a, l) := by
  induction l generalizing t a with
  | nil => rfl
  | cons r l ih => simp only [wrapPass, unwrapPass, ih, unwrapStep_wrapStep]

theorem wrapPass_length (k : List Byte) (t : Nat) (a : DWord) (l : List DWord) : (wrapPass k t a l).2.length = l.length := by
  induction l generalizing t a with
  | nil => rfl
  | cons r l ih => simp only [wrapPass, List.length_cons, ih]

theorem unwrapPasses_wrapPasses (k : List Byte) (n m : Nat) (x : DWord × List DWord) : unwrapPasses k n m (wrapPasses k n m x) = x := by
  induction m with
  | zero => rfl
  | succ m ih => simp only [wrapPasses, unwrapPasses, unwrapPass_wrapPass, Prod.mk.eta, ih]

theorem wrapPasses_length (k : List Byte) (n m : Nat) (x : DWord × List DWord) : (wrapPasses k n m x).2.length = x.2.length := by
  induction m with
  | zero => rfl
  | succ m ih => simp only [wrapPasses, wrapPass_length, ih]

/-- Unwrapping undoes the wrap of a key of whole blocks. -/
theorem keyUnwrap_keyWrap (k key : List Byte) (h : key.length % 8 = 0) : keyUnwrap k (keyWrap k key) = some key := by
  simp only [keyUnwrap, keyWrap, blocks64_flatMap, flatMap_bytes64_length, wrapPasses_length, Prod.mk.eta, unwrapPasses_wrapPasses,
    flatMap_blocks64 key h]
  simp

/-- A key that the check passes is a whole number of blocks. -/
theorem keyUnwrap_length (k w key : List Byte) (h : keyUnwrap k w = some key) : key.length % 8 = 0 := by
  unfold keyUnwrap at h
  split at h
  · cases h
  · dsimp only at h
    split at h
    · cases h; rw [flatMap_bytes64_length]; omega
    · cases h

theorem keyWrap_length (k key : List Byte) : (keyWrap k key).length = 8 * ((blocks64 key).length + 1) := by
  rw [keyWrap, flatMap_bytes64_length, List.length_cons, wrapPasses_length]

end Sys2Proof.Machine
end

