-- ==== Sys2Proof/Laws/VerbsKept.lean ====
section
/-! SUPPORT. The same for the verbs and for what the transports run: no verb breaks the canonical form of the code flash. -/

namespace Sys2Proof.Machine

theorem verb_words (k : Sess) (need : Priv) (s0Only : Bool) (states : List HoldState) (refusals : State → List (Bool × Nat)) (f : Verb)
    (hf : ∀ s, flashWf s.cfl.words = true → flashWf (f s).1.cfl.words = true) (s : State) (hw : flashWf s.cfl.words = true) :
    flashWf (verb k need s0Only states refusals f s).1.cfl.words = true := by
  unfold verb
  (repeat' split) <;> first | exact hf s hw | simpa using hw

@[simp] theorem okAns_words (s : State) (fields : List (String × Val)) : (okAns s fields).1.cfl.words = s.cfl.words := by
  unfold okAns
  simp

@[simp] theorem waitFor_words (s : State) (k : Sess) (b : Busy) : (waitFor s k b).cfl.words = s.cfl.words := by
  unfold waitFor
  simp

@[simp] theorem workOn_words (s : State) (k : Sess) (b : Busy) (f : State → State) (hf : ∀ s, flashWf s.cfl.words = true → flashWf (f s).cfl.words = true) (hw : flashWf s.cfl.words = true) :
    flashWf (workOn s k b f).1.cfl.words = true := by
  have h := hf (waitFor s k b) (by simpa [waitFor] using hw)
  unfold workOn
  dsimp only
  split <;> exact h

@[simp] theorem storesCfg_words (s : State) : (storesCfg s).cfl.words = s.cfl.words := by
  unfold storesCfg
  simp

@[simp] theorem setStaged_words (s : State) (k : Sess) (kind : UploadKind) (l : List Byte) :
    (setStaged s k kind l).cfl.words = s.cfl.words := by
  unfold setStaged
  simp

@[simp] theorem stagePiece_words (s : State) (k : Sess) (kind : UploadKind) (off : Nat) (data : List Byte) :
    (stagePiece s k kind off data).cfl.words = s.cfl.words := by
  unfold stagePiece
  simp

@[simp] theorem flashWork_words (s : State) (k : Sess) (use : CflUse) : (flashWork s k use).1.cfl.words = s.cfl.words := by
  unfold flashWork workOn
  dsimp only
  split <;> simp [waitFor]

@[simp] theorem flashVerb_words (k : Sess) (s : State) (hw : flashWf s.cfl.words = true) : flashWf (flashVerb k s).1.cfl.words = true := by
  unfold flashVerb
  refine verb_words _ _ _ _ _ _ (fun s hw => ?_) s hw
  simp (maxDischargeDepth := 8) [*]

@[simp] theorem flashOptVerb_words (k : Sess) (s : State) (hw : flashWf s.cfl.words = true) :
    flashWf (flashOptVerb k s).1.cfl.words = true := by
  unfold flashOptVerb
  refine verb_words _ _ _ _ _ _ (fun s hw => ?_) s hw
  simp (maxDischargeDepth := 8) [*]

@[simp] theorem flashOptSetVerb_words (k : Sess) (keys : List (OptKey × Nat)) (s : State) (hw : flashWf s.cfl.words = true) :
    flashWf (flashOptSetVerb k keys s).1.cfl.words = true := by
  unfold flashOptSetVerb
  refine verb_words _ _ _ _ _ _ (fun s hw => ?_) s hw
  simp (maxDischargeDepth := 8) [*]

@[simp] theorem tryPassword_words (s : State) (k : Sess) (pwd : List Byte) : (tryPassword s k pwd).1.cfl.words = s.cfl.words := by
  unfold tryPassword
  simp

@[simp] theorem flashUnlockVerb_words (k : Sess) (pwd : List Byte) (s : State) (hw : flashWf s.cfl.words = true) :
    flashWf (flashUnlockVerb k pwd s).1.cfl.words = true := by
  unfold flashUnlockVerb
  refine verb_words _ _ _ _ _ _ (fun s hw => ?_) s hw
  simp (maxDischargeDepth := 8) [*]

@[simp] theorem flashLockVerb_words (k : Sess) (s : State) (hw : flashWf s.cfl.words = true) :
    flashWf (flashLockVerb k s).1.cfl.words = true := by
  unfold flashLockVerb
  refine verb_words _ _ _ _ _ _ (fun s hw => ?_) s hw
  simp (maxDischargeDepth := 8) [*]

@[simp] theorem flashProtectVerb_words (k : Sess) (first last state : Nat) (s : State) (hw : flashWf s.cfl.words = true) :
    flashWf (flashProtectVerb k first last state s).1.cfl.words = true := by
  unfold flashProtectVerb
  refine verb_words _ _ _ _ _ _ (fun s hw => ?_) s hw
  simp (maxDischargeDepth := 8) [*]

@[simp] theorem flashPasswordVerb_words (k : Sess) (pwd : List Byte) (s : State) (hw : flashWf s.cfl.words = true) :
    flashWf (flashPasswordVerb k pwd s).1.cfl.words = true := by
  unfold flashPasswordVerb
  refine verb_words _ _ _ _ _ _ (fun s hw => ?_) s hw
  simp (maxDischargeDepth := 8) [*]

@[simp] theorem flashScrubVerb_words (k : Sess) (region : Nat) (s : State) (hw : flashWf s.cfl.words = true) :
    flashWf (flashScrubVerb k region s).1.cfl.words = true := by
  unfold flashScrubVerb
  refine verb_words _ _ _ _ _ _ (fun s hw => ?_) s hw
  simp (maxDischargeDepth := 8) [*]

@[simp] theorem sessionHeader_words (s : State) (k : Sess) (h : List Byte) : (sessionHeader s k h).1.cfl.words = s.cfl.words := by
  unfold sessionHeader
  ((repeat' split) <;> simp)

@[simp] theorem countDiscard_words (s : State) : (countDiscard s).cfl.words = s.cfl.words := by
  unfold countDiscard
  simp

@[simp] theorem sessionSplint_words (s : State) (k : Sess) (idx : Nat) (b : List Byte) :
    (sessionSplint s k idx b).1.cfl.words = s.cfl.words := by
  unfold sessionSplint
  ((repeat' split) <;> simp)

@[simp] theorem fwVerb_words (k : Sess) (s : State) (hw : flashWf s.cfl.words = true) : flashWf (fwVerb k s).1.cfl.words = true := by
  unfold fwVerb
  refine verb_words _ _ _ _ _ _ (fun s hw => ?_) s hw
  simp (maxDischargeDepth := 8) [*]

@[simp] theorem fwMissingVerb_words (k : Sess) (start : Option Nat) (s : State) (hw : flashWf s.cfl.words = true) :
    flashWf (fwMissingVerb k start s).1.cfl.words = true := by
  unfold fwMissingVerb
  refine verb_words _ _ _ _ _ _ (fun s hw => ?_) s hw
  simp (maxDischargeDepth := 8) [*]

@[simp] theorem fwPutHdrVerb_words (k : Sess) (off : Nat) (data : List Byte) (s : State) (hw : flashWf s.cfl.words = true) :
    flashWf (fwPutHdrVerb k off data s).1.cfl.words = true := by
  unfold fwPutHdrVerb
  refine verb_words _ _ _ _ _ _ (fun s hw => ?_) s hw
  simp (maxDischargeDepth := 8) [*]

@[simp] theorem fwPutVerb_words (k : Sess) (idx off : Nat) (data : List Byte) (s : State) (hw : flashWf s.cfl.words = true) :
    flashWf (fwPutVerb k idx off data s).1.cfl.words = true := by
  unfold fwPutVerb
  refine verb_words _ _ _ _ _ _ (fun s hw => ?_) s hw
  simp (maxDischargeDepth := 8) [*]

@[simp] theorem fwActivateVerb_words (k : Sess) (s : State) (hw : flashWf s.cfl.words = true) :
    flashWf (fwActivateVerb k s).1.cfl.words = true := by
  unfold fwActivateVerb
  refine verb_words _ _ _ _ _ _ (fun s hw => ?_) s hw
  ((repeat' split) <;> simp (maxDischargeDepth := 8) [*])

@[simp] theorem fwAbortVerb_words (k : Sess) (s : State) (hw : flashWf s.cfl.words = true) :
    flashWf (fwAbortVerb k s).1.cfl.words = true := by
  unfold fwAbortVerb
  refine verb_words _ _ _ _ _ _ (fun s hw => ?_) s hw
  simp (maxDischargeDepth := 8) [*]

@[simp] theorem setJob_words (s : State) (j : EraseJob) : (setJob s j).cfl.words = s.cfl.words := by
  unfold setJob
  simp

@[simp] theorem answerErase_words (s : State) (j : EraseJob) (verified : Bool) : (answerErase s j verified).cfl.words = s.cfl.words := by
  unfold answerErase
  simp

@[simp] theorem resumeErases_words (s : State) (hw : flashWf s.cfl.words = true) : flashWf (resumeErases s).cfl.words = true := by
  unfold resumeErases
  simp (maxDischargeDepth := 8) [*]

@[simp] theorem keyOwnerVerb_words (k : Sess) (plain : Bool) (blob : List Byte) (s : State) (hw : flashWf s.cfl.words = true) :
    flashWf (keyOwnerVerb k plain blob s).1.cfl.words = true := by
  unfold keyOwnerVerb
  refine verb_words _ _ _ _ _ _ (fun s hw => ?_) s hw
  simp (maxDischargeDepth := 8) [*]

@[simp] theorem keyAnswer_words (s : State) (t : Tenant) : (keyAnswer s t).1.cfl.words = s.cfl.words := by
  unfold keyAnswer
  simp

@[simp] theorem keyLoadVerb_words (k : Sess) (t : Nat) (blob : List Byte) (s : State) (hw : flashWf s.cfl.words = true) :
    flashWf (keyLoadVerb k t blob s).1.cfl.words = true := by
  unfold keyLoadVerb
  refine verb_words _ _ _ _ _ _ (fun s hw => ?_) s hw
  simp (maxDischargeDepth := 8) [*]

@[simp] theorem keyGenVerb_words (k : Sess) (t : Nat) (s : State) (hw : flashWf s.cfl.words = true) :
    flashWf (keyGenVerb k t s).1.cfl.words = true := by
  unfold keyGenVerb
  refine verb_words _ _ _ _ _ _ (fun s hw => ?_) s hw
  simp (maxDischargeDepth := 8) [*]

@[simp] theorem keyEraseVerb_words (k : Sess) (t : Nat) (s : State) (hw : flashWf s.cfl.words = true) :
    flashWf (keyEraseVerb k t s).1.cfl.words = true := by
  unfold keyEraseVerb
  refine verb_words _ _ _ _ _ _ (fun s hw => ?_) s hw
  simp (maxDischargeDepth := 8) [*]

@[simp] theorem keyShowVerb_words (k : Sess) (t : Nat) (s : State) (hw : flashWf s.cfl.words = true) :
    flashWf (keyShowVerb k t s).1.cfl.words = true := by
  unfold keyShowVerb
  refine verb_words _ _ _ _ _ _ (fun s hw => ?_) s hw
  simp (maxDischargeDepth := 8) [*]

@[simp] theorem powerOnReset_words (s : State) (hw : flashWf s.cfl.words = true) : flashWf (powerOnReset s).cfl.words = true := by
  unfold powerOnReset
  simp (maxDischargeDepth := 8) [*]

@[simp] theorem porPhase_words (s : State) (p : PorPhase) (f : State → State) (hf : ∀ s, flashWf s.cfl.words = true → flashWf (f s).cfl.words = true) (hw : flashWf s.cfl.words = true) :
    flashWf (porPhase s p f).cfl.words = true := by
  unfold porPhase
  (repeat' split) <;> first | exact hw | exact hf _ hw

@[simp] theorem setPor_words (s : State) (p : PorPhase) : (setPor s p).cfl.words = s.cfl.words := by
  unfold setPor
  simp

@[simp] theorem setXtal_words (s : State) (x : Xtal) : (setXtal s x).cfl.words = s.cfl.words := by
  unfold setXtal
  simp

@[simp] theorem wakeStakes_words (s : State) : (wakeStakes s).cfl.words = s.cfl.words := by
  unfold wakeStakes
  simp [foldl_words]

@[simp] theorem applyWake_words (s : State) (target : State → Dom → DMode) (hw : flashWf s.cfl.words = true) :
    flashWf (applyWake s target).cfl.words = true := by
  unfold applyWake
  simp (maxDischargeDepth := 8) [*]

@[simp] theorem bootEntry_words (s : State) : (bootEntry s).cfl.words = s.cfl.words := by
  unfold bootEntry
  simp

@[simp] theorem warmReset_words (s : State) (hw : flashWf s.cfl.words = true) : flashWf (warmReset s).cfl.words = true := by
  unfold warmReset
  simp (maxDischargeDepth := 12) [*, foldl_words, foldl_wf]

@[simp] theorem requestWarm_words (s : State) (hw : flashWf s.cfl.words = true) : flashWf (requestWarm s).cfl.words = true := by
  unfold requestWarm
  split
  · exact hw
  · exact warmReset_words s hw

@[simp] theorem afterOperation_words (s : State) (hw : flashWf s.cfl.words = true) : flashWf (afterOperation s).cfl.words = true := by
  unfold afterOperation
  split
  · exact warmReset_words s hw
  · exact hw

@[simp] theorem supplyModes_words (s : State) (hw : flashWf s.cfl.words = true) : flashWf (supplyModes s).cfl.words = true := by
  unfold supplyModes
  ((repeat' split) <;> simp (maxDischargeDepth := 8) [*])

@[simp] theorem nearCut_words (s : State) (c : Cause) : (nearCut s c).cfl.words = s.cfl.words := by
  unfold nearCut
  (repeat' split) <;> simp

@[simp] theorem portsFail_words (s : State) (hw : flashWf s.cfl.words = true) : flashWf (portsFail s).cfl.words = true := by
  unfold portsFail
  dsimp only
  (repeat' split) <;> simp_all (maxDischargeDepth := 12) [foldl_words, foldl_wf]

@[simp] theorem markFailed_words (s : State) (d : Dom) (kind : PowerFail) (hw : flashWf s.cfl.words = true) :
    flashWf (markFailed s d kind).cfl.words = true := by
  unfold markFailed
  simp (maxDischargeDepth := 8) [*]

@[simp] theorem relock_words (s : State) : (relock s).cfl.words = s.cfl.words := by
  unfold relock
  simp

@[simp] theorem drawInstance_words (s : State) : (drawInstance s).cfl.words = s.cfl.words := by
  unfold drawInstance
  simp

@[simp] theorem noteCorrected_words (s : State) (n : LaneId) : (noteCorrected s n).cfl.words = s.cfl.words := by
  unfold noteCorrected
  simp

@[simp] theorem notePoison_words (s : State) (n : LaneId) (f : Flit) (hw : flashWf s.cfl.words = true) :
    flashWf (notePoison s n f).cfl.words = true := by
  unfold notePoison
  dsimp only
  (repeat' split) <;> simp_all (maxDischargeDepth := 12) [foldl_words, foldl_wf]

@[simp] theorem reportEnd_words (s : State) (n : LaneId) (tag : BitVec 8) (how : WorkEnd) :
    (reportEnd s n tag how).cfl.words = s.cfl.words := by
  unfold reportEnd
  (repeat' split) <;> simp

@[simp] theorem programFilters_words (s : State) : (programFilters s).cfl.words = s.cfl.words := by
  unfold programFilters
  simp

@[simp] theorem joinStripe_words (s : State) (d : Dom) : (joinStripe s d).cfl.words = s.cfl.words := by
  unfold joinStripe
  simp

@[simp] theorem coreLost_words (s : State) (d : Dom) (hw : flashWf s.cfl.words = true) : flashWf (coreLost s d).cfl.words = true := by
  unfold coreLost
  ((repeat' split) <;> simp (maxDischargeDepth := 8) [*])

@[simp] theorem setChg_words (s : State) (m : ChgMode) : (setChg s m).cfl.words = s.cfl.words := by
  unfold setChg
  simp

@[simp] theorem chargeEnds_words (s : State) : (chargeEnds s).cfl.words = s.cfl.words := by
  unfold chargeEnds
  simp

@[simp] theorem callMode_words (s : State) : (callMode s).cfl.words = s.cfl.words := by
  unfold callMode
  simp

@[simp] theorem leavePause_words (s : State) : (leavePause s).cfl.words = s.cfl.words := by
  unfold leavePause
  simp

@[simp] theorem qualifyCharger_words (s : State) : (qualifyCharger s).cfl.words = s.cfl.words := by
  unfold qualifyCharger
  simp

@[simp] theorem writeSetpoint_words (s : State) : (writeSetpoint s).cfl.words = s.cfl.words := by
  unfold writeSetpoint
  simp

@[simp] theorem followCharger_words (s : State) : (followCharger s).cfl.words = s.cfl.words := by
  unfold followCharger
  simp

@[simp] theorem chargerFault_words (s : State) (cause : Nat) : (chargerFault s cause).cfl.words = s.cfl.words := by
  unfold chargerFault
  simp

@[simp] theorem endPause_words (s : State) (cause : PauseCause) : (endPause s cause).cfl.words = s.cfl.words := by
  unfold endPause
  simp

@[simp] theorem chargerTrips_words (s : State) (cause : Nat) : (chargerTrips s cause).cfl.words = s.cfl.words := by
  unfold chargerTrips
  simp

@[simp] theorem clearRetry_words (s : State) : (clearRetry s).cfl.words = s.cfl.words := by
  unfold clearRetry
  simp

@[simp] theorem setResult_words (s : State) (r : PackResult) : (setResult s r).cfl.words = s.cfl.words := by
  unfold setResult
  simp

@[simp] theorem stopEstimator_words (s : State) : (stopEstimator s).cfl.words = s.cfl.words := by
  unfold stopEstimator
  simp

@[simp] theorem learnPack_words (s : State) (serial rsInit : Nat) : (learnPack s serial rsInit).cfl.words = s.cfl.words := by
  unfold learnPack
  simp

@[simp] theorem keepPack_words (s : State) (r : PackRec) : (keepPack s r).cfl.words = s.cfl.words := by
  unfold keepPack
  simp

@[simp] theorem packIdentified_words (s : State) (b : List Byte) : (packIdentified s b).cfl.words = s.cfl.words := by
  unfold packIdentified
  simp
  (repeat' split) <;> simp [foldl_words]

@[simp] theorem packAnonymous_words (s : State) : (packAnonymous s).cfl.words = s.cfl.words := by
  unfold packAnonymous
  simp

@[simp] theorem resetRejected_words (s : State) : (resetRejected s).cfl.words = s.cfl.words := by
  unfold resetRejected
  simp

@[simp] theorem countCycles_words (s : State) (amp : ℚ) : (countCycles s amp).cfl.words = s.cfl.words := by
  unfold countCycles
  (repeat' split) <;> simp

@[simp] theorem addLoad_words (s : State) (dt : ℚ) : (addLoad s dt).cfl.words = s.cfl.words := by
  unfold addLoad
  simp

@[simp] theorem stepFilter_words (s : State) (r : PackRec) (x : Sample) (dt : ℚ) : (stepFilter s r x dt).cfl.words = s.cfl.words := by
  unfold stepFilter
  simp

@[simp] theorem addChargeTime_words (s : State) (ms : Nat) : (addChargeTime s ms).cfl.words = s.cfl.words := by
  unfold addChargeTime
  simp

@[simp] theorem storeCheckpoint_words (s : State) : (storeCheckpoint s).cfl.words = s.cfl.words := by
  unfold storeCheckpoint
  simp

@[simp] theorem noteImbalance_words (s : State) (x : Sample) : (noteImbalance s x).cfl.words = s.cfl.words := by
  unfold noteImbalance
  simp

@[simp] theorem senseFails_words (s : State) : (senseFails s).cfl.words = s.cfl.words := by
  unfold senseFails
  simp

@[simp] theorem takeSample_words (s : State) (x : Sample) (icmd : Nat) : (takeSample s x icmd).cfl.words = s.cfl.words := by
  unfold takeSample
  simp

@[simp] theorem takeAnchor_words (s : State) (cells : List Nat) : (takeAnchor s cells).cfl.words = s.cfl.words := by
  unfold takeAnchor
  ((repeat' split) <;> simp)

@[simp] theorem resumeEstimator_words (s : State) : (resumeEstimator s).cfl.words = s.cfl.words := by
  unfold resumeEstimator
  simp
  (repeat' split) <;> simp [foldl_words]

@[simp] theorem noteProbe_words (s : State) (cell : Nat) (ok : Bool) : (noteProbe s cell ok).cfl.words = s.cfl.words := by
  unfold noteProbe
  simp

@[simp] theorem probeSer_words (s : State) (cell : Nat) (z m : ℚ) : (probeSer s cell z m).cfl.words = s.cfl.words := by
  unfold probeSer
  (repeat' split) <;> simp

@[simp] theorem probePol_words (s : State) (cell : Nat) (z m : ℚ) : (probePol s cell z m).cfl.words = s.cfl.words := by
  unfold probePol
  (repeat' split) <;> simp

@[simp] theorem estAfterProbe_words (s : State) : (estAfterProbe s).cfl.words = s.cfl.words := by
  unfold estAfterProbe
  simp

@[simp] theorem openRest_words (s : State) : (openRest s).cfl.words = s.cfl.words := by
  unfold openRest
  simp

@[simp] theorem batVerb_words (k : Sess) (s : State) (hw : flashWf s.cfl.words = true) : flashWf (batVerb k s).1.cfl.words = true := by
  unfold batVerb
  refine verb_words _ _ _ _ _ _ (fun s hw => ?_) s hw
  simp (maxDischargeDepth := 8) [*]

@[simp] theorem batSetVerb_words (k : Sess) (keys : List (BatKey × Nat)) (s : State) (hw : flashWf s.cfl.words = true) :
    flashWf (batSetVerb k keys s).1.cfl.words = true := by
  unfold batSetVerb
  refine verb_words _ _ _ _ _ _ (fun s hw => ?_) s hw
  simp (maxDischargeDepth := 8) [*]

@[simp] theorem batClearVerb_words (k : Sess) (s : State) (hw : flashWf s.cfl.words = true) :
    flashWf (batClearVerb k s).1.cfl.words = true := by
  unfold batClearVerb
  refine verb_words _ _ _ _ _ _ (fun s hw => ?_) s hw
  simp (maxDischargeDepth := 8) [*]

@[simp] theorem batRestVerb_words (k : Sess) (s : State) (hw : flashWf s.cfl.words = true) :
    flashWf (batRestVerb k s).1.cfl.words = true := by
  unfold batRestVerb
  refine verb_words _ _ _ _ _ _ (fun s hw => ?_) s hw
  simp (maxDischargeDepth := 8) [*]

@[simp] theorem batOcvloadVerb_words (k : Sess) (chem off : Nat) (data : List Byte) (s : State) (hw : flashWf s.cfl.words = true) :
    flashWf (batOcvloadVerb k chem off data s).1.cfl.words = true := by
  unfold batOcvloadVerb
  refine verb_words _ _ _ _ _ _ (fun s hw => ?_) s hw
  simp (maxDischargeDepth := 8) [*]

@[simp] theorem batOcvloadCommitVerb_words (k : Sess) (chem : Nat) (s : State) (hw : flashWf s.cfl.words = true) :
    flashWf (batOcvloadCommitVerb k chem s).1.cfl.words = true := by
  unfold batOcvloadCommitVerb
  refine verb_words _ _ _ _ _ _ (fun s hw => ?_) s hw
  simp (maxDischargeDepth := 8) [*]

@[simp] theorem batTableVerb_words (k : Sess) (cell : Nat) (s : State) (hw : flashWf s.cfl.words = true) :
    flashWf (batTableVerb k cell s).1.cfl.words = true := by
  unfold batTableVerb
  refine verb_words _ _ _ _ _ _ (fun s hw => ?_) s hw
  simp (maxDischargeDepth := 8) [*]

@[simp] theorem setBoot_words (s : State) (f : BootSt → BootSt) : (setBoot s f).cfl.words = s.cfl.words := by
  unfold setBoot
  simp

@[simp] theorem firstTable_words (s : State) : (firstTable s).cfl.words = s.cfl.words := by
  unfold firstTable
  simp

@[simp] theorem startWarp_words (s : State) : (startWarp s).cfl.words = s.cfl.words := by
  unfold startWarp
  simp

@[simp] theorem noBank_words (s : State) (hw : flashWf s.cfl.words = true) : flashWf (noBank s).cfl.words = true := by
  unfold noBank
  simp (maxDischargeDepth := 8) [*]

@[simp] theorem bankFails_words (s : State) (hw : flashWf s.cfl.words = true) : flashWf (bankFails s).cfl.words = true := by
  unfold bankFails
  simp (maxDischargeDepth := 8) [*]

@[simp] theorem loadKeys_words (s : State) : (loadKeys s).cfl.words = s.cfl.words := by
  unfold loadKeys
  generalize allFin 256 = l
  refine foldl_words _ ?_ _ _
  intro s t
  dsimp only
  (repeat' split) <;> simp

@[simp] theorem reloadPack_words (s : State) : (reloadPack s).cfl.words = s.cfl.words := by
  unfold reloadPack
  ((repeat' split) <;> simp)

@[simp] theorem raiseThermometer_words (s : State) : (raiseThermometer s).cfl.words = s.cfl.words := by
  unfold raiseThermometer
  simp

@[simp] theorem settleAreas_words (s : State) : (settleAreas s).cfl.words = s.cfl.words := by
  unfold settleAreas
  simp [foldl_words]

@[simp] theorem identify_words (s : State) (facts : NandFacts) : (identify s facts).cfl.words = s.cfl.words := by
  unfold identify
  simp [foldl_words]

@[simp] theorem uniteGrown_words (s : State) : (uniteGrown s).cfl.words = s.cfl.words := by
  unfold uniteGrown
  simp

@[simp] theorem applyGrown_words (s : State) : (applyGrown s).cfl.words = s.cfl.words := by
  unfold applyGrown
  simp [foldl_words]

@[simp] theorem walkFree_words (zeroBits : List ((Die × Nat) × Nat)) (d : Die) (n : Nat) (s : State) :
    (walkFree zeroBits d n s).cfl.words = s.cfl.words := by
  induction n generalizing s with
  | zero => rfl
  | succ n ih =>
    unfold walkFree
    (repeat' split) <;> simp [ih]

@[simp] theorem blankChecks_words (s : State) (facts : NandFacts) : (blankChecks s facts).cfl.words = s.cfl.words := by
  have h : ∀ (l : List Die) (s : State),
      (l.foldl (fun s d => walkFree facts.zeroBits d facts.zeroBits.length s) s).cfl.words = s.cfl.words :=
    fun l s => foldl_words _ (fun s d => walkFree_words _ _ _ _) l s
  unfold blankChecks
  dsimp only
  rw [h]
  refine foldl_words _ (fun s g => ?_) _ _
  (repeat' split) <;> simp

@[simp] theorem loadTables_words (s : State) (facts : NandFacts) : (loadTables s facts).cfl.words = s.cfl.words := by
  unfold loadTables
  simp

@[simp] theorem deriveNone_words (s : State) : (deriveNone s).cfl.words = s.cfl.words := by
  unfold deriveNone
  simp

@[simp] theorem derivePending_words (s : State) (r : Rim) (stale rimfb : Bool) :
    (derivePending s r stale rimfb).cfl.words = s.cfl.words := by
  unfold derivePending
  simp

@[simp] theorem chooseRecord_words (s : State) (r : Rim) (stale : Bool) (facts : NandFacts) :
    (chooseRecord s r stale facts).cfl.words = s.cfl.words := by
  unfold chooseRecord
  (repeat' split) <;> simp

@[simp] theorem deriveImage_words (s : State) (failed : Bool) (facts : NandFacts) :
    (deriveImage s failed facts).cfl.words = s.cfl.words := by
  unfold deriveImage
  (repeat' split) <;> simp

@[simp] theorem loadPrevLog_words (s : State) (readable : Bool) : (loadPrevLog s readable).cfl.words = s.cfl.words := by
  unfold loadPrevLog
  ((repeat' split) <;> simp)

@[simp] theorem checkRings_words (s : State) : (checkRings s).cfl.words = s.cfl.words := by
  unfold checkRings
  split
  · rfl
  · split
    · next t h =>
      unfold placeRings at h
      split at h
      · cases h; rfl
      · exact moveRing_words h
      · exact moveRing_words h
      · exact moveBoth_words h
    · rfl

@[simp] theorem endBoot_words (s : State) (hw : flashWf s.cfl.words = true) : flashWf (endBoot s).cfl.words = true := by
  unfold endBoot
  dsimp only
  split
  · split <;> simp (maxDischargeDepth := 8) [hw]
  · simp (maxDischargeDepth := 8) [hw]

@[simp] theorem wipeGroups_words (s : State) (zeroBits : List ((Die × Nat) × Nat)) : (wipeGroups s zeroBits).cfl.words = s.cfl.words := by
  unfold wipeGroups
  simp

@[simp] theorem makeTable_words (s : State) (d : Die) : (makeTable s d).cfl.words = s.cfl.words := by
  unfold makeTable
  ((repeat' split) <;> simp)

@[simp] theorem setShb_words (s : State) (f : Shb → Shb) : (setShb s f).cfl.words = s.cfl.words := by
  unfold setShb
  simp

@[simp] theorem noteNoFrame_words (s : State) : (noteNoFrame s).cfl.words = s.cfl.words := by
  unfold noteNoFrame
  split <;> simp

@[simp] theorem nextCandidate_words (s : State) : (nextCandidate s).cfl.words = s.cfl.words := by
  unfold nextCandidate
  simp

@[simp] theorem noteValid_words (s : State) : (noteValid s).cfl.words = s.cfl.words := by
  unfold noteValid
  simp

@[simp] theorem noteBrs_words (s : State) (run : Nat) : (noteBrs s run).2.cfl.words = s.cfl.words := by
  unfold noteBrs
  ((repeat' split) <;> simp)

@[simp] theorem countReasm_words (s : State) : (countReasm s).cfl.words = s.cfl.words := by
  unfold countReasm
  simp

@[simp] theorem dropPartial_words (s : State) (src : NodeId) (cls : BitVec 3) (type : BitVec 6) (tag : BitVec 10) :
    (dropPartial s src cls type tag).cfl.words = s.cfl.words := by
  unfold dropPartial
  simp

@[simp] theorem reassemble_words (s : State) (x : Frame) : (reassemble s x).cfl.words = s.cfl.words := by
  unfold reassemble
  simp
  (repeat' split) <;> simp [foldl_words]

@[simp] theorem takeFrame_words (s : State) (x : Frame) : (takeFrame s x).cfl.words = s.cfl.words := by
  unfold takeFrame
  simp

@[simp] theorem serveQ0_words (s : State) : (serveQ0 s).cfl.words = s.cfl.words := by
  unfold serveQ0
  simp [foldl_words]

@[simp] theorem enterQ0_words (s : State) (x : Frame) : (enterQ0 s x).cfl.words = s.cfl.words := by
  unfold enterQ0
  simp

@[simp] theorem enterQ1_words (s : State) (x : Frame) (pair : Nat) : (enterQ1 s x pair).cfl.words = s.cfl.words := by
  unfold enterQ1
  ((repeat' split) <;> simp)

@[simp] theorem filterFrame_words (s : State) (x : Frame) : (filterFrame s x).cfl.words = s.cfl.words := by
  unfold filterFrame
  simp
  (repeat' split) <;> simp [foldl_words]

@[simp] theorem receiveOk_words (s : State) : (receiveOk s).cfl.words = s.cfl.words := by
  unfold receiveOk
  simp

@[simp] theorem receiveFrame_words (s : State) (form : FrameForm) (x : Frame) (run : Nat) :
    (receiveFrame s form x run).cfl.words = s.cfl.words := by
  unfold receiveFrame
  ((repeat' split) <;> simp)

@[simp] theorem countFrame_words (s : State) (x : Frame) : (countFrame s x).cfl.words = s.cfl.words := by
  unfold countFrame
  simp

@[simp] theorem setMbox_words (s : State) (n : Fin 16) (f : Mbox → Mbox) : (setMbox s n f).cfl.words = s.cfl.words := by
  unfold setMbox
  simp

@[simp] theorem endMbox_words (s : State) (n : Fin 16) (st : MboxStatus) : (endMbox s n st).cfl.words = s.cfl.words := by
  unfold endMbox
  simp

@[simp] theorem noteSof_words (s : State) (id : CanId) : (noteSof s id).cfl.words = s.cfl.words := by
  unfold noteSof
  simp

@[simp] theorem followSync_words (s : State) (id : CanId) : (followSync s id).cfl.words = s.cfl.words := by
  unfold followSync
  ((repeat' split) <;> simp)

@[simp] theorem dropWire_words (s : State) : (dropWire s).cfl.words = s.cfl.words := by
  unfold dropWire
  simp

@[simp] theorem failAttempt_words (s : State) : (failAttempt s).cfl.words = s.cfl.words := by
  unfold failAttempt
  ((repeat' split) <;> simp)

@[simp] theorem errorInDetection_words (s : State) (brs : Bool) : (errorInDetection s brs).cfl.words = s.cfl.words := by
  unfold errorInDetection
  simp

@[simp] theorem enterBusoff_words (s : State) : (enterBusoff s).cfl.words = s.cfl.words := by
  unfold enterBusoff
  ((repeat' split) <;> simp)

@[simp] theorem countError_words (s : State) (kind : BusErr) (tx : Bool) : (countError s kind tx).cfl.words = s.cfl.words := by
  unfold countError
  simp

@[simp] theorem requestRecovery_words (s : State) : (requestRecovery s).cfl.words = s.cfl.words := by
  unfold requestRecovery
  simp

@[simp] theorem setQ1_words (s : State) (n : Nat) (e : Option Q1Entry) : (setQ1 s n e).cfl.words = s.cfl.words := by
  unfold setQ1
  simp

@[simp] theorem readQ1_words (s : State) (n i : Nat) : (readQ1 s n i).2.cfl.words = s.cfl.words := by
  unfold readQ1
  (repeat' split) <;> simp

@[simp] theorem setReply_words (s : State) (l : List Byte) : (setReply s l).cfl.words = s.cfl.words := by
  unfold setReply
  simp

@[simp] theorem writeWinEn_words (s : State) (on : Bool) : (writeWinEn s on).cfl.words = s.cfl.words := by
  unfold writeWinEn
  dsimp only
  split
  · simp
  · rw [foldl_words]
    · simp
    · intro s n
      split <;> simp

@[simp] theorem flushQ1_words (s : State) : (flushQ1 s).cfl.words = s.cfl.words := by
  unfold flushQ1
  simp

@[simp] theorem writeTxctl_words (s : State) (n : Fin 16) (w : Word) (request cancel : Bool) :
    (writeTxctl s n w request cancel).cfl.words = s.cfl.words := by
  unfold writeTxctl
  simp
  (repeat' split) <;> simp [foldl_words]

@[simp] theorem setFilter_words (s : State) (n : Nat) (f : Filter → Filter) : (setFilter s n f).cfl.words = s.cfl.words := by
  unfold setFilter
  simp

@[simp] theorem flushPipe_words (s : State) (k : Sess) : (flushPipe s k).cfl.words = s.cfl.words := by
  unfold flushPipe
  simp

@[simp] theorem writePipeCtrl_words (s : State) (k : Sess) (w : Word) : (writePipeCtrl s k w).cfl.words = s.cfl.words := by
  unfold writePipeCtrl
  simp

@[simp] theorem writeWindow_words (s : State) (off : Nat) (w : Word) : (writeWindow s off w).cfl.words = s.cfl.words := by
  unfold writeWindow
  ((repeat' split) <;> simp)

@[simp] theorem onWindow_words (s : State) (f : State → State) (hf : ∀ s, flashWf s.cfl.words = true → flashWf (f s).cfl.words = true) (hw : flashWf s.cfl.words = true) :
    flashWf (onWindow s f).cfl.words = true := by
  unfold onWindow
  (repeat' split) <;> first | exact hw | exact hf _ hw

@[simp] theorem busVerb_words (k : Sess) (s : State) (hw : flashWf s.cfl.words = true) : flashWf (busVerb k s).1.cfl.words = true := by
  unfold busVerb
  refine verb_words _ _ _ _ _ _ (fun s hw => ?_) s hw
  simp (maxDischargeDepth := 8) [*]

@[simp] theorem busFilterVerb_words (k : Sess) (n mtch mask fmt en : Nat) (s : State) (hw : flashWf s.cfl.words = true) :
    flashWf (busFilterVerb k n mtch mask fmt en s).1.cfl.words = true := by
  unfold busFilterVerb
  refine verb_words _ _ _ _ _ _ (fun s hw => ?_) s hw
  simp (maxDischargeDepth := 8) [*]

@[simp] theorem busRecoverVerb_words (k : Sess) (s : State) (hw : flashWf s.cfl.words = true) :
    flashWf (busRecoverVerb k s).1.cfl.words = true := by
  unfold busRecoverVerb
  refine verb_words _ _ _ _ _ _ (fun s hw => ?_) s hw
  simp (maxDischargeDepth := 8) [*]

@[simp] theorem busRedetectVerb_words (k : Sess) (s : State) (hw : flashWf s.cfl.words = true) :
    flashWf (busRedetectVerb k s).1.cfl.words = true := by
  unfold busRedetectVerb
  refine verb_words _ _ _ _ _ _ (fun s hw => ?_) s hw
  simp (maxDischargeDepth := 8) [*]

@[simp] theorem busFlushVerb_words (k : Sess) (s : State) (hw : flashWf s.cfl.words = true) :
    flashWf (busFlushVerb k s).1.cfl.words = true := by
  unfold busFlushVerb
  refine verb_words _ _ _ _ _ _ (fun s hw => ?_) s hw
  simp (maxDischargeDepth := 8) [*]

@[simp] theorem busSetVerb_words (k : Sess) (holdoff count beacon : Option Nat) (s : State) (hw : flashWf s.cfl.words = true) :
    flashWf (busSetVerb k holdoff count beacon s).1.cfl.words = true := by
  unfold busSetVerb
  refine verb_words _ _ _ _ _ _ (fun s hw => ?_) s hw
  simp (maxDischargeDepth := 8) [*]

@[simp] theorem setWarp_words (s : State) (f : Warp → Warp) : (setWarp s f).cfl.words = s.cfl.words := by
  unfold setWarp
  simp

@[simp] theorem sendAnnounce_words (s : State) (role : Nat) : (sendAnnounce s role).cfl.words = s.cfl.words := by
  unfold sendAnnounce
  simp

@[simp] theorem resign_words (s : State) (node : NodeId) : (resign s node).cfl.words = s.cfl.words := by
  unfold resign
  simp

@[simp] theorem acceptPair_words (s : State) (o : Int) (hw : flashWf s.cfl.words = true) : flashWf (acceptPair s o).cfl.words = true := by
  unfold acceptPair
  simp (maxDischargeDepth := 8) [*]

@[simp] theorem loseSync_words (s : State) : (loseSync s).cfl.words = s.cfl.words := by
  unfold loseSync
  simp

@[simp] theorem setTable_words (s : State) (n : Nat) (t : SlotTable) : (setTable s n t).cfl.words = s.cfl.words := by
  unfold setTable
  simp

@[simp] theorem discardFrame_words (s : State) : (discardFrame s).cfl.words = s.cfl.words := by
  unfold discardFrame
  simp

@[simp] theorem setStake_words (s : State) (i : Fin 64) (f : Stake → Stake) : (setStake s i f).cfl.words = s.cfl.words := by
  unfold setStake
  simp

@[simp] theorem settleStartReq_words (s : State) (hw : flashWf s.cfl.words = true) : flashWf (settleStartReq s).1.cfl.words = true := by
  unfold settleStartReq
  simp (maxDischargeDepth := 8) [*]

@[simp] theorem settleStopReq_words (s : State) : (settleStopReq s).1.cfl.words = s.cfl.words := by
  unfold settleStopReq
  simp

@[simp] theorem switchTable_words (s : State) (n : Nat) : (switchTable s n).1.cfl.words = s.cfl.words := by
  unfold switchTable
  ((repeat' split) <;> simp)

@[simp] theorem stakeAction_words (s : State) (i : Fin 64) (x : Stake) (hw : flashWf s.cfl.words = true) :
    flashWf (stakeAction s i x).1.cfl.words = true := by
  unfold stakeAction
  ((repeat' split) <;> simp (maxDischargeDepth := 8) [*])

@[simp] theorem fireStake_words (s : State) (i : Fin 64) (hw : flashWf s.cfl.words = true) : flashWf (fireStake s i).cfl.words = true := by
  have h := stakeAction_words (setStake s i (fun x => { x with state := .fired, late := min 0xFFFFFFFF (s.warp.ns - (s.warp.stakes[i.val]).trigger) })) i
    s.warp.stakes[i.val] (by simpa using hw)
  unfold fireStake
  dsimp only
  revert h
  generalize stakeAction _ i _ = r
  obtain ⟨t, o⟩ := r
  intro h
  cases o <;> simpa using h

@[simp] theorem judgeStake_words (s : State) (i : Fin 64) (hw : flashWf s.cfl.words = true) :
    flashWf (judgeStake s i).cfl.words = true := by
  unfold judgeStake
  simp (maxDischargeDepth := 8) [*]

@[simp] theorem placeStake_words (s : State) (i : Fin 64) (trigger action arg : Nat) (src : NodeId) (hw : flashWf s.cfl.words = true) :
    flashWf (placeStake s i trigger action arg src).cfl.words = true := by
  unfold placeStake
  simp (maxDischargeDepth := 8) [*]

@[simp] theorem warpVerb_words (k : Sess) (s : State) (hw : flashWf s.cfl.words = true) : flashWf (warpVerb k s).1.cfl.words = true := by
  unfold warpVerb
  refine verb_words _ _ _ _ _ _ (fun s hw => ?_) s hw
  simp (maxDischargeDepth := 8) [*]

@[simp] theorem warpSetVerb_words (k : Sess) (interval delay restmax : Option Nat) (s : State) (hw : flashWf s.cfl.words = true) :
    flashWf (warpSetVerb k interval delay restmax s).1.cfl.words = true := by
  unfold warpSetVerb
  refine verb_words _ _ _ _ _ _ (fun s hw => ?_) s hw
  simp (maxDischargeDepth := 8) [*]

@[simp] theorem warpTableVerb_words (k : Sess) (n mask smax stagger : Nat) (send target : Option Nat) (s : State) (hw : flashWf s.cfl.words = true) :
    flashWf (warpTableVerb k n mask smax stagger send target s).1.cfl.words = true := by
  unfold warpTableVerb
  refine verb_words _ _ _ _ _ _ (fun s hw => ?_) s hw
  simp (maxDischargeDepth := 8) [*]

@[simp] theorem warpTableActiveVerb_words (k : Sess) (n : Nat) (s : State) (hw : flashWf s.cfl.words = true) :
    flashWf (warpTableActiveVerb k n s).1.cfl.words = true := by
  unfold warpTableActiveVerb
  refine verb_words _ _ _ _ _ _ (fun s hw => ?_) s hw
  simp (maxDischargeDepth := 8) [*]

@[simp] theorem stakeSetVerb_words (k : Sess) (i action : Nat) (relative : Bool) (trigger : Nat) (arg send target : Option Nat) (s : State) (hw : flashWf s.cfl.words = true) :
    flashWf (stakeSetVerb k i action relative trigger arg send target s).1.cfl.words = true := by
  unfold stakeSetVerb
  refine verb_words _ _ _ _ _ _ (fun s hw => ?_) s hw
  simp (maxDischargeDepth := 8) [*]

@[simp] theorem stakeCancelVerb_words (k : Sess) (i : Nat) (send : Option Nat) (s : State) (hw : flashWf s.cfl.words = true) :
    flashWf (stakeCancelVerb k i send s).1.cfl.words = true := by
  unfold stakeCancelVerb
  refine verb_words _ _ _ _ _ _ (fun s hw => ?_) s hw
  simp (maxDischargeDepth := 8) [*]

@[simp] theorem stakeShowVerb_words (k : Sess) (i : Option Nat) (s : State) (hw : flashWf s.cfl.words = true) :
    flashWf (stakeShowVerb k i s).1.cfl.words = true := by
  unfold stakeShowVerb
  refine verb_words _ _ _ _ _ _ (fun s hw => ?_) s hw
  ((repeat' split) <;> simp (maxDischargeDepth := 8) [*])

@[simp] theorem statusVerb_words (k : Sess) (s : State) (hw : flashWf s.cfl.words = true) :
    flashWf (statusVerb k s).1.cfl.words = true := by
  unfold statusVerb
  refine verb_words _ _ _ _ _ _ (fun s hw => ?_) s hw
  simp (maxDischargeDepth := 8) [*]

@[simp] theorem parkVerb_words (k : Sess) (s : State) (hw : flashWf s.cfl.words = true) : flashWf (parkVerb k s).1.cfl.words = true := by
  unfold parkVerb
  refine verb_words _ _ _ _ _ _ (fun s hw => ?_) s hw
  have h := parkRequest_words s (verbCause k) hw
  revert h
  generalize parkRequest s (verbCause k) = r
  obtain ⟨t, o⟩ := r
  intro h
  cases o <;> simpa using h

@[simp] theorem parkCancelVerb_words (k : Sess) (s : State) (hw : flashWf s.cfl.words = true) :
    flashWf (parkCancelVerb k s).1.cfl.words = true := by
  unfold parkCancelVerb
  refine verb_words _ _ _ _ _ _ (fun s hw => ?_) s hw
  simp (maxDischargeDepth := 8) [*]

@[simp] theorem parkSetVerb_words (k : Sess) (wait : Nat) (s : State) (hw : flashWf s.cfl.words = true) :
    flashWf (parkSetVerb k wait s).1.cfl.words = true := by
  unfold parkSetVerb
  refine verb_words _ _ _ _ _ _ (fun s hw => ?_) s hw
  simp (maxDischargeDepth := 8) [*]

@[simp] theorem restoreVerb_words (k : Sess) (s : State) (hw : flashWf s.cfl.words = true) :
    flashWf (restoreVerb k s).1.cfl.words = true := by
  unfold restoreVerb
  refine verb_words _ _ _ _ _ _ (fun s hw => ?_) s hw
  have h := restoreRequest_words s (verbCause k) (some k) none hw
  revert h
  generalize restoreRequest s (verbCause k) (some k) none = r
  obtain ⟨t, o⟩ := r
  intro h
  cases o <;> simpa using h

@[simp] theorem restoreCancelVerb_words (k : Sess) (s : State) (hw : flashWf s.cfl.words = true) :
    flashWf (restoreCancelVerb k s).1.cfl.words = true := by
  unfold restoreCancelVerb
  refine verb_words _ _ _ _ _ _ (fun s hw => ?_) s hw
  simp (maxDischargeDepth := 8) [*]

@[simp] theorem restoreDiscardVerb_words (k : Sess) (s : State) (hw : flashWf s.cfl.words = true) :
    flashWf (restoreDiscardVerb k s).1.cfl.words = true := by
  unfold restoreDiscardVerb
  refine verb_words _ _ _ _ _ _ (fun s hw => ?_) s hw
  simp (maxDischargeDepth := 8) [*]

@[simp] theorem restoreReportVerb_words (k : Sess) (tenant start : Option Nat) (s : State) (hw : flashWf s.cfl.words = true) :
    flashWf (restoreReportVerb k tenant start s).1.cfl.words = true := by
  unfold restoreReportVerb
  refine verb_words _ _ _ _ _ _ (fun s hw => ?_) s hw
  ((repeat' split) <;> simp (maxDischargeDepth := 8) [*])

@[simp] theorem settleAnswer_words (x : State × Option Nat) : (settleAnswer x).1.cfl.words = x.1.cfl.words := by
  unfold settleAnswer
  split <;> simp

@[simp] theorem settleStartVerb_words (k : Sess) (s : State) (hw : flashWf s.cfl.words = true) :
    flashWf (settleStartVerb k s).1.cfl.words = true := by
  unfold settleStartVerb
  refine verb_words _ _ _ _ _ _ (fun s hw => ?_) s hw
  unfold settleAnswer
  split <;> simp [hw]

@[simp] theorem settleStopVerb_words (k : Sess) (s : State) (hw : flashWf s.cfl.words = true) :
    flashWf (settleStopVerb k s).1.cfl.words = true := by
  unfold settleStopVerb
  refine verb_words _ _ _ _ _ _ (fun s hw => ?_) s hw
  unfold settleAnswer
  split <;> simp [hw]

@[simp] theorem settleSetVerb_words (k : Sess) (startFree stopFree startLayers stopLayers : Nat) (s : State) (hw : flashWf s.cfl.words = true) :
    flashWf (settleSetVerb k startFree stopFree startLayers stopLayers s).1.cfl.words = true := by
  unfold settleSetVerb
  refine verb_words _ _ _ _ _ _ (fun s hw => ?_) s hw
  simp (maxDischargeDepth := 8) [*]

@[simp] theorem stageEntry_words (s : State) (k : Sess) (e : DWord) (isAdd : Bool) : (stageEntry s k e isAdd).cfl.words = s.cfl.words := by
  unfold stageEntry
  simp

@[simp] theorem rangeVerb_words (k : Sess) (t : Nat) (r : RangeArg) (isAdd : Bool) (s : State) (hw : flashWf s.cfl.words = true) :
    flashWf (rangeVerb k t r isAdd s).1.cfl.words = true := by
  unfold rangeVerb
  refine verb_words _ _ _ _ _ _ (fun s hw => ?_) s hw
  simp (maxDischargeDepth := 8) [*]

@[simp] theorem tenantRangeListVerb_words (k : Sess) (start : Option Nat) (s : State) (hw : flashWf s.cfl.words = true) :
    flashWf (tenantRangeListVerb k start s).1.cfl.words = true := by
  unfold tenantRangeListVerb
  refine verb_words _ _ _ _ _ _ (fun s hw => ?_) s hw
  simp (maxDischargeDepth := 8) [*]

@[simp] theorem tenantCommitVerb_words (k : Sess) (s : State) (hw : flashWf s.cfl.words = true) :
    flashWf (tenantCommitVerb k s).1.cfl.words = true := by
  unfold tenantCommitVerb
  refine verb_words _ _ _ _ _ _ (fun s hw => ?_) s hw
  simp (maxDischargeDepth := 8) [*]

@[simp] theorem tenantDiscardVerb_words (k : Sess) (s : State) (hw : flashWf s.cfl.words = true) :
    flashWf (tenantDiscardVerb k s).1.cfl.words = true := by
  unfold tenantDiscardVerb
  refine verb_words _ _ _ _ _ _ (fun s hw => ?_) s hw
  simp (maxDischargeDepth := 8) [*]

@[simp] theorem attrAnswer_words (s : State) (t : Tenant) : (attrAnswer s t).1.cfl.words = s.cfl.words := by
  unfold attrAnswer
  simp

@[simp] theorem changeAttr_words (s : State) (t : Tenant) (cls : Nat) (vol dis : Bool) :
    (changeAttr s t cls vol dis).cfl.words = s.cfl.words := by
  unfold changeAttr
  simp

@[simp] theorem tenantSetVerb_words (k : Sess) (t : Nat) (cls policy : Option Nat) (s : State) (hw : flashWf s.cfl.words = true) :
    flashWf (tenantSetVerb k t cls policy s).1.cfl.words = true := by
  unfold tenantSetVerb
  refine verb_words _ _ _ _ _ _ (fun s hw => ?_) s hw
  simp (maxDischargeDepth := 8) [*]

@[simp] theorem tenantEnableVerb_words (k : Sess) (t : Nat) (s : State) (hw : flashWf s.cfl.words = true) :
    flashWf (tenantEnableVerb k t s).1.cfl.words = true := by
  unfold tenantEnableVerb
  refine verb_words _ _ _ _ _ _ (fun s hw => ?_) s hw
  simp (maxDischargeDepth := 8) [*]

@[simp] theorem tenantDisableVerb_words (k : Sess) (t : Nat) (s : State) (hw : flashWf s.cfl.words = true) :
    flashWf (tenantDisableVerb k t s).1.cfl.words = true := by
  unfold tenantDisableVerb
  refine verb_words _ _ _ _ _ _ (fun s hw => ?_) s hw
  simp (maxDischargeDepth := 8) [*]

@[simp] theorem tenantShowVerb_words (k : Sess) (t : Nat) (s : State) (hw : flashWf s.cfl.words = true) :
    flashWf (tenantShowVerb k t s).1.cfl.words = true := by
  unfold tenantShowVerb
  refine verb_words _ _ _ _ _ _ (fun s hw => ?_) s hw
  simp (maxDischargeDepth := 8) [*]

@[simp] theorem mapVerb_words (k : Sess) (s : State) (hw : flashWf s.cfl.words = true) : flashWf (mapVerb k s).1.cfl.words = true := by
  unfold mapVerb
  refine verb_words _ _ _ _ _ _ (fun s hw => ?_) s hw
  simp (maxDischargeDepth := 8) [*]

@[simp] theorem setGeometry_words (s : State) (w : Word) : (setGeometry s w).cfl.words = s.cfl.words := by
  unfold setGeometry
  simp

@[simp] theorem mapGeometryVerb_words (k : Sess) (word : Nat) (s : State) (hw : flashWf s.cfl.words = true) :
    flashWf (mapGeometryVerb k word s).1.cfl.words = true := by
  unfold mapGeometryVerb
  refine verb_words _ _ _ _ _ _ (fun s hw => ?_) s hw
  simp (maxDischargeDepth := 8) [*]

@[simp] theorem mapGranuleVerb_words (k : Sess) (size : Nat) (s : State) (hw : flashWf s.cfl.words = true) :
    flashWf (mapGranuleVerb k size s).1.cfl.words = true := by
  unfold mapGranuleVerb
  refine verb_words _ _ _ _ _ _ (fun s hw => ?_) s hw
  simp (maxDischargeDepth := 8) [*]

@[simp] theorem mapCoordVerb_words (k : Sess) (sub rank bg ba row : Nat) (s : State) (hw : flashWf s.cfl.words = true) :
    flashWf (mapCoordVerb k sub rank bg ba row s).1.cfl.words = true := by
  unfold mapCoordVerb
  refine verb_words _ _ _ _ _ _ (fun s hw => ?_) s hw
  simp (maxDischargeDepth := 8) [*]

@[simp] theorem mapCoordGidxVerb_words (k : Sess) (gidx : Nat) (s : State) (hw : flashWf s.cfl.words = true) :
    flashWf (mapCoordGidxVerb k gidx s).1.cfl.words = true := by
  unfold mapCoordGidxVerb
  refine verb_words _ _ _ _ _ _ (fun s hw => ?_) s hw
  simp (maxDischargeDepth := 8) [*]

@[simp] theorem mapProfileVerb_words (k : Sess) (off : Nat) (data : List Byte) (s : State) (hw : flashWf s.cfl.words = true) :
    flashWf (mapProfileVerb k off data s).1.cfl.words = true := by
  unfold mapProfileVerb
  refine verb_words _ _ _ _ _ _ (fun s hw => ?_) s hw
  simp (maxDischargeDepth := 8) [*]

@[simp] theorem mapProfileCommitVerb_words (k : Sess) (s : State) (hw : flashWf s.cfl.words = true) :
    flashWf (mapProfileCommitVerb k s).1.cfl.words = true := by
  unfold mapProfileCommitVerb
  refine verb_words _ _ _ _ _ _ (fun s hw => ?_) s hw
  simp (maxDischargeDepth := 8) [*]

@[simp] theorem mapProvisionVerb_words (k : Sess) (s : State) (hw : flashWf s.cfl.words = true) :
    flashWf (mapProvisionVerb k s).1.cfl.words = true := by
  unfold mapProvisionVerb
  refine verb_words _ _ _ _ _ _ (fun s hw => ?_) s hw
  simp (maxDischargeDepth := 8) [*]

@[simp] theorem domainVerb_words (k : Sess) (s : State) (hw : flashWf s.cfl.words = true) :
    flashWf (domainVerb k s).1.cfl.words = true := by
  unfold domainVerb
  refine verb_words _ _ _ _ _ _ (fun s hw => ?_) s hw
  simp (maxDischargeDepth := 8) [*]

@[simp] theorem beginEnable_words (s : State) (k : Sess) (d : Dom) : (beginEnable s k d).1.cfl.words = s.cfl.words := by
  unfold beginEnable workOn
  dsimp only
  split <;> simp [waitFor]

@[simp] theorem domainEnableVerb_words (k : Sess) (d : Nat) (s : State) (hw : flashWf s.cfl.words = true) :
    flashWf (domainEnableVerb k d s).1.cfl.words = true := by
  unfold domainEnableVerb
  refine verb_words _ _ _ _ _ _ (fun s hw => ?_) s hw
  simp (maxDischargeDepth := 8) [*]

@[simp] theorem imageLeavesChannel_words (s : State) (d : Nat) : (imageLeavesChannel s d).1.cfl.words = s.cfl.words := by
  unfold imageLeavesChannel
  simp

@[simp] theorem maskOnly_words (s : State) (d : Dom) : (maskOnly s d).cfl.words = s.cfl.words := by
  unfold maskOnly
  simp

@[simp] theorem withdrawBoxes_words (s : State) : (withdrawBoxes s).cfl.words = s.cfl.words := by
  unfold withdrawBoxes
  simp

@[simp] theorem beginDrain_words (s : State) (k : Sess) (d : Dom) (hw : flashWf s.cfl.words = true) :
    flashWf (beginDrain s k d).cfl.words = true := by
  unfold beginDrain
  simp (maxDischargeDepth := 8) [*]

@[simp] theorem domainDisableVerb_words (k : Sess) (d : Nat) (s : State) (hw : flashWf s.cfl.words = true) :
    flashWf (domainDisableVerb k d s).1.cfl.words = true := by
  unfold domainDisableVerb
  refine verb_words _ _ _ _ _ _ (fun s hw => ?_) s hw
  simp (maxDischargeDepth := 8) [*]

@[simp] theorem dropDieFold_words (s : State) (d : Die) : (dropDieFold s d).cfl.words = s.cfl.words := by
  unfold dropDieFold
  (repeat' split) <;> simp

@[simp] theorem abortDiscard_words (s : State) (d : Dom) : (abortDiscard s d).cfl.words = s.cfl.words := by
  unfold abortDiscard
  (repeat' split) <;> simp

@[simp] theorem forceOff_words (s : State) (k : Sess) (d : Dom) (hw : flashWf s.cfl.words = true) :
    flashWf (forceOff s k d).cfl.words = true := by
  unfold forceOff
  (repeat' split) <;> simp_all (maxDischargeDepth := 12) [foldl_words, foldl_wf]

@[simp] theorem domainDisableForceVerb_words (k : Sess) (d : Nat) (s : State) (hw : flashWf s.cfl.words = true) :
    flashWf (domainDisableForceVerb k d s).1.cfl.words = true := by
  unfold domainDisableForceVerb
  refine verb_words _ _ _ _ _ _ (fun s hw => ?_) s hw
  simp (maxDischargeDepth := 8) [*]

@[simp] theorem domainSetVerb_words (k : Sess) (drain : Nat) (s : State) (hw : flashWf s.cfl.words = true) :
    flashWf (domainSetVerb k drain s).1.cfl.words = true := by
  unfold domainSetVerb
  refine verb_words _ _ _ _ _ _ (fun s hw => ?_) s hw
  simp (maxDischargeDepth := 8) [*]

@[simp] theorem afterAnswer_words (k : Sess) (fields : List (String × Val)) (f : State → State) (s : State) (hf : ∀ s, flashWf s.cfl.words = true → flashWf (f s).cfl.words = true) (hw : flashWf s.cfl.words = true) :
    flashWf (afterAnswer k fields f s).1.cfl.words = true := by
  unfold afterAnswer
  exact hf _ (by simpa using hw)

@[simp] theorem resetWarmVerb_words (k : Sess) (s : State) (hw : flashWf s.cfl.words = true) :
    flashWf (resetWarmVerb k s).1.cfl.words = true := by
  unfold resetWarmVerb
  exact verb_words _ _ _ _ _ _ (fun s hw => afterAnswer_words _ _ _ _ (fun s h => requestWarm_words s h) hw) s hw

@[simp] theorem requestedReset_words (s : State) : (requestedReset s).cfl.words = s.cfl.words := by
  unfold requestedReset
  simp

@[simp] theorem resetMgmtVerb_words (k : Sess) (s : State) (hw : flashWf s.cfl.words = true) :
    flashWf (resetMgmtVerb k s).1.cfl.words = true := by
  unfold resetMgmtVerb
  refine verb_words _ _ _ _ _ _ (fun s hw => ?_) s hw
  simp (maxDischargeDepth := 8) [*]

@[simp] theorem diagLanesVerb_words (k : Sess) (s : State) (hw : flashWf s.cfl.words = true) :
    flashWf (diagLanesVerb k s).1.cfl.words = true := by
  unfold diagLanesVerb
  refine verb_words _ _ _ _ _ _ (fun s hw => ?_) s hw
  simp (maxDischargeDepth := 8) [*]

@[simp] theorem diagNandVerb_words (k : Sess) (die : Nat) (s : State) (hw : flashWf s.cfl.words = true) :
    flashWf (diagNandVerb k die s).1.cfl.words = true := by
  unfold diagNandVerb
  refine verb_words _ _ _ _ _ _ (fun s hw => ?_) s hw
  simp (maxDischargeDepth := 8) [*]

@[simp] theorem diagTempVerb_words (k : Sess) (s : State) (hw : flashWf s.cfl.words = true) :
    flashWf (diagTempVerb k s).1.cfl.words = true := by
  unfold diagTempVerb
  refine verb_words _ _ _ _ _ _ (fun s hw => ?_) s hw
  simp (maxDischargeDepth := 8) [*]

@[simp] theorem diagSelftestVerb_words (k : Sess) (s : State) (hw : flashWf s.cfl.words = true) :
    flashWf (diagSelftestVerb k s).1.cfl.words = true := by
  unfold diagSelftestVerb
  refine verb_words _ _ _ _ _ _ (fun s hw => ?_) s hw
  simp (maxDischargeDepth := 8) [*]

@[simp] theorem setPriv_words (s : State) (k : Sess) (p : Priv) : (setPriv s k p).cfl.words = s.cfl.words := by
  unfold setPriv
  simp

@[simp] theorem setBackoff_words (s : State) (p : Priv) (b : Backoff) : (setBackoff s p b).cfl.words = s.cfl.words := by
  unfold setBackoff
  simp

@[simp] theorem noteFailure_words (s : State) (p : Priv) : (noteFailure s p).cfl.words = s.cfl.words := by
  unfold noteFailure
  simp

@[simp] theorem privAnswer_words (s : State) (p : Priv) : (privAnswer s p).1.cfl.words = s.cfl.words := by
  unfold privAnswer
  simp

@[simp] theorem authPlainVerb_words (k : Sess) (level : Nat) (s : State) (hw : flashWf s.cfl.words = true) :
    flashWf (authPlainVerb k level s).1.cfl.words = true := by
  unfold authPlainVerb
  refine verb_words _ _ _ _ _ _ (fun s hw => ?_) s hw
  simp (maxDischargeDepth := 8) [*]

@[simp] theorem tryMac_words (s : State) (k : Sess) (p : Priv) (nonce mac : List Byte) :
    (tryMac s k p nonce mac).1.cfl.words = s.cfl.words := by
  unfold tryMac
  simp

@[simp] theorem authMacVerb_words (k : Sess) (level : Nat) (mac : List Byte) (s : State) (hw : flashWf s.cfl.words = true) :
    flashWf (authMacVerb k level mac s).1.cfl.words = true := by
  unfold authMacVerb
  refine verb_words _ _ _ _ _ _ (fun s hw => ?_) s hw
  (dsimp only; (repeat' split) <;> simp (maxDischargeDepth := 8) [*])

@[simp] theorem storeSecret_words (s : State) (p : Priv) (key : List Byte) : (storeSecret s p key).1.cfl.words = s.cfl.words := by
  unfold storeSecret
  simp

@[simp] theorem authSecretWrapVerb_words (k : Sess) (level : Nat) (blob : List Byte) (s : State) (hw : flashWf s.cfl.words = true) :
    flashWf (authSecretWrapVerb k level blob s).1.cfl.words = true := by
  unfold authSecretWrapVerb
  refine verb_words _ _ _ _ _ _ (fun s hw => ?_) s hw
  simp (maxDischargeDepth := 8) [*]

@[simp] theorem authSecretPlainVerb_words (k : Sess) (level : Nat) (blob : List Byte) (s : State) (hw : flashWf s.cfl.words = true) :
    flashWf (authSecretPlainVerb k level blob s).1.cfl.words = true := by
  unfold authSecretPlainVerb
  refine verb_words _ _ _ _ _ _ (fun s hw => ?_) s hw
  simp (maxDischargeDepth := 8) [*]

@[simp] theorem sessionVerb_words (k : Sess) (s : State) (hw : flashWf s.cfl.words = true) :
    flashWf (sessionVerb k s).1.cfl.words = true := by
  unfold sessionVerb
  refine verb_words _ _ _ _ _ _ (fun s hw => ?_) s hw
  simp (maxDischargeDepth := 8) [*]

@[simp] theorem sessionListVerb_words (k : Sess) (s : State) (hw : flashWf s.cfl.words = true) :
    flashWf (sessionListVerb k s).1.cfl.words = true := by
  unfold sessionListVerb
  refine verb_words _ _ _ _ _ _ (fun s hw => ?_) s hw
  simp (maxDischargeDepth := 8) [*]

@[simp] theorem sessionSetEchoVerb_words (k : Sess) (on : Nat) (s : State) (hw : flashWf s.cfl.words = true) :
    flashWf (sessionSetEchoVerb k on s).1.cfl.words = true := by
  unfold sessionSetEchoVerb
  refine verb_words _ _ _ _ _ _ (fun s hw => ?_) s hw
  simp (maxDischargeDepth := 8) [*]

@[simp] theorem sessionSetNotifyVerb_words (k : Sess) (on : Nat) (s : State) (hw : flashWf s.cfl.words = true) :
    flashWf (sessionSetNotifyVerb k on s).1.cfl.words = true := by
  unfold sessionSetNotifyVerb
  refine verb_words _ _ _ _ _ _ (fun s hw => ?_) s hw
  simp (maxDischargeDepth := 8) [*]

@[simp] theorem sessionSetIdleVerb_words (k : Sess) (limit : Nat) (s : State) (hw : flashWf s.cfl.words = true) :
    flashWf (sessionSetIdleVerb k limit s).1.cfl.words = true := by
  unfold sessionSetIdleVerb
  refine verb_words _ _ _ _ _ _ (fun s hw => ?_) s hw
  simp (maxDischargeDepth := 8) [*]

@[simp] theorem endTunnel_words (s : State) (k : Sess) : (endTunnel s k).cfl.words = s.cfl.words := by
  unfold endTunnel
  simp

@[simp] theorem sessionEndVerb_words (k : Sess) (s : State) (hw : flashWf s.cfl.words = true) :
    flashWf (sessionEndVerb k s).1.cfl.words = true := by
  unfold sessionEndVerb
  refine verb_words _ _ _ _ _ _ (fun s hw => ?_) s hw
  simp (maxDischargeDepth := 8) [*]

@[simp] theorem setI3c_words (s : State) (f : I3c → I3c) : (setI3c s f).cfl.words = s.cfl.words := by
  unfold setI3c
  simp

@[simp] theorem onI3c_words (s : State) (f : State → State) (hf : ∀ s, flashWf s.cfl.words = true → flashWf (f s).cfl.words = true) (hw : flashWf s.cfl.words = true) :
    flashWf (onI3c s f).cfl.words = true := by
  unfold onI3c
  (repeat' split) <;> first | exact hw | exact hf _ hw

@[simp] theorem onDirect_words (s : State) (f : State → State) (hf : ∀ s, flashWf s.cfl.words = true → flashWf (f s).cfl.words = true) (hw : flashWf s.cfl.words = true) :
    flashWf (onDirect s f).cfl.words = true := by
  unfold onDirect
  refine onI3c_words _ _ (fun s h => ?_) hw
  split
  · exact hf s h
  · exact h

@[simp] theorem thawLog_words (s : State) : (thawLog s).cfl.words = s.cfl.words := by
  unfold thawLog
  simp

@[simp] theorem logVerb_words (k : Sess) (s : State) (hw : flashWf s.cfl.words = true) : flashWf (logVerb k s).1.cfl.words = true := by
  unfold logVerb
  refine verb_words _ _ _ _ _ _ (fun s hw => ?_) s hw
  simp (maxDischargeDepth := 8) [*]

@[simp] theorem logReadVerb_words (k : Sess) (start count : Option Nat) (s : State) (hw : flashWf s.cfl.words = true) :
    flashWf (logReadVerb k start count s).1.cfl.words = true := by
  unfold logReadVerb
  refine verb_words _ _ _ _ _ _ (fun s hw => ?_) s hw
  simp (maxDischargeDepth := 8) [*]

@[simp] theorem logPrevVerb_words (k : Sess) (start count : Option Nat) (s : State) (hw : flashWf s.cfl.words = true) :
    flashWf (logPrevVerb k start count s).1.cfl.words = true := by
  unfold logPrevVerb
  refine verb_words _ _ _ _ _ _ (fun s hw => ?_) s hw
  simp (maxDischargeDepth := 8) [*]

@[simp] theorem logClearVerb_words (k : Sess) (s : State) (hw : flashWf s.cfl.words = true) :
    flashWf (logClearVerb k s).1.cfl.words = true := by
  unfold logClearVerb
  refine verb_words _ _ _ _ _ _ (fun s hw => ?_) s hw
  simp (maxDischargeDepth := 8) [*]

@[simp] theorem logFreezeVerb_words (k : Sess) (s : State) (hw : flashWf s.cfl.words = true) :
    flashWf (logFreezeVerb k s).1.cfl.words = true := by
  unfold logFreezeVerb
  refine verb_words _ _ _ _ _ _ (fun s hw => ?_) s hw
  simp (maxDischargeDepth := 8) [*]

@[simp] theorem logThawVerb_words (k : Sess) (s : State) (hw : flashWf s.cfl.words = true) :
    flashWf (logThawVerb k s).1.cfl.words = true := by
  unfold logThawVerb
  refine verb_words _ _ _ _ _ _ (fun s hw => ?_) s hw
  simp (maxDischargeDepth := 8) [*]

@[simp] theorem logMarkVerb_words (k : Sess) (code : Nat) (s : State) (hw : flashWf s.cfl.words = true) :
    flashWf (logMarkVerb k code s).1.cfl.words = true := by
  unfold logMarkVerb
  refine verb_words _ _ _ _ _ _ (fun s hw => ?_) s hw
  simp (maxDischargeDepth := 8) [*]

theorem verbOf_words {i : Instr} {b : Bool} {f : Verb} (h : verbOf i = some (b, f)) (s : State)
    (hw : flashWf s.cfl.words = true) : flashWf (f s).1.cfl.words = true := by
  unfold verbOf at h
  split at h <;> cases h <;> simp [hw]

@[simp] theorem lineVerb_words (l : QLine) (s : State) (hw : flashWf s.cfl.words = true) : flashWf (lineVerb l s).1.cfl.words = true := by
  unfold lineVerb
  split
  · simpa using hw
  · split
    · next h =>
      split
      · simpa using hw
      · exact verbOf_words h s hw
    · simpa using hw

@[simp] theorem submit_words (s : State) (k : Sess) (lseq : Byte) (text : List Byte) (mark : Option Nat) (hw : flashWf s.cfl.words = true) :
    flashWf (submit s k lseq text mark).cfl.words = true := by
  unfold submit
  (repeat' split) <;> simp_all (maxDischargeDepth := 12) [foldl_words, foldl_wf]

@[simp] theorem runQueued_words (s : State) (k : Sess) (hw : flashWf s.cfl.words = true) : flashWf (runQueued s k).cfl.words = true := by
  unfold runQueued
  (repeat' split) <;> try exact hw
  exact runLine_words _ _ _ _ (fun s h => lineVerb_words _ s h) (by simpa using hw)

@[simp] theorem markLine_words (s : State) (k : Sess) (code : Nat) : (markLine s k code).cfl.words = s.cfl.words := by
  unfold markLine
  simp

@[simp] theorem markLong_words (s : State) (k : Sess) : (markLong s k).cfl.words = s.cfl.words := by
  unfold markLong
  simp

@[simp] theorem feedByte_words (s : State) (k : Sess) (b : Byte) (hw : flashWf s.cfl.words = true) :
    flashWf (feedByte s k b).cfl.words = true := by
  unfold feedByte
  simp (maxDischargeDepth := 8) [*]

@[simp] theorem tunnelLine_words (s : State) (k : Sess) (src : NodeId) (p : List Byte) (hw : flashWf s.cfl.words = true) :
    flashWf (tunnelLine s k src p).cfl.words = true := by
  unfold tunnelLine
  simp (maxDischargeDepth := 8) [*]

@[simp] theorem bindTunnel_words (s : State) (k : Sess) (src : NodeId) : (bindTunnel s k src).cfl.words = s.cfl.words := by
  unfold bindTunnel
  simp

@[simp] theorem tickWarp_words (s : State) : (tickWarp s).cfl.words = s.cfl.words := by
  unfold tickWarp
  simp

@[simp] theorem tickEnergy_words (s : State) : (tickEnergy s).cfl.words = s.cfl.words := by
  unfold tickEnergy
  simp

@[simp] theorem tickPins_words (s : State) : (tickPins s).cfl.words = s.cfl.words := by
  unfold tickPins
  simp

@[simp] theorem tickSession_words (s : State) (k : Sess) (hw : flashWf s.cfl.words = true) :
    flashWf (tickSession s k).cfl.words = true := by
  unfold tickSession
  simp (maxDischargeDepth := 8) [*]

@[simp] theorem tickAon_words (s : State) : (tickAon s).cfl.words = s.cfl.words := by
  unfold tickAon
  simp

@[simp] theorem idle_words (s : State) (hw : flashWf s.cfl.words = true) : flashWf (idle s).cfl.words = true := by
  unfold idle
  (repeat' split) <;> simp_all (maxDischargeDepth := 12) [foldl_words, foldl_wf]

@[simp] theorem State_withFetchWord_words (s : State) (nbits w : Nat) : (State.withFetchWord s nbits w).cfl.words = s.cfl.words := by
  unfold State.withFetchWord
  (repeat' split) <;> simp

end Sys2Proof.Machine
end

