-- ==== Sys2Proof/Machine/Signals.lean ====
section
/-! DEFINITION. What each group of signals does at the balls, as the state gives it (R399, R401, R403-R405, R410-R412). -/

namespace Sys2Proof.Machine

/-- The signal groups of R410. -/
inductive SigGroup
  | hostCa | drst | alert | qca | qck | qrst | qalert | pdq | dqsw (sub : Sub) | nand (n : Fin 8) | sideband | console | shelfBus
  | packBus | packSense | batswEn | holdL | chgSw
  deriving DecidableEq, Repr

/-- The states of R410. -/
inductive SigState
  | functional | forwarded | ignored | isolated | latched | port | parked | standby | highZ | sampled | low | high | stopped | fromDck
  | pllM | switching | off | cccOnly
  deriving DecidableEq, Repr

/-- The supply of a group's ring (R399). -/
inductive IoRing | vddqD | vccqN | vsb | vio | aon | vaon18 | charger
  deriving DecidableEq, Repr

def SigGroup.ring : SigGroup → IoRing
  | .hostCa | .drst | .alert | .qca | .qck | .qrst | .qalert | .pdq => .vddqD
  | .dqsw _ | .batswEn | .holdL => .vaon18
  | .nand _ => .vccqN
  | .sideband => .vsb
  | .console | .shelfBus | .packBus => .vio
  | .packSense => .aon
  | .chgSw => .charger

/-- The ball groups of R399 and their balls. -/
def ballGroups : List (String × Nat) :=
  [("Host command inputs", 24), ("DRAM command outputs", 44), ("DQ ports", 120), ("NAND channels", 256)
  , ("Sideband, console, shelf bus", 7), ("Pack and hold control", 11), ("Clocks", 3), ("Charger", 40), ("Calibration", 2), ("Test", 5)
  , ("Supplies", 210), ("Ground", 367)]

/-- The module rests: DARK or HELD. -/
def ballsRest (s : State) : Bool := s.aon.hold = .dark || s.aon.hold = .held

/-- The host's signals reach the DRAM in SERVE and PARK, and in FAULT while READY = 1. In FAULT without HP they show their DARK column. -/
def hostSide (s : State) : SigState :=
  match s.aon.hold with
  | .dark | .held => .isolated
  | .serve | .park => .forwarded
  | .fault => if !isOn s 7 then .isolated else if ready s then .forwarded else .ignored
  | .boot | .save | .restore => .ignored

/-- What a group does (R410). The groups whose level is state of its own show that level. -/
def sigState (s : State) : SigGroup → SigState
  | .hostCa | .drst => hostSide s
  | .alert =>
    if s.pins.alertHeld then .low
    else if s.aon.hold = .serve ∨ s.aon.hold = .park ∨ s.aon.hold = .fault ∧ s.aon.hpOk = true then .functional else .highZ
  | .qca => match s.pins.qca with
    | .latch => .latched
    | .fwd => .forwarded
    | .port => .port
  | .qck => match s.pins.qck with
    | .stopped => .stopped
    | .dck => .fromDck
    | .pllM => .pllM
  | .qrst => if ballsRest s then .latched else if s.pins.qrstHigh then .high else .low
  | .qalert => match s.aon.hold with
    | .serve | .park => .sampled
    | .save | .restore => .ignored
    | .fault => if s.aon.hpOk then .sampled else .isolated
    | .dark | .boot | .held => .isolated
  | .pdq => if s.pins.port then .port else .highZ
  | .dqsw .a => if s.pins.dqswA then .high else .low
  | .dqsw .b => if s.pins.dqswB then .high else .low
  | .nand n => if !ballsRest s && (modeOf s (12 + n.val)).powered then .functional else .parked
  | .sideband => if !s.pins.vsb then .highZ else if ballsRest s then .cccOnly else .functional
  | .console | .packBus => if ballsRest s then .highZ else .functional
  | .shelfBus => if stbyHigh s then .standby else .functional
  | .packSense => .sampled
  | .batswEn => if s.pins.batsw then .high else .low
  | .holdL => match s.aon.hold with
    | .dark | .save | .held => .ignored
    | .boot | .serve | .park | .restore | .fault => .sampled
  | .chgSw => if isOn s 1 && s.bat.chg.charging then .switching else .off

/-! ## NAND channels (R403, R404) -/

/-- Nn_CE_L of a target stays high: its channel is parked, or the target is absent, or the die is fenced (R158, R404). -/
def ceHeldHigh (s : State) (die : Die) : Bool :=
  sigState s (.nand (Fin.ofNat 8 (dieCh die))) = .parked || !(dieOf s die).present || (dieOf s die).fenced

/-- Nn_WP_L is low while the channel is parked. -/
def writeProtected (s : State) (n : Fin 8) : Bool := sigState s (.nand n) = .parked

/-- Nn_DQS_C and Nn_RE_C are used in NV-DDR3 only; otherwise the output stays low and the input is ignored (R403). -/
def complementUsed (s : State) : Bool := s.nand.profile.iface = 2

end Sys2Proof.Machine
end

