-- ==== Sys2Proof/Tests/Slice0.lean ====
section
/-! SUPPORT. Tests: the commands that are not well formed, the spec's worked cases, and for every statement with hypotheses a state that
meets them. -/

open Sys2Proof Sys2Proof.Machine

namespace Sys2Proof.Tests

set_option linter.unusedVariables false
set_option Elab.async false

/-! ## States for the tests -/

/-- A change of the state. -/
abbrev Chg := State → State

def up : Chg := fun s => { s with aon := { s.aon with por := .up } }
def hold (h : HoldState) : Chg := fun s => { s with aon := { s.aon with hold := h } }
def img (i : ImgRel) : Chg := fun s => { s with aon := { s.aon with img := i } }
def aon (f : Aon → Aon) : Chg := fun s => { s with aon := f s.aon }
def pins (f : Pins → Pins) : Chg := fun s => { s with pins := f s.pins }
def boot (f : BootSt → BootSt) : Chg := aon (fun a => { a with boot := f a.boot })
def opts (f : Options → Options) : Chg := aon (fun a => { a with opt := f a.opt })
def lg (f : Recorder → Recorder) : Chg := fun s => { s with log := f s.log }
def hp (f : HostPath → HostPath) : Chg := fun s => { s with hp := f s.hp }
def mp (f : MapSt → MapSt) : Chg := fun s => { s with map := f s.map }
def nd (f : Nand → Nand) : Chg := fun s => { s with nand := f s.nand }
def rs (f : RestoreSt → RestoreSt) : Chg := fun s => { s with rst := f s.rst }
def tn (f : Tenants → Tenants) : Chg := fun s => { s with ten := f s.ten }
def bt (f : Battery → Battery) : Chg := fun s => { s with bat := f s.bat }
def sh (f : Shb → Shb) : Chg := fun s => { s with shb := f s.shb }
def wa (f : Warp → Warp) : Chg := fun s => { s with warp := f s.warp }
def mg (f : Mgmt → Mgmt) : Chg := fun s => { s with mg := f s.mg }
def cf (f : Cfl → Cfl) : Chg := fun s => { s with cfl := f s.cfl }
def sto (f : Store → Store) : Chg := fun s => { s with store := f s.store }
def ic (f : I3c → I3c) : Chg := fun s => { s with i3c := f s.i3c }
def ses (k : Sess) (f : Ses → Ses) : Chg := fun s => setSes s k f

/-- The firmware runs. -/
def run : Chg := mg (fun m => { m with running := true, halted := false })
/-- A domain in a mode. -/
def dom (d : Dom) (m : DMode) : Chg := fun s => { s with doms := { s.doms with dom := upd s.doms.dom d (fun x => { x with mode := m }) } }
/-- Every domain is ON, with its PLL. -/
def allOn : Chg := fun s => { s with
  doms := { s.doms with dom := Vector.replicate 20 DomSt.on, pllF := .locked, pllM := .locked, pllN := .locked }
  pins := { s.pins with refclk := true } }
/-- A session that executes a line at once. -/
def op (k : Sess) (p : Priv) : Chg := fun s => ses k (fun q => { q with
  isOpen := true, priv := p, echo := false, busy := none, queue := [], out := [], line := [], lineErr := none })
  (aon (fun a => { a with noFirmware := false, mgmtHold := false }) s)
/-- Such a session at KEEP, in a hold state. -/
def keep (k : Sess) (h : HoldState) : Chg := fun s => op k .keep (hold h s)
/-- The node on the bus, with the domains that hear it. -/
def onTheBus (m : BusMode) : Chg := fun s => run (sh (fun b => { b with mode := m, integrating := false, nrate := 4 }) (dom 5 .on (dom 6 .on s)))
/-- The I3C target answers. -/
def target : Chg := fun s => pins (fun p => { p with vsb := true }) (dom 4 .on (ic (fun x => { x with dyn := some 8 }) s))
/-- A module whose geometry word is valid: 16 GiB. -/
def geom : Chg := mp (fun m => { m with geom := 0x80300000 })
/-- A lane and its domains. -/
def lane (n : LaneId) (f : Lane → Lane) : Chg := fun s => { s with doms := { s.doms with lanes := upd s.doms.lanes n f } }
/-- A pack that the estimator can use. -/
def cell : Cell := { z := 4 / 5, vp := 0, pzz := 1 / 10000, pzv := 0, pvv := 1 / 10000 }
def sample : Sample := { cells := [33000, 33000], vbat := 66000, ntc := .temp 250 }
def packRecord : PackRec := { serial := 1, capMah := 2000, q := [2000, 2000], rsInit := 500, bins := [], cycles := 0, est := .learning, anchorWarp := none }
def pack : Chg := fun s => run (bt (fun b => { b with
  present := true, result := .anon, est := .anchored, cells := [cell, cell], ring := [sample], packRec := some packRecord, rej := [0, 0]
  probeRej := [0, 0], sinceAnchor := [(0, 0), (0, 0)] }) (opts (fun o => { o with cells := 2 }) s))
/-- A save under way. -/
def aSave (p : SavePhase) : Save :=
  { planned := false, full := true, seq := 9, phase := p, todo := [(0, [(0, 64)])], plaitNo := 0, lastDie := none, open_ := []
    done := [], stop := false, partial_ := false, skips := [], owed := [(0, [(0, 64)])], eFix0 := 1, eG0 := 1 / 1000, eStart := 100
    eTakeover := 100, eStream := 100, ePipe := 100, logCopy := none, logWritten := false }
def save (p : SavePhase) : Chg := mp (fun m => { m with save := some (aSave p) })
/-- Page `n` of block 5 on a die. -/
def page (d : Die) (n : Nat) : Page := { die := d, block := 5, page := n }
/-- A plait with one strand on a die. -/
def strand (d : Die) (x : StrandSt) : OpenPlait :=
  { plait := { no := 0, first := 0, parts := [], strands := [some (page d 0)], contents := { base := .zero, segs := [] } }
    strands := [{ die := d, st := x, page := some (page d 0) }] }
/-- The block group of `page` in a role, its pages written up to `n`. -/
def group (d : Die) (r : Role) (n : Nat) : Group := { die := d, block := 5, role := r, erases := 1, wp := n, cause := 0, plane := 0 }
def groups (l : List Group) : Chg := nd (fun n => { n with groups := l, bbt := [] })
def saveWith (p : SavePhase) (d : Die) (x : StrandSt) : Save := { aSave p with open_ := [strand d x] }
/-- A rim record and its commit. -/
def aRim (t : RecType) (q : Nat) : Rim :=
  { type := t, subskip := false, cont := false, partial_ := false, seq := q, prevSeq := 0, warp := 0, geom := 0x80300000, grans := 0, plaits := 0
    layers := 0, ndieM1 := 0, cause := .none, k := 1, widthM1 := 0, bbtGen := 0, logFirst := 0, usedDies := [], volatile_ := [], revoked := []
    erased := [], tenants := [], dirA := none, dirB := none, maps := [], dir := [], ringDies := (0, 32), log := none, capTable := [], tenMap := [], attrs := Vector.replicate 256 0, layerSeqs := [], baseSeqs := [], base := []
    checkpoint := [], copyA := none, copyB := none }
def copy (d : Die) (b : Bool) : RimCopy := { die := d, page := some (page d 0), programmed := b, passed := false, attempts := 0 }
def rimJob (t : RecType) (u : RimUse) (b : Bool) : RimJob := { rim := aRim t 9, use := u, a := copy 0 b, b := copy 32 b, dwell := false }
def rimming (t : RecType) (u : RimUse) (b : Bool) : Chg := nd (fun n => { n with rimJob := some (rimJob t u b) })
/-- A restore under way. -/
def aRun : RestoreRun :=
  { short := false, rim := aRim .save 7, stale := false, rimfb := false, loaded := false, takeoverDone := false, streaming := false
    streamDone := false, zeroDone := false, sreDone := false, committed := none, written := [], zeroed := [], failed := [], older := [], lost := []
    zeroCount := 0, imageLost := false, notBefore := 0 }
def restoring (p : TakePhase) (r : RestoreRun) : Chg := fun s => hold .restore (hp (fun h => { h with phase := p }) (rs (fun x => { x with run := some r }) s))
/-- A die that answers. -/
def die (d : Die) (o : DieOp) : Chg := nd (fun n => { n with dies := upd n.dies d (fun x => { x with
  present := true, fenced := false, mismatch := false, failed := false, op := o, resetSent := false }) })
/-- Every die answers. -/
def allDies : Chg := nd (fun n => { n with dies := Vector.replicate 256 { DieSt.absent with present := true } })
/-- A code-flash job. -/
def job (u : CflUse) (l : List CflOp) : CflJob := { use := u, session := none, planned := true, ops := l, redo := l, retried := false }
def jobs (l : List CflJob) : Chg := cf (fun c => { c with jobs := l, waiting := [], warmDue := false })
/-- A crypto-erase of tenant 3. -/
def eraseJob (p : ErasePhase) : EraseJob := { t := 3, phase := p, session := none, tries := 0, zeroFail := false, proven := false }
def erasing (p : ErasePhase) : Chg := tn (fun t => { t with jobs := [eraseJob p] })
/-- A fold on die 0. -/
def fold1 (b : Bool) : FoldDie := { die := 0, block := 7, wp := 5, read := 2, busy := b, taking := [], copied := [], closing := false }
def folding (b : Bool) : Chg := nd (fun n => { n with settle := { n.settle with running := false, folds := [fold1 b], marginFailed := [] } })
def erasable : Chg := nd (fun n => { n with groups := [{ die := 0, block := 7, role := .erasePending, erases := 1, wp := 3, cause := 0, plane := 0 }], erased := [], bbt := [] })
/-- A frame of eight bytes from node 5. -/
def frame : Frame := { id := makeId 3 1 5 9, fdf := false, brs := false, esi := false, dlc := 8, data := List.replicate 8 0 }
def flit : Flit := { kind := .data, last := true, poison := false, tag := 3, payload := .bytes 7 }
def mail (n : Fin 16) (x : MboxStatus) : Chg := sh (fun b => { b with mbox := upd b.mbox n (fun m => { m with
  id := makeId 3 1 5 9, status := x, dlc := 8, data := List.replicate 8 0, abort := false, cancel := false, attempts := 0 }) })
def eightBytes : List Byte := [0x10, 0x27, 0, 0, 0, 0, 0, 0]
def nonce : Nonce := { bytes := [1, 2, 3], level := .keep, until_ := 40000000 }
def bucket : Bucket := { dom := 3, ev := arrivingCode 3 0x20, sev := 2, tokens := 0, suppressed := 1, firstWarp := 0 }
def args0 : Vector Word 4 := Vector.replicate 4 0
def heldEntry : Entry :=
  { seq := 0, warp := 0, dom := 2, ev := .named .mark, sev := 1, wsync := false, delayed := false, epoch := 0, args := args0, bad := false }
def range1 : RangeArg := { sub := 2, rankFirst := 0, rankLast := 0, allBank := true, bg := 0, ba := 0, rowFirst := 0, rowLast := 1 }
def facts : NandFacts :=
  { ids := [], profileBad := false, fenced := [], ringsBad := false, deadCopies := [], badDirs := [], badTables := [], zeroBits := [], logReadable := true }
def stake (i : Fin 64) (x : Stake) : Chg := wa (fun w => { w with stakes := upd w.stakes i (fun _ => x) })
def armedStake : Stake := { trigger := 10000000, state := .armed, action := 6, arg := 1, src := 0x3FF, late := 0 }
def report : Report :=
  { short := false, rseq := 3, stale := false, rimfb := false, partial_ := false, subskip := false, incomplete := [], older := [], lost := []
    zeroed := 0, zeroTenants := [], tenMap := [] }
/-- A pack record, sealed with its CRC. -/
def packBytes (cells : Nat) : List Byte :=
  let b : List Byte := [0x43, 0x41, 0x50, 0x5A, 1, 0, 0, BitVec.ofNat 8 cells, 1, 0, 0, 0, 0, 0, 0, 0, 0xD0, 7, 0xF4, 1] ++ List.replicate 40 0
  b ++ leBytes 4 (crc32c b).toNat
/-- A profile, sealed with its CRC. -/
def profileBytes : List Byte :=
  let b : List Byte := [0x46, 0x52, 0x50, 0x4E, 1, 0] ++ List.replicate 246 0
  b ++ leBytes 4 (crc32c b).toNat
/-- Every lane at rest with all its credits. -/
def lanesFull : Chg := fun s => { s with doms := { s.doms with lanes := Vector.ofFn (fun n => { Lane.down with credits := laneDepth n }) } }

/-! ## Commands that are not well formed (one for each check): the check refuses them (exec runs them, with free values: log entry 7) -/

theorem test_illFormed_estimatorStep (d i : Nat) : wellFormed (.estimatorStep { sample with cells := [] } d i) = false := rfl
theorem test_illFormed_wardenPackSample (c : Nat) : wellFormed (.wardenPackSample { sample with cells := [] } c) = false := rfl
theorem test_illFormed_impedanceProbe : wellFormed (.impedanceProbe []) = false := by decide +kernel
theorem test_illFormed_polarisationProbe : wellFormed (.polarisationProbe []) = false := by decide +kernel
theorem test_illFormed_frameReceived : wellFormed (.frameReceived .extended { frame with dlc := 7 } 0) = false := by decide +kernel

/-! ## Memory as it stands at reset -/

theorem test_reset_flash_canonical : flashWf State.reset.cfl.words = true := by decide +kernel
theorem test_reset_dram_canonical : State.reset.nand.dram.wf = true := by decide +kernel
theorem test_no_word_spells_a_command (n w : Nat) : decodeTableWord n w = none := rfl

/-! ## The worked cases of the spec -/

/-- The response line that a command gives in a session. -/
def saidBy (k : Sess) (c : Instr) (s : State) : Option String :=
  match exec c s with
  | .next t => (getSes t k).resp.map Line.text
  | _ => none

/-- Two commands in turn. -/
def afterThat (c : Instr) (s : State) : State :=
  match exec c s with
  | .next t => t
  | _ => s

/-- The module of the case in 04_host_path.md. -/
def caseModule : State := State.reset |> up |> mp (fun m => { m with geom := 0x8010BC00 }) |> keep 0 .serve |> img .track

/-- 04_host_path.md: sub=B rank=1 bg=5 ba=2 row=74565 is granule 1942632. -/
theorem test_case_granule : gidxOf 0x8010BC00 1 1 5 2 74565 = 1942632 := by decide +kernel
/-- 04_host_path.md: the response of MAP COORD. -/
theorem test_case_map_coord :
    saidBy 0 (.mapCoord 0 1 1 5 2 74565) { caseModule with map := { caseModule.map with dirty := [(1942632, 1942633)] } } =
      some "+OK gidx=1942632 rows=74560-74567 byte=242829 bit=0 dirty=1" := by decide +kernel
/-- 08_tenants.md: the entry of tenant 17's range. -/
def caseRange : RangeArg := { sub := 2, rankFirst := 0, rankLast := 1, allBank := true, bg := 0, ba := 0, rowFirst := 0, rowLast := 32767 }
theorem test_case_range_entry : rangeEntry 17 caseRange = 0x1180600000007FFF := by decide +kernel
theorem test_case_range_size : rsSize (entryGranules 0x8010BC00 0x1180600000007FFF) = 524288 := by decide +kernel
/-- 12_gehel_language.md: a privileged line at VIEW. -/
theorem test_case_park_refused : saidBy 0 (.park 0) (State.reset |> up |> op 0 .view |> hold .serve) = some "-ERR 201 privilege RUN required" := by
  decide +kernel
/-- 12_gehel_language.md: AUTH KEEP on the console without a secret. -/
theorem test_case_auth_open : saidBy 0 (.auth 0 2) (State.reset |> up |> op 0 .view |> hold .serve) = some "+OK priv=KEEP" := by decide +kernel
/-- 02_islands.md: retiring channel N5. -/
theorem test_case_retire_channel :
    saidBy 0 (.domainDisable 0 17) (caseModule |> run |> allOn |> allDies) = some "+OK dom=D17 pstate=DRAINING img=NONE" := by decide +kernel
/-- 12_gehel_language.md: how sizes and durations are printed. -/
theorem test_sizes : [sizeText 65536, sizeText 1048576, sizeText 3670016, sizeText 549755813888] = ["64K", "1M", "3584K", "512G"] := by decide +kernel
theorem test_durations : [durText 1800000000000, durText 10000000000, durText 125000000, durText 31250000] = ["30min", "10s", "125ms", "31250us"] := by
  decide +kernel
/-- 12_gehel_language.md: a size suffix on a duration, and the same key with a duration. -/
theorem test_case_idle_suffix : parseLine 0 (ascii "SESSION SET idle=30K") = .bad 103 := by decide +kernel
theorem test_case_idle : parseLine 0 (ascii "session set IDLE=30min") = .cmd (.sessionSetIdle 0 1800000000000) := by decide +kernel
/-- 03_startup.md and 12_gehel_language.md (R72, R131): the two CRCs on the nine digits. -/
theorem test_crcs : crc32 (ascii "123456789") = 0xCBF43926 ∧ crc32c (ascii "123456789") = 0xE3069283 := by decide +kernel
/-- 10_shelf_bus.md: the identifier of class 6, type 5, node 0x100, tag 0x012. -/
theorem test_case_frame_id : makeId 6 5 0x100 0x12 = 0x18540012 := by decide +kernel
/-- 12_gehel_language.md: the line `status` in lower case is accepted. -/
theorem test_case_status : parseLine 0 (ascii "status") = .cmd (.status 0) := by decide +kernel
/-- R399: 1089 balls in all; R410 and R411: the balls in DARK after a power-on reset. -/
theorem test_signals : (ballGroups.map (·.2)).sum = 1089 ∧ sigState State.reset .hostCa = .isolated ∧ sigState State.reset (.dqsw .a) = .high ∧
    sigState State.reset .batswEn = .low ∧ sigState State.reset .shelfBus = .standby ∧ sigState State.reset (.nand 3) = .parked := by
  decide +kernel
/-- 03_startup.md: the supply's first command after reset ends the power-on reset. -/
theorem test_release : (afterThat .powerOnResetRelease State.reset).aon.por = .rcStart := by decide +kernel
/-- 08_tenants.md: GEN 1, class 1 and SLOT 3 are the attribute word 0x0001_0013. -/
theorem test_case_attribute : attrGen 0x00010013 = 1 ∧ attrClass 0x00010013 = 1 ∧ attrSlot 0x00010013 = 3 := by decide +kernel

/-! ## States that meet the hypotheses of the statements -/

/-- Die 0 alone has data loaded and waits for a slot token. -/
def readyState : State :=
  State.reset |> allOn |> hold .save |> die 0 (.ready (.strand (page 0 0))) |> groups [group 0 .deltaOpen 0]

theorem readyState_only (d : Die) (w : Work) (h : (dieOf readyState d).op = .ready w) : ∃ p, w = .strand p ∧ atPointer readyState p = true := by
  by_cases hd : d = 0
  · subst hd
    exact ⟨page 0 0, (DieOp.ready.inj ((show (dieOf readyState 0).op = .ready (.strand (page 0 0)) from rfl).symm.trans h)).symm, by decide +kernel⟩
  · exact absurd (((show ∀ d : Die, d ≠ 0 → (dieOf readyState d).op = .idle by decide +kernel) d hd).symm.trans h) (by simp)

theorem witness_EveryCommandTakesTheQueueAsItIs : ∃ (c : Instr) (s t : State), exec c s = .next t ∧ s.pending ≠ [] :=
  ⟨.powerOnResetRelease, { State.reset with pending := [.bucketTick] }, _, rfl, by decide +kernel⟩

theorem witness_EmptyQueueIsOneMicrosecond :
    (∃ (s : State), (s.pending = [])) ∧
    (∃ (s : State), (s.pending = []) ∧ (s.aon.por = .asserted)) ∧
    (∃ (s : State), (s.pending = []) ∧ (s.aon.por ≠ .asserted) ∧ (s.aon.por ≠ .up)) :=
  ⟨⟨(State.reset), by decide +kernel⟩,
   ⟨(State.reset), by decide +kernel⟩,
   ⟨(State.reset |> aon (fun a => { a with por := .aonInit })), by decide +kernel⟩⟩

theorem witness_FlashStaysCanonical : ∃ s t : State, FlashCanonical s ∧ s.cfl.words ≠ [] ∧ step s = .next t :=
  ⟨setWord State.reset 5 0x1234, _, by show flashWf _ = true; decide +kernel, by decide +kernel, rfl⟩

theorem witness_WardenResetPhases :
    (∃ (s : State), (s.aon.por = .asserted)) ∧
    (∃ (s : State), (s.aon.por = .rcStart)) ∧
    (∃ (s : State), (s.aon.por = .aonInit)) ∧
    (∃ (s : State), (s.aon.por = .optionLoad)) :=
  ⟨⟨(State.reset), by decide +kernel⟩,
   ⟨(State.reset |> aon (fun a => { a with por := .rcStart })), by decide +kernel⟩,
   ⟨(State.reset |> aon (fun a => { a with por := .aonInit })), by decide +kernel⟩,
   ⟨(State.reset |> aon (fun a => { a with por := .optionLoad })), by decide +kernel⟩⟩

theorem witness_CrystalTemperatureVsbAndDramPins :
    (∃ (s : State), (xtalStarted s = true) ∧ (s.aon.xtal = .pending)) ∧
    (∃ (s : State), (s.aon.xtal = .fail)) ∧
    (∃ (d : ℤ) (s : State), (105 ≤ d) ∧ (s.aon.tjHigh = false)) ∧
    (∃ (d : ℤ) (s : State), (d ≤ 100)) ∧
    (∃ (s : State), (s.pins.vsb = false)) ∧
    (∃ (h : Bool) (s : State), (ready s = false)) ∧
    (∃ (s : State), (ready s = true)) :=
  ⟨⟨(State.reset |> up |> aon (fun a => { a with xtal := .pending })), by decide +kernel⟩,
   ⟨(State.reset |> aon (fun a => { a with xtal := .fail })), by decide +kernel⟩,
   ⟨106, (State.reset |> aon (fun a => { a with tjHigh := false })), by decide +kernel⟩,
   ⟨99, (State.reset), by decide +kernel⟩,
   ⟨(State.reset |> pins (fun p => { p with vsb := false })), by decide +kernel⟩,
   ⟨true, (State.reset |> hold .held), by decide +kernel⟩,
   ⟨(State.reset |> hold .serve), by decide +kernel⟩⟩

theorem witness_BulkSupplyEvents : ∃ (s : State), (s.aon.por = .up) ∧ (s.aon.hold = .dark ∨ s.aon.hold = .held) ∧ (s.pins.bulk = .qualified) ∧ (s.aon.qualifying = true) :=
  ⟨(State.reset |> up |> hold .held |> pins (fun p => { p with bulk := .qualified }) |> aon (fun a => { a with qualifying := true })), by decide +kernel⟩

theorem witness_UnplannedTriggers :
    (∃ (s : State), (s.aon.por = .up) ∧ (s.aon.hold = .serve ∧ s.aon.img ≠ .pending ∧ s.nand.prov ≠ .running ∨ s.aon.hold = .park)) ∧
    (∃ (s : State), (s.aon.por = .up) ∧ (s.aon.hold = .serve) ∧ (s.aon.img = .pending) ∧ (s.nand.prov ≠ .running)) ∧
    (∃ (s : State), (s.aon.por = .up) ∧ (s.aon.hold = .serve) ∧ (s.nand.prov = .running)) ∧
    (∃ (s : State), (s.aon.por = .up) ∧ (s.aon.hold = .fault)) ∧
    (∃ (s : State), (s.aon.por = .up) ∧ (s.aon.hold = .boot)) ∧
    (∃ (s : State) (r : RestoreRun), (s.aon.por = .up) ∧ (s.aon.hold = .restore) ∧ (s.rst.run = some r) ∧ (∀ j, s.nand.rimJob = some j → j.use ≠ .zeroSave) ∧ (r.committed = none)) ∧
    (∃ (s : State) (r : RestoreRun), (s.aon.por = .up) ∧ (s.aon.hold = .restore) ∧ (s.rst.run = some r) ∧ (∀ j, s.nand.rimJob = some j → j.use ≠ .zeroSave) ∧ (r.committed.isSome = true)) ∧
    (∃ (s : State), (s.aon.por = .up) ∧ (s.aon.hold = .save)) :=
  ⟨⟨(State.reset |> up |> hold .park), by decide +kernel⟩,
   ⟨(State.reset |> up |> hold .serve |> img .pending |> nd (fun n => { n with prov := .done })), by decide +kernel⟩,
   ⟨(State.reset |> up |> hold .serve |> nd (fun n => { n with prov := .running })), by decide +kernel⟩,
   ⟨(State.reset |> up |> hold .fault), by decide +kernel⟩,
   ⟨(State.reset |> up |> hold .boot), by decide +kernel⟩,
   ⟨(State.reset |> up |> restoring .owned aRun), aRun, rfl, rfl, rfl, (by intro j h; cases (show (none : Option RimJob) = some j from h)), rfl⟩,
   ⟨(State.reset |> up |> restoring .owned { aRun with committed := some 9 }), { aRun with committed := some 9 }, rfl, rfl, rfl, (by intro j h; cases (show (none : Option RimJob) = some j from h)), rfl⟩,
   ⟨(State.reset |> up |> hold .save), by decide +kernel⟩⟩

theorem witness_OtherSuppliesAndRefclk :
    (∃ (s : State), (s.aon.hold ≠ .save) ∧ (s.aon.hold ≠ .restore)) ∧
    (∃ (s : State), (s.pins.refclk = true)) ∧
    (∃ (s : State), (s.pins.refclk = false) ∧ (¬(s.aon.hold = .fault ∧ s.aon.boot.noRefclk = true))) ∧
    (∃ (s : State), (s.pins.refclk = false) ∧ (s.aon.hold ≠ .save) ∧ (s.aon.hold ≠ .restore)) ∧
    (∃ (s : State), (s.pins.refclk = false) ∧ (s.pins.bulk ≠ .droop) ∧ (s.aon.hold = .save)) ∧
    (∃ (s : State), (s.pins.refclk = false) ∧ (s.pins.bulk ≠ .droop) ∧ (s.aon.hold = .restore)) ∧
    (∃ (s : State), (s.aon.hold = .boot) ∧ (s.pins.refclk = false) ∧ (s.pins.bulk ≠ .droop)) :=
  ⟨⟨(State.reset |> hold .serve), by decide +kernel⟩,
   ⟨(State.reset |> pins (fun p => { p with refclk := true })), by decide +kernel⟩,
   ⟨(State.reset |> pins (fun p => { p with refclk := false, bulk := .low }) |> hold .serve), by decide +kernel⟩,
   ⟨(State.reset |> pins (fun p => { p with refclk := false, bulk := .low }) |> hold .serve), by decide +kernel⟩,
   ⟨(State.reset |> pins (fun p => { p with refclk := false, bulk := .low }) |> hold .save), by decide +kernel⟩,
   ⟨(State.reset |> pins (fun p => { p with refclk := false, bulk := .low }) |> hold .restore), by decide +kernel⟩,
   ⟨(State.reset |> pins (fun p => { p with refclk := false, bulk := .low }) |> hold .boot), by decide +kernel⟩⟩

theorem witness_BootPhasesOfTheHardware :
    (∃ (s : State), (s.aon.hold = .boot) ∧ (s.aon.boot.domainsUp = false) ∧ (s.pins.refclk = true)) ∧
    (∃ (pass : Bool) (s : State), (s.aon.hold = .boot) ∧ (s.aon.boot.hpReady = false) ∧ (s.aon.boot.domainsUp = true ∨ s.pins.refclk = false)) ∧
    (∃ (s : State), (romRuns s = true) ∧ (s.aon.boot.header = false) ∧ (isOn s 3 = true) ∧ (s.aon.boot.second = false) ∧ (s.aon.opt.fallback = true)) ∧
    (∃ (s : State), (romRuns s = true) ∧ (s.aon.boot.header = true) ∧ (s.aon.boot.body = false) ∧ (isOn s 3 = true) ∧ (s.aon.boot.second = false) ∧ (s.aon.opt.fallback = true)) ∧
    (∃ (root : Bool) (xts : Bool) (map : Bool) (s : State), (s.aon.hold = .boot) ∧ (s.aon.boot.firmware = true) ∧ (s.aon.boot.tests = false)) :=
  ⟨⟨(State.reset |> hold .boot |> boot (fun b => { b with domainsUp := false }) |> pins (fun p => { p with refclk := true })), by decide +kernel⟩,
   ⟨true, (State.reset |> hold .boot |> boot (fun b => { b with domainsUp := true, hpReady := false })), by decide +kernel⟩,
   ⟨(State.reset |> hold .boot |> allOn |> mg (fun m => { m with running := false }) |> aon (fun a => { a with mgmtHold := false, noFirmware := false }) |> opts (fun o => { o with fallback := true }) |> boot (fun b => { b with domainsUp := true, hpReady := true, noRefclk := false, second := false, firmware := false, header := false })), by decide +kernel⟩,
   ⟨(State.reset |> hold .boot |> allOn |> mg (fun m => { m with running := false }) |> aon (fun a => { a with mgmtHold := false, noFirmware := false }) |> opts (fun o => { o with fallback := true }) |> boot (fun b => { b with domainsUp := true, hpReady := true, noRefclk := false, second := false, firmware := false, header := true, body := false })), by decide +kernel⟩,
   ⟨true, true, true, (State.reset |> hold .boot |> boot (fun b => { b with firmware := true, tests := false })), by decide +kernel⟩⟩

theorem witness_FirmwareStartOpensTheSessions : ∃ (s : State), (romRuns s = true) ∧ (s.aon.boot.body = true) ∧ (s.aon.boot.firmware = false) ∧ (s.aon.activated = false) :=
  ⟨(State.reset |> hold .boot |> allOn |> mg (fun m => { m with running := false }) |> aon (fun a => { a with mgmtHold := false, noFirmware := false }) |> opts (fun o => { o with fallback := true }) |> boot (fun b => { b with domainsUp := true, hpReady := true, noRefclk := false, second := false, firmware := false, header := true, body := true }) |> aon (fun a => { a with activated := false })), by decide +kernel⟩

theorem witness_ImageDerivationEndsBoot : ∃ (f : NandFacts) (s : State), (s.aon.hold = .boot) ∧ (s.aon.boot.tests = true) ∧ (s.aon.boot.hpReady = true) ∧ (s.mg.running = true) ∧ (s.pins.bulk ≠ .droop) :=
  ⟨facts, (State.reset |> hold .boot |> run |> boot (fun b => { b with tests := true, hpReady := true }) |> pins (fun p => { p with bulk := .qualified })), by decide +kernel⟩

theorem witness_ProvisioningMarksAndFormats :
    (∃ (f : FirstFacts) (s : State), (provisions s = true) ∧ (s.nand.rimJob = none) ∧ (s.nand.fbbt = false)) ∧
    (∃ (s : State), (provisions s = true) ∧ (s.nand.prov = .running) ∧ (s.nand.fbbt = true) ∧ (s.nand.rimJob = none) ∧ (∃ a b : Die, usable s a = true ∧ usable s b = true ∧ dieCh a ≠ dieCh b)) ∧
    (∃ (j : RimJob) (a : MarginRead) (b : MarginRead) (s : State), (s.nand.rimJob = some j) ∧ (j.dwell = false) ∧ (j.a.programmed = true) ∧ (j.b.programmed = true) ∧ (j.use = .formatRim) ∧ (j.rim.type = .format) ∧ (marginPasses s.nand.profile a = true) ∧ (marginPasses s.nand.profile b = true)) :=
  ⟨⟨{ marks := [{ die := 0, block := 3, page := 0, byte := 0 }], zeroBits := [] }, (State.reset |> hold .serve |> nd (fun n => { n with prov := .never, fbbt := false, rimJob := none })), by decide +kernel⟩,
   ⟨(State.reset |> hold .serve |> allOn |> allDies |> nd (fun n => { n with prov := .running, fbbt := true, rimJob := none })), by decide +kernel, by decide +kernel, by decide +kernel, by decide +kernel, ⟨0, 32, by decide +kernel⟩⟩,
   ⟨rimJob .format .formatRim true, .decoded 3 true, .decoded 3 true, (State.reset |> rimming .format .formatRim true), rfl, by decide +kernel⟩⟩

theorem witness_FlitsAndCredits :
    (∃ (n : LaneId) (f : Flit) (s : State), (runs s (laneSource n) = true) ∧ (laneUp s n = true) ∧ ((laneOf s n).halted = false) ∧ ((laneOf s n).waiting = []) ∧ (1 ≤ (laneOf s n).credits) ∧ (f.kind = .desc → modeOf s (laneEnds n).2 ≠ .draining ∧ modeOf s (laneEnds n).2 ≠ .stuck)) ∧
    (∃ (n : LaneId) (f : Flit) (s : State), (runs s (laneSource n) = true) ∧ (laneUp s n = true) ∧ ((laneOf s n).credits = 0) ∧ (n.val < 69) ∧ (f.kind ≠ .desc)) ∧
    (∃ (n : LaneId) (f : Flit) (s : State), (runs s (laneSource n) = true) ∧ (laneUp s n = false ∨ f.kind = .desc ∧ n.val < 69 ∧ modeOf s (laneEnds n).2 = .draining)) ∧
    (∃ (n : LaneId) (f : Flit) (rest : List Flit) (s : State), (runs s (laneSink n) = true) ∧ ((laneOf s n).flight = f :: rest) ∧ (f.poison = false)) ∧
    (∃ (f : Flit) (rest : List Flit) (s : State), (runs s 8 = true) ∧ ((laneOf s 0).flight = f :: rest)) ∧
    (∃ (n : LaneId) (g : BitVec 8) (h : WorkEnd) (s : State), (runs s (laneSink n) = true) ∧ (laneUp s n = true) ∧ ((laneOf s n).halted = false) ∧ ((laneOf s n).waiting = []) ∧ ((laneOf s n).credits < laneDepth n) ∧ (laneDone n = false ∨ statLane n = none)) ∧
    (∃ (n : LaneId) (b : LaneId) (g : BitVec 8) (h : WorkEnd) (s : State), (runs s (laneSink n) = true) ∧ (laneUp s n = true) ∧ ((laneOf s n).halted = false) ∧ ((laneOf s n).waiting = []) ∧ ((laneOf s n).credits < laneDepth n) ∧ (laneDone n = true) ∧ (statLane n = some b) ∧ ((laneOf s n).queue.any (fun f => decide (f.tag = g)) = true) ∧ ((laneOf s b).halted = false) ∧ ((laneOf s b).waiting = []) ∧ (1 ≤ (laneOf s b).credits)) ∧
    (∃ (n : LaneId) (g : BitVec 8) (h : WorkEnd) (s : State), (runs s (laneSink n) = true) ∧ (laneUp s n = false) ∧ ((laneOf s n).halted = false) ∧ (laneDone n = false)) ∧
    (∃ (n : LaneId) (g : BitVec 8) (h : WorkEnd) (s : State), (runs s (laneSink n) = true) ∧ (laneUp s n = true) ∧ ((laneOf s n).halted = false) ∧ ((laneOf s n).credits = laneDepth n) ∧ (coreSaveLane n = false)) :=
  ⟨⟨5, flit, (State.reset |> allOn |> lane 5 (fun l => { l with credits := 2 })), by decide +kernel⟩,
   ⟨5, flit, (State.reset |> allOn |> lane 5 (fun l => { l with credits := 0 })), by decide +kernel⟩,
   ⟨5, flit, (State.reset |> allOn |> dom 11 .off), by decide +kernel⟩,
   ⟨5, flit, [], (State.reset |> allOn |> lane 5 (fun l => { l with flight := [flit] })), by decide +kernel⟩,
   ⟨flit, [], (State.reset |> allOn |> lane 0 (fun l => { l with flight := [flit] })), by decide +kernel⟩,
   ⟨5, 3, .complete, (State.reset |> allOn |> lane 5 (fun l => { l with credits := 2 })), by decide +kernel⟩,
   ⟨25, 33, 3, .complete, (State.reset |> allOn |> lane 25 (fun l => { l with credits := 2, queue := [flit] }) |> lane 33 (fun l => { l with credits := 1 })), by decide +kernel⟩,
   ⟨5, 3, .complete, (State.reset |> allOn |> dom 10 .off), by decide +kernel⟩,
   ⟨9, 3, .complete, (State.reset |> allOn |> lane 9 (fun l => { l with credits := 32 })), by decide +kernel⟩⟩

theorem witness_DomainsComeUpAndGoDown :
    (∃ (p : Pll) (s : State), (s.pins.refclk = true) ∧ (∃ d : Dom, pllOf d = some p ∧ (modeOf s d.val).powered = true)) ∧
    (∃ (d : Dom) (k : Option Sess) (s : State), ((domOf s d).enabling = some k) ∧ (∀ p, pllOf d = some p → pllOn s p = true)) ∧
    (∃ (d : Dom) (x : PowerFail) (s : State), (d ≠ 0) ∧ (optional d = true) ∧ ((domOf s d).enabling.isSome = true ∨ (domOf s d).mode.powered = true)) ∧
    (∃ (d : Dom) (s : State), ((domOf s d).mode = .draining) ∧ (drained s d = true)) ∧
    (∃ (d : Dom) (s : State), ((domOf s d).mode = .draining)) :=
  ⟨⟨.n, (State.reset |> allOn), by decide +kernel⟩,
   ⟨13, some 5, (State.reset |> allOn |> (fun s => { s with doms := { s.doms with dom := upd s.doms.dom 13 (fun x => { x with mode := .off, enabling := some (some 5) }) } })), by decide +kernel, by intro p; cases p <;> decide +kernel⟩,
   ⟨13, .powerGood, (State.reset |> allOn), by decide +kernel⟩,
   ⟨13, (State.reset |> dom 13 .draining |> lanesFull), by decide +kernel⟩,
   ⟨13, (State.reset |> dom 13 .draining), by decide +kernel⟩⟩

theorem witness_WatchdogAndDeferredActivation :
    (∃ (s : State), (s.aon.wdArmed = true) ∧ (s.mg.running = true) ∧ (s.mg.halted = false)) ∧
    (∃ (s : State), (s.aon.wdArmed = true)) ∧
    (∃ (s : State), (s.aon.deferred = true) ∧ (s.aon.hold = .serve) ∧ (s.mg.running = true) ∧ (s.cfl.jobs = []) ∧ (optFull s = false) ∧ (¬ hdrSvn (hdrOf s (targetBank s)) < floorOf s)) :=
  ⟨⟨(State.reset |> run |> aon (fun a => { a with wdArmed := true })), by decide +kernel⟩,
   ⟨(State.reset |> aon (fun a => { a with wdArmed := true })), by decide +kernel⟩,
   ⟨(State.reset |> run |> hold .serve |> aon (fun a => { a with deferred := true }) |> jobs []), by decide +kernel⟩⟩

theorem witness_CryptoEraseStepByStep :
    (∃ (x : Tenant) (j : EraseJob) (b : Bool) (s : State), (jobOf s x = some j) ∧ (j.phase = .zeroize) ∧ (keyInFlight s x = true)) ∧
    (∃ (x : Tenant) (j : EraseJob) (s : State), (jobOf s x = some j) ∧ (j.phase = .zeroize) ∧ (keyInFlight s x = false)) ∧
    (∃ (x : Tenant) (j : EraseJob) (s : State), (jobOf s x = some j) ∧ (j.phase = .keyStore)) ∧
    (∃ (x : Tenant) (j : EraseJob) (s : State), (jobOf s x = some j) ∧ (j.phase = .oldCopy) ∧ (j.proven = false)) ∧
    (∃ (x : Tenant) (j : EraseJob) (s : State), (jobOf s x = some j) ∧ (j.phase = .oldCopy) ∧ (j.tries < 2)) :=
  ⟨⟨3, eraseJob .zeroize, true, (State.reset |> erasing .zeroize |> mp (fun m => { m with save := some { aSave .stream with open_ := [{ strand 0 .loading with plait := { (strand 0 .loading).plait with parts := [{ tenant := 3, gen := 1, set := [(0, 8)] }] } }] } })), by decide +kernel⟩,
   ⟨3, eraseJob .zeroize, (State.reset |> erasing .zeroize), by decide +kernel⟩,
   ⟨3, eraseJob .keyStore, (State.reset |> erasing .keyStore), by decide +kernel⟩,
   ⟨3, eraseJob .oldCopy, (State.reset |> erasing .oldCopy), by decide +kernel⟩,
   ⟨3, eraseJob .oldCopy, (State.reset |> erasing .oldCopy), by decide +kernel⟩⟩

theorem witness_ChargerModes :
    (∃ (s : State), (s.bat.chg = .precharge)) ∧
    (∃ (s : State), (s.bat.chg = .cc)) ∧
    (∃ (s : State), (s.bat.chg = .cv) ∧ (atTaper s = true)) ∧
    (∃ (s : State), (atTaper s = false)) ∧
    (∃ (s : State), (s.bat.chg = .done) ∧ (socOf s ≤ (s.bat.set.recharge : ℚ) / 100)) ∧
    (∃ (c : PauseCause) (s : State), (c ≠ .bulk) ∧ (s.bat.chg.charging = true ∨ s.bat.chg = .done)) ∧
    (∃ (s : State), (s.aon.hold = .serve) ∧ (s.bat.chg.charging = true)) ∧
    (∃ (c : PauseCause) (s : State), (c ≠ .bulk) ∧ (s.bat.chg = .paused) ∧ (s.bat.pauses = [c]) ∧ (s.bat.fromFull = false) ∧ (s.bat.pausedFrom.charging = true)) ∧
    (∃ (s : State), (isOn s 1 = true) ∧ (s.bat.chg ≠ .fault)) ∧
    (∃ (s : State), (s.bat.chg = .cc ∨ s.bat.chg = .cv) ∧ (36000000 < s.bat.chgTime)) ∧
    (∃ (s : State), (s.aon.retryEnd.isSome = true) ∧ (s.bat.locked = false)) :=
  ⟨⟨(State.reset |> bt (fun b => { b with chg := .precharge, fromFull := false })), by decide +kernel⟩,
   ⟨(State.reset |> bt (fun b => { b with chg := .cc })), by decide +kernel⟩,
   ⟨(State.reset |> bt (fun b => { b with chg := .cv, icmd := 0 })), by decide +kernel⟩,
   ⟨(State.reset |> bt (fun b => { b with chg := .cv, icmd := 100000 })), by decide +kernel⟩,
   ⟨(State.reset |> pack |> bt (fun b => { b with chg := .done })), by decide +kernel⟩,
   ⟨.rest, (State.reset |> bt (fun b => { b with chg := .done })), by decide +kernel⟩,
   ⟨(State.reset |> hold .serve |> bt (fun b => { b with chg := .cc })), by decide +kernel⟩,
   ⟨.temperature, (State.reset |> bt (fun b => { b with chg := .paused, pauses := [.temperature], fromFull := false, pausedFrom := .cc })), by decide +kernel⟩,
   ⟨(State.reset |> dom 1 .on |> bt (fun b => { b with chg := .cc })), by decide +kernel⟩,
   ⟨(State.reset |> bt (fun b => { b with chg := .cv, chgTime := 36000001 })), by decide +kernel⟩,
   ⟨(State.reset |> aon (fun a => { a with retryEnd := some 5 }) |> bt (fun b => { b with locked := false })), by decide +kernel⟩⟩

theorem witness_PackIdentity :
    (∃ (b : List Byte) (s : State), (s.bat.present = true) ∧ (s.mg.running = true) ∧ (packRecordOk b = true) ∧ (packChem b = s.aon.opt.chem.toNat) ∧ (packCells b = cellCount s)) ∧
    (∃ (b : List Byte) (s : State), (s.bat.present = true) ∧ (s.mg.running = true) ∧ (packRecordOk b = true) ∧ (packChem b ≠ s.aon.opt.chem.toNat ∨ packCells b ≠ cellCount s)) ∧
    (∃ (a : Bool) (b : List Byte) (s : State), (s.bat.present = true) ∧ (s.mg.running = true) ∧ (a = false ∨ packRecordOk b = false) ∧ (s.bat.readTries < 3)) ∧
    (∃ (a : Bool) (b : List Byte) (s : State), (s.bat.present = true) ∧ (s.mg.running = true) ∧ (a = false ∨ packRecordOk b = false) ∧ (3 ≤ s.bat.readTries)) :=
  ⟨⟨packBytes 2, (State.reset |> run |> bt (fun b => { b with present := true, readTries := 0 }) |> opts (fun o => { o with cells := 2, chem := 0 })), by decide +kernel⟩,
   ⟨packBytes 3, (State.reset |> run |> bt (fun b => { b with present := true, readTries := 0 }) |> opts (fun o => { o with cells := 2, chem := 0 })), by decide +kernel⟩,
   ⟨true, [], (State.reset |> run |> bt (fun b => { b with present := true, readTries := 1 })), by decide +kernel⟩,
   ⟨false, [], (State.reset |> run |> bt (fun b => { b with present := true, readTries := 3 })), by decide +kernel⟩⟩

theorem witness_EstimatorSteps :
    (∃ (x : Sample) (dt : ℕ) (i : ℕ) (r : PackRec) (s : State), (s.mg.running = true) ∧ (s.bat.present = true) ∧ (s.bat.cells ≠ []) ∧ (implausible (filled s s.bat.cells.length x) = false) ∧ (s.bat.est ≠ .sensefail) ∧ (s.bat.packRec = some r)) ∧
    (∃ (x : Sample) (dt : ℕ) (i : ℕ) (s : State), (s.mg.running = true) ∧ (s.bat.present = true) ∧ (s.bat.cells ≠ []) ∧ (implausible (filled s s.bat.cells.length x) = true)) ∧
    (∃ (x : Sample) (i : ℕ) (s : State), (s.aon.por = .up) ∧ ((modeOf s 2).powered = false) ∧ (s.aon.batEmpty = false) ∧ (s.bat.present = true)) ∧
    (∃ (m : Margin) (s : State), (s.bat.better = some m)) ∧
    (∃ (x : Sample) (r : PackRec) (s : State), (newest s.bat = some x) ∧ (packUsable s = true) ∧ (s.mg.running = true) ∧ (s.bat.packRec = some r)) ∧
    (∃ (s : State), (packUsable s = true) ∧ (s.bat.est ≠ .unanchored) ∧ (72 ≤ anchorHours s)) ∧
    (∃ (s : State), (s.bat.est = .sensefail)) :=
  ⟨⟨sample, 1000, 0, packRecord, (State.reset |> pack), by decide +kernel⟩,
   ⟨{ sample with vbat := 20000 }, 1000, 0, (State.reset |> pack), by decide +kernel⟩,
   ⟨sample, 0, (State.reset |> up |> dom 2 .off |> aon (fun a => { a with batEmpty := false }) |> bt (fun b => { b with present := true })), by decide +kernel⟩,
   ⟨.green, (State.reset |> bt (fun b => { b with better := some .green })), by decide +kernel⟩,
   ⟨sample, packRecord, (State.reset |> pack |> pins (fun p => { p with batsw := false })), by decide +kernel⟩,
   ⟨(State.reset |> pack |> aon (fun a => { a with us := 700000000000 })), by decide +kernel⟩,
   ⟨(State.reset |> bt (fun b => { b with est := .sensefail })), by decide +kernel⟩⟩

theorem witness_RestWindowsAndProbes :
    (∃ (s : State), (restWanted s = true) ∧ (s.mg.running = true)) ∧
    (∃ (s : State), (s.aon.hold = .serve) ∧ (restWanted s = true) ∧ (s.aon.opt.join = 3 ∨ stakeMissing s = true) ∧ (s.bat.chg.charging = true)) ∧
    (∃ (s : State), (s.bat.restUntil.isSome = true)) ∧
    (∃ (l : List ℕ) (p : Probe) (s : State), (s.bat.probe = some p) ∧ (p.after = []) ∧ (packUsable s = true) ∧ (¬ loadPower s / packVolts (filledCells s p.before.length l) - p.dI < 1)) ∧
    (∃ (l : List ℕ) (p : Probe) (s : State), (s.bat.probe = some p) ∧ (p.after = []) ∧ (packUsable s = true) ∧ (loadPower s / packVolts (filledCells s p.before.length l) - p.dI < 1)) ∧
    (∃ (l : List ℕ) (p : Probe) (s : State), (s.bat.probe = some p) ∧ (p.after ≠ []) ∧ (packUsable s = true) ∧ (s.aon.hold = .save)) ∧
    (∃ (r : PackRec) (s : State), (s.mg.running = true) ∧ (s.bat.packRec = some r) ∧ (∀ w, s.bat.storedAt = some w → w + 86400000000 ≤ s.aon.us)) :=
  ⟨⟨(State.reset |> pack |> aon (fun a => { a with us := 700000000000 })), by decide +kernel⟩,
   ⟨(State.reset |> hold .serve |> pack |> opts (fun o => { o with join := 3 }) |> bt (fun b => { b with chg := .cc }) |> aon (fun a => { a with us := 700000000000 })), by decide +kernel⟩,
   ⟨(State.reset |> bt (fun b => { b with restUntil := some 9 })), by decide +kernel⟩,
   ⟨[33000, 33000], { before := [33100, 33100], after := [], dI := loadPower State.reset / packVolts [33000, 33000] - 2, z0 := [4 / 5, 4 / 5] }, (State.reset |> pack |> bt (fun b => { b with probe := some { before := [33100, 33100], after := [], dI := loadPower State.reset / packVolts [33000, 33000] - 2, z0 := [4 / 5, 4 / 5] } })), rfl, rfl, by decide +kernel, by intro h; exact absurd ((sub_sub_cancel (_ : ℚ) 2).symm.trans_lt h) (by norm_num)⟩,
   ⟨[33000, 33000], { before := [33100, 33100], after := [], dI := loadPower State.reset / packVolts [33000, 33000], z0 := [4 / 5, 4 / 5] }, (State.reset |> pack |> bt (fun b => { b with probe := some { before := [33100, 33100], after := [], dI := loadPower State.reset / packVolts [33000, 33000], z0 := [4 / 5, 4 / 5] } })), rfl, rfl, by decide +kernel, (sub_self (_ : ℚ)).trans_lt one_pos⟩,
   ⟨[33000, 33000], { before := [33100, 33100], after := [33000, 33000], dI := 2, z0 := [4 / 5, 4 / 5] }, (State.reset |> hold .save |> pack |> bt (fun b => { b with probe := some { before := [33100, 33100], after := [33000, 33000], dI := 2, z0 := [4 / 5, 4 / 5] } })), by decide +kernel⟩,
   ⟨packRecord, (State.reset |> pack |> bt (fun b => { b with storedAt := none })), by decide +kernel, by decide +kernel, by intro w h; cases h⟩⟩

theorem witness_EnergyInASave :
    (∃ (s : State), (s.aon.hold = .save) ∧ (s.mg.running = true)) ∧
    (∃ (s : State), (s.aon.hold = .save)) ∧
    (∃ (s : State), (s.aon.hold = .held ∨ s.aon.hold = .dark) ∧ (s.aon.por = .up) ∧ (s.pins.bulk ≠ .qualified) ∧ (s.aon.batEmpty = false)) :=
  ⟨⟨(State.reset |> hold .save |> run |> save .stream), by decide +kernel⟩,
   ⟨(State.reset |> hold .save |> save .stream), by decide +kernel⟩,
   ⟨(State.reset |> up |> hold .held |> pins (fun p => { p with bulk := .low }) |> aon (fun a => { a with batEmpty := false })), by decide +kernel⟩⟩

theorem witness_HostRowsAndRefresh :
    (∃ (x : Sub) (r : Rank) (b : BankAddr) (row : BitVec 18) (s : State), (ready s = true)) ∧
    (∃ (x : Sub) (r : Rank) (b : BankAddr) (row : BitVec 18) (s : State), (ready s = false)) ∧
    (∃ (x : Sub) (r : Rank) (b : BankAddr) (s : State), (ready s = true)) ∧
    (∃ (x : Sub) (r : Rank) (ba : Fin 4) (s : State), (ready s = true)) ∧
    (∃ (x : Sub) (r : Rank) (s : State), (ready s = true)) :=
  ⟨⟨.a, 0, ⟨1, 0⟩, 5, (State.reset |> hold .serve), by decide +kernel⟩,
   ⟨.a, 0, ⟨1, 0⟩, 5, (State.reset |> hold .held), by decide +kernel⟩,
   ⟨.a, 0, ⟨1, 0⟩, (State.reset |> hold .serve |> hp (fun h => { h with rows := [({ sub := .a, rank := 0, bank := ⟨1, 0⟩ }, 5)], selfRef := [(.a, 0)] })), by decide +kernel⟩,
   ⟨.a, 0, 1, (State.reset |> hold .serve |> hp (fun h => { h with rows := [({ sub := .a, rank := 0, bank := ⟨1, 0⟩ }, 5)], selfRef := [(.a, 0)] })), by decide +kernel⟩,
   ⟨.a, 0, (State.reset |> hold .serve |> hp (fun h => { h with rows := [({ sub := .a, rank := 0, bank := ⟨1, 0⟩ }, 5)], selfRef := [(.a, 0)] })), by decide +kernel⟩⟩

theorem witness_HostWritesMarkTheirGranule :
    (∃ (x : Sub) (r : Rank) (b : BankAddr) (row : BitVec 18) (d : ℕ) (s : State), (ready s = true) ∧ (look { sub := x, rank := r, bank := b } s.hp.rows = some row) ∧ (geoValid s.map.geom = true) ∧ (coordOk s.map.geom (subNum x) r.val b.bg.val b.ba.val row.toNat = true)) ∧
    (∃ (x : Sub) (r : Rank) (b : BankAddr) (d : ℕ) (s : State), (ready s = true) ∧ (look { sub := x, rank := r, bank := b } s.hp.rows = none) ∧ (geoValid s.map.geom = true) ∧ (coordOk s.map.geom (subNum x) r.val b.bg.val b.ba.val 0 = true)) ∧
    (∃ (x : Sub) (r : Rank) (b : BankAddr) (row : BitVec 18) (d : ℕ) (s : State), (ready s = true) ∧ (look { sub := x, rank := r, bank := b } s.hp.rows = some row) ∧ (geoValid s.map.geom = false ∨ coordOk s.map.geom (subNum x) r.val b.bg.val b.ba.val row.toNat = false)) ∧
    (∃ (f : Flit) (rest : List Flit) (l : List Snoop) (s : State), (runs s 8 = true) ∧ ((laneOf s 0).queue ++ (laneOf s 0).flight = f :: rest) ∧ (f.poison = false) ∧ (f.payload = .snoop l)) :=
  ⟨⟨.a, 0, ⟨1, 0⟩, 5, 77, (State.reset |> geom |> hold .serve |> hp (fun h => { h with rows := [({ sub := .a, rank := 0, bank := ⟨1, 0⟩ }, 5)] })), by decide +kernel⟩,
   ⟨.a, 0, ⟨1, 0⟩, 77, (State.reset |> geom |> hold .serve |> hp (fun h => { h with rows := [] })), by decide +kernel⟩,
   ⟨.a, 0, ⟨1, 0⟩, 5, 77, (State.reset |> hold .serve |> hp (fun h => { h with rows := [({ sub := .a, rank := 0, bank := ⟨1, 0⟩ }, 5)] })), by decide +kernel⟩,
   ⟨{ flit with payload := .snoop [.granule 4] }, [], [.granule 4], (State.reset |> allOn |> lane 0 (fun l => { l with queue := [{ flit with payload := .snoop [.granule 4] }], flight := [] })), by decide +kernel⟩⟩

theorem witness_ModeRegisterCapture :
    (∃ (x : Sub) (r : Rank) (v : Byte) (m : Byte) (s : State), (ready s = true) ∧ (look (x, r) s.hp.pda = none) ∧ ((s.hp.capture.filter (fun e => decide (e.isDevice = false))).length < 8192)) ∧
    (∃ (x : Sub) (r : Rank) (v : Byte) (m : Byte) (s : State) (k : Byte), (ready s = true) ∧ (look (x, r) s.hp.pda = some k) ∧ ((s.hp.capture.filter (fun e => e.isDevice)).length < 2048)) ∧
    (∃ (x : Sub) (r : Rank) (l : List Rank) (v : Byte) (m : Byte) (s t : State) (f : List Rank → Instr), (ready s = true) ∧ (exec (f [r]) s = .next t)) ∧
    (∃ (x : Sub) (r : Rank) (i : Byte) (s : State), (ready s = true) ∧ (i.toNat < 16)) ∧
    (∃ (x : Sub) (a : Byte) (v : Byte) (s : State), (ready s = true)) :=
  ⟨⟨.a, 0, 3, 3, (State.reset |> hold .serve |> hp (fun h => { h with pda := [], capture := [] })), by decide +kernel⟩,
   ⟨.a, 0, 3, 3, (State.reset |> hold .serve |> hp (fun h => { h with pda := [((.a, 0), 5)], capture := [] })), 5, by decide +kernel⟩,
   ⟨.a, 0, [1], 3, 3, (State.reset |> hold .serve), _, fun l => Instr.mrw .a l 3 3, by decide +kernel, rfl⟩,
   ⟨.a, 0, 15, (State.reset |> hold .park), by decide +kernel⟩,
   ⟨.a, 3, 3, (State.reset |> hold .park), by decide +kernel⟩⟩

theorem witness_HostPathFaultsAndSelfRefresh :
    (∃ (x : Sub) (s : State), (ready s = true)) ∧
    (∃ (s : State), (ready s = true) ∧ (allSelfRef s = false)) ∧
    (∃ (x : Sub) (r : Rank) (s : State), (ready s = true) ∧ ((x, r) ∉ s.hp.selfRef) ∧ (allSelfRef { s with hp := { s.hp with selfRef := s.hp.selfRef ++ [(x, r)] } } = false)) ∧
    (∃ (x : Sub) (r : Rank) (s : State), (s.aon.hold = .park) ∧ (allSelfRef { s with hp := { s.hp with selfRef := s.hp.selfRef ++ [(x, r)] } } = true)) :=
  ⟨⟨.a, (State.reset |> hold .serve), by decide +kernel⟩,
   ⟨(State.reset |> hold .serve |> hp (fun h => { h with selfRef := [] })), by decide +kernel⟩,
   ⟨.a, 0, (State.reset |> hold .serve |> geom |> hp (fun h => { h with selfRef := [] })), by decide +kernel⟩,
   ⟨.a, 0, (State.reset |> hold .park |> geom |> hp (fun h => { h with selfRef := [(.b, 0)] })), by decide +kernel⟩⟩

theorem witness_TakeoverPhases :
    (∃ (s : State), (s.aon.hold = .save ∨ s.aon.hold = .restore) ∧ (s.hp.phase = .burstDrain)) ∧
    (∃ (s : State), (s.aon.hold = .save ∨ s.aon.hold = .restore) ∧ (s.hp.phase = .close)) ∧
    (∃ (s : State), (s.aon.hold = .save ∨ s.aon.hold = .restore) ∧ (s.hp.phase = .switch_)) ∧
    (∃ (s : State), (s.aon.hold = .save ∨ s.aon.hold = .restore) ∧ (s.hp.phase = .clock)) ∧
    (∃ (s : State), (s.aon.hold = .save ∨ s.aon.hold = .restore) ∧ (s.hp.phase = .portStart)) ∧
    (∃ (v : Save) (s : State), (s.aon.hold = .save) ∧ (s.hp.phase = .retrain) ∧ (s.map.save = some v) ∧ (v.todo ≠ [])) ∧
    (∃ (v : Save) (s : State), (s.aon.hold = .save) ∧ (s.hp.phase = .retrain) ∧ (s.map.save = some v)) ∧
    (∃ (r : RestoreRun) (s : State), (s.aon.hold = .restore) ∧ (s.hp.phase = .retrain) ∧ (s.rst.run = some r)) ∧
    (∃ (v : Save) (s : State), (s.aon.hold = .save) ∧ (s.hp.phase = .firstGranule) ∧ (s.map.save = some v)) :=
  ⟨⟨(State.reset |> hold .save |> hp (fun h => { h with phase := .burstDrain })), by decide +kernel⟩,
   ⟨(State.reset |> hold .save |> hp (fun h => { h with phase := .close })), by decide +kernel⟩,
   ⟨(State.reset |> hold .save |> hp (fun h => { h with phase := .switch_ })), by decide +kernel⟩,
   ⟨(State.reset |> hold .save |> hp (fun h => { h with phase := .clock })), by decide +kernel⟩,
   ⟨(State.reset |> hold .save |> hp (fun h => { h with phase := .portStart })), by decide +kernel⟩,
   ⟨aSave .takeover, (State.reset |> hold .save |> save .takeover |> hp (fun h => { h with phase := .retrain })), by decide +kernel⟩,
   ⟨aSave .takeover, (State.reset |> hold .save |> save .takeover |> hp (fun h => { h with phase := .retrain })), by decide +kernel⟩,
   ⟨aRun, (State.reset |> restoring .retrain aRun), by decide +kernel, by decide +kernel, rfl⟩,
   ⟨aSave .takeover, (State.reset |> hold .save |> save .takeover |> hp (fun h => { h with phase := .firstGranule })), by decide +kernel⟩⟩

theorem witness_PlaitsAndStrands :
    (∃ (v : Save) (s : State), (s.map.save = some v) ∧ (v.phase = .stream) ∧ (v.todo.filter (fun p => saved s p.1) ≠ []) ∧ (v.open_ = []) ∧ (plaitAllowed s { v with todo := v.todo.filter (fun p => saved s p.1) } = true) ∧ (stripeDies s v ≠ []) ∧ (∀ d ∈ stripeDies s v, (nextPage s d).2.isSome = true)) ∧
    (∃ (v : Save) (s : State), (s.map.save = some v) ∧ (v.phase = .stream) ∧ (v.todo.filter (fun p => saved s p.1) ≠ []) ∧ (plaitAllowed s { v with todo := v.todo.filter (fun p => saved s p.1) } = false)) ∧
    (∃ (d : Die) (p : Page) (w : Work) (s : State), (w = .strand p ∨ w = .table p) ∧ ((dieOf s d).op = .loading w)) ∧
    (∃ (s : State), (runs s 6 = true) ∧ (s.aon.hold = .save) ∧ (s.nand.settle.running = false) ∧ (s.nand.rimJob = none) ∧ (∀ d w, (dieOf s d).op = .ready w → ∃ p, w = .strand p ∧ atPointer s p = true)) ∧
    (∃ (d : Die) (p : Page) (w : Work) (s : State), (w = .strand p ∨ w = .table p) ∧ ((dieOf s d).op = .busy w) ∧ ((groupOf s p.die p.block).role = .deltaOpen)) ∧
    (∃ (d : Die) (p : Page) (x : Fin 4) (v : Save) (s : State), ((dieOf s d).op = .busy (.strand p)) ∧ (s.map.save = some v) ∧ (s.nand.tab = none) ∧ ((groupOf s p.die p.block).role = .deltaOpen)) ∧
    (∃ (d : Die) (s : State), ((dieOf s d).present = true) ∧ ((dieOf s d).fenced = false) ∧ ((dieOf s d).resetSent = false) ∧ ((dieOf s d).op = .idle)) ∧
    (∃ (d : Die) (p : Page) (v : Save) (s : State), ((dieOf s d).present = true) ∧ ((dieOf s d).fenced = false) ∧ ((dieOf s d).resetSent = false) ∧ ((dieOf s d).op = .busy (.strand p)) ∧ (s.map.save = some v) ∧ (s.nand.tab = none)) ∧
    (∃ (d : Die) (s : State), ((dieOf s d).resetSent = true) ∧ (s.map.save = none) ∧ (s.nand.tab = none)) ∧
    (∃ (d : Die) (s : State), ((dieOf s d).resetSent = true)) ∧
    (∃ (b : Bool) (v : Save) (j : TableJob) (s : State), (s.map.save = some v) ∧ (v.phase = .tail) ∧ (s.nand.tab = some j) ∧ (j.complete = true)) ∧
    (∃ (b : Bool) (v : Save) (j : TableJob) (s : State), (s.map.save = some v) ∧ (v.phase = .tail) ∧ (s.nand.tab = some j) ∧ (j.complete = false)) :=
  ⟨⟨aSave .stream, (State.reset |> geom |> hold .save |> allOn |> allDies |> tn (fun t => { t with attr := Vector.replicate 256 0x00010071, loaded := [0], jobs := [], unusable := [] }) |> mp (fun m => { m with eRem := 2000, descDies := [0] }) |> groups [group 0 .deltaOpen 0] |> save .stream), by decide +kernel⟩,
   ⟨{ aSave .stream with stop := true }, (State.reset |> geom |> hold .save |> allOn |> allDies |> tn (fun t => { t with attr := Vector.replicate 256 0x00010071, loaded := [0], jobs := [], unusable := [] }) |> mp (fun m => { m with eRem := 2000, descDies := [0] }) |> groups [group 0 .deltaOpen 0] |> mp (fun m => { m with save := some { aSave .stream with stop := true } })), by decide +kernel⟩,
   ⟨0, page 0 0, .strand (page 0 0), (State.reset |> die 0 (.loading (.strand (page 0 0)))), by decide +kernel⟩,
   ⟨readyState, by decide +kernel, by decide +kernel, by decide +kernel, by decide +kernel, readyState_only⟩,
   ⟨0, page 0 0, .strand (page 0 0), (State.reset |> die 0 (.busy (.strand (page 0 0))) |> groups [group 0 .deltaOpen 0]), by decide +kernel⟩,
   ⟨0, page 0 0, 1, saveWith .stream 0 .busy, (State.reset |> die 0 (.busy (.strand (page 0 0))) |> groups [group 0 .deltaOpen 0] |> mp (fun m => { m with save := some (saveWith .stream 0 .busy) })), by decide +kernel⟩,
   ⟨0, (State.reset |> die 0 .idle), by decide +kernel⟩,
   ⟨0, page 0 0, saveWith .stream 0 .busy, (State.reset |> die 0 (.busy (.strand (page 0 0))) |> mp (fun m => { m with save := some (saveWith .stream 0 .busy) })), by decide +kernel⟩,
   ⟨0, (State.reset |> die 0 .idle |> nd (fun n => { n with dies := upd n.dies 0 (fun x => { x with resetSent := true }) })), by decide +kernel⟩,
   ⟨0, (State.reset |> die 0 .idle |> nd (fun n => { n with dies := upd n.dies 0 (fun x => { x with resetSent := true }) })), by decide +kernel⟩,
   ⟨true, aSave .tail, { use := .saveRim, strands := [] }, (State.reset |> save .tail |> nd (fun n => { n with tab := some { use := .saveRim, strands := [] } })), by decide +kernel⟩,
   ⟨true, aSave .tail, { use := .saveRim, strands := [{ type := 1, idx := 0, die := 0, st := .waiting, page := none }] }, (State.reset |> save .tail |> nd (fun n => { n with tab := some { use := .saveRim, strands := [{ type := 1, idx := 0, die := 0, st := .waiting, page := none }] } })), by decide +kernel⟩⟩

theorem witness_RimCommit :
    (∃ (b : Bool) (j : RimJob) (p : Page) (s : State), (s.nand.rimJob = some j) ∧ ((getCopy j b).programmed = false) ∧ ((getCopy j b).page = some p) ∧ ((dieOf s (getCopy j b).die).op = .busy (.rim b p))) ∧
    (∃ (b : Bool) (j : RimJob) (p : Page) (s : State), (s.nand.rimJob = some j) ∧ ((getCopy j b).programmed = false) ∧ ((getCopy j b).page = some p) ∧ ((dieOf s (getCopy j b).die).op = .busy (.rim b p)) ∧ ((getCopy j b).attempts = 0)) ∧
    (∃ (j : RimJob) (s : State), (s.nand.rimJob = some j)) ∧
    (∃ (j : RimJob) (a : MarginRead) (b : MarginRead) (s : State), (s.nand.rimJob = some j) ∧ (j.dwell = false) ∧ (j.a.programmed = true) ∧ (j.b.programmed = true) ∧ (j.use = .eraseProof) ∧ (marginPasses s.nand.profile a = true) ∧ (marginPasses s.nand.profile b = true)) ∧
    (∃ (j : RimJob) (v : Save) (a : MarginRead) (b : MarginRead) (s : State), (s.nand.rimJob = some j) ∧ (j.dwell = false) ∧ (j.a.programmed = true) ∧ (j.b.programmed = true) ∧ (j.use = .saveRim) ∧ (s.map.save = some v) ∧ (marginPasses s.nand.profile a = true) ∧ (marginPasses s.nand.profile b = true)) :=
  ⟨⟨true, rimJob .fold .eraseProof false, page 32 0, (State.reset |> rimming .fold .eraseProof false |> die 32 (.busy (.rim true (page 32 0)))), rfl, by decide +kernel⟩,
   ⟨true, rimJob .fold .eraseProof false, page 32 0, (State.reset |> rimming .fold .eraseProof false |> die 32 (.busy (.rim true (page 32 0)))), rfl, by decide +kernel⟩,
   ⟨rimJob .fold .eraseProof true, (State.reset |> rimming .fold .eraseProof true), rfl⟩,
   ⟨rimJob .fold .eraseProof true, .decoded 3 true, .decoded 3 true, (State.reset |> rimming .fold .eraseProof true), rfl, by decide +kernel⟩,
   ⟨rimJob .save .saveRim true, aSave .commit, .decoded 3 true, .decoded 3 true, (State.reset |> hold .save |> rimming .save .saveRim true |> save .commit), rfl, by decide +kernel⟩⟩

theorem witness_WaitsAndDescriptors :
    (∃ (s : State), (s.aon.hold = .park) ∧ (s.pins.bulk ≠ .droop)) ∧
    (∃ (q : RestoreReq) (s : State), (s.rst.req = some q) ∧ (s.aon.hold = .serve)) ∧
    (∃ (s : State), (isOn s 8 = true) ∧ (s.mg.running = true) ∧ (s.map.reload = none)) ∧
    (∃ (r : Reload) (s : State), (isOn s 8 = true) ∧ (s.mg.running = true) ∧ (s.map.reload = some r)) ∧
    (∃ (s : State), (s.mg.running = true) ∧ (s.aon.hold = .serve ∨ s.aon.hold = .park)) :=
  ⟨⟨(State.reset |> hold .park |> pins (fun p => { p with bulk := .qualified })), by decide +kernel⟩,
   ⟨{ source := .verb, session := some 5, stagger := none }, (State.reset |> hold .serve |> rs (fun r => { r with req := some { source := .verb, session := some 5, stagger := none } })), by decide +kernel⟩,
   ⟨(State.reset |> run |> dom 8 .on |> mp (fun m => { m with reload := none })), by decide +kernel⟩,
   ⟨{ map := [], session := some 5 }, (State.reset |> run |> dom 8 .on |> mp (fun m => { m with reload := some { map := [], session := some 5 } })), by decide +kernel⟩,
   ⟨(State.reset |> run |> hold .serve), by decide +kernel⟩⟩

theorem witness_SettlingAndWear :
    (∃ (s : State), (settleAllowed s = true) ∧ (s.nand.settle.running = false) ∧ (freeBelow s s.nand.settle.startFree = true ∨ s.nand.settle.startLayers < layerCount s)) ∧
    (∃ (s : State), (s.nand.settle.running = true) ∧ (freeBelow s s.nand.settle.stopFree = false) ∧ (layerCount s ≤ s.nand.settle.stopLayers)) ∧
    (∃ (d : Die) (f : FoldDie) (s : State), ((dieOf s d).op = .busy .fold) ∧ (foldOf s d = some f) ∧ (s.nand.settle.running = false) ∧ (s.map.save = none) ∧ (s.nand.tab = none)) ∧
    (∃ (d : Die) (f : FoldDie) (x : Fin 4) (s : State), ((dieOf s d).op = .busy .fold) ∧ (foldOf s d = some f) ∧ (s.nand.settle.running = false) ∧ (s.map.save = none) ∧ (s.nand.tab = none) ∧ ((groupOf s d f.block).role = .baseOpen)) ∧
    (∃ (d : Die) (f : FoldDie) (x : Fin 4) (n : ℕ) (s : State), (foldOf s d = some f) ∧ (s.aon.hold = .serve) ∧ (s.nand.settle.running = true) ∧ (f.read < foldReadable s f) ∧ (f.closing = false) ∧ (f.read + 1 < s.nand.profile.wls) ∧ (n ≤ s.nand.profile.marginBits)) ∧
    (∃ (d : Die) (f : FoldDie) (x : Fin 4) (s : State), (foldOf s d = some f) ∧ (s.aon.hold = .serve) ∧ (s.nand.settle.running = true) ∧ (f.read < foldReadable s f) ∧ (f.closing = false) ∧ ((groupOf s d f.block).role = .baseOpen)) ∧
    (∃ (d : Die) (b : ℕ) (s : State), ((dieOf s d).op = .busy (.erase b)) ∧ ((groupOf s d b).role = .erasePending) ∧ ((groupOf s d b).erases + 1 < 10 * s.nand.profile.pslcPe) ∧ (s.nand.settle.running = false) ∧ (s.map.save = none) ∧ (s.nand.tab = none)) ∧
    (∃ (d : Die) (b : ℕ) (x : Fin 4) (s : State), ((dieOf s d).op = .busy (.erase b)) ∧ ((groupOf s d b).role = .erasePending) ∧ (hasLive s d b = false) ∧ (s.nand.bbt.length < 4096)) ∧
    (∃ (p : Page) (x : Fin 4) (g : ℕ) (q : ℕ) (n : ℕ) (s : State), ((dieOf s p.die).present = true) ∧ (n ≤ s.nand.profile.warnBits) ∧ (n ≤ s.nand.profile.retireBits)) ∧
    (∃ (p : Page) (x : Fin 4) (g : ℕ) (q : ℕ) (r : RestoreRun) (s : State), ((dieOf s p.die).present = true) ∧ (s.rst.run = some r) ∧ (r.streaming = true)) :=
  ⟨⟨(State.reset |> hold .serve |> img .track |> allOn |> allDies |> pins (fun p => { p with bulk := .qualified }) |> nd (fun n => { n with prov := .done, settle := { n.settle with running := false, startFree := 120 } }) |> wa (fun x => { x with state := .none })), by decide +kernel⟩,
   ⟨(State.reset |> nd (fun n => { n with settle := { n.settle with running := true } })), by decide +kernel⟩,
   ⟨0, fold1 true, (State.reset |> folding true |> die 0 (.busy .fold)), by decide +kernel⟩,
   ⟨0, fold1 true, 1, (State.reset |> folding true |> die 0 (.busy .fold) |> nd (fun n => { n with groups := [{ die := 0, block := 7, role := .baseOpen, erases := 1, wp := 5, cause := 0, plane := 0 }] })), by decide +kernel⟩,
   ⟨0, fold1 false, 0, 10, (State.reset |> hold .serve |> folding false |> nd (fun n => { n with settle := { n.settle with running := true } })), by decide +kernel⟩,
   ⟨0, fold1 false, 1, (State.reset |> hold .serve |> folding false |> nd (fun n => { n with settle := { n.settle with running := true } }) |> nd (fun n => { n with groups := [{ die := 0, block := 7, role := .baseOpen, erases := 1, wp := 5, cause := 0, plane := 0 }] })), by decide +kernel⟩,
   ⟨0, 7, (State.reset |> erasable |> folding false |> die 0 (.busy (.erase 7))), by decide +kernel⟩,
   ⟨0, 7, 1, (State.reset |> erasable |> die 0 (.busy (.erase 7))), by decide +kernel⟩,
   ⟨page 0 1, 0, 1, 1, 10, (State.reset |> die 0 .idle), by decide +kernel⟩,
   ⟨page 0 1, 0, 1, 1, { aRun with streaming := true }, (State.reset |> die 0 .idle |> restoring .owned { aRun with streaming := true }), by decide +kernel, rfl, by decide +kernel⟩⟩

theorem witness_RestoreAndHandback :
    (∃ (r : RestoreRun) (bd : List (ℕ × Bool)) (bt : List (ℕ × ℕ)) (s : State), (s.aon.hold = .restore) ∧ (s.rst.run = some r) ∧ (r.loaded = false) ∧ (recordPasses s bd bt r.rim = true)) ∧
    (∃ (r : RestoreRun) (bd : List (ℕ × Bool)) (bt : List (ℕ × ℕ)) (s : State) (x : Rim), (s.aon.hold = .restore) ∧ (s.rst.run = some r) ∧ (r.loaded = false) ∧ (recordPasses s bd bt r.rim = false) ∧ (otherRim s r.rim = some x) ∧ (recordPasses s bd bt x = true)) ∧
    (∃ (r : RestoreRun) (s : State), (s.aon.hold = .restore) ∧ (s.rst.run = some r) ∧ (r.takeoverDone = true) ∧ (r.loaded = true) ∧ (r.streaming = false) ∧ (r.streamDone = false) ∧ (r.notBefore ≤ s.warp.ns) ∧ (plaitOrder.any (readable s) = true)) ∧
    (∃ (r : RestoreRun) (s : State), (s.aon.hold = .restore) ∧ (s.rst.run = some r) ∧ (r.streaming = true) ∧ (r.streamDone = false)) ∧
    (∃ (r : RestoreRun) (s : State), (s.aon.hold = .restore) ∧ (s.rst.run = some r) ∧ (r.takeoverDone = true) ∧ (r.streamDone = true) ∧ (r.zeroDone = false)) ∧
    (∃ (s : State), (s.aon.hold = .restore) ∧ (s.hp.phase = .dataEnd)) ∧
    (∃ (s : State), (s.aon.hold = .restore) ∧ (s.hp.phase = .refresh)) ∧
    (∃ (r : RestoreRun) (s : State), (s.aon.hold = .restore) ∧ (s.hp.phase = .replay) ∧ (s.rst.run = some r)) ∧
    (∃ (r : RestoreRun) (s : State), (s.aon.hold = .restore) ∧ (s.hp.phase = .sre) ∧ (s.rst.run = some r)) ∧
    (∃ (r : RestoreRun) (s : State), (s.aon.hold = .restore) ∧ (s.hp.phase = .waitRelease) ∧ (s.rst.run = some r) ∧ (r.sreDone = true) ∧ (r.committed.isSome = true)) ∧
    (∃ (r : RestoreRun) (s : State), (s.aon.hold = .restore) ∧ (s.hp.phase = .waitRelease) ∧ (s.rst.run = some r) ∧ (r.sreDone = true) ∧ (r.committed = none)) ∧
    (∃ (r : RestoreRun) (s : State), (s.aon.hold = .restore) ∧ (s.hp.phase = .ready) ∧ (s.rst.run = some r) ∧ (r.imageLost = false) ∧ (s.pins.bulk ≠ .droop)) :=
  ⟨⟨{ aRun with rim := { aRim .save 7 with dirA := some (page 0 0) } }, [], [], (State.reset |> restoring .owned { aRun with rim := { aRim .save 7 with dirA := some (page 0 0) } } |> allOn |> allDies), rfl, rfl, rfl, by decide +kernel⟩,
   ⟨aRun, [], [], (State.reset |> restoring .owned aRun |> allOn |> allDies |> nd (fun n => { n with rims := [aRim .save 7, { aRim .save 6 with dirA := some (page 0 0) }] })), { aRim .save 6 with dirA := some (page 0 0) }, rfl, rfl, rfl, by decide +kernel, by decide +kernel, by decide +kernel⟩,
   ⟨{ aRun with takeoverDone := true, loaded := true }, (State.reset |> restoring .owned ({ aRun with takeoverDone := true, loaded := true }) |> allOn |> allDies), by decide +kernel, rfl, by decide +kernel, by decide +kernel, by decide +kernel, by decide +kernel, by decide +kernel, by decide +kernel⟩,
   ⟨{ aRun with streaming := true }, (State.reset |> restoring .owned ({ aRun with streaming := true })), by decide +kernel, rfl, by decide +kernel, by decide +kernel⟩,
   ⟨{ aRun with takeoverDone := true, streamDone := true }, (State.reset |> restoring .owned ({ aRun with takeoverDone := true, streamDone := true })), by decide +kernel, rfl, by decide +kernel, by decide +kernel, by decide +kernel⟩,
   ⟨(State.reset |> restoring .dataEnd (aRun)), by decide +kernel⟩,
   ⟨(State.reset |> restoring .refresh (aRun)), by decide +kernel⟩,
   ⟨aRun, (State.reset |> restoring .replay (aRun)), by decide +kernel, by decide +kernel, rfl⟩,
   ⟨aRun, (State.reset |> restoring .sre (aRun)), by decide +kernel, by decide +kernel, rfl⟩,
   ⟨{ aRun with sreDone := true, committed := some 9 }, (State.reset |> restoring .waitRelease ({ aRun with sreDone := true, committed := some 9 })), by decide +kernel, by decide +kernel, rfl, by decide +kernel, by decide +kernel⟩,
   ⟨{ aRun with sreDone := true }, (State.reset |> restoring .waitRelease ({ aRun with sreDone := true })), by decide +kernel, by decide +kernel, rfl, by decide +kernel, by decide +kernel⟩,
   ⟨aRun, (State.reset |> restoring .ready (aRun) |> pins (fun p => { p with bulk := .qualified })), by decide +kernel, by decide +kernel, rfl, by decide +kernel, by decide +kernel⟩⟩

theorem witness_BusReceptionAndDetection :
    (∃ (x : Frame) (run : ℕ) (s : State), (frameOk .extended x = true) ∧ (s.shb.mode = .listen) ∧ (s.shb.nrate ≠ 0) ∧ (x.brs = false) ∧ (idSrc x.id ≠ s.aon.opt.nodeId) ∧ (matchingPair s x = none)) ∧
    (∃ (x : Frame) (run : ℕ) (n : ℕ) (i : Fin 64) (s : State), (frameOk .extended x = true) ∧ (s.shb.mode = .listen) ∧ (s.shb.nrate ≠ 0) ∧ (x.brs = false) ∧ (idSrc x.id ≠ s.aon.opt.nodeId) ∧ (matchingPair s x = some n) ∧ (16 ≤ n) ∧ (freeQ1 s.shb = some i)) ∧
    (∃ (f : FrameForm) (x : Frame) (run : ℕ) (s : State), (f ≠ .extended)) ∧
    (∃ (s : State), (s.shb.mode = .detecting) ∧ (s.shb.nrate = 0)) ∧
    (∃ (s : State), (s.aon.opt.dataRate = 0) ∧ (s.shb.nrate ≠ 0) ∧ (s.shb.drate = 0)) ∧
    (∃ (e : BusErr) (tx : Bool) (brs : Bool) (s : State), (s.shb.mode = .listen)) ∧
    (∃ (s : State), (s.shb.integrating = true) ∧ (s.shb.mode = .detecting)) ∧
    (∃ (src : NodeId) (cls : BitVec 3) (type : BitVec 6) (tag : BitVec 10) (s : State), (s.shb.partials.any (fun p => p.is src cls type tag) = true)) :=
  ⟨⟨frame, 1, (State.reset |> onTheBus .listen |> sh (fun b => { b with filters := Vector.replicate 32 Filter.off })), by decide +kernel⟩,
   ⟨frame, 1, 16, 0, (State.reset |> onTheBus .listen |> sh (fun b => { b with winEn := true, filters := upd (Vector.replicate 32 Filter.off) 16 (fun _ => { en := true, fmt := 0, id := frame.id, mask := 0x1FFFFFFF }), q1 := Vector.replicate 64 none })), by decide +kernel⟩,
   ⟨.base, frame, 1, (State.reset |> onTheBus .active), by decide +kernel⟩,
   ⟨(State.reset |> sh (fun b => { b with mode := .detecting, nrate := 0 })), by decide +kernel⟩,
   ⟨(State.reset |> sh (fun b => { b with nrate := 2, drate := 0 }) |> opts (fun o => { o with dataRate := 0 })), by decide +kernel⟩,
   ⟨.form, true, true, (State.reset |> sh (fun b => { b with mode := .listen })), by decide +kernel⟩,
   ⟨(State.reset |> sh (fun b => { b with mode := .detecting, integrating := true })), by decide +kernel⟩,
   ⟨7, 3, 1, 9, (State.reset |> sh (fun b => { b with partials := [{ src := 7, cls := 3, type := 1, tag := 9, next := 1, data := [] }] })), by decide +kernel⟩⟩

theorem witness_BusTransmissionAndBusOff :
    (∃ (id : CanId) (n : Fin 16) (s : State), (s.shb.mode = .active) ∧ (s.shb.integrating = false) ∧ (s.shb.onWire = .idle) ∧ (lowestId (competing s) = some (id, .mbox n))) ∧
    (∃ (n : Fin 16) (s : State), (s.shb.onWire = .mbox n) ∧ (idClass (s.shb.mbox[n.val]).id ≠ 0)) ∧
    (∃ (n : Fin 16) (s : State), (s.shb.onWire = .mbox n) ∧ ((s.shb.mbox[n.val]).abort = false) ∧ ((s.shb.mbox[n.val]).cancel = false) ∧ ((s.shb.mbox[n.val]).attempts = 0)) ∧
    (∃ (s : State), (s.shb.mode = .busoff) ∧ (s.shb.recovering = false) ∧ (s.mg.running = true) ∧ ((s.shb.recov.filter (fun x => decide (s.aon.us < x + 3600000000))).length < s.shb.recovMax)) ∧
    (∃ (s : State), (s.shb.mode = .busoff) ∧ (s.shb.recovering = true)) ∧
    (∃ (s : State), (s.shb.mode ≠ .off)) ∧
    (∃ (s : State), (s.mg.running = true) ∧ (isOn s 5 = true) ∧ (s.shb.beaconNs ≠ 0) ∧ (s.shb.fifo.length < 32) ∧ (s.mg.txFeed = [])) :=
  ⟨⟨makeId 3 1 5 9, 3, (State.reset |> onTheBus .active |> sh (fun b => { b with onWire := .idle, fifo := [], mbox := Vector.replicate 16 Mbox.empty }) |> mail 3 .pending), by decide +kernel⟩,
   ⟨3, (State.reset |> onTheBus .active |> mail 3 .active |> sh (fun b => { b with onWire := .mbox 3 })), by decide +kernel⟩,
   ⟨3, (State.reset |> onTheBus .active |> mail 3 .active |> sh (fun b => { b with onWire := .mbox 3 })), by decide +kernel⟩,
   ⟨(State.reset |> run |> sh (fun b => { b with mode := .busoff, recovering := false, recov := [], recovMax := 3 })), by decide +kernel⟩,
   ⟨(State.reset |> sh (fun b => { b with mode := .busoff, recovering := true })), by decide +kernel⟩,
   ⟨(State.reset |> sh (fun b => { b with mode := .active })), by decide +kernel⟩,
   ⟨(State.reset |> run |> dom 5 .on |> sh (fun b => { b with beaconNs := 1000000000, fifo := [] }) |> mg (fun m => { m with txFeed := [] })), by decide +kernel⟩⟩

theorem witness_BridgeWindow :
    (∃ (s : State), (windowOn s = true)) ∧
    (∃ (s : State), (windowOn s = true) ∧ (s.shb.winEn = true)) ∧
    (∃ (m : Word) (s : State), (windowOn s = true)) ∧
    (∃ (i : BitVec 6) (s : State), (windowOn s = true)) ∧
    (∃ (i : Fin 64) (e : Q1Entry) (s : State), (windowOn s = true) ∧ (s.shb.q1[i.val] = some e)) ∧
    (∃ (m : Fin 8) (w : Word) (s : State), (windowOn s = true) ∧ (s.shb.winEn = true) ∧ ((s.shb.mbox[8 + m.val]).status.isFinal = true) ∧ (w.getLsbD 9 = false)) ∧
    (∃ (m : Fin 8) (s : State), (windowOn s = true) ∧ ((s.shb.mbox[8 + m.val]).status = .pending)) ∧
    (∃ (m : Fin 8) (w : Word) (s : State), (windowOn s = true) ∧ ((s.shb.mbox[8 + m.val]).status.isFinal = true)) ∧
    (∃ (w : Word) (s : State), (windowOn s = true)) :=
  ⟨⟨(State.reset |> target |> dom 5 .on), by decide +kernel⟩,
   ⟨(State.reset |> target |> dom 5 .on |> sh (fun b => { b with winEn := true })), by decide +kernel⟩,
   ⟨5, (State.reset |> target |> dom 5 .on), by decide +kernel⟩,
   ⟨5, (State.reset |> target |> dom 5 .on), by decide +kernel⟩,
   ⟨5, { frame := frame, seq := 0, pair := 16, ts := 0, locked := false }, (State.reset |> target |> dom 5 .on |> sh (fun b => { b with q1 := upd b.q1 5 (fun _ => some { frame := frame, seq := 0, pair := 16, ts := 0, locked := false }) })), by decide +kernel⟩,
   ⟨2, 0x40, (State.reset |> target |> dom 5 .on |> sh (fun b => { b with winEn := true }) |> mail 10 .done), by decide +kernel⟩,
   ⟨2, (State.reset |> target |> dom 5 .on |> mail 10 .pending), by decide +kernel⟩,
   ⟨2, 5, (State.reset |> target |> dom 5 .on |> mail 10 .done), by decide +kernel⟩,
   ⟨5, (State.reset |> target |> dom 5 .on), by decide +kernel⟩⟩

theorem witness_I3cCommonCommandCodes :
    (∃ (a : BitVec 7) (s : State), (s.pins.vsb = true) ∧ (s.i3c.dyn = none)) ∧
    (∃ (a : BitVec 7) (b : BitVec 7) (s : State), (s.pins.vsb = true) ∧ (s.i3c.dyn = some b)) ∧
    (∃ (s : State), (s.pins.vsb = true)) ∧
    (∃ (b : BitVec 7) (s : State), (s.pins.vsb = true) ∧ (s.i3c.dyn = some b)) ∧
    (∃ (h : Bool) (s : State), (s.pins.vsb = true)) :=
  ⟨⟨8, (State.reset |> pins (fun p => { p with vsb := true }) |> ic (fun x => { x with dyn := none })), by decide +kernel⟩,
   ⟨8, 8, (State.reset |> pins (fun p => { p with vsb := true }) |> ic (fun x => { x with dyn := some 8 })), by decide +kernel⟩,
   ⟨(State.reset |> pins (fun p => { p with vsb := true })), by decide +kernel⟩,
   ⟨8, (State.reset |> pins (fun p => { p with vsb := true }) |> ic (fun x => { x with dyn := some 8 })), by decide +kernel⟩,
   ⟨true, (State.reset |> pins (fun p => { p with vsb := true })), by decide +kernel⟩⟩

theorem witness_WarpFollowsAKeeper :
    (∃ (src : NodeId) (tag : BitVec 10) (p : List Byte) (s : State), (hears s = true) ∧ (s.warp.state ≠ .keeper) ∧ (s.warp.keeper = none) ∧ (p.length = 8) ∧ (byteAt p 4 ≤ 5)) ∧
    (∃ (src : NodeId) (tag : BitVec 10) (p : List Byte) (a : SyncWait) (s : State), (hears s = true) ∧ (s.warp.state ≠ .keeper) ∧ (p.length = 8) ∧ (s.warp.await = some a) ∧ (a.src = src) ∧ (a.tag = tag) ∧ (100000 < ((leAt p 0 8 : ℤ) + s.warp.delay - a.local_).natAbs)) ∧
    (∃ (src : NodeId) (tag : BitVec 10) (p : List Byte) (a : SyncWait) (s : State), (hears s = true) ∧ (s.warp.state ≠ .keeper) ∧ (p.length = 8) ∧ (s.warp.await = some a) ∧ (a.src = src) ∧ (a.tag = tag) ∧ (s.nand.settle.running = false) ∧ (((leAt p 0 8 : ℤ) + s.warp.delay - a.local_).natAbs ≤ 1000) ∧ (7 ≤ s.warp.good)) ∧
    (∃ (s : State), (s.warp.await.isSome = true) ∧ (s.warp.missed < 3)) ∧
    (∃ (s : State), (s.warp.state = .synced)) ∧
    (∃ (src : NodeId) (p : List Byte) (s : State), (hears s = true) ∧ (s.warp.state ≠ .keeper) ∧ (p.length = 8) ∧ (byteAt p 2 = 1) ∧ (s.warp.keeper = none)) ∧
    (∃ (s : State), (hears s = true) ∧ (s.aon.opt.keeperCap = true) ∧ (s.shb.mode = .active) ∧ (s.warp.state ≠ .keeper) ∧ (s.warp.unset_ = false) ∧ (s.warp.followUs ≤ s.aon.us)) ∧
    (∃ (s : State), (hears s = true) ∧ (s.warp.state = .keeper) ∧ (s.shb.mode = .active) ∧ ((s.shb.mbox[0]).status.isFinal = true)) ∧
    (∃ (o : ℤ) (s : State), (s.warp.step = some o)) ∧
    (∃ (s : State), (s.warp.state = .holdover) ∧ (11500 < werr s)) :=
  ⟨⟨7, 9, eightBytes, (State.reset |> onTheBus .active |> wa (fun x => { x with state := .none, keeper := none })), by decide +kernel⟩,
   ⟨7, 9, [0, 0, 1, 0, 0, 1, 0, 0], { src := 7, tag := 9, local_ := 0, table := 0 }, (State.reset |> onTheBus .active |> wa (fun x => { x with state := .none, keeper := none }) |> wa (fun x => { x with await := some { src := 7, tag := 9, local_ := 0, table := 0 }, delay := 0 })), by decide +kernel⟩,
   ⟨7, 9, [0, 1, 0, 0, 0, 0, 0, 0], { src := 7, tag := 9, local_ := 0, table := 0 }, (State.reset |> onTheBus .active |> wa (fun x => { x with state := .none, keeper := none }) |> nd (fun n => { n with settle := { n.settle with running := false } }) |> wa (fun x => { x with await := some { src := 7, tag := 9, local_ := 0, table := 0 }, delay := 0, good := 7 })), by decide +kernel⟩,
   ⟨(State.reset |> wa (fun x => { x with await := some { src := 7, tag := 9, local_ := 0, table := 0 }, missed := 1 })), by decide +kernel⟩,
   ⟨(State.reset |> wa (fun x => { x with state := .synced })), by decide +kernel⟩,
   ⟨7, [0, 0, 1, 0, 0, 0, 0, 0], (State.reset |> onTheBus .active |> wa (fun x => { x with state := .none, keeper := none })), by decide +kernel⟩,
   ⟨(State.reset |> onTheBus .active |> wa (fun x => { x with state := .none, keeper := none }) |> opts (fun o => { o with keeperCap := true, nodeId := 9 }) |> wa (fun x => { x with unset_ := false, followUs := 0 })), by decide +kernel⟩,
   ⟨(State.reset |> onTheBus .active |> wa (fun x => { x with state := .none, keeper := none }) |> wa (fun x => { x with state := .keeper }) |> mail 0 .done), by decide +kernel⟩,
   ⟨-5, (State.reset |> wa (fun x => { x with step := some (-5) })), by decide +kernel⟩,
   ⟨(State.reset |> wa (fun x => { x with state := .holdover, growthFs := 20000000000 }) |> sh (fun b => { b with nrate := 4 })), by decide +kernel⟩⟩

theorem witness_SlotTablesAndStakes :
    (∃ (s : State), (s.mg.running = true) ∧ (s.warp.state = .synced ∨ s.warp.state = .keeper)) ∧
    (∃ (p : List Byte) (s : State), (hears s = true) ∧ (s.aon.opt.nodeId ≠ 0x3FF) ∧ (p.length = 8) ∧ (BitVec.ofNat 40 (leAt p 0 5) ≠ 0) ∧ (byteAt p 6 % 64 < 40) ∧ (byteAt p 6 / 64 ≠ s.warp.active.val)) ∧
    (∃ (p : List Byte) (s : State), (hears s = true) ∧ (p.length = 8) ∧ (BitVec.ofNat 40 (leAt p 0 5) = 0 ∨ 40 ≤ byteAt p 6 % 64)) ∧
    (∃ (x : SlotTable) (n : Fin 4) (s : State), (s.warp.staged = some x) ∧ (s.warp.pending = some n)) ∧
    (∃ (src : NodeId) (i : Fin 64) (p : List Byte) (s : State), (hears s = true) ∧ (p.length = 8) ∧ (leAt p 5 2 % 1024 = s.aon.opt.nodeId.toNat) ∧ (1 ≤ leAt p 5 2 / 4096) ∧ (leAt p 5 2 / 4096 < 8) ∧ (s.warp.ns < nearTrigger s.warp.ns (leAt p 0 5))) ∧
    (∃ (i : Fin 64) (p : List Byte) (s : State), (hears s = true) ∧ (p.length = 8) ∧ (leAt p 5 2 % 1024 = s.aon.opt.nodeId.toNat) ∧ (s.warp.stakes[i.val].trigger / 1000 % 2 ^ 40 = leAt p 0 5) ∧ (s.warp.stakes[i.val].state = .armed)) ∧
    (∃ (i : Fin 64) (s : State), (isOn s 6 = true) ∧ (s.warp.stakes[i.val].state = .armed) ∧ (s.warp.stakes[i.val].trigger ≤ s.warp.ns) ∧ (s.warp.stakes[i.val].action = 6)) ∧
    (∃ (src : NodeId) (p : List Byte) (s : State), (hears s = true) ∧ (p.length = 8) ∧ (s.warp.state = .keeper) ∧ (s.shb.mode = .active)) :=
  ⟨⟨(State.reset |> run |> wa (fun x => { x with state := .synced })), by decide +kernel⟩,
   ⟨[3, 0, 0, 0, 0, 7, 0x45, 0], (State.reset |> onTheBus .active |> wa (fun x => { x with state := .none, keeper := none }) |> opts (fun o => { o with nodeId := 9 })), by decide +kernel⟩,
   ⟨[3, 0, 0, 0, 0, 7, 0x3F, 0], (State.reset |> onTheBus .active |> wa (fun x => { x with state := .none, keeper := none })), by decide +kernel⟩,
   ⟨{ mask := 3, smax := 8, stagger := 5 }, 1, (State.reset |> wa (fun x => { x with staged := some { mask := 3, smax := 8, stagger := 5 }, pending := some 1 })), by decide +kernel⟩,
   ⟨7, 5, [0x10, 0x27, 0, 0, 0, 9, 0x60, 1], (State.reset |> onTheBus .active |> wa (fun x => { x with state := .none, keeper := none }) |> opts (fun o => { o with nodeId := 9 }) |> wa (fun x => { x with ns := 5000 })), by decide +kernel⟩,
   ⟨5, [0x10, 0x27, 0, 0, 0, 9, 0, 0], (State.reset |> onTheBus .active |> wa (fun x => { x with state := .none, keeper := none }) |> opts (fun o => { o with nodeId := 9 }) |> stake 5 armedStake), by decide +kernel⟩,
   ⟨5, (State.reset |> dom 6 .on |> stake 5 armedStake |> wa (fun x => { x with ns := 20000000 })), by decide +kernel⟩,
   ⟨7, eightBytes, (State.reset |> onTheBus .active |> wa (fun x => { x with state := .none, keeper := none }) |> wa (fun x => { x with state := .keeper })), by decide +kernel⟩⟩

theorem witness_CharactersBytesAndLines :
    (∃ (ch : Byte) (s : State), ((getSes s 0).isOpen = true) ∧ ((getSes s 0).echo = false) ∧ (endsLine ch = false) ∧ ((getSes s 0).lineErr ≠ some 102) ∧ ((getSes s 0).line.length < 512)) ∧
    (∃ (ch : Byte) (s : State), ((getSes s 0).isOpen = true) ∧ ((getSes s 0).echo = true) ∧ (endsLine ch = false) ∧ (ch ≠ 0x08) ∧ (ch ≠ 0x7F) ∧ ((getSes s 0).lineErr ≠ some 102) ∧ ((getSes s 0).line.length < 512)) ∧
    (∃ (s : State), ((getSes s 0).isOpen = true) ∧ ((getSes s 0).echo = true)) ∧
    (∃ (ch : Byte) (s : State), ((getSes s 0).isOpen = true) ∧ ((getSes s 0).lineErr = none)) ∧
    (∃ (c : ℕ) (s : State), (lineReady s 0 = true) ∧ ((getSes s 0).echo = false) ∧ ((getSes s 0).lineErr = some c)) ∧
    (∃ (x : Bool) (l : List Byte) (s : State), (targetAnswers s = true) ∧ ((getSes s (pipeOf x)).isOpen = true) ∧ (∀ b ∈ l, endsLine b = false) ∧ ((getSes s (pipeOf x)).line.length + l.length ≤ 512) ∧ ((getSes s (pipeOf x)).lineErr ≠ some 102)) ∧
    (∃ (x : Bool) (l : List Byte) (s : State), (targetAnswers s = true) ∧ ((getSes s (pipeOf x)).isOpen = true) ∧ (1024 - (getSes s (pipeOf x)).line.length < l.length)) ∧
    (∃ (x : Bool) (n : ℕ) (s : State), (targetAnswers s = true)) ∧
    (∃ (x : Bool) (s : State), (targetAnswers s = true)) ∧
    (∃ (p : String × Instr) (s : State), (lineReady s 0 = true) ∧ ((getSes s 0).echo = false) ∧ ((getSes s 0).lineErr = none) ∧ ((getSes s 0).line = ascii p.1)) :=
  ⟨⟨0x41, (State.reset |> op 0 .view), by decide +kernel⟩,
   ⟨0x41, (State.reset |> op 0 .view |> ses 0 (fun q => { q with echo := true })), by decide +kernel⟩,
   ⟨(State.reset |> op 0 .view |> ses 0 (fun q => { q with echo := true, line := [0x41] })), by decide +kernel⟩,
   ⟨0x41, (State.reset |> op 0 .view), by decide +kernel⟩,
   ⟨107, (State.reset |> op 0 .view |> ses 0 (fun q => { q with lineErr := some 107, line := [0x41] })), by decide +kernel⟩,
   ⟨false, [0x41, 0x42], (State.reset |> target |> op 5 .view), by decide +kernel⟩,
   ⟨false, List.replicate 1025 0x41, (State.reset |> target |> op 5 .view), by decide +kernel⟩,
   ⟨false, 2, (State.reset |> target |> op 5 .view |> ses 5 (fun q => { q with out := [1, 2, 3] })), by decide +kernel⟩,
   ⟨false, (State.reset |> target |> op 5 .view |> ses 5 (fun q => { q with out := [1, 2, 3] })), by decide +kernel⟩,
   ⟨("STATUS", Instr.status 0), (State.reset |> op 0 .view |> ses 0 (fun q => { q with line := ascii "STATUS" })), by decide +kernel⟩⟩

theorem witness_TunnelRequests :
    (∃ (src : NodeId) (p : List Byte) (s : State), (s.mg.running = true) ∧ (isOn s 5 = true) ∧ (onBus s = true) ∧ (recovering s = false) ∧ (requestOk p = true) ∧ (leAt p 0 2 = 0) ∧ (boundTo s src = none)) ∧
    (∃ (src : NodeId) (p : List Byte) (k : Sess) (s : State), (s.mg.running = true) ∧ (isOn s 5 = true) ∧ (onBus s = true) ∧ (recovering s = false) ∧ (requestOk p = true) ∧ (boundTo s src = some k) ∧ ((getSes s k).busy = none) ∧ ((getSes s k).queue = []) ∧ ((getSes s k).lastLseq = some (p.getD 2 0))) ∧
    (∃ (src : NodeId) (p : List Byte) (s : State), (s.mg.running = true) ∧ (isOn s 5 = true) ∧ (onBus s = true) ∧ (recovering s = false) ∧ (requestOk p = true) ∧ (boundTo s src = none) ∧ (∀ k ∈ tunnels, (getSes s k).isOpen = true)) ∧
    (∃ (src : NodeId) (p : List Byte) (s : State), (requestOk p = false)) :=
  ⟨⟨7, [0, 0, 5, 0], (State.reset |> onTheBus .active |> aon (fun a => { a with noFirmware := false, mgmtHold := false }) |> mg (fun m => { m with ses := Vector.replicate 7 Ses.closed })), by decide +kernel⟩,
   ⟨7, [0, 0, 5, 0], 1, (State.reset |> onTheBus .active |> aon (fun a => { a with noFirmware := false, mgmtHold := false }) |> mg (fun m => { m with ses := Vector.replicate 7 Ses.closed }) |> op 1 .view |> ses 1 (fun q => { q with node := some 7, lastLseq := some 5, lastResp := [1, 2, 3] })), by decide +kernel⟩,
   ⟨7, [0, 0, 5, 0], (State.reset |> onTheBus .active |> aon (fun a => { a with noFirmware := false, mgmtHold := false }) |> op 1 .view |> op 2 .view |> op 3 .view |> op 4 .view |> mg (fun m => { m with ses := m.ses.map (fun q => { q with node := none }) })), by decide +kernel⟩,
   ⟨7, [0, 0, 5], (State.reset), by decide +kernel⟩⟩

theorem witness_PrivilegeOfASession :
    (∃ (k : Sess) (v : ℕ) (s : State), (mayRun s k .view anyState = true) ∧ (v ≤ 2) ∧ ((privOf v).rank ≤ (getSes s k).priv.rank)) ∧
    (∃ (v : ℕ) (s : State), (mayRun s 0 .view anyState = true) ∧ (1 ≤ v) ∧ (v ≤ 2) ∧ (s.mg.secBad = false) ∧ (s.mg.secKeep = none)) ∧
    (∃ (k : Sess) (v : ℕ) (s : State), (mayRun s k .view anyState = true) ∧ (v ≤ 2) ∧ ((getSes s k).priv.rank < (privOf v).rank) ∧ (s.mg.secBad = false) ∧ (k ≠ 0 ∨ s.mg.secKeep ≠ none)) ∧
    (∃ (k : Sess) (v : ℕ) (n : Nonce) (key : List Byte) (s : State), (mayRun s k .view anyState = true) ∧ (v ≤ 2) ∧ ((getSes s k).priv.rank < (privOf v).rank) ∧ (s.mg.secBad = false) ∧ ((backoffOf s (privOf v)).until_ ≤ s.aon.us) ∧ ((getSes s k).nonce = some n) ∧ (n.level = privOf v) ∧ (s.aon.us < n.until_)) ∧
    (∃ (k : Sess) (v : ℕ) (n : Nonce) (key : List Byte) (mac : List Byte) (s : State), (mayRun s k .view anyState = true) ∧ (v ≤ 2) ∧ ((getSes s k).priv.rank < (privOf v).rank) ∧ (s.mg.secBad = false) ∧ ((backoffOf s (privOf v)).until_ ≤ s.aon.us) ∧ ((getSes s k).nonce = some n) ∧ (n.level = privOf v) ∧ (s.aon.us < n.until_)) ∧
    (∃ (k : Sess) (v : ℕ) (mac : List Byte) (s : State), (mayRun s k .view anyState = true) ∧ (v ≤ 2) ∧ ((getSes s k).priv.rank < (privOf v).rank) ∧ (s.mg.secBad = false) ∧ (s.aon.us < (backoffOf s (privOf v)).until_)) ∧
    (∃ (k : Sess) (v : ℕ) (mac : List Byte) (s : State), (mayRun s k .view anyState = true) ∧ (v ≤ 2) ∧ ((getSes s k).priv.rank < (privOf v).rank) ∧ (s.mg.secBad = false) ∧ ((backoffOf s (privOf v)).until_ ≤ s.aon.us) ∧ ((getSes s k).nonce = none)) ∧
    (∃ (v : ℕ) (b : List Byte) (s : State), (mayRun s 0 .keep anyState = true) ∧ (v = 1 ∨ v = 2) ∧ (b.length = 48) ∧ (cfgGuard s 0 = false) ∧ (s.mg.secBad = false)) ∧
    (∃ (k : Sess) (v : ℕ) (b : List Byte) (s : State), (mayRun s k .keep anyState = true) ∧ (v = 1 ∨ v = 2) ∧ (b.length = 56) ∧ (s.ten.otk.isSome = true) ∧ (cfgGuard s k = false) ∧ (s.mg.secBad = false)) :=
  ⟨⟨5, 0, (State.reset |> hold .serve |> op 5 .view), by decide +kernel⟩,
   ⟨2, (State.reset |> hold .serve |> op 0 .view |> mg (fun m => { m with secBad := false, secKeep := none })), by decide +kernel⟩,
   ⟨5, 2, (State.reset |> hold .serve |> op 5 .view |> mg (fun m => { m with secBad := false, secKeep := some [7] })), by decide +kernel⟩,
   ⟨5, 2, nonce, List.replicate 48 7, (State.reset |> hold .serve |> op 5 .view |> mg (fun m => { m with secBad := false, secKeep := some (keyWrap kStore (List.replicate 48 7)) }) |> aon (fun a => { a with us := 20000000, authKeep := { fails := 1, until_ := 15000000 } }) |> ses 5 (fun q => { q with nonce := some nonce })), by decide +kernel, by decide +kernel, by decide +kernel, by decide +kernel, by decide +kernel, by decide +kernel, by decide +kernel, by decide +kernel⟩,
   ⟨5, 2, nonce, List.replicate 48 7, Config.hmacSha384 (List.replicate 48 7) (authMessage nonce.bytes (privOf 2) 5) ++ [0], (State.reset |> hold .serve |> op 5 .view |> mg (fun m => { m with secBad := false, secKeep := some (keyWrap kStore (List.replicate 48 7)) }) |> aon (fun a => { a with us := 20000000, authKeep := { fails := 1, until_ := 15000000 } }) |> ses 5 (fun q => { q with nonce := some nonce })), by decide +kernel, by decide +kernel, by decide +kernel, by decide +kernel, by decide +kernel, by decide +kernel, by decide +kernel, by decide +kernel⟩,
   ⟨5, 2, [1], (State.reset |> hold .serve |> op 5 .view |> mg (fun m => { m with secBad := false, secKeep := some [7] }) |> aon (fun a => { a with us := 10000000, authKeep := { fails := 1, until_ := 15000000 } })), by decide +kernel⟩,
   ⟨5, 2, [1], (State.reset |> hold .serve |> op 5 .view |> mg (fun m => { m with secBad := false, secKeep := some [7] }) |> aon (fun a => { a with us := 20000000, authKeep := { fails := 1, until_ := 15000000 } }) |> ses 5 (fun q => { q with nonce := none })), by decide +kernel⟩,
   ⟨1, List.replicate 48 1, (State.reset |> keep 0 .serve |> mg (fun m => { m with secBad := false }) |> opts (fun o => { o with cfgWp := false })), by decide +kernel⟩,
   ⟨5, 1, List.replicate 56 1, (State.reset |> keep 5 .serve |> mg (fun m => { m with secBad := false }) |> opts (fun o => { o with cfgWp := false }) |> tn (fun t => { t with otk := some [1] })), by decide +kernel⟩⟩

theorem witness_SessionSettingsAndIdle :
    (∃ (b : Bool) (s : State), (mayRun s 0 .view anyState = true)) ∧
    (∃ (k : Sess) (b : Bool) (s : State), (mayRun s k .view anyState = true)) ∧
    (∃ (k : Sess) (n : ℕ) (s : State), (mayRun s k .keep anyState = true) ∧ (60000000000 ≤ n) ∧ (n ≤ 86400000000000) ∧ (cfgGuard s k = false)) ∧
    (∃ (k : Sess) (s : State), (mayRun s k .view anyState = true) ∧ (isTunnel k = false)) ∧
    (∃ (k : Sess) (s : State), (mayRun s k .view anyState = true) ∧ (isTunnel k = true)) ∧
    (∃ (k : Sess) (s : State), ((getSes s k).isOpen = true) ∧ ((getSes s k).busy = none) ∧ (isTunnel k = false) ∧ ((getSes s k).priv ≠ .view) ∧ ((getSes s k).notices = []) ∧ ((getSes s k).lost = 0)) ∧
    (∃ (k : Sess) (s : State), ((getSes s k).isOpen = true) ∧ ((getSes s k).busy = none) ∧ (isTunnel k = true) ∧ ((getSes s k).priv = .view)) ∧
    (∃ (k : Sess) (s : State), ((getSes s k).busy.isSome = true)) :=
  ⟨⟨true, (State.reset |> keep 0 .serve), by decide +kernel⟩,
   ⟨5, true, (State.reset |> keep 5 .serve), by decide +kernel⟩,
   ⟨5, 60000000000, (State.reset |> keep 5 .serve |> opts (fun o => { o with cfgWp := false })), by decide +kernel⟩,
   ⟨5, (State.reset |> keep 5 .serve), by decide +kernel⟩,
   ⟨2, (State.reset |> keep 2 .serve), by decide +kernel⟩,
   ⟨5, (State.reset |> keep 5 .serve |> ses 5 (fun q => { q with notices := [], lost := 0 })), by decide +kernel⟩,
   ⟨2, (State.reset |> op 2 .view), by decide +kernel⟩,
   ⟨5, (State.reset |> ses 5 (fun q => { q with busy := some .commit })), by decide +kernel⟩⟩

theorem witness_EventsAndTheLog :
    (∃ (d : Dom) (n : BitVec 11) (v : BitVec 3) (a : Vector Word 4) (s : State), (s.aon.por = .up) ∧ (n ≠ 0) ∧ (arrivingSev (arrivingCode d n) v a = 5) ∧ (s.log.lease = none) ∧ (s.log.full = false) ∧ (s.log.wrapDue = false) ∧ (s.log.entries.length < 4095)) ∧
    (∃ (d : Dom) (n : BitVec 11) (v : BitVec 3) (a : Vector Word 4) (b : Bucket) (s : State), (s.aon.por = .up) ∧ (n ≠ 0) ∧ (arrivingSev (arrivingCode d n) v a ≠ 5) ∧ ((arrivingCode d n).own = false) ∧ (s.log.buckets = [b]) ∧ (b.dom = d) ∧ (b.ev = arrivingCode d n) ∧ (b.tokens = 0) ∧ (b.suppressed ≠ 0)) ∧
    (∃ (d : Dom) (n : BitVec 11) (v : BitVec 3) (a : Vector Word 4) (s : State), (s.aon.por = .up) ∧ (n ≠ 0) ∧ (arrivingSev (arrivingCode d n) v a = 5) ∧ (s.log.lease.isSome = true)) ∧
    (∃ (d : Dom) (n : BitVec 11) (v : BitVec 3) (a : Vector Word 4) (s : State), (s.aon.por = .up) ∧ (n ≠ 0) ∧ (arrivingSev (arrivingCode d n) v a = 5) ∧ (s.log.lease = none) ∧ (s.log.full = true) ∧ (s.log.wrapDue = false)) ∧
    (∃ (s : State), (s.aon.por = .up) ∧ (∀ b ∈ s.log.buckets, b.suppressed = 0)) ∧
    (∃ (e : ℕ) (s : State), (s.log.lease = some e) ∧ (s.log.full = false) ∧ (s.log.wrapDue = false) ∧ (s.log.hovf = 0) ∧ (s.log.entries.length + s.log.held.length ≤ 4095) ∧ (s.log.seq.toNat + s.log.held.length < 2 ^ 32)) ∧
    (∃ (k : Sess) (s : State), (mayRun s k .view anyState = true) ∧ (s.log.wrapDue = false)) ∧
    (∃ (k : Sess) (s : State), (mayRun s k .view anyState = true)) ∧
    (∃ (k : Sess) (s : State), (mayRun s k .view anyState = true) ∧ (s.log.lease = none)) ∧
    (∃ (k : Sess) (c : ℕ) (s : State), (mayRun s k .run anyState = true) ∧ (c < 2048) ∧ (s.log.lease = none) ∧ (s.log.full = false) ∧ (s.log.wrapDue = false) ∧ (s.log.entries.length < 4095)) :=
  ⟨⟨3, 0x20, 5, args0, (State.reset |> up |> lg (fun l => { l with lease := none, full := false, wrapDue := false, entries := [] })), by decide +kernel⟩,
   ⟨3, 0x20, 2, args0, bucket, (State.reset |> up |> lg (fun l => { l with buckets := [bucket] })), by decide +kernel⟩,
   ⟨3, 0x20, 5, args0, (State.reset |> up |> lg (fun l => { l with lease := some 9 })), by decide +kernel⟩,
   ⟨3, 0x20, 5, args0, (State.reset |> up |> lg (fun l => { l with lease := none, full := true, wrapDue := false })), by decide +kernel⟩,
   ⟨(State.reset |> up |> lg (fun l => { l with buckets := [{ bucket with suppressed := 0 }] })), by decide +kernel⟩,
   ⟨9, (State.reset |> lg (fun l => { l with lease := some 9, full := false, wrapDue := false, hovf := 0, entries := [], held := [heldEntry], seq := 6 })), by decide +kernel⟩,
   ⟨5, (State.reset |> keep 5 .serve |> lg (fun l => { l with wrapDue := false })), by decide +kernel⟩,
   ⟨5, (State.reset |> keep 5 .serve), by decide +kernel⟩,
   ⟨5, (State.reset |> keep 5 .serve |> lg (fun l => { l with lease := none })), by decide +kernel⟩,
   ⟨5, 7, (State.reset |> keep 5 .serve |> up |> lg (fun l => { l with lease := none, full := false, wrapDue := false, entries := [] })), by decide +kernel⟩⟩

theorem witness_ReadingVerbsChangeNothing :
    (∃ (k : Sess) (s : State), (mayRun s k .view anyState = true)) ∧
    (∃ (k : Sess) (n : ℕ) (s : State), (mayRun s k .view anyState = true) ∧ (n < 256)) ∧
    (∃ (k : Sess) (n : ℕ) (s : State), (mayRun s k .view anyState = true) ∧ (n < cellCount s)) ∧
    (∃ (k : Sess) (n : Fin 64) (s : State), (mayRun s k .view anyState = true)) ∧
    (∃ (k : Sess) (x : ℕ) (r : ℕ) (g : ℕ) (b : ℕ) (row : ℕ) (s : State), (mayRun s k .view anyState = true) ∧ (geoValid s.map.geom = true) ∧ (coordOk s.map.geom x r g b row = true)) ∧
    (∃ (k : Sess) (g : ℕ) (s : State), (mayRun s k .view anyState = true) ∧ (geoValid s.map.geom = true) ∧ (g < geoGranules s.map.geom)) ∧
    (∃ (k : Sess) (o : Option ℕ) (s : State), (mayRun s k .view anyState = true)) ∧
    (∃ (k : Sess) (r : Report) (s : State), (mayRun s k .view anyState = true) ∧ (s.rst.report = some r)) ∧
    (∃ (k : Sess) (s : State), (mayRun s k .view anyState = true) ∧ (s.rst.report = none)) :=
  ⟨⟨5, (State.reset |> keep 5 .serve), by decide +kernel⟩,
   ⟨5, 1, (State.reset |> keep 5 .serve), by decide +kernel⟩,
   ⟨5, 1, (State.reset |> keep 5 .serve |> opts (fun o => { o with cells := 2 })), by decide +kernel⟩,
   ⟨5, 5, (State.reset |> keep 5 .serve), by decide +kernel⟩,
   ⟨5, 1, 0, 1, 0, 5, (State.reset |> keep 5 .serve |> geom), by decide +kernel⟩,
   ⟨5, 1, (State.reset |> keep 5 .serve |> geom), by decide +kernel⟩,
   ⟨5, none, (State.reset |> keep 5 .serve), by decide +kernel⟩,
   ⟨5, report, (State.reset |> keep 5 .serve |> rs (fun r => { r with report := some report })), by decide +kernel⟩,
   ⟨5, (State.reset |> keep 5 .serve |> rs (fun r => { r with report := none })), by decide +kernel⟩⟩

theorem witness_ParkWithAnImagePending : ∃ (k : Sess) (s : State), (mayRun s k .run [.serve] = true) ∧ (s.aon.img = .pending) ∧ (s.rst.req = none) :=
  ⟨5, (State.reset |> keep 5 .serve |> img .pending |> rs (fun r => { r with req := none })), by decide +kernel⟩

theorem witness_RestoreDiscardMakesTheNextSaveFull : ∃ (k : Sess) (s : State), (mayRun s k .keep [.serve] = true) ∧ (s.aon.img = .pending) ∧ (discarding s = false) :=
  ⟨5, (State.reset |> keep 5 .serve |> img .pending |> nd (fun n => { n with rimJob := none })), by decide +kernel⟩

theorem witness_HoldVerbs :
    (∃ (k : Sess) (s : State), (mayRun s k .run [.serve] = true) ∧ (s.aon.img ≠ .pending) ∧ (s.rst.req = none) ∧ (armed s = true) ∧ (allSelfRef s = false)) ∧
    (∃ (k : Sess) (s : State), (mayRun s k .run [.park] = true)) ∧
    (∃ (k : Sess) (s : State), (mayRun s k .run [.park] = true) ∧ (armLoss s = none) ∧ (∀ d, (domOf s d).mode = .failed ∨ (domOf s d).mode = modesServe s d)) ∧
    (∃ (k : Sess) (s : State), (mayRun s k .run [.serve] = true)) ∧
    (∃ (k : Sess) (n : ℕ) (s : State), (mayRun s k .keep [.serve, .park, .fault] = true) ∧ (1000000000 ≤ n) ∧ (n ≤ 600000000000) ∧ (cfgGuard s k = false)) ∧
    (∃ (k : Sess) (r : Rim) (s : State), (mayRun s k .run [.serve] = true) ∧ (s.aon.img = .pending) ∧ (s.rst.req = none) ∧ (chosenRim s = some r) ∧ (r.geom = s.map.geom) ∧ (allSelfRef s = false)) ∧
    (∃ (k : Sess) (s : State), (mayRun s k .run [.serve] = true) ∧ (s.aon.img = .track) ∧ ((usableDies s).length ≠ 0) ∧ (s.nand.prov ≠ .running)) ∧
    (∃ (k : Sess) (a : ℕ) (b : ℕ) (c : ℕ) (d : ℕ) (s : State), (mayRun s k .keep [.serve, .fault] = true) ∧ (5 ≤ a) ∧ (a < b) ∧ (b ≤ 95) ∧ (2 ≤ d) ∧ (d < c) ∧ (c ≤ 255) ∧ (cfgGuard s k = false)) :=
  ⟨⟨5, (State.reset |> keep 5 .serve |> geom |> allOn |> allDies |> img .track |> aon (fun a => { a with imgKnown := true }) |> rs (fun r => { r with req := none }) |> nd (fun n => { n with prov := .done }) |> mp (fun m => { m with descriptors := true }) |> hp (fun h => { h with selfRef := [] })), by decide +kernel⟩,
   ⟨5, (State.reset |> keep 5 .park), by decide +kernel⟩,
   ⟨5, (State.reset |> keep 5 .park |> allOn |> allDies |> nd (fun n => { n with prov := .done })), by decide +kernel⟩,
   ⟨5, (State.reset |> keep 5 .serve), by decide +kernel⟩,
   ⟨5, 1000000000, (State.reset |> keep 5 .serve |> opts (fun o => { o with cfgWp := false })), by decide +kernel⟩,
   ⟨5, aRim .save 7, (State.reset |> keep 5 .serve |> geom |> img .pending |> rs (fun r => { r with req := none }) |> hp (fun h => { h with selfRef := [] }) |> nd (fun n => { n with chosen := some 7, rims := [aRim .save 7] })), by decide +kernel, by decide +kernel, by decide +kernel, rfl, by decide +kernel, by decide +kernel⟩,
   ⟨5, (State.reset |> keep 5 .serve |> allOn |> allDies |> img .track |> nd (fun n => { n with prov := .done })), by decide +kernel⟩,
   ⟨5, 5, 95, 255, 2, (State.reset |> keep 5 .serve |> opts (fun o => { o with cfgWp := false })), by decide +kernel⟩⟩

theorem witness_TenantVerbs :
    (∃ (k : Sess) (n : ℕ) (r : RangeArg) (s : State), (mayRun s k .keep [.serve, .fault] = true) ∧ (s.aon.img ≠ .pending) ∧ (rangeBad n r = false) ∧ (stagedChanges s k < 64) ∧ ((getSes s k).adds.any (fun e => decide (e = rangeEntry n r)) = false)) ∧
    (∃ (k : Sess) (n : ℕ) (r : RangeArg) (s : State), (mayRun s k .keep [.serve, .fault] = true) ∧ (s.aon.img ≠ .pending) ∧ (rangeBad n r = false) ∧ (stagedChanges s k < 64) ∧ ((getSes s k).dels.any (fun e => decide (e = rangeEntry n r)) = false)) ∧
    (∃ (k : Sess) (s : State), (mayRun s k .keep [.serve, .fault] = true)) ∧
    (∃ (k : Sess) (s : State), (mayRun s k .keep [.serve, .fault] = true) ∧ (s.map.reload = none) ∧ (s.aon.img ≠ .pending) ∧ (cfgGuard s k = false) ∧ ((getSes s k).adds.any (entryOutside s.map.geom) = false) ∧ ((getSes s k).adds.any (fun e => decide (enSub e = 3)) = false) ∧ ((getSes s k).adds.any (entryUnaligned s.map.geom) = false) ∧ (sharing s.map.geom (newMap s k) = false) ∧ ((newMap s k).length ≤ 4096) ∧ (delUnmatched s k = false) ∧ (stagedChanges s k ≠ 0)) ∧
    (∃ (k : Sess) (s : State), (mayRun s k .keep [.serve, .fault] = true) ∧ (s.map.reload = none) ∧ (s.aon.img ≠ .pending) ∧ (cfgGuard s k = false) ∧ ((getSes s k).adds.any (entryOutside s.map.geom) = false) ∧ ((getSes s k).adds.any (fun e => decide (enSub e = 3)) = false) ∧ ((getSes s k).adds.any (entryUnaligned s.map.geom) = false) ∧ (sharing s.map.geom (newMap s k) = false) ∧ ((newMap s k).length ≤ 4096) ∧ (delUnmatched s k = false) ∧ (stagedChanges s k = 0)) ∧
    (∃ (k : Sess) (x : Tenant) (c : Option ℕ) (p : Option ℕ) (s : State), (mayRun s k .keep [.serve, .fault] = true) ∧ (outOf 0 7 c = false) ∧ (outOf 0 1 p = false) ∧ (cfgGuard s k = false)) ∧
    (∃ (k : Sess) (x : Tenant) (s : State), (mayRun s k .keep [.serve, .fault] = true) ∧ (cfgGuard s k = false) ∧ (s.ten.unusable.any (fun y => decide (y = x)) = false)) ∧
    (∃ (k : Sess) (x : Tenant) (s : State), (mayRun s k .keep [.serve, .park, .save, .fault] = true) ∧ (cfgGuard s k = false)) :=
  ⟨⟨5, 3, range1, (State.reset |> keep 5 .serve |> img .none |> ses 5 (fun q => { q with adds := [], dels := [] })), by decide +kernel⟩,
   ⟨5, 3, range1, (State.reset |> keep 5 .serve |> img .none |> ses 5 (fun q => { q with adds := [], dels := [] })), by decide +kernel⟩,
   ⟨5, (State.reset |> keep 5 .serve), by decide +kernel⟩,
   ⟨5, (State.reset |> keep 5 .serve |> geom |> img .none |> opts (fun o => { o with cfgWp := false }) |> mp (fun m => { m with reload := none }) |> tn (fun t => { t with map := [] }) |> ses 5 (fun q => { q with dels := [], adds := [rangeEntry 3 { range1 with sub := 0, rowLast := 65535 }] })), by decide +kernel⟩,
   ⟨5, (State.reset |> keep 5 .serve |> geom |> img .none |> opts (fun o => { o with cfgWp := false }) |> mp (fun m => { m with reload := none }) |> tn (fun t => { t with map := [] }) |> ses 5 (fun q => { q with dels := [], adds := [] })), by decide +kernel⟩,
   ⟨5, 3, some 2, none, (State.reset |> keep 5 .serve |> opts (fun o => { o with cfgWp := false })), by decide +kernel⟩,
   ⟨5, 3, (State.reset |> keep 5 .serve |> opts (fun o => { o with cfgWp := false })), by decide +kernel⟩,
   ⟨5, 3, (State.reset |> keep 5 .serve |> opts (fun o => { o with cfgWp := false })), by decide +kernel⟩⟩

theorem witness_KeyVerbs :
    (∃ (b : List Byte) (s : State), (mayRun s 0 .keep [.serve, .fault] = true) ∧ (b.length = 32) ∧ (cfgGuard s 0 = false)) ∧
    (∃ (k : Sess) (o : List Byte) (b : List Byte) (s : State), (mayRun s k .keep [.serve, .fault] = true) ∧ (s.ten.otk = some o) ∧ (b.length = 40) ∧ (cfgGuard s k = false)) ∧
    (∃ (k : Sess) (x : Tenant) (s : State), (mayRun s k .run [.serve, .fault] = true) ∧ (eraseRuns s x = false) ∧ (slotLoaded (attrOf s x) = false) ∧ (attrGen (attrOf s x) < 65535)) ∧
    (∃ (k : Sess) (x : Tenant) (o : List Byte) (b : List Byte) (s : State), (mayRun s k .run [.serve, .fault] = true) ∧ (eraseRuns s x = false) ∧ (b.length = 72) ∧ (s.ten.otk = some o) ∧ (slotLoaded (attrOf s x) = false) ∧ (attrGen (attrOf s x) < 65535)) ∧
    (∃ (k : Sess) (x : Tenant) (s : State), (mayRun s k .keep [.serve, .park, .save, .fault] = true) ∧ (eraseRuns s x = false) ∧ (slotLoaded (attrOf s x) = true)) ∧
    (∃ (k : Sess) (x : Tenant) (s : State), (mayRun s k .keep [.serve, .park, .save, .fault] = true) ∧ (eraseRuns s x = false) ∧ (attrSlot (attrOf s x) = 0)) :=
  ⟨⟨List.replicate 32 1, (State.reset |> keep 0 .serve |> opts (fun o => { o with cfgWp := false })), by decide +kernel⟩,
   ⟨5, keyWrap kStore (List.replicate 32 1), keyWrap (List.replicate 32 1) (List.replicate 32 2), (State.reset |> keep 5 .serve |> opts (fun o => { o with cfgWp := false }) |> tn (fun t => { t with otk := some (keyWrap kStore (List.replicate 32 1)) })), by decide +kernel, rfl, keyWrap_length _ _, by decide +kernel⟩,
   ⟨5, 3, (State.reset |> keep 5 .serve |> tn (fun t => { t with otk := some [1], jobs := [], attr := Vector.replicate 256 0x00000070 })), by decide +kernel⟩,
   ⟨5, 3, [1], List.replicate 72 1, (State.reset |> keep 5 .serve |> tn (fun t => { t with otk := some [1], jobs := [], attr := Vector.replicate 256 0x00000070 })), by decide +kernel⟩,
   ⟨5, 3, (State.reset |> keep 5 .serve |> tn (fun t => { t with otk := some [1], jobs := [], attr := Vector.replicate 256 0x00010071 })), by decide +kernel⟩,
   ⟨5, 3, (State.reset |> keep 5 .serve |> tn (fun t => { t with otk := some [1], jobs := [], attr := Vector.replicate 256 0x00000070 })), by decide +kernel⟩⟩

set_option maxRecDepth 20000 in
theorem witness_MapAndPackVerbs :
    (∃ (k : Sess) (n : ℕ) (s : State), (mayRun s k .keep [.serve, .fault] = true) ∧ ((geometryRefusals s k n).all (fun p => !p.1) = true)) ∧
    (∃ (k : Sess) (c : Fin 7) (s : State), (mayRun s k .keep [.serve] = true) ∧ (s.aon.img ≠ .pending) ∧ (boundariesOff s (withGran s.map.geom c.val) = false) ∧ (cfgGuard s k = false) ∧ (geoFits (withGran s.map.geom c.val) = true)) ∧
    (∃ (k : Sess) (o : ℕ) (d : List Byte) (s : State), (mayRun s k .keep [.serve, .fault] = true) ∧ (pieceLen d = false) ∧ (pieceOut s k .profile o = false)) ∧
    (∃ (k : Sess) (o : ℕ) (d : List Byte) (s : State) (c : _), (mayRun s k .keep [.serve, .fault] = true) ∧ (pieceLen d = false) ∧ (c < 2) ∧ (pieceOut s k (.ocv c) o = false)) ∧
    (∃ (k : Sess) (s : State), (mayRun s k .keep [.serve, .fault] = true) ∧ (profileOk (staged s k .profile) = true) ∧ (cfgGuard s k = false)) ∧
    (∃ (k : Sess) (s : State), (mayRun s k .keep [.serve, .fault] = true) ∧ (mayProvision s = true)) ∧
    (∃ (k : Sess) (l : List (BatKey × ℕ)) (s : State), (mayRun s k .keep [.serve, .park, .fault] = true) ∧ (cfgGuard s k = false) ∧ (l.all (fun p => batKeyOk s (putBatKeys s.bat.set l) p.1 p.2) = true)) ∧
    (∃ (k : Sess) (s : State), (mayRun s k .keep [.serve, .fault] = true)) ∧
    (∃ (k : Sess) (s : State), (mayRun s k .run [.serve, .park] = true)) ∧
    (∃ (k : Sess) (s : State), (mayRun s k .keep [.serve, .fault] = true) ∧ ((staged s k (.ocv 1)).length = 168)) :=
  ⟨⟨5, 0x80300000, (State.reset |> keep 5 .serve |> opts (fun o => { o with cfgWp := false }) |> img .none |> tn (fun t => { t with map := [] })), by decide +kernel⟩,
   ⟨5, 1, (State.reset |> keep 5 .serve |> opts (fun o => { o with cfgWp := false }) |> geom |> img .none |> tn (fun t => { t with map := [] })), by decide +kernel⟩,
   ⟨5, 0, [1, 2], (State.reset |> keep 5 .serve |> ses 5 (fun q => { q with uploads := [] })), by decide +kernel⟩,
   ⟨5, 0, [1, 2], (State.reset |> keep 5 .serve |> ses 5 (fun q => { q with uploads := [] })), 0, by decide +kernel⟩,
   ⟨5, (State.reset |> keep 5 .serve |> opts (fun o => { o with cfgWp := false }) |> ses 5 (fun q => { q with uploads := [{ kind := .profile, bytes := profileBytes }] })), by decide +kernel⟩,
   ⟨5, (State.reset |> keep 5 .serve |> img .none |> nd (fun n => { n with fbbt := false, prov := .never })), by decide +kernel⟩,
   ⟨5, [(.recharge, 90), (.taper, 10)], (State.reset |> keep 5 .serve |> opts (fun o => { o with cfgWp := false })), by decide +kernel⟩,
   ⟨5, (State.reset |> keep 5 .serve), by decide +kernel⟩,
   ⟨5, (State.reset |> keep 5 .serve), by decide +kernel⟩,
   ⟨5, (State.reset |> keep 5 .serve |> ses 5 (fun q => { q with uploads := [{ kind := .ocv 1, bytes := List.replicate 168 1 }] })), by decide +kernel⟩⟩

theorem witness_BusWarpAndStakeVerbs :
    (∃ (k : Sess) (n : ℕ) (m : ℕ) (x : ℕ) (f : ℕ) (b : Bool) (s : State), (mayRun s k .keep [.serve, .park, .fault] = true) ∧ (isOn s 5 = true) ∧ (6 ≤ n) ∧ (n ≤ 15) ∧ (m < 2 ^ 29) ∧ (x < 2 ^ 29) ∧ (f ≤ 2)) ∧
    (∃ (k : Sess) (s : State), (mayRun s k .keep [.serve, .park, .fault] = true) ∧ (isOn s 5 = true) ∧ (s.shb.mode = .busoff)) ∧
    (∃ (k : Sess) (s : State), (mayRun s k .keep [.serve, .park, .fault] = true) ∧ (isOn s 5 = true) ∧ (s.shb.mode ≠ .off) ∧ (s.shb.mode ≠ .dupnode)) ∧
    (∃ (k : Sess) (s : State), (mayRun s k .keep [.serve, .park, .fault] = true) ∧ (isOn s 5 = true) ∧ (s.shb.onWire ≠ .fifo)) ∧
    (∃ (k : Sess) (h : ℕ) (c : ℕ) (b : ℕ) (s : State), (mayRun s k .keep [.serve, .park, .fault] = true) ∧ (isOn s 5 = true) ∧ (cfgGuard s k = false) ∧ (1000000000 ≤ h) ∧ (h ≤ 600000000000) ∧ (c ≤ 10) ∧ (b = 0 ∨ 1000000000 ≤ b ∧ b ≤ 3600000000000)) ∧
    (∃ (k : Sess) (c : Fin 6) (d : ℕ) (m : ℕ) (s : State), (mayRun s k .keep [.serve, .park, .fault] = true) ∧ (cfgGuard s k = false) ∧ (d ≤ 65535) ∧ (1 ≤ m) ∧ (m ≤ 64)) ∧
    (∃ (k : Sess) (n : Fin 4) (m : ℕ) (x : ℕ) (g : ℕ) (s : State), (mayRun s k .keep [.serve, .park, .fault] = true) ∧ (cfgGuard s k = false) ∧ (0 < m) ∧ (m < 2 ^ 40) ∧ (1 ≤ x) ∧ (x ≤ 256) ∧ (g ≤ 39) ∧ (n ≠ s.warp.active)) ∧
    (∃ (k : Sess) (n : Fin 4) (s : State), (mayRun s k .keep [.serve, .park, .fault] = true) ∧ (cfgGuard s k = false) ∧ ((s.warp.tables[n.val]).isSome = true)) ∧
    (∃ (k : Sess) (i : Fin 64) (a : ℕ) (g : ℕ) (x : ℕ) (s : State), (mayRun s k .keep anyState = true) ∧ (1 ≤ a) ∧ (a ≤ 7) ∧ (argOk a g = true) ∧ (x % 1000 = 0) ∧ (s.warp.ns < x) ∧ (x ≤ s.warp.ns + 2 ^ 39 * 1000)) ∧
    (∃ (k : Sess) (i : Fin 64) (s : State), (mayRun s k .keep anyState = true) ∧ (s.warp.stakes[i.val].state = .armed)) :=
  ⟨⟨5, 6, 1, 1, 2, true, (State.reset |> keep 5 .serve |> opts (fun o => { o with cfgWp := false }) |> dom 5 .on), by decide +kernel⟩,
   ⟨5, (State.reset |> keep 5 .serve |> opts (fun o => { o with cfgWp := false }) |> dom 5 .on |> sh (fun b => { b with mode := .busoff })), by decide +kernel⟩,
   ⟨5, (State.reset |> keep 5 .serve |> opts (fun o => { o with cfgWp := false }) |> dom 5 .on |> sh (fun b => { b with mode := .active })), by decide +kernel⟩,
   ⟨5, (State.reset |> keep 5 .serve |> opts (fun o => { o with cfgWp := false }) |> dom 5 .on |> sh (fun b => { b with onWire := .idle, fifo := [frame] })), by decide +kernel⟩,
   ⟨5, 1000000000, 10, 0, (State.reset |> keep 5 .serve |> opts (fun o => { o with cfgWp := false }) |> dom 5 .on), by decide +kernel⟩,
   ⟨5, 5, 65535, 64, (State.reset |> keep 5 .serve |> opts (fun o => { o with cfgWp := false }) |> dom 5 .on), by decide +kernel⟩,
   ⟨5, 1, 1, 256, 39, (State.reset |> keep 5 .serve |> opts (fun o => { o with cfgWp := false }) |> dom 5 .on |> wa (fun x => { x with active := 0 })), by decide +kernel⟩,
   ⟨5, 1, (State.reset |> keep 5 .serve |> opts (fun o => { o with cfgWp := false }) |> dom 5 .on |> wa (fun x => { x with tables := Vector.replicate 4 (some { mask := 3, smax := 8, stagger := 5 }) })), by decide +kernel⟩,
   ⟨5, 5, 6, 255, 1000, (State.reset |> keep 5 .serve |> wa (fun x => { x with ns := 500 })), by decide +kernel⟩,
   ⟨5, 5, (State.reset |> keep 5 .serve |> stake 5 armedStake), by decide +kernel⟩⟩

theorem witness_CodeFlashOperations :
    (∃ (n : ℕ) (w : ℕ) (v : DWord) (j : CflJob) (o : CflOp) (os : List CflOp) (rest : List CflJob) (s : State), (s.cfl.jobs = j :: rest) ∧ (j.planned = true) ∧ (j.ops = .program w v :: o :: os) ∧ (s.cfl.waiting = []) ∧ (programRefused s w = false) ∧ (programConflict s w v = false) ∧ (n < 8) ∧ (s.cfl.warmDue = false) ∧ (FlashCanonical s)) ∧
    (∃ (n : ℕ) (w : ℕ) (b : Bool) (v : DWord) (j : CflJob) (o : CflOp) (os : List CflOp) (s : State), (s.cfl.jobs = [j]) ∧ (j.planned = true) ∧ (j.ops = .program w v :: o :: os) ∧ (j.use = .abort) ∧ (j.session = none) ∧ (s.cfl.waiting = []) ∧ (s.cfl.warmDue = false) ∧ (programRefused s w = true)) ∧
    (∃ (n : ℕ) (w : ℕ) (b : Bool) (v : DWord) (j : CflJob) (o : CflOp) (os : List CflOp) (s : State), (s.cfl.jobs = [j]) ∧ (j.planned = true) ∧ (j.ops = .program w v :: o :: os) ∧ (j.use = .abort) ∧ (j.session = none) ∧ (s.cfl.waiting = []) ∧ (s.cfl.warmDue = false) ∧ (programRefused s w = false) ∧ (programConflict s w v = true)) ∧
    (∃ (n : ℕ) (e : ℕ) (j : CflJob) (o : CflOp) (os : List CflOp) (rest : List CflJob) (s : State), (s.cfl.jobs = j :: rest) ∧ (j.planned = true) ∧ (j.ops = .erase e :: o :: os) ∧ (s.cfl.waiting = []) ∧ (eraseRefused s e = false) ∧ (n < 5) ∧ (s.cfl.warmDue = false) ∧ (∀ h, j.use = .openStaging h → e ≠ 482)) ∧
    (∃ (e : ℕ) (j : CflJob) (os : List CflOp) (rest : List CflJob) (s : State), (s.cfl.jobs = j :: rest) ∧ (j.planned = true) ∧ (j.ops = .erase e :: os) ∧ (s.cfl.waiting = []) ∧ (eraseRefused s e = false) ∧ (s.cfl.warmDue = false) ∧ (j.retried = false) ∧ (j.redo ≠ []) ∧ (∀ i d, j.use ≠ .splint i d)) ∧
    (∃ (n : ℕ) (r : ℕ) (j : CflJob) (o : CflOp) (os : List CflOp) (s : State), (s.cfl.jobs = [j]) ∧ (j.planned = true) ∧ (j.use = .scrub r) ∧ (s.cfl.waiting = []) ∧ (j.ops = .margin n .pv :: o :: os)) ∧
    (∃ (n : ℕ) (r : ℕ) (j : CflJob) (o : CflOp) (os : List CflOp) (s : State), (s.cfl.jobs = [j]) ∧ (j.planned = true) ∧ (j.use = .scrub r) ∧ (s.cfl.waiting = []) ∧ (j.ops = .margin n .ev :: o :: os) ∧ (s.cfl.scrubFound = [])) ∧
    (∃ (f : FetchKind) (a : ℕ) (s : State), (isOn s 3 = true) ∧ ((currentOp s).isSome = true)) ∧
    (∃ (f : FetchKind) (a : ℕ) (s : State), (isOn s 3 = true) ∧ (currentOp s = none)) :=
  ⟨⟨2, 900000, 7, job .abort [.program 900000 7, .margin 3 .pv], .margin 3 .pv, [], [], (State.reset |> jobs (job .abort [.program 900000 7, .margin 3 .pv] :: [])), by decide +kernel, by decide +kernel, by decide +kernel, by decide +kernel, by decide +kernel, by decide +kernel, by decide +kernel, by decide +kernel, by show flashWf _ = true; decide +kernel⟩,
   ⟨2, 1024000, true, 7, job .abort [.program 1024000 7, .margin 3 .pv], .margin 3 .pv, [], (State.reset |> jobs (job .abort [.program 1024000 7, .margin 3 .pv] :: [])), by decide +kernel⟩,
   ⟨2, 1019905, true, 7, job .abort [.program 1019905 7, .margin 3 .pv], .margin 3 .pv, [], (State.reset |> jobs (job .abort [.program 1019905 7, .margin 3 .pv] :: [])), by decide +kernel⟩,
   ⟨2, 460, job .abort [.erase 460, .margin 3 .pv], .margin 3 .pv, [], [], (State.reset |> jobs (job .abort [.erase 460, .margin 3 .pv] :: [])), by decide +kernel, by decide +kernel, by decide +kernel, by decide +kernel, by decide +kernel, by decide +kernel, by decide +kernel, by intro h e; cases e⟩,
   ⟨460, job .abort [.erase 460], [], [], (State.reset |> jobs (job .abort [.erase 460] :: [])), by decide +kernel, by decide +kernel, by decide +kernel, by decide +kernel, by decide +kernel, by decide +kernel, by decide +kernel, by decide +kernel, by intro i d h; cases h⟩,
   ⟨3, 0, job (.scrub 0) [.margin 3 .pv, .margin 4 .pv], .margin 4 .pv, [], (State.reset |> jobs [job (.scrub 0) [.margin 3 .pv, .margin 4 .pv]]), by decide +kernel⟩,
   ⟨3, 0, job (.scrub 0) [.margin 3 .ev, .margin 4 .pv], .margin 4 .pv, [], (State.reset |> jobs [job (.scrub 0) [.margin 3 .ev, .margin 4 .pv]] |> cf (fun c => { c with scrubFound := [] })), by decide +kernel⟩,
   ⟨.instruction, 16, (State.reset |> dom 3 .on |> jobs [job .abort [.erase 460]]), by decide +kernel⟩,
   ⟨.instruction, 16, (State.reset |> dom 3 .on |> jobs []), by decide +kernel⟩⟩

theorem witness_FlashVerbs :
    (∃ (k : Sess) (p : List Byte) (s : State), (mayRun s k .keep [.serve, .fault] = true) ∧ (p.length = 16) ∧ (s.aon.pwd.fails < 8) ∧ (s.aon.pwd.until_ ≤ s.aon.us) ∧ (p = s.cfl.pwd)) ∧
    (∃ (k : Sess) (p : List Byte) (s : State), (mayRun s k .keep [.serve, .fault] = true) ∧ (p.length = 16) ∧ (s.aon.pwd.fails < 8) ∧ (s.aon.pwd.until_ ≤ s.aon.us) ∧ (p ≠ s.cfl.pwd)) ∧
    (∃ (k : Sess) (p : List Byte) (s : State), (mayRun s k .keep [.serve, .fault] = true) ∧ (p.length = 16) ∧ (s.aon.pwd.fails < 8) ∧ (s.aon.us < s.aon.pwd.until_)) ∧
    (∃ (k : Sess) (s : State), (mayRun s k .keep anyState = true)) ∧
    (∃ (k : Sess) (r : ℕ) (s : State), (mayRun s k .keep [.serve, .fault] = true) ∧ (r ≤ 5) ∧ (s.cfl.jobs = [])) ∧
    (∃ (k : Sess) (a : ℕ) (b : ℕ) (on : Bool) (s : State), (mayRun s k .keep [.serve, .fault] = true) ∧ (a ≤ b) ∧ (b ≤ 447) ∧ ((getSes s k).unlock = true) ∧ (s.cfl.jobs = [])) ∧
    (∃ (k : Sess) (p : List Byte) (s : State), (mayRun s k .keep [.serve, .fault] = true) ∧ (p.length = 16) ∧ ((getSes s k).unlock = true) ∧ (s.cfl.jobs = [])) ∧
    (∃ (k : Sess) (l : List (OptKey × ℕ)) (s : State), (mayRun s k .keep [.serve, .fault] = true) ∧ ((l.flatMap (optValue s)).all (fun p => !p.1) = true) ∧ ((s.aon.opt.optWp && noUnlock s k) = false) ∧ (optFull s = false) ∧ (s.cfl.jobs = [])) :=
  ⟨⟨5, List.replicate 16 0, (State.reset |> keep 5 .serve |> aon (fun a => { a with us := 10, pwd := { fails := 1, until_ := 5 } }) |> cf (fun c => { c with pwd := List.replicate 16 0 })), by decide +kernel⟩,
   ⟨5, List.replicate 16 1, (State.reset |> keep 5 .serve |> aon (fun a => { a with us := 10, pwd := { fails := 1, until_ := 5 } }) |> cf (fun c => { c with pwd := List.replicate 16 0 })), by decide +kernel⟩,
   ⟨5, List.replicate 16 1, (State.reset |> keep 5 .serve |> aon (fun a => { a with us := 10, pwd := { fails := 1, until_ := 15 } }) |> cf (fun c => { c with pwd := List.replicate 16 0 })), by decide +kernel⟩,
   ⟨5, (State.reset |> keep 5 .serve), by decide +kernel⟩,
   ⟨5, 5, (State.reset |> keep 5 .serve |> jobs []), by decide +kernel⟩,
   ⟨5, 3, 447, true, (State.reset |> keep 5 .serve |> jobs [] |> ses 5 (fun q => { q with unlock := true })), by decide +kernel⟩,
   ⟨5, List.replicate 16 1, (State.reset |> keep 5 .serve |> jobs [] |> ses 5 (fun q => { q with unlock := true })), by decide +kernel⟩,
   ⟨5, [(.ichg, 7)], (State.reset |> keep 5 .serve |> jobs [] |> ses 5 (fun q => { q with unlock := true }) |> opts (fun o => { o with optWp := false })), by decide +kernel⟩⟩

theorem witness_FirmwareUpdate :
    (∃ (n : NodeId) (b : List Byte) (s : State), (hearsClass4 s = true) ∧ (b.length = 512) ∧ (s.cfl.jobs = [])) ∧
    (∃ (n : ℕ) (b : List Byte) (j : CflJob) (o : CflOp) (os : List CflOp) (rest : List CflJob) (s : State), (s.cfl.jobs = j :: rest) ∧ (j.planned = true) ∧ (j.use = .openStaging b) ∧ (j.ops = .erase 482 :: o :: os) ∧ (s.cfl.waiting = []) ∧ (n < 5) ∧ (s.cfl.warmDue = false)) ∧
    (∃ (n : NodeId) (g : BitVec 10) (b : List Byte) (h : CflJob) (rest : List CflJob) (s : State), (hearsClass4 s = true) ∧ (s.cfl.jobs = h :: rest) ∧ (h.planned = true) ∧ (h.ops ≠ [])) ∧
    (∃ (n : NodeId) (s : State), (s.mg.running = true) ∧ (s.store.receiptDue = true) ∧ (s.store.distributor = some n)) ∧
    (∃ (h : CflJob) (rest : List CflJob) (s : State), (s.cfl.jobs = h :: rest) ∧ (h.planned = true) ∧ (h.ops ≠ [])) ∧
    (∃ (k : Sess) (o : ℕ) (d : List Byte) (s : State), (mayRun s k .keep [.serve, .park, .fault] = true) ∧ (pieceLen d = false) ∧ (o + d.length ≤ 511) ∧ (pieceOut s k .header o = false)) ∧
    (∃ (k : Sess) (i : ℕ) (o : ℕ) (d : List Byte) (s : State), (mayRun s k .keep [.serve, .park, .fault] = true) ∧ (i ≤ 895) ∧ (pieceLen d = false) ∧ (pieceOut s k (.splint i) o = false) ∧ (o + d.length < 32)) ∧
    (∃ (k : Sess) (s : State), (mayRun s k .keep [.serve, .park, .save, .restore, .fault] = true)) ∧
    (∃ (k : Sess) (s : State), (mayRun s k .keep [.serve, .park, .fault] = true) ∧ (s.cfl.jobs = [])) :=
  ⟨⟨7, List.replicate 512 0, (State.reset |> onTheBus .active |> jobs []), by decide +kernel⟩,
   ⟨2, List.replicate 512 0, job (.openStaging (List.replicate 512 0)) [.erase 482, .margin 3 .pv], .margin 3 .pv, [], [], (State.reset |> jobs [job (.openStaging (List.replicate 512 0)) [.erase 482, .margin 3 .pv]]), by decide +kernel⟩,
   ⟨7, 3, List.replicate 40 0, job .abort [.erase 460], [], (State.reset |> onTheBus .active |> jobs [job .abort [.erase 460]]), by decide +kernel⟩,
   ⟨7, (State.reset |> run |> sto (fun x => { x with receiptDue := true, distributor := some 7 })), by decide +kernel⟩,
   ⟨job .abort [.erase 460], [], (State.reset |> jobs [job .abort [.erase 460]]), by decide +kernel⟩,
   ⟨5, 0, [1, 2], (State.reset |> keep 5 .serve |> ses 5 (fun q => { q with uploads := [] })), by decide +kernel⟩,
   ⟨5, 3, 0, [1, 2], (State.reset |> keep 5 .serve |> ses 5 (fun q => { q with uploads := [] })), by decide +kernel⟩,
   ⟨5, (State.reset |> keep 5 .serve), by decide +kernel⟩,
   ⟨5, (State.reset |> keep 5 .serve |> jobs []), by decide +kernel⟩⟩

theorem witness_DomainAndResetVerbs :
    (∃ (k : Sess) (d : Dom) (s : State), (mayRun s k .keep [.serve, .fault] = true) ∧ ((domOf s d).enabling = none) ∧ (isDraining s d.val = false) ∧ ((!optional d || isOn s d.val) = true)) ∧
    (∃ (k : Sess) (d : Dom) (s : State), (mayRun s k .keep [.serve, .fault] = true) ∧ ((domOf s d).enabling = none) ∧ (isDraining s d.val = false) ∧ ((!optional d || isOn s d.val) = false)) ∧
    (∃ (k : Sess) (d : Dom) (s : State), (mayRun s k .keep [.serve, .fault] = true) ∧ (domainRequired s d.val = false) ∧ (isOn s d.val = true)) ∧
    (∃ (k : Sess) (n : ℕ) (s : State), (mayRun s k .keep [.serve, .fault] = true) ∧ (10000000 ≤ n) ∧ (n ≤ 60000000000) ∧ (cfgGuard s k = false)) ∧
    (∃ (k : Sess) (s : State), (mayRun s k .keep [.fault] = true) ∧ (flashBusy s = true)) ∧
    (∃ (k : Sess) (s : State), (mayRun s k .keep [.fault] = true) ∧ (flashBusy s = false)) ∧
    (∃ (k : Sess) (s : State), (mayRun s k .keep anyState = true)) ∧
    (∃ (k : Sess) (s : State), (mayRun s k .keep [.fault] = true)) :=
  ⟨⟨5, 13, (State.reset |> keep 5 .serve |> (fun s => { s with doms := { s.doms with dom := upd s.doms.dom 13 (fun x => { x with mode := .on, enabling := none }) } })), by decide +kernel⟩,
   ⟨5, 13, (State.reset |> keep 5 .serve |> (fun s => { s with doms := { s.doms with dom := upd s.doms.dom 13 (fun x => { x with mode := .off, enabling := none }) } })), by decide +kernel⟩,
   ⟨5, 13, (State.reset |> keep 5 .serve |> img .none |> allOn |> allDies), by decide +kernel⟩,
   ⟨5, 10000000, (State.reset |> keep 5 .serve |> opts (fun o => { o with cfgWp := false })), by decide +kernel⟩,
   ⟨5, (State.reset |> keep 5 .fault |> jobs [job .abort [.erase 460]]), by decide +kernel⟩,
   ⟨5, (State.reset |> keep 5 .fault |> jobs []), by decide +kernel⟩,
   ⟨5, (State.reset |> keep 5 .serve), by decide +kernel⟩,
   ⟨5, (State.reset |> keep 5 .fault), by decide +kernel⟩⟩

theorem witness_RefusalsOfLines :
    (∃ (k : Sess) (s : State), (lineReady s k = true) ∧ ((getSes s k).priv ≠ .keep)) ∧
    (∃ (k : Sess) (s : State), (lineReady s k = true) ∧ ((getSes s k).priv = .view)) ∧
    (∃ (k : Sess) (s : State), (lineReady s k = true) ∧ ((getSes s k).priv = .keep) ∧ (s.aon.hold = .boot)) ∧
    (∃ (k : Sess) (s : State), ((getSes s k).isOpen = true) ∧ (stalled s k = false) ∧ ((getSes s k).queue = []) ∧ (recovering s = true)) ∧
    (∃ (k : Sess) (s : State), ((getSes s k).isOpen = true) ∧ (stalled s k = true) ∧ ((getSes s k).queue.length < 4)) ∧
    (∃ (k : Sess) (s : State), ((getSes s k).isOpen = true) ∧ (4 ≤ (getSes s k).queue.length)) :=
  ⟨⟨5, (State.reset |> hold .serve |> op 5 .run), by decide +kernel⟩,
   ⟨5, (State.reset |> hold .serve |> op 5 .view), by decide +kernel⟩,
   ⟨5, (State.reset |> keep 5 .boot), by decide +kernel⟩,
   ⟨5, (State.reset |> op 5 .view |> aon (fun a => { a with mgmtHold := true })), by decide +kernel⟩,
   ⟨5, (State.reset |> op 5 .view |> ses 5 (fun q => { q with busy := some .commit })), by decide +kernel⟩,
   ⟨5, (State.reset |> op 5 .view |> ses 5 (fun q => { q with queue := List.replicate 4 { lseq := 0, line := .bad 100 } })), by decide +kernel⟩⟩

/-- The secret of PrivilegeOfASession's witnesses unwraps, so the MAC keyed with it is the right one. -/
theorem witness_PrivilegeOfASession_secret :
    secretOf (State.reset |> mg (fun m => { m with secKeep := some (keyWrap kStore (List.replicate 48 7)) })) .keep = some (List.replicate 48 7) :=
  keyUnwrap_keyWrap kStore (List.replicate 48 7) (by decide)

/-- The state of the owner-key witnesses. -/
def owned : State := State.reset |> tn (fun t => { t with otk := some (keyWrap kStore (List.replicate 32 1)) })

theorem owned_ownerKey : ownerKey owned = some (List.replicate 32 1) := keyUnwrap_keyWrap kStore (List.replicate 32 1) (by decide)

/-- A secret, an owner key and a tenant key that their wrapped forms carry under that owner key. -/
theorem witness_wrapped_under_the_owner_key :
    unwrapped owned (keyWrap (List.replicate 32 1) (List.replicate 48 2)) = some (List.replicate 48 2) ∧
    newOwner owned false (keyWrap (List.replicate 32 1) (List.replicate 32 2)) = some (List.replicate 32 2) ∧
    loadedKey owned 3 (keyWrap (importKey (List.replicate 32 1) 3) (List.replicate 32 1 ++ List.replicate 32 2)) =
      some (List.replicate 32 1 ++ List.replicate 32 2) := by
  refine ⟨?_, ?_, ?_⟩
  · rw [unwrapped, owned_ownerKey]; exact keyUnwrap_keyWrap _ _ (by decide)
  · rw [newOwner, owned_ownerKey]
    simp only [Bool.false_eq_true, if_false, Option.bind_some, keyUnwrap_keyWrap _ (List.replicate 32 (2 : Byte)) (by decide)]; decide
  · simp only [loadedKey, owned_ownerKey, keyUnwrap_keyWrap _ (List.replicate 32 (1 : Byte) ++ List.replicate 32 2) (by decide)]; decide

end Sys2Proof.Tests
end

section
/-! SUPPORT. What the mode changes, the option load and the cut of a code-flash operation leave as it was, and the power-on reset and
the warden's phases (R63, R70, R71). -/

namespace Sys2Proof.Machine

/-! ## What a mode change leaves in AON -/

/-- A change of one domain's mode touches nothing of AON but the run-time disable mask (R54, R66). -/
theorem setMode_aon (s : State) (d : Dom) (m : DMode) : ∃ r, (setMode s d m).aon = { s.aon with runDisable := r } := by
  unfold setMode
  by_cases h : (domOf s d).mode = m
  · simp only [h, if_true]
    exact ⟨_, rfl⟩
  · simp only [h, if_false, ite_aon, noticeIssuer_frame, setRunDisable, setEnabled_frame, enterShb_frame, abortWork_frame, darkWarp_frame,
      leaveShb_frame, logPstate_frame, setDom_frame, ite_self]
    split
    · exact ⟨_, rfl⟩
    · exact ⟨_, rfl⟩

/-- A change of the domains' modes touches nothing of AON but the run-time disable mask. -/
theorem applyModes_aon (s : State) (f : State → Dom → DMode) : ∃ r, (applyModes s f).aon = { s.aon with runDisable := r } := by
  have fold : ∀ (l : List Dom) (u : State), ∃ r,
      (l.foldl (fun s' d => if (domOf s' d).mode = .failed then s' else setMode s' d (f s d)) u).aon = { u.aon with runDisable := r } := by
    intro l
    induction l with
    | nil => exact fun u => ⟨_, rfl⟩
    | cons d t ih =>
      intro u
      obtain ⟨r, hr⟩ := ih (if (domOf u d).mode = .failed then u else setMode u d (f s d))
      obtain ⟨q, hq⟩ := setMode_aon u d (f s d)
      refine ⟨r, ?_⟩
      rw [List.foldl_cons, hr]
      split
      · rfl
      · rw [hq]
  unfold applyModes
  simp only [settlePlls_frame, wakeLanes_frame, settleLanes_frame]
  exact fold _ _

/-- The option load changes the option latches and the log alone (R71). -/
theorem loadOptions_aon (s : State) :
    ∃ o q r, (loadOptions s).aon = { s.aon with opt := o, optSeq := q, optSel := r } := by
  unfold loadOptions
  simp only [ite_aon, logEv_frame, ite_self, foldl_aon, implies_true]
  exact ⟨_, _, _, rfl⟩

/-- A cut with nothing under way leaves every word of the code flash (R364). -/
theorem interruptCfl_sameFlash (s : State) (h : currentOp s = none) : SameFlash s (interruptCfl s) := by
  intro w
  unfold interruptCfl wordAt
  simp only [h]

end Sys2Proof.Machine

open Sys2Proof Sys2Proof.Machine

/-- Settles O7: the reset state is a closed term. -/
theorem resetValuesOfTheSpec : Obligations.ResetValuesOfTheSpec := by
  unfold Obligations.ResetValuesOfTheSpec
  decide +kernel

namespace Sys2Proof.Machine

/-- What the power-on reset leaves and what it keeps (R40, R63, R70). -/
theorem powerOnReset_keeps (s : State) :
    let t := powerOnReset s
    t.aon = State.reset.aon ∧ t.log = State.reset.log ∧ t.doms.dom = State.reset.doms.dom ∧ t.doms.lanes = State.reset.doms.lanes ∧
    t.hp = State.reset.hp ∧ t.mg.ses = State.reset.mg.ses ∧ t.i3c.dyn = none ∧ t.warp.state = .none ∧
    t.nand.groups = s.nand.groups ∧ t.nand.rims = s.nand.rims ∧ t.nand.layers = s.nand.layers ∧ t.nand.tags = s.nand.tags ∧
    t.ten.map = s.ten.map ∧ t.ten.blobs = s.ten.blobs ∧ t.store.hdrA = s.store.hdrA ∧ t.store.hdrB = s.store.hdrB ∧
    (currentOp s = none → SameFlash s t) ∧ t.pins.bulk = s.pins.bulk ∧ t.pins.vsb = s.pins.vsb ∧ t.pins.refclk = s.pins.refclk := by
  have flash : currentOp s = none → SameFlash s (powerOnReset s) := interruptCfl_sameFlash s
  refine ⟨rfl, rfl, rfl, rfl, rfl, rfl, rfl, rfl, ?_, ?_, ?_, ?_, ?_, ?_, ?_, ?_, flash, ?_, ?_, ?_⟩ <;>
    simp only [powerOnReset, coldNand, coldTenants, interruptCfl_frame]

end Sys2Proof.Machine

/-- Settles O8: VAON_IN's collapse, the parity error and the thermal supervisor all make the one power-on reset. -/
theorem powerOnResetClearsAon : Obligations.PowerOnResetClearsAon := by
  unfold Obligations.PowerOnResetClearsAon
  intro c hc s
  simp only [List.mem_cons, List.not_mem_nil, or_false] at hc
  obtain rfl | rfl | rfl := hc
  · exact ⟨_, rfl, powerOnReset_keeps { s with pins := { s.pins with vaon := false } }⟩
  · exact ⟨_, rfl, powerOnReset_keeps s⟩
  · exact ⟨_, rfl, powerOnReset_keeps s⟩

/-- Settles O9: each phase's command does its part, and the frames of the option load and of the mode change keep the rest. -/
theorem wardenResetPhases : Obligations.WardenResetPhases := by
  unfold Obligations.WardenResetPhases
  refine ⟨fun s h => ?_, fun s h => ?_, fun s h => ⟨_, rfl, ?_⟩, fun s h => ⟨_, rfl, ?_⟩⟩
  · show Host.Outcome.next (porPhase s _ _) = _
    rw [porPhase, if_pos h]; rfl
  · show Host.Outcome.next (porPhase s _ _) = _
    rw [porPhase, if_pos h]; rfl
  · rw [porPhase, if_pos h]
    exact ⟨rfl, rfl, rfl, rfl, rfl, rfl, rfl, rfl, rfl⟩
  · rw [porPhase, if_pos h]
    simp

end

section
/-! SUPPORT. What the steps between the hold states leave as it was: one lemma for each (R25-R46, R303). -/

namespace Sys2Proof.Machine

/-! ## Answers -/

/-- A response line touches the output paths alone (R289). -/
@[simp] theorem respond_frame (s : State) (k : Sess) (l : Line) :
    (respond s k l).aon = s.aon ∧ (respond s k l).log = s.log ∧ (respond s k l).pins = s.pins ∧ (respond s k l).doms = s.doms ∧
    (respond s k l).hp = s.hp ∧ (respond s k l).map = s.map ∧ (respond s k l).nand = s.nand ∧ (respond s k l).rst = s.rst ∧ (respond s
    k l).ten = s.ten ∧ (respond s k l).bat = s.bat ∧ (respond s k l).warp = s.warp ∧ (respond s k l).cfl = s.cfl ∧ (respond s k
    l).store = s.store ∧ (respond s k l).free = s.free ∧ (respond s k l).pending = s.pending ∧ (respond s k l).mg.running =
    s.mg.running := by
  have same : setSes s k (fun q => { q with curLseq := (getSes s k).curLseq }) = s := by
    show { s with mg := { s.mg with ses := s.mg.ses.set k.val s.mg.ses[k.val] } } = s
    rw [Vector.set_getElem_self]
  obtain ⟨-, -, -, e⟩ := same ▸ respond_answered s k (getSes s k).curLseq l
  and_intros <;> rw [e]

/-- The answer of a busy session touches the output paths alone (R300). -/
@[simp] theorem answerBusy_frame (s : State) (k : Option Sess) (b : Busy) (l : Line) :
    (answerBusy s k b l).aon = s.aon ∧ (answerBusy s k b l).log = s.log ∧ (answerBusy s k b l).pins = s.pins ∧ (answerBusy s k b
    l).doms = s.doms ∧ (answerBusy s k b l).hp = s.hp ∧ (answerBusy s k b l).map = s.map ∧ (answerBusy s k b l).nand = s.nand ∧
    (answerBusy s k b l).rst = s.rst ∧ (answerBusy s k b l).ten = s.ten ∧ (answerBusy s k b l).bat = s.bat ∧ (answerBusy s k b l).warp
    = s.warp ∧ (answerBusy s k b l).cfl = s.cfl ∧ (answerBusy s k b l).store = s.store ∧ (answerBusy s k b l).free = s.free ∧
    (answerBusy s k b l).pending = s.pending ∧ (answerBusy s k b l).mg.running = s.mg.running := by
  unfold answerBusy
  split
  · split <;> simp
  · simp

/-! ## Leaving a state -/

/-- An abandoned reload is gone, and its session is answered (R194). -/
@[simp] theorem abandonReload_frame (s : State) :
    (abandonReload s).aon = s.aon ∧ (abandonReload s).log = s.log ∧ (abandonReload s).pins = s.pins ∧ (abandonReload s).doms = s.doms
    ∧ (abandonReload s).hp = s.hp ∧ (abandonReload s).nand = s.nand ∧ (abandonReload s).rst = s.rst ∧ (abandonReload s).ten = s.ten ∧
    (abandonReload s).bat = s.bat ∧ (abandonReload s).warp = s.warp ∧ (abandonReload s).cfl = s.cfl ∧ (abandonReload s).store =
    s.store ∧ (abandonReload s).free = s.free ∧ (abandonReload s).pending = s.pending ∧ (abandonReload s).mg.running = s.mg.running ∧
    (abandonReload s).map.save = s.map.save ∧ (abandonReload s).map.dirty = s.map.dirty ∧ (abandonReload s).map.geom = s.map.geom ∧
    (abandonReload s).map.eg = s.map.eg ∧ (abandonReload s).map.eFix = s.map.eFix ∧ (abandonReload s).map.eTail = s.map.eTail ∧
    (abandonReload s).map.reload = none := by
  unfold abandonReload
  split
  · simp [*]
  · simp

/-- A dropped request is gone and logged (R160). -/
@[simp] theorem dropRestore_frame (s : State) :
    (dropRestore s).aon = s.aon ∧ (dropRestore s).pins = s.pins ∧ (dropRestore s).doms = s.doms ∧ (dropRestore s).hp = s.hp ∧
    (dropRestore s).map = s.map ∧ (dropRestore s).nand = s.nand ∧ (dropRestore s).ten = s.ten ∧ (dropRestore s).bat = s.bat ∧
    (dropRestore s).shb = s.shb ∧ (dropRestore s).warp = s.warp ∧ (dropRestore s).mg = s.mg ∧ (dropRestore s).cfl = s.cfl ∧
    (dropRestore s).store = s.store ∧ (dropRestore s).i3c = s.i3c ∧ (dropRestore s).free = s.free ∧ (dropRestore s).pending =
    s.pending ∧ (dropRestore s).rst.run = s.rst.run ∧ (dropRestore s).rst.report = s.rst.report ∧ (dropRestore s).rst.req = none := by
  unfold dropRestore
  split
  · simp [*]
  · simp

/-- The end of SETTLE touches the dies and the engine alone (R42, R150). -/
@[simp] theorem stopSettle_frame (s : State) :
    (stopSettle s).aon = s.aon ∧ (stopSettle s).log = s.log ∧ (stopSettle s).pins = s.pins ∧ (stopSettle s).doms = s.doms ∧
    (stopSettle s).hp = s.hp ∧ (stopSettle s).map = s.map ∧ (stopSettle s).rst = s.rst ∧ (stopSettle s).ten = s.ten ∧ (stopSettle
    s).bat = s.bat ∧ (stopSettle s).shb = s.shb ∧ (stopSettle s).warp = s.warp ∧ (stopSettle s).mg = s.mg ∧ (stopSettle s).cfl = s.cfl
    ∧ (stopSettle s).store = s.store ∧ (stopSettle s).i3c = s.i3c ∧ (stopSettle s).free = s.free ∧ (stopSettle s).pending = s.pending
    ∧ (stopSettle s).nand.rims = s.nand.rims ∧ (stopSettle s).nand.dram = s.nand.dram ∧ (stopSettle s).nand.prov = s.nand.prov ∧
    (stopSettle s).nand.rimDead = s.nand.rimDead ∧ (stopSettle s).nand.chosen = s.nand.chosen ∧ (stopSettle s).nand.profile =
    s.nand.profile ∧ (stopSettle s).nand.groups = s.nand.groups ∧ (stopSettle s).nand.layers = s.nand.layers ∧ (stopSettle
    s).nand.dramSr = s.nand.dramSr ∧ (stopSettle s).nand.rimJob = s.nand.rimJob ∧ (stopSettle s).nand.tab = s.nand.tab ∧ (stopSettle
    s).nand.settle.running = false := by
  unfold stopSettle
  simp

/-- No new fold and no new erase: the dies and the engine alone (R42, R157). -/
@[simp] theorem stopArrays_frame (s : State) :
    (stopArrays s).aon = s.aon ∧ (stopArrays s).log = s.log ∧ (stopArrays s).pins = s.pins ∧ (stopArrays s).doms = s.doms ∧
    (stopArrays s).hp = s.hp ∧ (stopArrays s).map = s.map ∧ (stopArrays s).rst = s.rst ∧ (stopArrays s).ten = s.ten ∧ (stopArrays
    s).bat = s.bat ∧ (stopArrays s).shb = s.shb ∧ (stopArrays s).warp = s.warp ∧ (stopArrays s).mg = s.mg ∧ (stopArrays s).cfl = s.cfl
    ∧ (stopArrays s).store = s.store ∧ (stopArrays s).i3c = s.i3c ∧ (stopArrays s).free = s.free ∧ (stopArrays s).pending = s.pending
    ∧ (stopArrays s).nand.rims = s.nand.rims ∧ (stopArrays s).nand.dram = s.nand.dram ∧ (stopArrays s).nand.prov = s.nand.prov ∧
    (stopArrays s).nand.rimDead = s.nand.rimDead ∧ (stopArrays s).nand.chosen = s.nand.chosen ∧ (stopArrays s).nand.profile =
    s.nand.profile ∧ (stopArrays s).nand.groups = s.nand.groups ∧ (stopArrays s).nand.layers = s.nand.layers ∧ (stopArrays
    s).nand.dramSr = s.nand.dramSr ∧ (stopArrays s).nand.rimJob = s.nand.rimJob ∧ (stopArrays s).nand.tab = s.nand.tab ∧ (stopArrays
    s).nand.settle.running = false := by
  unfold stopArrays
  simp

/-- An abandoned commit leaves the rims as they are. -/
@[simp] theorem dropRimJob_frame (s : State) :
    (dropRimJob s).aon = s.aon ∧ (dropRimJob s).log = s.log ∧ (dropRimJob s).pins = s.pins ∧ (dropRimJob s).doms = s.doms ∧
    (dropRimJob s).hp = s.hp ∧ (dropRimJob s).map = s.map ∧ (dropRimJob s).rst = s.rst ∧ (dropRimJob s).ten = s.ten ∧ (dropRimJob
    s).bat = s.bat ∧ (dropRimJob s).shb = s.shb ∧ (dropRimJob s).warp = s.warp ∧ (dropRimJob s).mg = s.mg ∧ (dropRimJob s).cfl = s.cfl
    ∧ (dropRimJob s).store = s.store ∧ (dropRimJob s).i3c = s.i3c ∧ (dropRimJob s).free = s.free ∧ (dropRimJob s).pending = s.pending
    ∧ (dropRimJob s).nand.rims = s.nand.rims ∧ (dropRimJob s).nand.dram = s.nand.dram ∧ (dropRimJob s).nand.prov = s.nand.prov ∧
    (dropRimJob s).nand.rimDead = s.nand.rimDead ∧ (dropRimJob s).nand.chosen = s.nand.chosen ∧ (dropRimJob s).nand.profile =
    s.nand.profile ∧ (dropRimJob s).nand.groups = s.nand.groups ∧ (dropRimJob s).nand.layers = s.nand.layers ∧ (dropRimJob
    s).nand.dramSr = s.nand.dramSr ∧ (dropRimJob s).nand.settle.running = s.nand.settle.running ∧ (dropRimJob s).nand.rimJob = none := by
  unfold dropRimJob
  simp

/-- The checkpoint of the filter touches the checkpoint alone (R212). -/
@[simp] theorem checkpointCells_frame (s : State) :
    (checkpointCells s).log = s.log ∧ (checkpointCells s).pins = s.pins ∧ (checkpointCells s).doms = s.doms ∧ (checkpointCells s).hp =
    s.hp ∧ (checkpointCells s).map = s.map ∧ (checkpointCells s).nand = s.nand ∧ (checkpointCells s).rst = s.rst ∧ (checkpointCells
    s).ten = s.ten ∧ (checkpointCells s).bat = s.bat ∧ (checkpointCells s).shb = s.shb ∧ (checkpointCells s).warp = s.warp ∧
    (checkpointCells s).mg = s.mg ∧ (checkpointCells s).cfl = s.cfl ∧ (checkpointCells s).store = s.store ∧ (checkpointCells s).i3c =
    s.i3c ∧ (checkpointCells s).free = s.free ∧ (checkpointCells s).pending = s.pending ∧ (checkpointCells s).aon.hold = s.aon.hold ∧
    (checkpointCells s).aon.img = s.aon.img ∧ (checkpointCells s).aon.cause = s.aon.cause ∧ (checkpointCells s).aon.cont = s.aon.cont
    ∧ (checkpointCells s).aon.faults = s.aon.faults ∧ (checkpointCells s).aon.por = s.aon.por ∧ (checkpointCells s).aon.boot =
    s.aon.boot ∧ (checkpointCells s).aon.opt = s.aon.opt ∧ (checkpointCells s).aon.rst = s.aon.rst ∧ (checkpointCells s).aon.stale =
    s.aon.stale ∧ (checkpointCells s).aon.boots = s.aon.boots := by
  unfold checkpointCells
  simp

/-- The holdover touches D06 alone (R265). -/
@[simp] theorem warpHold_frame (s : State) :
    (warpHold s).aon = s.aon ∧ (warpHold s).log = s.log ∧ (warpHold s).pins = s.pins ∧ (warpHold s).doms = s.doms ∧ (warpHold s).hp =
    s.hp ∧ (warpHold s).map = s.map ∧ (warpHold s).nand = s.nand ∧ (warpHold s).rst = s.rst ∧ (warpHold s).ten = s.ten ∧ (warpHold
    s).bat = s.bat ∧ (warpHold s).shb = s.shb ∧ (warpHold s).mg = s.mg ∧ (warpHold s).cfl = s.cfl ∧ (warpHold s).store = s.store ∧
    (warpHold s).i3c = s.i3c ∧ (warpHold s).free = s.free ∧ (warpHold s).pending = s.pending := by
  unfold warpHold
  split <;> simp

/-- The DRAM's loss touches its contents and the continuity flag alone (R24). -/
@[simp] theorem dramLost_frame (s : State) :
    (dramLost s).log = s.log ∧ (dramLost s).pins = s.pins ∧ (dramLost s).doms = s.doms ∧ (dramLost s).hp = s.hp ∧ (dramLost s).map =
    s.map ∧ (dramLost s).rst = s.rst ∧ (dramLost s).ten = s.ten ∧ (dramLost s).bat = s.bat ∧ (dramLost s).shb = s.shb ∧ (dramLost
    s).warp = s.warp ∧ (dramLost s).mg = s.mg ∧ (dramLost s).cfl = s.cfl ∧ (dramLost s).store = s.store ∧ (dramLost s).i3c = s.i3c ∧
    (dramLost s).pending = s.pending ∧ (dramLost s).aon.hold = s.aon.hold ∧ (dramLost s).aon.img = s.aon.img ∧ (dramLost s).nand.rims
    = s.nand.rims ∧ (dramLost s).nand.prov = s.nand.prov ∧ (dramLost s).aon.cause = s.aon.cause ∧ (dramLost s).aon.faults =
    s.aon.faults ∧ (dramLost s).aon = { s.aon with cont := false } := by
  unfold dramLost
  simp

/-! ## MAP's records on their way -/

/-- A snoop record touches the dirty map alone (R90). -/
@[simp] theorem applySnoop_frame (s : State) (x : Snoop) :
    (applySnoop s x).aon = s.aon ∧ (applySnoop s x).log = s.log ∧ (applySnoop s x).pins = s.pins ∧ (applySnoop s x).doms = s.doms ∧
    (applySnoop s x).hp = s.hp ∧ (applySnoop s x).nand = s.nand ∧ (applySnoop s x).rst = s.rst ∧ (applySnoop s x).ten = s.ten ∧
    (applySnoop s x).bat = s.bat ∧ (applySnoop s x).shb = s.shb ∧ (applySnoop s x).warp = s.warp ∧ (applySnoop s x).mg = s.mg ∧
    (applySnoop s x).cfl = s.cfl ∧ (applySnoop s x).store = s.store ∧ (applySnoop s x).i3c = s.i3c ∧ (applySnoop s x).free = s.free ∧
    (applySnoop s x).pending = s.pending ∧ (applySnoop s x).map.geom = s.map.geom ∧ (applySnoop s x).map.save = s.map.save ∧
    (applySnoop s x).map.reload = s.map.reload := by
  unfold applySnoop
  split <;> simp

/-- The records of a flit touch the dirty map alone. -/
@[simp] theorem applyFlit_frame (s : State) (f : Flit) :
    (applyFlit s f).aon = s.aon ∧ (applyFlit s f).log = s.log ∧ (applyFlit s f).pins = s.pins ∧ (applyFlit s f).doms = s.doms ∧
    (applyFlit s f).hp = s.hp ∧ (applyFlit s f).nand = s.nand ∧ (applyFlit s f).rst = s.rst ∧ (applyFlit s f).ten = s.ten ∧ (applyFlit
    s f).bat = s.bat ∧ (applyFlit s f).shb = s.shb ∧ (applyFlit s f).warp = s.warp ∧ (applyFlit s f).mg = s.mg ∧ (applyFlit s f).cfl =
    s.cfl ∧ (applyFlit s f).store = s.store ∧ (applyFlit s f).i3c = s.i3c ∧ (applyFlit s f).free = s.free ∧ (applyFlit s f).pending =
    s.pending ∧ (applyFlit s f).map.geom = s.map.geom ∧ (applyFlit s f).map.save = s.map.save ∧ (applyFlit s f).map.reload =
    s.map.reload := by
  have save : ∀ (l : List Snoop) (u : State), (l.foldl applySnoop u).map.save = u.map.save ∧ (l.foldl applySnoop u).map.reload = u.map.reload := by
    intro l
    induction l with
    | nil => exact fun u => ⟨rfl, rfl⟩
    | cons x t ih => intro u; rw [List.foldl_cons]; simp [ih]
  unfold applyFlit
  split
  · simp
  · split <;> simp [save]

/-- The records on their way are applied: the dirty map, lane 0 and HP's buffer alone (R98). -/
@[simp] theorem flushSnoops_frame (s : State) :
    (flushSnoops s).aon = s.aon ∧ (flushSnoops s).log = s.log ∧ (flushSnoops s).pins = s.pins ∧ (flushSnoops s).nand = s.nand ∧
    (flushSnoops s).rst = s.rst ∧ (flushSnoops s).ten = s.ten ∧ (flushSnoops s).bat = s.bat ∧ (flushSnoops s).shb = s.shb ∧
    (flushSnoops s).warp = s.warp ∧ (flushSnoops s).mg = s.mg ∧ (flushSnoops s).cfl = s.cfl ∧ (flushSnoops s).store = s.store ∧
    (flushSnoops s).i3c = s.i3c ∧ (flushSnoops s).free = s.free ∧ (flushSnoops s).pending = s.pending ∧ (flushSnoops s).map.geom =
    s.map.geom ∧ (flushSnoops s).doms.dom = s.doms.dom ∧ (flushSnoops s).hp.dckAbsent = s.hp.dckAbsent ∧ (flushSnoops s).hp.phase =
    s.hp.phase ∧ (flushSnoops s).hp.training = s.hp.training := by
  unfold flushSnoops
  simp

end Sys2Proof.Machine
end

section
/-! SUPPORT. The supplies' levels and the entry to BOOT (R31, R52, R76, R77), and the I3C target (R408). -/

namespace Sys2Proof.Machine

/-- The stakes judged at wake touch D06 and the log alone (R273). -/
@[simp] theorem wakeStakes_frame (s : State) :
    (wakeStakes s).aon = s.aon ∧ (wakeStakes s).pins = s.pins ∧ (wakeStakes s).doms = s.doms ∧ (wakeStakes s).hp = s.hp ∧
    (wakeStakes s).map = s.map ∧ (wakeStakes s).nand = s.nand ∧ (wakeStakes s).cfl = s.cfl := by
  unfold wakeStakes
  and_intros
  · exact foldl_aon _ (fun u i => by simp) _ _
  · exact foldl_pins _ (fun u i => by simp) _ _
  · exact foldl_doms _ (fun u i => by simp) _ _
  · exact foldl_hp _ (fun u i => by simp) _ _
  · exact foldl_map _ (fun u i => by simp) _ _
  · exact foldl_nand _ (fun u i => by simp) _ _
  · exact foldl_cfl _ (fun u i => by simp) _ _

/-- A change of the domains' modes leaves the supply's notes in AON. -/
@[simp] theorem applyModes_supply (s : State) (f : State → Dom → DMode) :
    (applyModes s f).aon.batEmpty = s.aon.batEmpty ∧ (applyModes s f).aon.qualifying = s.aon.qualifying := by
  obtain ⟨r, h⟩ := applyModes_aon s f
  simp [h]

/-- The modes of a column at wake touch domains, and of AON the disable mask alone (R273). -/
@[simp] theorem applyWake_frame (s : State) (f : State → Dom → DMode) :
    (applyWake s f).pins = s.pins ∧ (applyWake s f).hp = s.hp ∧ (applyWake s f).map = s.map ∧ (applyWake s f).nand = s.nand ∧
    (applyWake s f).cfl = s.cfl ∧ (applyWake s f).aon.hold = s.aon.hold ∧ (applyWake s f).aon.img = s.aon.img ∧ (applyWake s
    f).aon.por = s.aon.por ∧ (applyWake s f).aon.batEmpty = s.aon.batEmpty ∧ (applyWake s f).aon.qualifying = s.aon.qualifying := by
  unfold applyWake
  dsimp only
  split
  · split <;> simp
  · simp

/-- The modes of the supply touch domains, and of AON the disable mask alone. -/
@[simp] theorem supplyModes_frame (s : State) :
    (supplyModes s).pins = s.pins ∧ (supplyModes s).hp = s.hp ∧ (supplyModes s).map = s.map ∧ (supplyModes s).nand = s.nand ∧
    (supplyModes s).cfl = s.cfl ∧ (supplyModes s).aon.hold = s.aon.hold ∧ (supplyModes s).aon.img = s.aon.img ∧ (supplyModes
    s).aon.por = s.aon.por ∧ (supplyModes s).aon.batEmpty = s.aon.batEmpty ∧ (supplyModes s).aon.qualifying = s.aon.qualifying := by
  unfold supplyModes
  split
  · split <;> simp
  · simp
  · simp

/-- What BOOT's entry leaves (R71, R77, R96). -/
theorem bootEntry_keeps (s : State) :
    (bootEntry s).aon.hold = .boot ∧ (bootEntry s).aon.boots = s.aon.boots + 1 ∧ (bootEntry s).aon.boot.firmware = false ∧
    (bootEntry s).aon.cause = .none ∧ (bootEntry s).aon.faults = [] ∧ (bootEntry s).aon.img = s.aon.img ∧
    (bootEntry s).aon.cont = s.aon.cont ∧ (bootEntry s).pins.qrstHigh = s.aon.cont ∧ (bootEntry s).pins.batsw = false ∧
    (bootEntry s).hp.capture = [] ∧ (bootEntry s).rst.req = none ∧ (bootEntry s).nand.rims = s.nand.rims ∧
    (bootEntry s).nand.dram = s.nand.dram ∧ (bootEntry s).cfl.words = s.cfl.words ∧ (bootEntry s).aon.rst = s.aon.rst ∧
    (bootEntry s).mg.ses = s.mg.ses ∧ (bootEntry s).mg.running = false ∧ (bootEntry s).ten.map = s.ten.map := by
  obtain ⟨o, q, r, h⟩ := loadOptions_aon s
  simp [bootEntry, BootSt.start, pinsRest, h]

end Sys2Proof.Machine

open Sys2Proof Sys2Proof.Machine

/-- Settles O11: the levels and the 200 ms are AON's, and the supply's modes leave the rest; BULK_STABLE is BOOT's entry. -/
theorem bulkSupplyEvents : Obligations.BulkSupplyEvents := by
  unfold Obligations.BulkSupplyEvents
  refine ⟨fun b s => ⟨_, rfl, ?_⟩, fun s => ⟨_, rfl, ?_⟩, fun s hp hh hb hq => ⟨_, rfl, ?_⟩⟩
  · dsimp only
    split <;> simp
  · dsimp only
    split <;> simp
  · have hb' : onBulk s = true := by simp [onBulk, hb]
    rw [if_pos ⟨hp, hh, hb', hq⟩]
    obtain ⟨h1, h2, h3, h4, h5, h6, h7, h8, h9, h10, h11, h12, h13, h14, -⟩ := bootEntry_keeps s
    exact ⟨h1, h2, h3, h4, h5, h6, h7, h8, h9, h10, h11, h12, h13, h14⟩

/-- Settles O40: each code reaches the target while VSB is present, at its address where it needs one. -/
theorem i3cCommonCommandCodes : Obligations.I3cCommonCommandCodes := by
  unfold Obligations.I3cCommonCommandCodes
  refine ⟨fun a s hv hd => ⟨_, rfl, ?_⟩, fun a b s hv hd => ?_, fun s hv => ⟨_, rfl, ?_⟩,
    fun b s hv hd => ⟨?_, ?_, ?_, _, rfl, ?_⟩, fun h s hv => ⟨_, rfl, ?_⟩⟩
  · rw [onI3c, if_pos hv]
    simp [setI3c, hd, pidBytes, bcr, dcr]
  · show Host.Outcome.next (onDirect s _) = _
    simp [onDirect, onI3c, hv, hd, setI3c]
  · rw [onI3c, if_pos hv]
    simp [drawInstance, setI3c, fresh]
  · show Host.Outcome.next (onDirect s _) = _
    simp [onDirect, onI3c, hv, hd, setI3c, pidBytes]
  · show Host.Outcome.next (onDirect s _) = _
    simp [onDirect, onI3c, hv, hd, setI3c, bcr]
  · show Host.Outcome.next (onDirect s _) = _
    simp [onDirect, onI3c, hv, hd, setI3c, dcr]
  · simp [onDirect, onI3c, hv, hd]
  · rw [onI3c, if_pos hv]
    simp [drawInstance, setI3c, fresh]

end

section
/-! SUPPORT. The snoop records on their way from HP to MAP (R90), the dirty map as a set, and the host's commands (R87-R100). -/

namespace Sys2Proof.Machine

/-! ## Records on their way -/

/-- `t` is `s` after the records `l` went HP's way to MAP: HP's buffer and lane 0 alone differ, and while lane 0 is UP the records follow
those that were on the way (R90). -/
structure SnoopSent (s t : State) (l : List Snoop) : Prop where
  rest : t = { s with hp := { s.hp with snoop := t.hp.snoop }, doms := { s.doms with lanes := t.doms.lanes } }
  lanes : ∀ n : LaneId, n ≠ 0 → laneOf t n = laneOf s n
  way : laneUp s 0 = true → snoopsOnTheWay t = snoopsOnTheWay s ++ l

theorem SnoopSent.refl (s : State) : SnoopSent s s [] := ⟨rfl, fun _ _ => rfl, fun _ => by simp⟩

theorem SnoopSent.trans {s t u : State} {l m : List Snoop} (h : SnoopSent s t l) (k : SnoopSent t u m) : SnoopSent s u (l ++ m) := by
  have up : laneUp t 0 = laneUp s 0 := by rw [h.rest]; rfl
  refine ⟨?_, fun n hn => (k.lanes n hn).trans (h.lanes n hn), fun hs => ?_⟩
  · rw [k.rest, h.rest]
  · rw [k.way (up.trans hs), h.way hs, List.append_assoc]

theorem foldl_snoopSent {α : Type} (f : State → α → State) (h : ∀ u x, SnoopSent u (f u x) []) (l : List α) (s : State) :
    SnoopSent s (l.foldl f s) [] := by
  induction l generalizing s with
  | nil => exact .refl s
  | cons x t ih => exact (h s x).trans (ih _)

/-- HP's packing loses and reorders no record. -/
theorem packSnoops_sent (s : State) : SnoopSent s (packSnoops s) [] := by
  unfold packSnoops
  dsimp only
  split
  · refine foldl_snoopSent _ (fun u _ => ?_) _ _
    split
    · exact .refl u
    · refine ⟨rfl, fun n hn => laneOf_setLane_other _ 0 n _ hn, fun _ => ?_⟩
      simp only [snoopsOnTheWay, laneOf_setLane, setLane_hp, List.append_nil]
      show List.flatMap _ ((laneOf u 0).queue ++ ((laneOf u 0).flight ++ [_])) ++ _ = _
      simp [List.flatMap_append, List.append_assoc, List.take_append_drop]
  · next down => exact ⟨rfl, fun _ _ => rfl, fun up => absurd up down⟩

/-- A record that HP puts on its way follows those before it. -/
theorem snoopPut_sent (s : State) (x : Snoop) : SnoopSent s (snoopPut s x) [x] := by
  have put : SnoopSent s { s with hp := { s.hp with snoop := s.hp.snoop ++ [x] } } [x] :=
    ⟨rfl, fun _ _ => rfl, fun _ => by simp only [snoopsOnTheWay, List.append_assoc]; rfl⟩
  exact put.trans (packSnoops_sent _)

/-! ## The dirty map as a set -/

theorem rsMem_cons (a b : Nat) (t : RangeSet) (g : Nat) : rsMem ((a, b) :: t) g = (decide (a ≤ g ∧ g < b) || rsMem t g) := by
  simp [rsMem]

/-- An added interval adds its granules and no other. -/
theorem rsMem_rsAdd (r : RangeSet) (lo hi g : Nat) : rsMem (rsAdd r lo hi) g = (rsMem r g || decide (lo ≤ g ∧ g < hi)) := by
  induction r generalizing lo hi with
  | nil =>
    unfold rsAdd
    split <;> simp [rsMem]
    omega
  | cons p t ih =>
    obtain ⟨a, b⟩ := p
    unfold rsAdd
    split_ifs with h1 h2 h3
    · have : ¬(lo ≤ g ∧ g < hi) := by omega
      simp [this]
    · rw [rsMem_cons, Bool.or_comm]
    · rw [rsMem_cons, ih, rsMem_cons, Bool.or_assoc]
    · have : decide (min a lo ≤ g ∧ g < max b hi) = (decide (a ≤ g ∧ g < b) || decide (lo ≤ g ∧ g < hi)) := by
        rw [← Bool.decide_or, decide_eq_decide]
        omega
      rw [ih, rsMem_cons, this]
      cases rsMem t g <;> simp

/-- A union holds the granules of both sets. -/
theorem rsMem_rsUnion (r q : RangeSet) (g : Nat) : rsMem (rsUnion r q) g = (rsMem r g || rsMem q g) := by
  unfold rsUnion
  induction q generalizing r with
  | nil => simp [rsMem]
  | cons p t ih => rw [List.foldl_cons, ih, rsMem_rsAdd, rsMem_cons, Bool.or_assoc]

theorem setDirty_keeps (s : State) (r : RangeSet) (g : Nat) (h : rsMem s.map.dirty g = true) : rsMem (setDirty s r).map.dirty g = true := by
  simp [rsMem_rsUnion, h]

theorem setDirty_marks (s : State) (a b g : Nat) (ha : a ≤ g) (hb : g < b) : rsMem (setDirty s [(a, b)]).map.dirty g = true := by
  rw [setDirty_map_dirty, rsMem_rsUnion, rsMem_cons]
  simp [ha, hb]

/-- The granules that a snoop record names under a geometry word (R90, R91). -/
def snoopNames (w : Word) : Snoop → Nat → Prop
  | .granule g, h => h = g
  | .whole k, h =>
    bankIndex w (subNum k.sub) k.rank.val k.bank.bg.val k.bank.ba.val * geoPerBank w ≤ h ∧
      h < bankIndex w (subNum k.sub) k.rank.val k.bank.bg.val k.bank.ba.val * geoPerBank w + geoPerBank w
  | _, _ => False

theorem applySnoop_keeps (s : State) (x : Snoop) (g : Nat) (h : rsMem s.map.dirty g = true) :
    rsMem (applySnoop s x).map.dirty g = true := by
  cases x with
  | granule n => exact setDirty_keeps s _ g h
  | whole k => exact setDirty_keeps s _ g h
  | capture => exact h
  | selfRefresh => exact h

theorem applySnoop_marks (s : State) (x : Snoop) (g : Nat) (h : snoopNames s.map.geom x g) :
    rsMem (applySnoop s x).map.dirty g = true := by
  cases x with
  | granule n => exact setDirty_marks s n (n + 1) g (Nat.le_of_eq h.symm) (h ▸ Nat.lt_succ_self _)
  | whole k =>
    obtain ⟨lo, hi⟩ := h
    exact setDirty_marks s _ _ g lo hi
  | capture => exact h.elim
  | selfRefresh => exact h.elim

theorem foldl_applySnoop_keeps (l : List Snoop) (s : State) (g : Nat) (h : rsMem s.map.dirty g = true) :
    rsMem (l.foldl applySnoop s).map.dirty g = true := by
  induction l generalizing s with
  | nil => exact h
  | cons x t ih => exact ih _ (applySnoop_keeps s x g h)

/-- MAP marks every granule that a record of the flit names. -/
theorem foldl_applySnoop_marks (l : List Snoop) (s : State) (x : Snoop) (hx : x ∈ l) (g : Nat) (h : snoopNames s.map.geom x g) :
    rsMem (l.foldl applySnoop s).map.dirty g = true := by
  induction l generalizing s with
  | nil => cases hx
  | cons y t ih =>
    rw [List.foldl_cons]
    obtain rfl | hx := List.mem_cons.mp hx
    · exact foldl_applySnoop_keeps t _ g (applySnoop_marks s _ g h)
    · exact ih _ hx (by simpa using h)

/-! ## The host's commands -/

/-- A host command that is forwarded runs (R37, R89). -/
theorem onForward_ready (s : State) (f : State → State) (h : ready s = true) : onForward s f = f s := if_pos h

/-- What a snooped granule leaves: HP's filter, its buffer and lane 0 alone differ, and the record is on its way unless the filter held
the granule (R90). -/
theorem snoopGranule_keeps (s : State) (g : Nat) :
    snoopGranule s g = { s with hp := (snoopGranule s g).hp, doms := (snoopGranule s g).doms } ∧
    (snoopGranule s g).hp.rows = s.hp.rows ∧
    (g ∉ s.hp.filter → laneUp s 0 = true → snoopsOnTheWay (snoopGranule s g) = snoopsOnTheWay s ++ [.granule g]) := by
  unfold snoopGranule
  split
  · next hg => exact ⟨rfl, rfl, fun h => absurd hg h⟩
  · have sent := snoopPut_sent { s with hp := { s.hp with filter := (g :: s.hp.filter).take 16 } } (.granule g)
    refine ⟨?_, ?_, fun _ up => sent.way up⟩
    · rw [sent.rest]
    · rw [sent.rest]

/-- A WRITE to an open row within the geometry: its granule alone takes the data, continuity ends, the record is on its way (R16, R24,
R90, R91). -/
theorem hostWrite_open (x : Sub) (r : Rank) (b : BankAddr) (row : BitVec 18) (d : ℕ) (s : State) (close : Bool) (h : ready s = true)
    (hrow : look (bankKey x r b) s.hp.rows = some row) (hg : geoValid s.map.geom = true)
    (hc : coordOk s.map.geom (subNum x) r.val b.bg.val b.ba.val row.toNat = true) (g : Nat)
    (eg : g = gidxOf s.map.geom (subNum x) r.val b.bg.val b.ba.val row.toNat) :
    let t := hostWrite s x r b d close
    t.nand.dram.get g = .data d ∧ (∀ i, i ≠ g → t.nand.dram.get i = s.nand.dram.get i) ∧
    (g ∉ s.hp.filter → laneUp s 0 = true → snoopsOnTheWay t = snoopsOnTheWay s ++ [.granule g]) ∧
    t.hp.rows = (if close = true then s.hp.rows.filter (fun p => decide (p.1 ≠ bankKey x r b)) else s.hp.rows) ∧
    t.aon = { s.aon with cont := false } ∧ t.map = s.map ∧ t.cfl = s.cfl ∧ t.pins = s.pins ∧ t.nand.rims = s.nand.rims := by
  have fw : forwardWrite s (bankKey x r b) d = snoopGranule { s with
      aon := { s.aon with cont := false }, nand := { s.nand with dram := s.nand.dram.setRange g (g + 1) (.data d) } } g := by
    subst eg
    simp only [forwardWrite, hrow]
    rw [if_pos ⟨hg, hc⟩]
    rfl
  obtain ⟨rest, rows, way⟩ := snoopGranule_keeps { s with
      aon := { s.aon with cont := false }, nand := { s.nand with dram := s.nand.dram.setRange g (g + 1) (.data d) } } g
  unfold hostWrite
  simp only [onForward_ready s _ h, fw]
  have same : (s.nand.dram.setRange g (g + 1) (.data d)).get g = .data d := by rw [get_setRange]; simp
  have other : ∀ i, i ≠ g → (s.nand.dram.setRange g (g + 1) (.data d)).get i = s.nand.dram.get i := by
    intro i hi
    rw [get_setRange, if_neg (by omega)]
  have filt : s.hp.rows.filter (fun p => !decide (p.1 = bankKey x r b)) = s.hp.rows.filter (fun p => decide (p.1 ≠ bankKey x r b)) :=
    List.filter_congr fun p _ => by simp
  cases close
  · refine ⟨?_, ?_, way, rows, ?_, ?_, ?_, ?_, ?_⟩ <;> rw [if_neg Bool.false_ne_true, rest]
    · exact same
    · exact other
  · refine ⟨?_, ?_, way, ?_, ?_, ?_, ?_, ?_, ?_⟩ <;> simp only [if_true, closeRows]
    · rw [rest]; exact same
    · rw [rest]; exact other
    · rw [rows]; exact filt
    all_goals rw [rest]

/-- A WRITE to a bank with no open row: its record names the bank, whose granules alone lose their content (R91). -/
theorem hostWrite_closed (x : Sub) (r : Rank) (b : BankAddr) (d : ℕ) (s : State) (close : Bool) (h : ready s = true)
    (hrow : look (bankKey x r b) s.hp.rows = none) (hg : geoValid s.map.geom = true)
    (hc : coordOk s.map.geom (subNum x) r.val b.bg.val b.ba.val 0 = true) (lo : Nat)
    (elo : lo = bankIndex s.map.geom (subNum x) r.val b.bg.val b.ba.val * geoPerBank s.map.geom) :
    let t := hostWrite s x r b d close
    (laneUp s 0 = true → snoopsOnTheWay t = snoopsOnTheWay s ++ [.whole (bankKey x r b)]) ∧
    (∀ g, ¬(lo ≤ g ∧ g < lo + geoPerBank s.map.geom) → t.nand.dram.get g = s.nand.dram.get g) ∧
    t.aon = { s.aon with cont := false } ∧ t.map = s.map ∧ t.nand.rims = s.nand.rims ∧ t.cfl = s.cfl := by
  have fw : forwardWrite s (bankKey x r b) d = logEv (snoopPut { s with
      aon := { s.aon with cont := false }
      nand := { s.nand with dram := s.nand.dram.setRange lo (lo + geoPerBank s.map.geom) (.unknown (s.free + 1)) }
      free := s.free + 1 } (.whole (bankKey x r b))) 7 .writeNoRow := by
    subst elo
    simp only [forwardWrite, hrow]
    rw [if_pos ⟨hg, hc⟩]
    rfl
  have sent := snoopPut_sent { s with
      aon := { s.aon with cont := false }
      nand := { s.nand with dram := s.nand.dram.setRange lo (lo + geoPerBank s.map.geom) (.unknown (s.free + 1)) }
      free := s.free + 1 } (.whole (bankKey x r b))
  have other : ∀ g, ¬(lo ≤ g ∧ g < lo + geoPerBank s.map.geom) →
      (s.nand.dram.setRange lo (lo + geoPerBank s.map.geom) (.unknown (s.free + 1))).get g = s.nand.dram.get g := by
    intro g hn
    rw [get_setRange, if_neg hn]
  unfold hostWrite
  simp only [onForward_ready s _ h, fw]
  cases close
  · refine ⟨sent.way, ?_, ?_, ?_, ?_, ?_⟩ <;>
      rw [if_neg Bool.false_ne_true] <;> simp only [logEv_frame] <;> rw [sent.rest]
    exact other
  · refine ⟨sent.way, ?_, ?_, ?_, ?_, ?_⟩ <;> simp only [if_true, closeRows, logEv_frame] <;> rw [sent.rest]
    exact other

/-- A sound flit's records are applied one after the other. -/
theorem applyFlit_snoops (s : State) (f : Flit) (l : List Snoop) (hp : f.poison = false) (hl : f.payload = .snoop l) :
    applyFlit s f = l.foldl applySnoop s := by
  unfold applyFlit
  rw [if_neg (by simp [hp]), hl]

/-- The state after MAP has taken the flit `f`, before the access to the dirty map's words is judged. -/
def takeFlit (s : State) (f : Flit) : State :=
  packSnoops (setLane (applyFlit s f) 0 (fun l =>
    { l with queue := l.queue.drop 1, flight := if l.queue = [] then l.flight.drop 1 else l.flight
             credits := min (laneDepth 0) (l.credits + 1) }))

/-- MAP takes the oldest flit: its records leave the way, and lane 0, HP's buffer and the dirty map alone differ (R90). -/
theorem takeFlit_keeps (s : State) (f : Flit) (rest : List Flit) (l : List Snoop)
    (hq : (laneOf s 0).queue ++ (laneOf s 0).flight = f :: rest) (hl : f.payload = .snoop l) (fold : applyFlit s f = l.foldl applySnoop s) :
    (laneUp s 0 = true → l ++ snoopsOnTheWay (takeFlit s f) = snoopsOnTheWay s) ∧ (∀ n : LaneId, n ≠ 0 → laneOf (takeFlit s f) n = laneOf s n) ∧
    (takeFlit s f).map.dirty = (l.foldl applySnoop s).map.dirty ∧ (takeFlit s f).nand = s.nand ∧ (takeFlit s f).aon = s.aon ∧
    (takeFlit s f).cfl = s.cfl := by
  have sent := packSnoops_sent (setLane (applyFlit s f) 0 (fun l =>
    { l with queue := l.queue.drop 1, flight := if l.queue = [] then l.flight.drop 1 else l.flight
             credits := min (laneDepth 0) (l.credits + 1) }))
  have left : (laneOf s 0).queue.drop 1 ++ (if (laneOf s 0).queue = [] then (laneOf s 0).flight.drop 1 else (laneOf s 0).flight) = rest := by
    cases hc : (laneOf s 0).queue with
    | nil => simpa [hc] using congrArg (List.drop 1) hq
    | cons a t => simpa [hc] using congrArg (List.drop 1) hq
  have lane : laneOf (applyFlit s f) = laneOf s := funext fun n => by simp [laneOf]
  unfold takeFlit
  refine ⟨fun up => ?_, fun n hn => ?_, ?_, ?_, ?_, ?_⟩
  · rw [sent.way (by simpa [laneUp, modeOf] using up)]
    simp only [snoopsOnTheWay, laneOf_setLane, lane, left, setLane_hp, applyFlit_frame, List.append_nil]
    rw [hq, List.flatMap_cons, hl]
    simp [List.append_assoc]
  · rw [sent.lanes n hn, laneOf_setLane_other _ 0 n _ hn, lane]
  · rw [sent.rest]; simp [fold]
  · rw [sent.rest]; simp
  · rw [sent.rest]; simp
  · rw [sent.rest]; simp

/-- MAP's access to an uncorrectable word of the dirty map adds bits of that word and takes none away (R107). -/
theorem damageWord_keeps (s : State) (w g : Nat) (h : rsMem s.map.dirty g = true) : rsMem (damageWord s w).map.dirty g = true := by
  simp only [damageWord, logEv_frame, rsMem_rsUnion, h, Bool.true_or]

end Sys2Proof.Machine

open Sys2Proof Sys2Proof.Machine

/-- Settles O27: each row command closes the rows it names, and the commands without an HP action are the identity. -/
theorem hostRowsAndRefresh : Obligations.HostRowsAndRefresh := by
  unfold Obligations.HostRowsAndRefresh
  refine ⟨fun x r b row s h => ?_, fun x r b row s h => ?_, fun x r b s h c hc => ?_, fun x r ba s h => ?_, fun x r s h => ?_,
    fun x r s h => ⟨_, rfl, ?_⟩, fun x r b ba m s c hc => ?_⟩
  · show Host.Outcome.next (onForward s _) = _
    rw [onForward_ready s _ h]; rfl
  · show Host.Outcome.next (onForward s _) = _
    rw [onForward, if_neg (by simp [h])]
  · simp only [List.mem_cons, List.not_mem_nil, or_false] at hc
    obtain rfl | rfl := hc <;>
    · show Host.Outcome.next (onForward s _) = _
      rw [onForward_ready s _ h]
      have same : s.hp.rows.filter (fun p => !decide (p.1 = bankKey x r b)) = s.hp.rows.filter (fun p => decide (p.1 ≠ bankKey x r b)) :=
        List.filter_congr fun p _ => by simp
      exact congrArg (fun l => Host.Outcome.next { s with hp := { s.hp with rows := l } }) same
  · show Host.Outcome.next (onForward s _) = _
    rw [onForward_ready s _ h]; rfl
  · show Host.Outcome.next (onForward s _) = _
    rw [onForward_ready s _ h]; rfl
  · rw [onForward_ready s _ h]
    have sent := snoopPut_sent s (.selfRefresh x r false)
    refine ⟨?_, fun up => ?_, sent.lanes, ?_⟩
    · rw [sent.rest]
    · exact sent.way up
    · rw [sent.rest]
  · simp only [List.mem_cons, List.not_mem_nil, or_false] at hc
    obtain rfl | rfl | rfl | rfl | rfl | rfl | rfl | rfl | rfl | rfl := hc <;> rfl

/-- Settles O28: the WRITE stores through the contents' law and sends its record through HP's buffer; MAP's fold marks what the records
name. -/
theorem hostWritesMarkTheirGranule : Obligations.HostWritesMarkTheirGranule := by
  unfold Obligations.HostWritesMarkTheirGranule
  refine ⟨?_, ?_, ?_, ?_⟩
  · intro x r b row d s h hrow hg hc c hcm
    simp only [List.mem_cons, List.not_mem_nil, or_false] at hcm
    obtain rfl | rfl | rfl | rfl := hcm
    · exact ⟨_, rfl, hostWrite_open x r b row d s false h hrow hg hc _ rfl⟩
    · exact ⟨_, rfl, hostWrite_open x r b row d s true h hrow hg hc _ rfl⟩
    · exact ⟨_, rfl, hostWrite_open x r b row d s false h hrow hg hc _ rfl⟩
    · exact ⟨_, rfl, hostWrite_open x r b row d s true h hrow hg hc _ rfl⟩
  · intro x r b d s h hrow hg hc c hcm
    simp only [List.mem_cons, List.not_mem_nil, or_false] at hcm
    obtain rfl | rfl | rfl | rfl := hcm
    · exact ⟨_, rfl, hostWrite_closed x r b d s false h hrow hg hc _ rfl⟩
    · exact ⟨_, rfl, hostWrite_closed x r b d s true h hrow hg hc _ rfl⟩
    · exact ⟨_, rfl, hostWrite_closed x r b d s false h hrow hg hc _ rfl⟩
    · exact ⟨_, rfl, hostWrite_closed x r b d s true h hrow hg hc _ rfl⟩
  · intro x r b row d s h hrow hbad
    have out : ¬(geoValid s.map.geom = true ∧ coordOk s.map.geom (subNum x) r.val b.bg.val b.ba.val row.toNat = true) := by
      rintro ⟨h1, h2⟩
      obtain h3 | h3 := hbad
      · exact Bool.false_ne_true (h3.symm.trans h1)
      · exact Bool.false_ne_true (h3.symm.trans h2)
    have fw : forwardWrite s (bankKey x r b) d = { s with aon := { s.aon with cont := false } } := by
      unfold forwardWrite
      simp only [bankKey, hrow]
      exact if_neg out
    show Host.Outcome.next (hostWrite s x r b d false) = _
    unfold hostWrite
    simp only [onForward_ready s _ h, fw]
    rfl
  · intro f rest l s hr hq hp hl
    refine ⟨_, rfl, ?_⟩
    have fold := applyFlit_snoops s f l hp hl
    obtain ⟨flow, lanes, dirty, nand, aon, cfl⟩ := takeFlit_keeps s f rest l hq hl fold
    rw [if_pos hr]
    simp only [hq]
    have marks : ∀ x ∈ l, ∀ g, snoopNames s.map.geom x g → rsMem (takeFlit s f).map.dirty g = true := fun x hx g hg => by
      rw [dirty]; exact foldl_applySnoop_marks l s x hx g hg
    have keeps : ∀ g, rsMem s.map.dirty g = true → rsMem (takeFlit s f).map.dirty g = true := fun g hg => by
      rw [dirty]; exact foldl_applySnoop_keeps l s g hg
    split
    · next w _ =>
      have grow : ∀ g, rsMem (takeFlit s f).map.dirty g = true → rsMem (damageWord { takeFlit s f with free := (takeFlit s f).free + 1 } w).map.dirty g = true :=
        fun g hg => damageWord_keeps _ w g hg
      exact ⟨fun g hg => grow g (marks _ hg g rfl), fun k g hk lo hi => grow g (marks _ hk g ⟨lo, hi⟩), fun g hg => grow g (keeps g hg),
        flow, lanes, nand, aon, cfl⟩
    · exact ⟨fun g hg => marks _ hg g rfl, fun k g hk lo hi => marks _ hk g ⟨lo, hi⟩, keeps, flow, lanes, nand, aon, cfl⟩

end

section
/-! SUPPORT. The entries to the hold states: what each leaves as it was, and what it makes (R25-R46, R98, R109, R303). -/

namespace Sys2Proof.Machine

/-- A change of the domains' modes leaves AON's record of the hold state (R52). -/
@[simp] theorem applyModes_aonFields (s : State) (f : State → Dom → DMode) :
    (applyModes s f).aon.cause = s.aon.cause ∧ (applyModes s f).aon.cont = s.aon.cont ∧ (applyModes s f).aon.faults = s.aon.faults ∧
    (applyModes s f).aon.boot = s.aon.boot ∧ (applyModes s f).aon.stale = s.aon.stale ∧ (applyModes s f).aon.superseded =
    s.aon.superseded ∧ (applyModes s f).aon.imgKnown = s.aon.imgKnown ∧ (applyModes s f).aon.failedSave = s.aon.failedSave ∧
    (applyModes s f).aon.boots = s.aon.boots ∧ (applyModes s f).aon.rst = s.aon.rst ∧ (applyModes s f).aon.parkAlarm = s.aon.parkAlarm
    ∧ (applyModes s f).aon.nandDiverged = s.aon.nandDiverged ∧ (applyModes s f).aon.hpOk = s.aon.hpOk ∧ (applyModes s f).aon.trigAt =
    s.aon.trigAt ∧ (applyModes s f).aon.us = s.aon.us := by
  obtain ⟨r, h⟩ := applyModes_aon s f
  simp only [h, and_self]

/-- No change of a domain's mode starts or stops the firmware. -/
@[simp] theorem setMode_running (s : State) (d : Dom) (m : DMode) : (setMode s d m).mg.running = s.mg.running := by
  unfold setMode
  simp

@[simp] theorem foldl_running {α : Type} (f : State → α → State) (h : ∀ s x, (f s x).mg.running = s.mg.running) (l : List α) (s : State) :
    (l.foldl f s).mg.running = s.mg.running := by
  induction l generalizing s with
  | nil => rfl
  | cons x t ih => rw [List.foldl_cons, ih, h]

@[simp] theorem applyModes_running (s : State) (f : State → Dom → DMode) : (applyModes s f).mg.running = s.mg.running := by
  unfold applyModes
  simp only [settlePlls_frame, wakeLanes_frame, settleLanes_frame]
  exact foldl_running _ (fun u d => by split <;> simp) _ _

/-! ## Ended sessions -/

/-- No session is open (R303). -/
def NoSession (s : State) : Prop := ∀ k, (getSes s k).isOpen = false

theorem noSession_congr {s t : State} (h : t.mg.ses = s.mg.ses) (n : NoSession s) : NoSession t := fun k => by
  unfold getSes
  rw [h]
  exact n k

theorem closeSessions_noSession (s : State) : NoSession (closeSessions s) := fun k => by simp [getSes, closeSessions, Ses.closed]

theorem Ses.notice_isOpen (q : Ses) (l : Line) : (q.notice l).isOpen = q.isOpen := by
  unfold Ses.notice
  split_ifs <;> rfl

theorem noticeTo_noSession (s : State) (p : Sess → Ses → Bool) (l : Line) (n : NoSession s) : NoSession (noticeTo s p l) := fun k => by
  have closed : s.mg.ses[k.val].isOpen = false := n k
  simp only [getSes, noticeTo, Vector.getElem_ofFn]
  split
  · rw [Ses.notice_isOpen, closed]
  · exact closed

theorem noticeIssuer_noSession (s : State) (k : Option Sess) (x : Issue) (l : Line) (n : NoSession s) :
    NoSession (noticeIssuer s k x l) := by
  unfold noticeIssuer
  split
  · next k => simp only [n k, Bool.false_and, Bool.false_eq_true, if_false]; exact noticeTo_noSession _ _ _ n
  · exact noticeTo_noSession _ _ _ n

theorem closeTunnels_noSession (s : State) (n : NoSession s) : NoSession (closeTunnels s) := fun k => by
  have closed : s.mg.ses[k.val].isOpen = false := n k
  simp only [getSes, closeTunnels, Vector.getElem_ofFn]
  split
  · rfl
  · exact closed

theorem leaveShb_noSession (s : State) (n : NoSession s) : NoSession (leaveShb s) :=
  noSession_congr (by simp [leaveShb]) (closeTunnels_noSession (dropRxQueues s) (noSession_congr (by simp) n))

/-- A conditional step that leaves the sessions alone. -/
theorem noSession_ite {c : Prop} [Decidable c] {a b : State} (h : a.mg = b.mg) (n : NoSession b) : NoSession (if c then a else b) := by
  split
  · exact noSession_congr (by rw [h]) n
  · exact n

/-- No change of a domain's mode opens a session. -/
theorem setMode_noSession (s : State) (d : Dom) (m : DMode) (n : NoSession s) : NoSession (setMode s d m) := by
  have notice : ∀ {c : Prop} [Decidable c] {u : State} {k : Option Sess} {x : Issue} {l : Line}, NoSession u →
      NoSession (if c then noticeIssuer (setRunDisable (setEnabled u d false) d true) k x l else u) := fun nu => by
    split
    · exact noticeIssuer_noSession _ _ _ _ (noSession_congr (by simp only [setRunDisable_frame, setEnabled_frame]) nu)
    · exact nu
  have leave : ∀ {c : Prop} [Decidable c] {u : State}, NoSession u → NoSession (if c then leaveShb u else u) := fun nu => by
    split
    · exact leaveShb_noSession _ nu
    · exact nu
  unfold setMode
  by_cases h : (domOf s d).mode = m
  · rw [if_pos h]; exact n
  · rw [if_neg h]
    refine notice (noSession_ite ?_ (noSession_ite rfl (noSession_ite ?_ (noSession_ite ?_
      (noSession_ite rfl (leave (noSession_congr ?_ n)))))))
    · simp only [enterShb_frame]
    · simp only [abortWork_frame]
    · simp only [darkWarp_frame]
    · simp only [logPstate_frame, setDom_frame]

theorem applyModes_noSession (s : State) (f : State → Dom → DMode) (n : NoSession s) : NoSession (applyModes s f) := by
  have fold : ∀ (l : List Dom) (u : State), NoSession u →
      NoSession (l.foldl (fun s' d => if (domOf s' d).mode = .failed then s' else setMode s' d (f s d)) u) := by
    intro l
    induction l with
    | nil => exact fun u nu => nu
    | cons d t ih =>
      intro u nu
      refine ih _ ?_
      by_cases h : (domOf u d).mode = .failed
      · simpa only [h, if_true] using nu
      · simpa only [h, if_false] using setMode_noSession u d (f s d) nu
  exact noSession_congr (by simp [applyModes]) (fold (allFin 20) s n)

/-! ## Coverage and alarms -/

/-- The hold alarm touches the bus alone (R230). -/
@[simp] theorem sendHoldAlarm_frame (s : State) (n : Nat) :
    (sendHoldAlarm s n).aon = s.aon ∧ (sendHoldAlarm s n).log = s.log ∧ (sendHoldAlarm s n).pins = s.pins ∧ (sendHoldAlarm s n).doms =
    s.doms ∧ (sendHoldAlarm s n).hp = s.hp ∧ (sendHoldAlarm s n).map = s.map ∧ (sendHoldAlarm s n).nand = s.nand ∧ (sendHoldAlarm s
    n).rst = s.rst ∧ (sendHoldAlarm s n).ten = s.ten ∧ (sendHoldAlarm s n).bat = s.bat ∧ (sendHoldAlarm s n).warp = s.warp ∧
    (sendHoldAlarm s n).mg = s.mg ∧ (sendHoldAlarm s n).cfl = s.cfl ∧ (sendHoldAlarm s n).store = s.store ∧ (sendHoldAlarm s n).free =
    s.free ∧ (sendHoldAlarm s n).pending = s.pending := by
  unfold sendHoldAlarm
  split
  · simp only [fwSend_frame, and_self]
  · simp only [and_self]

/-- A margin class is the pack's, with its notice and its alarm (R217). -/
@[simp] theorem takeMargin_frame (s : State) (m : Margin) :
    (takeMargin s m).aon = s.aon ∧ (takeMargin s m).pins = s.pins ∧ (takeMargin s m).doms = s.doms ∧ (takeMargin s m).hp = s.hp ∧
    (takeMargin s m).map = s.map ∧ (takeMargin s m).nand = s.nand ∧ (takeMargin s m).rst = s.rst ∧ (takeMargin s m).ten = s.ten ∧
    (takeMargin s m).warp = s.warp ∧ (takeMargin s m).cfl = s.cfl ∧ (takeMargin s m).store = s.store ∧ (takeMargin s m).free = s.free
    ∧ (takeMargin s m).pending = s.pending ∧ (takeMargin s m).mg.running = s.mg.running ∧ (takeMargin s m).bat.eavail = s.bat.eavail := by
  unfold takeMargin
  dsimp only
  split
  · simp only [and_self]
  · split
    · simp only [sendHoldAlarm_frame, noticeGeneral_frame, logEv_frame, and_self]
    · simp only [noticeGeneral_frame, logEv_frame, and_self]

/-- A judgment of the margin touches what a class does (R217). -/
@[simp] theorem judgeMargin_frame (s : State) :
    (judgeMargin s).aon = s.aon ∧ (judgeMargin s).pins = s.pins ∧ (judgeMargin s).doms = s.doms ∧ (judgeMargin s).hp = s.hp ∧
    (judgeMargin s).map = s.map ∧ (judgeMargin s).nand = s.nand ∧ (judgeMargin s).rst = s.rst ∧ (judgeMargin s).ten = s.ten ∧
    (judgeMargin s).warp = s.warp ∧ (judgeMargin s).cfl = s.cfl ∧ (judgeMargin s).store = s.store ∧ (judgeMargin s).free = s.free ∧
    (judgeMargin s).pending = s.pending ∧ (judgeMargin s).mg.running = s.mg.running ∧ (judgeMargin s).bat.eavail = s.bat.eavail := by
  unfold judgeMargin
  split
  · dsimp only
    split
    · simp only [takeMargin_frame, and_self]
    · split
      · simp only [takeMargin_frame, and_self]
      · simp only [and_self]
  · simp only [and_self]

/-- E_avail is the pack's (R214). -/
@[simp] theorem refreshEnergy_frame (s : State) :
    (refreshEnergy s).aon = s.aon ∧ (refreshEnergy s).log = s.log ∧ (refreshEnergy s).pins = s.pins ∧ (refreshEnergy s).doms = s.doms
    ∧ (refreshEnergy s).hp = s.hp ∧ (refreshEnergy s).map = s.map ∧ (refreshEnergy s).nand = s.nand ∧ (refreshEnergy s).rst = s.rst ∧
    (refreshEnergy s).ten = s.ten ∧ (refreshEnergy s).shb = s.shb ∧ (refreshEnergy s).warp = s.warp ∧ (refreshEnergy s).mg = s.mg ∧
    (refreshEnergy s).cfl = s.cfl ∧ (refreshEnergy s).store = s.store ∧ (refreshEnergy s).i3c = s.i3c ∧ (refreshEnergy s).free =
    s.free ∧ (refreshEnergy s).pending = s.pending := by
  unfold refreshEnergy
  split
  · simp only [and_self]
  · split <;> simp only [and_self]

/-- COVER and the PARK alarm are what a recomputation puts in MAP and AON (R121, R122). -/
theorem recomputeCover_map (s : State) (h : s.aon.hold = .serve ∨ s.aon.hold = .park) :
    (recomputeCover s).map = { s.map with cover := coverOf (refreshEnergy s) } := by
  unfold recomputeCover
  dsimp only
  rw [if_pos (by simpa only [refreshEnergy_frame] using h), (judgeMargin_frame _).2.2.2.2.1]
  simp only [takeCover, refreshEnergy_frame]

/-- A recomputation of the coverage leaves all but COVER, the PARK alarm and the margin's part (R121, R214, R217). -/
@[simp] theorem recomputeCover_frame (s : State) :
    (recomputeCover s).pins = s.pins ∧ (recomputeCover s).doms = s.doms ∧ (recomputeCover s).hp = s.hp ∧ (recomputeCover s).nand =
    s.nand ∧ (recomputeCover s).rst = s.rst ∧ (recomputeCover s).ten = s.ten ∧ (recomputeCover s).warp = s.warp ∧ (recomputeCover
    s).cfl = s.cfl ∧ (recomputeCover s).store = s.store ∧ (recomputeCover s).free = s.free ∧ (recomputeCover s).pending = s.pending ∧
    (recomputeCover s).mg.running = s.mg.running ∧ (recomputeCover s).map.save = s.map.save ∧ (recomputeCover s).map.dirty =
    s.map.dirty ∧ (recomputeCover s).map.geom = s.map.geom ∧ (recomputeCover s).map.reload = s.map.reload ∧ (recomputeCover
    s).map.descriptors = s.map.descriptors ∧ (recomputeCover s).aon.hold = s.aon.hold ∧ (recomputeCover s).aon.img = s.aon.img ∧
    (recomputeCover s).aon.cause = s.aon.cause ∧ (recomputeCover s).aon.cont = s.aon.cont ∧ (recomputeCover s).aon.faults =
    s.aon.faults ∧ (recomputeCover s).aon.stale = s.aon.stale ∧ (recomputeCover s).aon.imgKnown = s.aon.imgKnown ∧ (recomputeCover
    s).aon.superseded = s.aon.superseded ∧ (recomputeCover s).aon.nandDiverged = s.aon.nandDiverged := by
  unfold recomputeCover takeCover
  dsimp only
  split <;> simp only [judgeMargin_frame, refreshEnergy_frame, and_self]

theorem recomputeCover_aon (s : State) : (recomputeCover s).aon = { s.aon with parkAlarm := (recomputeCover s).aon.parkAlarm } := by
  unfold recomputeCover takeCover
  dsimp only
  split <;> simp only [judgeMargin_frame, refreshEnergy_frame]

/-- A recomputation of the coverage raises no PARK alarm (R122). -/
theorem recomputeCover_parkAlarm (s : State) (h : s.aon.parkAlarm = false) : (recomputeCover s).aon.parkAlarm = false := by
  unfold recomputeCover takeCover
  dsimp only
  split <;> simp only [judgeMargin_frame, refreshEnergy_frame, h, Bool.false_and]

/-! ## HELD and DARK -/

/-- What goes with the save set's power: the run, the request, the save, the firmware and BATSW_EN (R26, R47, R52). -/
@[simp] theorem powerDown_keeps (s : State) :
    (powerDown s).log = s.log ∧ (powerDown s).warp = s.warp ∧ (powerDown s).shb = s.shb ∧ (powerDown s).store = s.store ∧ (powerDown
    s).i3c = s.i3c ∧ (powerDown s).ten = s.ten ∧ (powerDown s).nand.rims = s.nand.rims ∧ (powerDown s).nand.dram = s.nand.dram ∧
    (powerDown s).nand.chosen = s.nand.chosen ∧ (powerDown s).aon.hold = s.aon.hold ∧ (powerDown s).aon.img = s.aon.img ∧ (powerDown
    s).aon.imgKnown = s.aon.imgKnown ∧ (powerDown s).aon.stale = s.aon.stale ∧ (powerDown s).aon.cont = s.aon.cont ∧ (powerDown
    s).aon.cause = s.aon.cause ∧ (powerDown s).aon.faults = s.aon.faults ∧ (powerDown s).map.dirty = s.map.dirty ∧ (powerDown
    s).map.geom = s.map.geom ∧ (powerDown s).pins.bulk = s.pins.bulk ∧ (powerDown s).rst.report = s.rst.report ∧ (powerDown
    s).map.save = none ∧ (powerDown s).rst.run = none ∧ (powerDown s).rst.req = none ∧ (powerDown s).mg.running = false ∧ (powerDown
    s).pins.batsw = false ∧ (powerDown s).nand.rimJob = none := by
  unfold powerDown
  simp only [interruptCfl_frame, closeSessions_frame, dropRimJob_frame, pinsRest, and_self]

theorem powerDown_noSession (s : State) : NoSession (powerDown s) :=
  noSession_congr (s := closeSessions (dropRimJob s)) (by unfold powerDown; simp only [interruptCfl_frame]) (closeSessions_noSession _)

/-- On pack alone WARP goes to its holdover (R265). -/
@[simp] theorem bulkOrHold_frame (s : State) :
    (if onBulk s then s else warpHold s).aon = s.aon ∧ (if onBulk s then s else warpHold s).pins = s.pins ∧ (if onBulk s then s else
    warpHold s).map = s.map ∧ (if onBulk s then s else warpHold s).nand = s.nand ∧ (if onBulk s then s else warpHold s).rst = s.rst ∧
    (if onBulk s then s else warpHold s).ten = s.ten ∧ (if onBulk s then s else warpHold s).mg = s.mg := by
  split
  · simp only [and_self]
  · simp only [warpHold_frame, and_self]

/-- On pack alone the DRAM loses its contents (R125). -/
@[simp] theorem bulkOrLost_frame (s : State) :
    (if onBulk s then s else dramLost s).pins = s.pins ∧ (if onBulk s then s else dramLost s).map = s.map ∧ (if onBulk s then s else
    dramLost s).rst = s.rst ∧ (if onBulk s then s else dramLost s).ten = s.ten ∧ (if onBulk s then s else dramLost s).mg = s.mg ∧ (if
    onBulk s then s else dramLost s).nand.rims = s.nand.rims ∧ (if onBulk s then s else dramLost s).nand.chosen = s.nand.chosen ∧ (if
    onBulk s then s else dramLost s).nand.rimJob = s.nand.rimJob ∧ (if onBulk s then s else dramLost s).aon.hold = s.aon.hold ∧ (if
    onBulk s then s else dramLost s).aon.img = s.aon.img ∧ (if onBulk s then s else dramLost s).aon.imgKnown = s.aon.imgKnown ∧ (if
    onBulk s then s else dramLost s).aon.stale = s.aon.stale ∧ (if onBulk s then s else dramLost s).aon.cause = s.aon.cause ∧ (if
    onBulk s then s else dramLost s).aon.faults = s.aon.faults := by
  split
  · simp only [and_self]
  · simp only [dramLost, and_self]

@[simp] theorem checkpointCells_imgKnown (s : State) : (checkpointCells s).aon.imgKnown = s.aon.imgKnown := by simp only [checkpointCells]

/-- HELD: the sessions, the firmware, the save and BATSW_EN have gone; the relation and the rims stay (R31, R52). -/
@[simp] theorem enterHeld_keeps (s : State) :
    (enterHeld s).nand.rims = s.nand.rims ∧ (enterHeld s).nand.chosen = s.nand.chosen ∧ (enterHeld s).ten = s.ten ∧ (enterHeld
    s).aon.img = s.aon.img ∧ (enterHeld s).aon.imgKnown = s.aon.imgKnown ∧ (enterHeld s).aon.stale = s.aon.stale ∧ (enterHeld
    s).aon.cause = s.aon.cause ∧ (enterHeld s).aon.faults = s.aon.faults ∧ (enterHeld s).map.dirty = s.map.dirty ∧ (enterHeld
    s).map.geom = s.map.geom ∧ (enterHeld s).rst.report = s.rst.report ∧ (enterHeld s).aon.hold = .held ∧ (enterHeld s).map.save =
    none ∧ (enterHeld s).rst.run = none ∧ (enterHeld s).rst.req = none ∧ (enterHeld s).mg.running = false ∧ (enterHeld s).pins.batsw =
    false ∧ (enterHeld s).nand.rimJob = none := by
  unfold enterHeld
  simp only [bulkOrHold_frame, bulkOrLost_frame, applyModes_frame, applyModes_aonFields, applyModes_running, powerDown_keeps,
    checkpointCells_frame, checkpointCells_imgKnown, stopArrays_frame, dropRestore_frame, abandonReload_frame, and_self]

/-- DARK: as HELD (R31, R52). -/
@[simp] theorem enterDark_keeps (s : State) :
    (enterDark s).nand.rims = s.nand.rims ∧ (enterDark s).nand.chosen = s.nand.chosen ∧ (enterDark s).ten = s.ten ∧ (enterDark
    s).aon.img = s.aon.img ∧ (enterDark s).aon.imgKnown = s.aon.imgKnown ∧ (enterDark s).aon.stale = s.aon.stale ∧ (enterDark
    s).aon.cause = s.aon.cause ∧ (enterDark s).aon.faults = s.aon.faults ∧ (enterDark s).map.dirty = s.map.dirty ∧ (enterDark
    s).map.geom = s.map.geom ∧ (enterDark s).rst.report = s.rst.report ∧ (enterDark s).aon.hold = .dark ∧ (enterDark s).map.save =
    none ∧ (enterDark s).rst.run = none ∧ (enterDark s).rst.req = none ∧ (enterDark s).mg.running = false ∧ (enterDark s).pins.batsw =
    false ∧ (enterDark s).nand.rimJob = none := by
  unfold enterDark
  simp only [warpHold_frame, bulkOrLost_frame, applyModes_frame, applyModes_aonFields, applyModes_running, powerDown_keeps,
    checkpointCells_frame, checkpointCells_imgKnown, stopArrays_frame, dropRestore_frame, abandonReload_frame, and_self]

theorem bulkOrHold_noSession (s : State) (n : NoSession s) : NoSession (if onBulk s then s else warpHold s) :=
  noSession_congr (by simp only [bulkOrHold_frame]) n

theorem bulkOrLost_noSession (s : State) (n : NoSession s) : NoSession (if onBulk s then s else dramLost s) :=
  noSession_congr (by simp only [bulkOrLost_frame]) n

theorem noSession_qualifying (s : State) (q : Bool) (n : NoSession s) : NoSession { s with aon := { s.aon with qualifying := q } } := n

theorem warpHold_noSession (s : State) (n : NoSession s) : NoSession (warpHold s) := noSession_congr (by simp only [warpHold_frame]) n

theorem enterHeld_noSession (s : State) : NoSession (enterHeld s) := by
  unfold enterHeld
  dsimp only
  refine bulkOrLost_noSession _ (noSession_qualifying _ _ (bulkOrHold_noSession _ ?_))
  exact applyModes_noSession _ _ (powerDown_noSession _)

theorem enterDark_noSession (s : State) : NoSession (enterDark s) := by
  unfold enterDark
  dsimp only
  refine bulkOrLost_noSession _ (noSession_qualifying _ _ (warpHold_noSession _ ?_))
  exact applyModes_noSession _ _ (powerDown_noSession _)

theorem enterHeldOrDark_noSession (s : State) (held : Bool) : NoSession (enterHeldOrDark s held) := by
  unfold enterHeldOrDark
  split
  · exact enterHeld_noSession s
  · exact enterDark_noSession s

/-- HELD where an image is pending, DARK otherwise (T5, T20). -/
@[simp] theorem enterHeldOrDark_keeps (s : State) (held : Bool) :
    (enterHeldOrDark s held).nand.rims = s.nand.rims ∧ (enterHeldOrDark s held).nand.chosen = s.nand.chosen ∧ (enterHeldOrDark s
    held).ten = s.ten ∧ (enterHeldOrDark s held).aon.img = s.aon.img ∧ (enterHeldOrDark s held).aon.imgKnown = s.aon.imgKnown ∧
    (enterHeldOrDark s held).aon.stale = s.aon.stale ∧ (enterHeldOrDark s held).aon.cause = s.aon.cause ∧ (enterHeldOrDark s
    held).aon.faults = s.aon.faults ∧ (enterHeldOrDark s held).map.dirty = s.map.dirty ∧ (enterHeldOrDark s held).map.geom =
    s.map.geom ∧ (enterHeldOrDark s held).rst.report = s.rst.report ∧ (enterHeldOrDark s held).map.save = none ∧ (enterHeldOrDark s
    held).rst.run = none ∧ (enterHeldOrDark s held).rst.req = none ∧ (enterHeldOrDark s held).mg.running = false ∧ (enterHeldOrDark s
    held).pins.batsw = false ∧ (enterHeldOrDark s held).nand.rimJob = none ∧ (enterHeldOrDark s held).aon.hold = if held = true then
    .held else .dark := by
  unfold enterHeldOrDark
  split <;> simp only [enterHeld_keeps, enterDark_keeps, and_self]

/-! ## FAULT -/

/-- FAULT's mark ends the save and the restore and names the causes (R45). -/
@[simp] theorem faultMark_keeps (s : State) (l : List FaultCause) :
    (faultMark s l).log = s.log ∧ (faultMark s l).pins = s.pins ∧ (faultMark s l).doms = s.doms ∧ (faultMark s l).ten = s.ten ∧
    (faultMark s l).shb = s.shb ∧ (faultMark s l).warp = s.warp ∧ (faultMark s l).mg = s.mg ∧ (faultMark s l).cfl = s.cfl ∧ (faultMark
    s l).store = s.store ∧ (faultMark s l).free = s.free ∧ (faultMark s l).nand.rims = s.nand.rims ∧ (faultMark s l).nand.dram =
    s.nand.dram ∧ (faultMark s l).nand.chosen = s.nand.chosen ∧ (faultMark s l).nand.prov = s.nand.prov ∧ (faultMark s l).map.dirty =
    s.map.dirty ∧ (faultMark s l).map.geom = s.map.geom ∧ (faultMark s l).rst.req = s.rst.req ∧ (faultMark s l).rst.report =
    s.rst.report ∧ (faultMark s l).aon.img = s.aon.img ∧ (faultMark s l).aon.imgKnown = s.aon.imgKnown ∧ (faultMark s l).aon.cause =
    s.aon.cause ∧ (faultMark s l).aon.cont = s.aon.cont ∧ (faultMark s l).aon.stale = s.aon.stale ∧ (faultMark s l).aon.superseded =
    s.aon.superseded ∧ (faultMark s l).aon.failedSave = s.aon.failedSave ∧ (faultMark s l).aon.boots = s.aon.boots ∧ (faultMark s
    l).aon.rst = s.aon.rst ∧ (faultMark s l).aon.nandDiverged = s.aon.nandDiverged ∧ (faultMark s l).aon.hpOk = s.aon.hpOk ∧
    (faultMark s l).aon.boot = s.aon.boot ∧ (faultMark s l).aon.opt = s.aon.opt ∧ (faultMark s l).aon.por = s.aon.por ∧ (faultMark s
    l).aon.hold = .fault ∧ (faultMark s l).aon.faults = l ∧ (faultMark s l).map.save = none ∧ (faultMark s l).rst.run = none := by
  unfold faultMark
  dsimp only
  split <;> simp only [dropRimJob_frame, and_self]

/-- The state in FAULT, before a droop that stands is judged (R393). -/
def faultEntry (s : State) (causes : List FaultCause) (tno : Nat) : State :=
  let s := dropRestore (if isOn s 8 then s else abandonReload s)
  let s := faultMark (stopArrays s) causes
  faultPins (applyModes (causes.foldl (fun s c => logEv s 0 .faultEntry c.code tno) s) modesFault)

@[simp] theorem onOrAbandon_frame (s : State) :
    (if isOn s 8 then s else abandonReload s).aon = s.aon ∧ (if isOn s 8 then s else abandonReload s).nand = s.nand ∧
    (if isOn s 8 then s else abandonReload s).cfl = s.cfl ∧ (if isOn s 8 then s else abandonReload s).pins = s.pins ∧
    (if isOn s 8 then s else abandonReload s).ten = s.ten ∧ (if isOn s 8 then s else abandonReload s).rst = s.rst ∧
    (if isOn s 8 then s else abandonReload s).store = s.store ∧ (if isOn s 8 then s else abandonReload s).map.dirty = s.map.dirty ∧
    (if isOn s 8 then s else abandonReload s).map.geom = s.map.geom ∧
    (if isOn s 8 then s else abandonReload s).mg.running = s.mg.running := by
  split
  · simp only [and_self]
  · simp only [abandonReload_frame, and_self]

/-- FAULT's pins leave the supplies' levels. -/
theorem faultPins_bulk (s : State) : (faultPins s).pins.bulk = s.pins.bulk := by
  unfold faultPins
  split <;> rfl

/-- An entry to FAULT with no droop standing is that state. -/
theorem enterFault_calm (s : State) (causes : List FaultCause) (tno : Nat) (h : s.pins.bulk ≠ .droop) :
    enterFault s causes tno = faultEntry s causes tno := by
  have pins : (faultEntry s causes tno).pins.bulk = s.pins.bulk := by
    simp only [faultEntry, faultPins_bulk, applyModes_frame, foldl_pins, logEv_frame, implies_true, faultMark_keeps, stopArrays_frame,
      dropRestore_frame, onOrAbandon_frame]
  exact if_neg (fun e => h (pins.symm.trans e))

/-- FAULT's entry keeps the relation, the rims and the DRAM, and ends the save and the restore (R31, R45). -/
@[simp] theorem faultEntry_keeps (s : State) (l : List FaultCause) (n : Nat) :
    (faultEntry s l n).ten = s.ten ∧ (faultEntry s l n).cfl = s.cfl ∧ (faultEntry s l n).store = s.store ∧ (faultEntry s l
    n).nand.rims = s.nand.rims ∧ (faultEntry s l n).nand.dram = s.nand.dram ∧ (faultEntry s l n).nand.chosen = s.nand.chosen ∧
    (faultEntry s l n).nand.prov = s.nand.prov ∧ (faultEntry s l n).map.dirty = s.map.dirty ∧ (faultEntry s l n).map.geom = s.map.geom
    ∧ (faultEntry s l n).mg.running = s.mg.running ∧ (faultEntry s l n).rst.report = s.rst.report ∧ (faultEntry s l n).aon.img =
    s.aon.img ∧ (faultEntry s l n).aon.imgKnown = s.aon.imgKnown ∧ (faultEntry s l n).aon.cause = s.aon.cause ∧ (faultEntry s l
    n).aon.cont = s.aon.cont ∧ (faultEntry s l n).aon.stale = s.aon.stale ∧ (faultEntry s l n).aon.superseded = s.aon.superseded ∧
    (faultEntry s l n).aon.failedSave = s.aon.failedSave ∧ (faultEntry s l n).aon.boots = s.aon.boots ∧ (faultEntry s l n).aon.rst =
    s.aon.rst ∧ (faultEntry s l n).aon.nandDiverged = s.aon.nandDiverged ∧ (faultEntry s l n).aon.hpOk = s.aon.hpOk ∧ (faultEntry s l
    n).aon.boot = s.aon.boot ∧ (faultEntry s l n).aon.opt = s.aon.opt ∧ (faultEntry s l n).aon.por = s.aon.por ∧ (faultEntry s l
    n).aon.hold = .fault ∧ (faultEntry s l n).aon.faults = l ∧ (faultEntry s l n).map.save = none ∧ (faultEntry s l n).rst.run = none
    ∧ (faultEntry s l n).rst.req = none := by
  simp only [faultEntry, faultPins, applyModes_frame, applyModes_aonFields, applyModes_running, foldl_aon, foldl_nand, foldl_map, foldl_rst, foldl_cfl,
    foldl_ten, foldl_store, foldl_mg, logEv_frame, implies_true, faultMark_keeps, stopArrays_frame, dropRestore_frame, onOrAbandon_frame, and_self]

/-! ## SERVE -/

@[simp] theorem dropImage_nandKeeps (s : State) :
    (dropImage s).nand.rims = s.nand.rims ∧ (dropImage s).nand.dram = s.nand.dram ∧ (dropImage s).nand.prov = s.nand.prov ∧
    (dropImage s).nand.chosen = s.nand.chosen ∧ (dropImage s).aon = { s.aon with img := .none } ∧ (dropImage s).map.dirty = allGranules s := by
  unfold dropImage
  simp only [endWaiting_frame, setAllDirty_frame, true_and]
  rfl

/-- A reset of the host takes the image's relation from TRACK to NONE and keeps the record and the code flash (R84). -/
@[simp] theorem hostReset_keeps (s : State) :
    (hostReset s).pins = s.pins ∧ (hostReset s).bat = s.bat ∧ (hostReset s).ten = s.ten ∧ (hostReset s).cfl = s.cfl ∧ (hostReset
    s).store = s.store ∧ (hostReset s).mg = s.mg ∧ (hostReset s).rst = s.rst ∧ (hostReset s).map.geom = s.map.geom ∧ (hostReset
    s).nand.rims = s.nand.rims ∧ (hostReset s).nand.chosen = s.nand.chosen ∧ (hostReset s).aon.hold = s.aon.hold ∧ (hostReset
    s).aon.cause = s.aon.cause ∧ (hostReset s).aon.stale = s.aon.stale ∧ (hostReset s).aon.faults = s.aon.faults ∧ (hostReset
    s).aon.imgKnown = s.aon.imgKnown ∧ (hostReset s).aon.boot = s.aon.boot ∧ (hostReset s).aon.opt = s.aon.opt ∧ (hostReset s).aon.por
    = s.aon.por ∧ (hostReset s).aon.img = if s.aon.img = .track then .none else s.aon.img := by
  unfold hostReset
  dsimp only
  split <;> simp only [dropImage_frame, dropImage_nandKeeps, and_self]

/-- The state in SERVE, before what a lost path makes of it is judged (R44). -/
def serveEntry (s : State) : State :=
  let was := ready s
  let s := { s with aon := { s.aon with hold := .serve, parkAlarm := false, qualifying := false }
                    pins := { pinsHost s.pins with batsw := false }
                    hp := { s.hp with phase := .idle } }
  let s := if !was && !s.pins.drstHigh then hostReset s else s
  recomputeCover (applyModes s modesServe)

/-- An entry to SERVE is that state, or FAULT with the cause of the lost path (R44, R69). -/
theorem enterServe_eq (s : State) : enterServe s = match armLoss (serveEntry s) with
    | some c => unarm (serveEntry s) c
    | none => serveEntry s := by
  unfold enterServe serveEntry
  rfl

/-- The causes that an entry to SERVE can find (R44, R69). -/
theorem armLoss_cause (s : State) (c : FaultCause) (h : armLoss s = some c) : c ∈ [FaultCause.rimArea, .stripe, .laneHalt, .coreDomain] := by
  unfold armLoss at h
  split_ifs at h <;> cases h <;> simp only [List.mem_cons, true_or, or_true]

/-- A reset input that stands low resets the host side at the entry (R84). -/
@[simp] theorem resetIfLow_keeps (s : State) (b : Bool) :
    (if b = true then hostReset s else s).pins = s.pins ∧ (if b = true then hostReset s else s).bat = s.bat ∧ (if b = true then
    hostReset s else s).ten = s.ten ∧ (if b = true then hostReset s else s).cfl = s.cfl ∧ (if b = true then hostReset s else s).store
    = s.store ∧ (if b = true then hostReset s else s).mg = s.mg ∧ (if b = true then hostReset s else s).rst = s.rst ∧ (if b = true
    then hostReset s else s).map.geom = s.map.geom ∧ (if b = true then hostReset s else s).nand.rims = s.nand.rims ∧ (if b = true then
    hostReset s else s).nand.chosen = s.nand.chosen ∧ (if b = true then hostReset s else s).aon.hold = s.aon.hold ∧ (if b = true then
    hostReset s else s).aon.cause = s.aon.cause ∧ (if b = true then hostReset s else s).aon.stale = s.aon.stale ∧ (if b = true then
    hostReset s else s).aon.faults = s.aon.faults ∧ (if b = true then hostReset s else s).aon.imgKnown = s.aon.imgKnown ∧ (if b = true
    then hostReset s else s).aon.boot = s.aon.boot ∧ (if b = true then hostReset s else s).aon.opt = s.aon.opt ∧ (if b = true then
    hostReset s else s).aon.por = s.aon.por ∧ (if b = true then hostReset s else s).aon.img = (if b = true ∧ s.aon.img = .track then
    .none else s.aon.img) := by
  cases b
  · simp only [Bool.false_eq_true, if_false, false_and, and_self]
  · simp only [if_true, hostReset_keeps, true_and]

/-- SERVE's entry keeps the records, the code flash and the cause; a reset input that stands low takes TRACK to NONE (R31, R84). -/
@[simp] theorem serveEntry_keeps (s : State) :
    (serveEntry s).ten = s.ten ∧ (serveEntry s).cfl = s.cfl ∧ (serveEntry s).store = s.store ∧ (serveEntry s).rst = s.rst ∧
    (serveEntry s).nand.rims = s.nand.rims ∧ (serveEntry s).nand.chosen = s.nand.chosen ∧ (serveEntry s).mg.running = s.mg.running ∧
    (serveEntry s).map.geom = s.map.geom ∧ (serveEntry s).aon.cause = s.aon.cause ∧ (serveEntry s).aon.stale = s.aon.stale ∧
    (serveEntry s).aon.imgKnown = s.aon.imgKnown ∧ (serveEntry s).aon.hold = .serve ∧ (serveEntry s).pins.bulk = s.pins.bulk ∧
    (serveEntry s).aon.img = (if (!ready s && !s.pins.drstHigh) = true ∧ s.aon.img = .track then .none else s.aon.img) := by
  unfold serveEntry
  simp only [recomputeCover_frame, applyModes_frame, applyModes_aonFields, applyModes_running, resetIfLow_keeps, true_and]
  simp only [pinsHost, pinsRelease, true_and]
  rfl

/-- With READY = 1 before, or the reset input high, an entry to SERVE leaves the DRAM's contents. -/
theorem serveEntry_dram (s : State) (h : (!ready s && !s.pins.drstHigh) = false) : (serveEntry s).nand.dram = s.nand.dram := by
  have keep : ∀ (u : State) (b : Bool), b = false → (if b = true then hostReset u else u).nand.dram = u.nand.dram := fun u b hb => by
    rw [hb, if_neg Bool.false_ne_true]
  unfold serveEntry
  simp only [recomputeCover_frame, applyModes_frame]
  exact keep _ _ h

theorem serveEntry_parkAlarm (s : State) : (serveEntry s).aon.parkAlarm = false := by
  have keep : ∀ (u : State) (b : Bool), u.aon.parkAlarm = false → (if b = true then hostReset u else u).aon.parkAlarm = false := fun u b h => by
    cases b
    · exact h
    · rw [if_pos rfl]
      unfold hostReset
      dsimp only
      split <;> simp only [dropImage_nandKeeps, h]
  unfold serveEntry
  refine recomputeCover_parkAlarm _ ?_
  simp only [applyModes_aonFields]
  exact keep _ _ rfl

/-- Where an entry to SERVE ends with no droop standing: SERVE, or FAULT with the cause of the lost path (R44). -/
theorem enterServe_calm (s : State) (h : s.pins.bulk ≠ .droop) :
    enterServe s = serveEntry s ∨ ∃ c ∈ [FaultCause.rimArea, .stripe, .laneHalt, .coreDomain], enterServe s = faultEntry (serveEntry s) [c] 19 := by
  rw [enterServe_eq]
  split
  · next c hc =>
    refine .inr ⟨c, armLoss_cause _ _ hc, ?_⟩
    rw [unarm, if_pos (by simp only [serveEntry_keeps]), enterFault_calm _ _ _ (by simpa only [serveEntry_keeps] using h)]
  · exact .inl rfl

/-! ## SAVE -/

theorem topSeq_congr {s t : State} (h : t.nand.rims = s.nand.rims) : topSeq t = topSeq s := by
  unfold topSeq
  rw [h]

/-- A new save notes itself in MAP and clears the dies' failures of the last one (R109). -/
@[simp] theorem newSave_keeps (s : State) (planned : Bool) :
    (newSave s planned).aon = s.aon ∧ (newSave s planned).log = s.log ∧ (newSave s planned).pins = s.pins ∧ (newSave s planned).hp =
    s.hp ∧ (newSave s planned).rst = s.rst ∧ (newSave s planned).ten = s.ten ∧ (newSave s planned).bat = s.bat ∧ (newSave s
    planned).shb = s.shb ∧ (newSave s planned).warp = s.warp ∧ (newSave s planned).mg = s.mg ∧ (newSave s planned).cfl = s.cfl ∧
    (newSave s planned).store = s.store ∧ (newSave s planned).i3c = s.i3c ∧ (newSave s planned).free = s.free ∧ (newSave s
    planned).pending = s.pending ∧ (newSave s planned).map.dirty = s.map.dirty ∧ (newSave s planned).map.geom = s.map.geom ∧ (newSave
    s planned).nand.rims = s.nand.rims ∧ (newSave s planned).nand.dram = s.nand.dram ∧ (newSave s planned).nand.prov = s.nand.prov ∧
    (newSave s planned).nand.chosen = s.nand.chosen ∧ (newSave s planned).nand.settle = s.nand.settle := by
  unfold newSave
  dsimp only
  split <;> simp only [endWaiting_frame, and_self]

/-- `v` is the save that `s` starts: empty, and full exactly when no image relation stands (R109, R111). -/
structure FreshSave (s : State) (planned : Bool) (v : Save) : Prop where
  planned : v.planned = planned
  full : v.full = decide (s.aon.img = .none)
  phase : v.phase = .takeover
  seq : v.seq = topSeq s + 1
  open_ : v.open_ = []
  done : v.done = []

theorem newSave_save (s : State) (planned : Bool) : ∃ v, (newSave s planned).map.save = some v ∧ FreshSave s planned v := by
  have top : ∀ u : State, u.nand.rims = s.nand.rims → topSeq u + 1 = topSeq s + 1 := fun u h => by rw [topSeq_congr h]
  unfold newSave
  dsimp only
  split
  · exact ⟨_, rfl, rfl, rfl, rfl, top _ rfl, rfl, rfl⟩
  · exact ⟨_, rfl, rfl, rfl, rfl, top _ rfl, rfl, rfl⟩

/-- The pack takes over: BATSW_EN and the battery alone (R109). -/
@[simp] theorem assertBatsw_keeps (s : State) :
    (assertBatsw s).log = s.log ∧ (assertBatsw s).doms = s.doms ∧ (assertBatsw s).hp = s.hp ∧ (assertBatsw s).map = s.map ∧
    (assertBatsw s).nand = s.nand ∧ (assertBatsw s).rst = s.rst ∧ (assertBatsw s).ten = s.ten ∧ (assertBatsw s).shb = s.shb ∧
    (assertBatsw s).warp = s.warp ∧ (assertBatsw s).mg = s.mg ∧ (assertBatsw s).cfl = s.cfl ∧ (assertBatsw s).store = s.store ∧
    (assertBatsw s).i3c = s.i3c ∧ (assertBatsw s).pending = s.pending ∧ (assertBatsw s).pins = { s.pins with batsw := true } ∧
    (assertBatsw s).aon = { s.aon with hwFloor := false } := by
  unfold assertBatsw
  simp only [and_self]

/-- A save's start: the burst drain or Switch, ALERT_L low and BATSW_EN high, continuity set; the records, the code flash and the relation stay (R24, R98, R109). -/
@[simp] theorem startSave_keeps (s : State) (planned : Bool) (c : Cause) :
    (startSave s planned c).ten = s.ten ∧ (startSave s planned c).cfl = s.cfl ∧ (startSave s planned c).store = s.store ∧ (startSave s
    planned c).rst.run = s.rst.run ∧ (startSave s planned c).nand.rims = s.nand.rims ∧ (startSave s planned c).nand.dram = s.nand.dram
    ∧ (startSave s planned c).nand.prov = s.nand.prov ∧ (startSave s planned c).nand.chosen = s.nand.chosen ∧ (startSave s planned
    c).aon.img = s.aon.img ∧ (startSave s planned c).aon.imgKnown = s.aon.imgKnown ∧ (startSave s planned c).aon.stale = s.aon.stale ∧
    (startSave s planned c).aon.superseded = s.aon.superseded ∧ (startSave s planned c).aon.trigAt = s.aon.trigAt ∧ (startSave s
    planned c).aon.hold = .save ∧ (startSave s planned c).aon.cause = c ∧ (startSave s planned c).aon.cont = true ∧ (startSave s
    planned c).hp.phase = (if planned = true then .switch_ else .burstDrain) ∧ (startSave s planned c).pins.alertHeld = !planned ∧
    (startSave s planned c).pins.batsw = true ∧ (startSave s planned c).pins.bulk = s.pins.bulk ∧ (startSave s planned c).rst.req =
    none ∧ (startSave s planned c).nand.settle.running = false := by
  simp only [startSave, applyModes_frame, applyModes_aonFields, assertBatsw_keeps, newSave_keeps, flushSnoops_frame, dropRimJob_frame,
    stopArrays_frame, dropRestore_frame, abandonReload_frame, pinsPort, and_self]

theorem startSave_save (s : State) (planned : Bool) (c : Cause) :
    ∃ v, (startSave s planned c).map.save = some v ∧ FreshSave s planned v := by
  have top : topSeq (flushSnoops (dropRimJob (stopArrays (dropRestore (abandonReload s))))) = topSeq s := topSeq_congr (by
    simp only [flushSnoops_frame, dropRimJob_frame, stopArrays_frame, dropRestore_frame, abandonReload_frame])
  obtain ⟨v, hv, fresh⟩ := newSave_save (flushSnoops (dropRimJob (stopArrays (dropRestore (abandonReload s))))) planned
  refine ⟨v, ?_, { fresh with full := ?_, seq := fresh.seq.trans (by rw [top]) }⟩
  · simp only [startSave, applyModes_frame, assertBatsw_keeps, hv]
  · simpa only [flushSnoops_frame, dropRimJob_frame, stopArrays_frame, dropRestore_frame, abandonReload_frame] using fresh.full

end Sys2Proof.Machine
end

section
/-! SUPPORT. Self-refresh entry (R100) and the triggers (R27, R31, R42). -/

namespace Sys2Proof.Machine

/-! ## Self-refresh -/

theorem allSelfRef_congr {s t : State} (hg : t.map.geom = s.map.geom) (hm : ∀ p, p ∈ t.hp.selfRef ↔ p ∈ s.hp.selfRef) :
    allSelfRef t = allSelfRef s := by
  simp only [allSelfRef, hg, hm]

/-- SRE notes its rank and tells MAP: HP and lane 0 alone differ (R51, R100). -/
theorem enterSelfRef_keeps (s : State) (x : Sub) (r : Rank) :
    enterSelfRef s x r = { s with hp := (enterSelfRef s x r).hp, doms := (enterSelfRef s x r).doms } ∧
    (∀ n : LaneId, n ≠ 0 → laneOf (enterSelfRef s x r) n = laneOf s n) ∧
    (enterSelfRef s x r).hp = { s.hp with
      selfRef := if (x, r) ∈ s.hp.selfRef then s.hp.selfRef else s.hp.selfRef ++ [(x, r)], snoop := (enterSelfRef s x r).hp.snoop } := by
  have sent := snoopPut_sent s (.selfRefresh x r true)
  have ranks : (snoopPut s (.selfRefresh x r true)).hp.selfRef = s.hp.selfRef := by rw [sent.rest]
  unfold enterSelfRef
  dsimp only
  by_cases h : (x, r) ∈ s.hp.selfRef
  · rw [if_pos (by rw [ranks]; exact h), if_pos h]
    exact ⟨by rw [sent.rest], sent.lanes, by rw [sent.rest]⟩
  · rw [if_neg (by rw [ranks]; exact h), if_neg h]
    exact ⟨by rw [sent.rest], sent.lanes, by rw [sent.rest]⟩

/-- After SRE every rank is in self-refresh exactly when the noted ranks and this one are all. -/
theorem allSelfRef_enterSelfRef (s : State) (x : Sub) (r : Rank) :
    allSelfRef (enterSelfRef s x r) = allSelfRef { s with hp := { s.hp with selfRef := s.hp.selfRef ++ [(x, r)] } } := by
  obtain ⟨rest, -, hp⟩ := enterSelfRef_keeps s x r
  refine allSelfRef_congr (by rw [rest]) fun p => ?_
  rw [hp]
  dsimp only
  split
  · next h => simp only [List.mem_append, List.mem_singleton, iff_self_or]; rintro rfl; exact h
  · rfl

/-! ## Triggers -/

/-- A trigger while the supplies' pins are watched is judged by the hold state (R31, R42). -/
theorem sampled_of_hold (s : State) (hp : s.aon.por = .up) (hd : s.aon.hold ≠ .dark) (hh : s.aon.hold ≠ .held) : sampled s = true := by
  simp [sampled, hp, hd, hh]

/-- The state in which a trigger is judged: its time is noted and it is logged (R42). -/
def triggered (s : State) (c : Cause) : State := logEv { s with aon := { s.aon with trigAt := some s.aon.us } } 0 .trigger c.code

@[simp] theorem triggered_frame (s : State) (c : Cause) :
    (triggered s c).aon.hold = s.aon.hold ∧ (triggered s c).aon.img = s.aon.img ∧ (triggered s c).aon.imgKnown = s.aon.imgKnown ∧
    (triggered s c).aon.cause = s.aon.cause ∧ (triggered s c).pins = s.pins ∧ (triggered s c).hp = s.hp ∧
    (triggered s c).map = s.map ∧ (triggered s c).nand = s.nand ∧ (triggered s c).rst = s.rst ∧ (triggered s c).ten = s.ten ∧
    (triggered s c).cfl = s.cfl ∧ (triggered s c).mg = s.mg ∧ (triggered s c).doms = s.doms := by
  simp only [triggered, logEv_frame, and_self]

/-- What a planned cut that an unplanned one supersedes leaves behind (R42). -/
def supersede (s : State) : State :=
  logEv { s with aon := { s.aon with superseded := some s.aon.cause } } 0 .superseded s.aon.cause.code

theorem unplanned_serve (s : State) (c : Cause) (h : s.aon.hold = .serve) (hi : s.aon.img ≠ .pending) (hv : s.nand.prov ≠ .running) :
    unplanned s c = startSave (triggered s c) false c := by
  unfold unplanned
  rw [← triggered]
  simp only [triggered_frame, h, hi, hv, if_false]

theorem unplanned_park (s : State) (c : Cause) (h : s.aon.hold = .park) :
    unplanned s c = startSave (supersede (triggered s c)) false c := by
  unfold unplanned
  rw [← triggered]
  simp only [triggered_frame, h, supersede]

theorem unplanned_serve_pending (s : State) (c : Cause) (h : s.aon.hold = .serve) (hi : s.aon.img = .pending) (hv : s.nand.prov ≠ .running) :
    unplanned s c = enterHeld (triggered s c) := by
  unfold unplanned
  rw [← triggered]
  simp only [triggered_frame, h, hi, hv, if_false, if_true]

theorem unplanned_serve_provision (s : State) (c : Cause) (h : s.aon.hold = .serve) (hv : s.nand.prov = .running) :
    unplanned s c = enterDark (triggered s c) := by
  unfold unplanned
  rw [← triggered]
  simp only [triggered_frame, h, hv, if_true]

theorem unplanned_fault (s : State) (c : Cause) (h : s.aon.hold = .fault) :
    unplanned s c = enterHeldOrDark (triggered s c) (s.aon.img = .pending) := by
  unfold unplanned
  rw [← triggered]
  simp only [triggered_frame, h]

theorem unplanned_boot (s : State) (c : Cause) (h : s.aon.hold = .boot) :
    unplanned s c = enterHeldOrDark (triggered s c) (s.aon.img = .pending || !s.aon.imgKnown) := by
  unfold unplanned
  rw [← triggered]
  simp only [triggered_frame, h]

theorem unplanned_restore (s : State) (c : Cause) (r : RestoreRun) (h : s.aon.hold = .restore) (hr : s.rst.run = some r)
    (hj : ∀ j, s.nand.rimJob = some j → j.use ≠ .zeroSave) :
    unplanned s c = if r.committed.isSome then cutHandback (triggered s c) r c else enterHeld (triggered s c) := by
  have none : s.nand.rimJob.any (fun j => j.use = .zeroSave) = false := by
    cases e : s.nand.rimJob with
    | none => rfl
    | some j => simpa [e] using hj j e
  unfold unplanned
  rw [← triggered]
  simp only [triggered_frame, h, hr, none, Bool.false_eq_true, if_false]

theorem unplanned_save (s : State) (c : Cause) (h : s.aon.hold = .save) : unplanned s c = triggered s c := by
  unfold unplanned
  rw [← triggered]
  simp only [triggered_frame, h]

/-- What an unplanned save starts with, from SERVE and PARK (T7, T10). -/
theorem unplanned_starts (s : State) (c : Cause)
    (h : s.aon.hold = .serve ∧ s.aon.img ≠ .pending ∧ s.nand.prov ≠ .running ∨ s.aon.hold = .park) :
    ∃ u, unplanned s c = startSave u false c ∧ u.aon.img = s.aon.img ∧ u.nand = s.nand ∧ u.cfl = s.cfl ∧ u.ten = s.ten ∧ u.pins = s.pins ∧
      (s.aon.hold = .park → u.aon.superseded = some s.aon.cause) := by
  obtain ⟨h, hi, hv⟩ | h := h
  · refine ⟨_, unplanned_serve s c h hi hv, ?_⟩
    simp [h]
  · refine ⟨_, unplanned_park s c h, ?_⟩
    simp [supersede]

/-- `u` is `s` as a trigger finds it: HOLD_L changes nothing before, a droop the supply's level (R27, R31). -/
structure TriggerAt (s u : State) : Prop where
  hold : u.aon.hold = s.aon.hold
  img : u.aon.img = s.aon.img
  imgKnown : u.aon.imgKnown = s.aon.imgKnown
  cause : u.aon.cause = s.aon.cause
  nand : u.nand = s.nand
  rst : u.rst = s.rst
  cfl : u.cfl = s.cfl
  ten : u.ten = s.ten

/-- The two triggers run the one transition while the pins are watched (R27, R31). -/
theorem trigger_completes (p : Instr × Cause) (hp : p ∈ [(Instr.holdLLow, Cause.pin), (Instr.vbulkDroop, Cause.droop)]) (s : State)
    (up : s.aon.por = .up) (hd : s.aon.hold ≠ .dark) (hh : s.aon.hold ≠ .held) (P : State → Prop)
    (hP : ∀ u, TriggerAt s u → P (unplanned u p.2)) : Completes p.1 s P := by
  simp only [List.mem_cons, List.not_mem_nil, or_false] at hp
  obtain rfl | rfl := hp
  · refine ⟨_, rfl, ?_⟩
    rw [if_pos (sampled_of_hold s up hd hh)]
    exact hP s ⟨rfl, rfl, rfl, rfl, rfl, rfl, rfl, rfl⟩
  · refine ⟨_, rfl, ?_⟩
    dsimp only
    split
    · exact hP _ ⟨rfl, rfl, rfl, rfl, rfl, rfl, rfl, rfl⟩
    · next no => exact absurd (sampled_of_hold s up hd hh) no

/-- A trigger after the RESTORED record has committed ends the handback and starts the commit of a SAVE record with GRANS = 0 (R175). -/
theorem cutHandback_keeps (s : State) (r : RestoreRun) (c : Cause) :
    (cutHandback s r c).aon.hold = s.aon.hold ∧ (cutHandback s r c).hp.phase = .idle ∧ (cutHandback s r c).pins.batsw = true ∧
    (cutHandback s r c).nand.rims = s.nand.rims ∧ ∃ j, (cutHandback s r c).nand.rimJob = some j ∧ j.use = .zeroSave ∧ j.rim.type = .save ∧
      j.rim.grans = 0 ∧ j.rim.prevSeq = r.committed.getD 0 ∧ j.rim.cause = c := by
  simp only [cutHandback, startRim, assertBatsw_keeps, true_and]
  exact ⟨_, rfl, rfl, rfl, rfl, rfl, rfl⟩

end Sys2Proof.Machine

open Sys2Proof Sys2Proof.Machine

/-- Settles O30: SRE's note is HP's and lane 0's alone, and with every rank in self-refresh PARK's save starts at Switch. -/
theorem hostPathFaultsAndSelfRefresh : Obligations.HostPathFaultsAndSelfRefresh := by
  unfold Obligations.HostPathFaultsAndSelfRefresh
  refine ⟨fun x s h => ?_, fun s h ha => ?_, fun x r s h hn ha => ⟨_, rfl, ?_⟩, fun x r s h ha => ⟨_, rfl, ?_⟩⟩
  · show Host.Outcome.next (onForward s _) = _
    rw [onForward_ready s _ h]
  · show Host.Outcome.next (if (ready s && !allSelfRef s) = true then _ else s) = _
    rw [if_pos (by simp [h, ha])]
  · rw [onForward_ready s _ h]
    obtain ⟨rest, lanes, hp⟩ := enterSelfRef_keeps s x r
    have out : observeSelfRef (enterSelfRef s x r) = enterSelfRef s x r := if_pos (by simp [allSelfRef_enterSelfRef, ha])
    rw [out]
    rw [if_neg hn] at hp
    exact ⟨hp, lanes, rest⟩
  · rw [onForward_ready s _ (by simp [ready, h])]
    obtain ⟨rest, -, -⟩ := enterSelfRef_keeps s x r
    have park : (enterSelfRef s x r).aon = s.aon := by rw [rest]
    have nand : (enterSelfRef s x r).nand = s.nand := by rw [rest]
    have cfl : (enterSelfRef s x r).cfl = s.cfl := by rw [rest]
    have out : observeSelfRef (enterSelfRef s x r) = startSave (enterSelfRef s x r) true s.aon.cause := by
      unfold observeSelfRef
      rw [if_neg (by simp [allSelfRef_enterSelfRef, ha]), park, if_pos h]
    rw [out]
    obtain ⟨v, hv, fresh⟩ := startSave_save (enterSelfRef s x r) true s.aon.cause
    refine ⟨?_, ?_, ?_, ?_, ?_, ?_, ⟨v, hv, fresh.planned, by rw [fresh.full, park]⟩, ?_, ?_, ?_⟩ <;>
      simp only [startSave_keeps, nand, cfl, if_true, Bool.not_true]

/-- Settles O12: in SERVE and PARK the trigger is a save's start, and elsewhere the entry to HELD or DARK that the state and the image
give. -/
theorem unplannedTriggers : Obligations.UnplannedTriggers := by
  unfold Obligations.UnplannedTriggers
  refine ⟨fun p hp s up h => ?_, fun p hp s up => ⟨fun h hi hv => ?_, fun h hv => ?_, fun h => ?_, fun h => ?_, fun r h hr hj =>
    ⟨fun hc => ?_, fun hc => ?_⟩, fun h => ?_⟩⟩
  · have away : s.aon.hold ≠ .dark ∧ s.aon.hold ≠ .held := by obtain ⟨h, -⟩ | h := h <;> simp [h]
    refine trigger_completes p hp s up away.1 away.2 _ fun u at_ => ?_
    obtain ⟨w, hw, img, nand, cfl, ten, -, sup⟩ := unplanned_starts u p.2 (by rw [at_.hold, at_.img, at_.nand]; exact h)
    obtain ⟨v, hv, fresh⟩ := startSave_save w false p.2
    have seq : topSeq w = topSeq s := topSeq_congr (by rw [nand, at_.nand])
    rw [at_.hold, at_.cause] at sup
    rw [hw]
    refine ⟨?_, ?_, ?_, ?_, ?_, ?_, ?_, ?_, ?_, ⟨v, hv, fresh.planned, ?_, fresh.phase, ?_, fresh.open_, fresh.done⟩, ?_, ?_, ?_, ?_, ?_⟩ <;>
      simp only [startSave_keeps, img, nand, cfl, ten, at_.img, at_.nand, at_.cfl, at_.ten, fresh.full, fresh.seq, seq, Bool.false_eq_true,
        if_false, Bool.not_false]
    exact sup
  · refine trigger_completes p hp s up (by simp [h]) (by simp [h]) _ fun u at_ => ?_
    rw [unplanned_serve_pending u p.2 (at_.hold.trans h) (at_.img.trans hi) (by rw [at_.nand]; exact hv)]
    refine ⟨?_, ?_, ?_, ?_, ?_, ?_, enterHeld_noSession _⟩ <;> simp only [enterHeld_keeps, triggered_frame, at_.img, at_.nand, hi]
  · refine trigger_completes p hp s up (by simp [h]) (by simp [h]) _ fun u at_ => ?_
    rw [unplanned_serve_provision u p.2 (at_.hold.trans h) (by rw [at_.nand]; exact hv)]
    refine ⟨?_, ?_, ?_, ?_, ?_, enterDark_noSession _⟩ <;> simp only [enterDark_keeps, triggered_frame, at_.img, at_.nand]
  · refine trigger_completes p hp s up (by simp [h]) (by simp [h]) _ fun u at_ => ?_
    rw [unplanned_fault u p.2 (at_.hold.trans h)]
    refine ⟨?_, ?_, ?_, ?_, ?_, enterHeldOrDark_noSession _ _⟩ <;>
      simp only [enterHeldOrDark_keeps, triggered_frame, at_.img, at_.nand, decide_eq_true_eq]
  · refine trigger_completes p hp s up (by simp [h]) (by simp [h]) _ fun u at_ => ?_
    rw [unplanned_boot u p.2 (at_.hold.trans h)]
    refine ⟨?_, ?_, ?_, ?_⟩ <;>
      simp only [enterHeldOrDark_keeps, triggered_frame, at_.img, at_.imgKnown, at_.nand, Bool.or_eq_true, decide_eq_true_eq, Bool.not_eq_true']
  · refine trigger_completes p hp s up (by simp [h]) (by simp [h]) _ fun u at_ => ?_
    rw [unplanned_restore u p.2 r (at_.hold.trans h) (by rw [at_.rst, hr]) (by rw [at_.nand]; exact hj), hc, if_neg (by simp)]
    refine ⟨?_, ?_, ?_, ?_, ?_, ?_⟩ <;> simp only [enterHeld_keeps, triggered_frame, at_.img, at_.nand]
  · refine trigger_completes p hp s up (by simp [h]) (by simp [h]) _ fun u at_ => ?_
    rw [unplanned_restore u p.2 r (at_.hold.trans h) (by rw [at_.rst, hr]) (by rw [at_.nand]; exact hj), if_pos hc]
    obtain ⟨hold, phase, batsw, rims, job⟩ := cutHandback_keeps (triggered u p.2) r p.2
    refine ⟨?_, phase, batsw, ?_, job⟩
    · simp only [hold, triggered_frame, at_.hold, h]
    · simp only [rims, triggered_frame, at_.nand]
  · show Host.Outcome.next (if sampled s = true then unplanned s .pin else nearCut s .pin) = _
    rw [if_pos (sampled_of_hold s up (by simp [h]) (by simp [h])), unplanned_save s .pin h]
    rfl

end

section
/-! SUPPORT. The work that strands and tables give to the arrays: what it leaves as it was (R114, R127, R137), and the waits (R30, R160). -/

namespace Sys2Proof.Machine

/-! ## Work on the arrays -/

/-- `t` is `s` after work on the arrays: dies, groups, tables and the strands of a save differ; the records, the DRAM, the relation, the
code flash and all that stands outside the NAND and MAP do not (R114, R127). -/
structure ArrayStep (s t : State) : Prop where
  aon : t.aon = s.aon
  pins : t.pins = s.pins
  doms : t.doms = s.doms
  hp : t.hp = s.hp
  rst : t.rst = s.rst
  ten : t.ten = s.ten
  cfl : t.cfl = s.cfl
  rims : t.nand.rims = s.nand.rims
  dram : t.nand.dram = s.nand.dram
  chosen : t.nand.chosen = s.nand.chosen
  rimJob : t.nand.rimJob = s.nand.rimJob
  dirty : t.map.dirty = s.map.dirty
  geom : t.map.geom = s.map.geom
  settling : t.nand.settle.running = s.nand.settle.running

theorem ArrayStep.refl (s : State) : ArrayStep s s := by constructor <;> rfl

theorem ArrayStep.trans {s t u : State} (h : ArrayStep s t) (k : ArrayStep t u) : ArrayStep s u :=
  ⟨k.aon.trans h.aon, k.pins.trans h.pins, k.doms.trans h.doms, k.hp.trans h.hp, k.rst.trans h.rst, k.ten.trans h.ten, k.cfl.trans h.cfl,
    k.rims.trans h.rims, k.dram.trans h.dram, k.chosen.trans h.chosen, k.rimJob.trans h.rimJob, k.dirty.trans h.dirty, k.geom.trans h.geom,
    k.settling.trans h.settling⟩

theorem foldl_arrayStep {α : Type} (f : State → α → State) (h : ∀ u x, ArrayStep u (f u x)) (l : List α) (s : State) :
    ArrayStep s (l.foldl f s) := by
  induction l generalizing s with
  | nil => exact .refl s
  | cons x t ih => exact (h s x).trans (ih _)

theorem foldl_fst_arrayStep {α β : Type} (f : State × β → α → State × β) (h : ∀ q x, ArrayStep q.1 (f q x).1) (l : List α)
    (q : State × β) : ArrayStep q.1 (l.foldl f q).1 := by
  induction l generalizing q with
  | nil => exact .refl q.1
  | cons x t ih => exact (h q x).trans (ih _)

theorem setDie_array (s : State) (d : Die) (f : DieSt → DieSt) : ArrayStep s (setDie s d f) := by
  constructor <;> rfl

theorem setOp_array (s : State) (d : Die) (o : DieOp) : ArrayStep s (setOp s d o) := setDie_array s d _

theorem setGroup_array (s : State) (g : Group) : ArrayStep s (setGroup s g) := by constructor <;> rfl

theorem setRole_array (s : State) (d : Die) (b : Nat) (r : Role) : ArrayStep s (setRole s d b r) := setGroup_array s _

theorem setSave_array (s : State) (v : Save) : ArrayStep s (setSave s v) := by constructor <;> rfl

theorem advancePage_array (s : State) (p : Page) : ArrayStep s (advancePage s p) := setGroup_array s _

theorem tab_array (s : State) (j : Option TableJob) : ArrayStep s { s with nand := { s.nand with tab := j } } := by
  constructor <;> rfl

theorem openGroup_array (s : State) (d : Die) (r : Role) : ArrayStep s (openGroup s d r).1 := by
  unfold openGroup
  split
  · exact .refl s
  · split
    · exact setGroup_array s _
    · exact .refl s

theorem nextPage_array (s : State) (d : Die) : ArrayStep s (nextPage s d).1 := by
  have h := openGroup_array s d .deltaOpen
  unfold nextPage
  split <;> simpa only [*] using h

theorem wakeDie_array (s : State) (d : Die) (w : Page → Work) : ArrayStep s (wakeDie s d w).1 := by
  have h := nextPage_array s d
  unfold wakeDie
  split
  · exact .refl s
  · split
    · next e => rw [e] at h; exact h.trans (setOp_array _ _ _)
    · next e => rw [e] at h; exact h.trans (setDie_array _ _ _)

theorem wakeStrand_array (q : State × List Strand) (x : Strand) : ArrayStep q.1 (wakeStrand q x).1 := by
  unfold wakeStrand
  split
  · exact wakeDie_array _ _ _
  · exact .refl _

theorem wakePlait_array (q : State × List OpenPlait) (p : OpenPlait) : ArrayStep q.1 (wakePlait q p).1 :=
  foldl_fst_arrayStep wakeStrand wakeStrand_array p.strands (q.1, [])

theorem wakeTable_array (q : State × List TabStrand) (x : TabStrand) : ArrayStep q.1 (wakeTable q x).1 := by
  unfold wakeTable
  split
  · exact wakeDie_array _ _ _
  · exact .refl _

theorem abandonPlaits_array (s : State) (v : Save) (gone : OpenPlait → Bool) : ArrayStep s (abandonPlaits s v gone) := by
  unfold abandonPlaits
  refine (foldl_arrayStep _ (fun u p => foldl_arrayStep _ (fun w x => ?_) _ _) _ _).trans (setSave_array _ _)
  split
  · split
    · exact setOp_array _ _ _
    · exact .refl w
  · split
    · exact setOp_array _ _ _
    · exact .refl w
  · exact .refl w

theorem wakeOnce_array (s : State) : ArrayStep s (wakeOnce s) := by
  unfold wakeOnce
  extract_lets t
  have plaits : ArrayStep s t := by
    simp only [t]
    split
    · exact (foldl_fst_arrayStep wakePlait wakePlait_array _ (s, [])).trans (abandonPlaits_array _ _ _)
    · exact .refl s
  split
  · exact plaits.trans ((foldl_fst_arrayStep wakeTable wakeTable_array _ (t, [])).trans (tab_array _ _))
  · exact plaits

theorem wakeStrands_array (s : State) : ArrayStep s (wakeStrands s) := (wakeOnce_array s).trans (wakeOnce_array _)

theorem startTables_array (s : State) (use : RimUse) (types : List Nat) (last : Option Die) : ArrayStep s (startTables s use types last) := by
  unfold startTables
  split
  · exact .refl s
  · exact (tab_array _ _).trans (wakeStrands_array _)

theorem ite_arrayStep {c : Prop} [Decidable c] {s a b : State} (ha : ArrayStep s a) (hb : ArrayStep s b) :
    ArrayStep s (if c then a else b) := by
  split
  · exact ha
  · exact hb

theorem folds_array (s : State) (l : List FoldDie) :
    ArrayStep s { s with nand := { s.nand with settle := { s.nand.settle with folds := l } } } := by
  constructor <;> rfl

theorem setFold_array (s : State) (f : FoldDie) : ArrayStep s (setFold s f) := folds_array s _

theorem startFold_array (s : State) (d : Die) : ArrayStep s (startFold s d) := by
  have opened := openGroup_array s d .baseOpen
  unfold startFold
  revert opened
  rcases openGroup s d .baseOpen with ⟨u, g⟩
  intro opened
  cases g with
  | none => exact opened
  | some g => exact opened.trans (ite_arrayStep (.refl u) ((setOp_array u d _).trans (setFold_array _ _)))

theorem closeFolds_array (s : State) : ArrayStep s (closeFolds s) := by
  unfold closeFolds
  exact ite_arrayStep (.refl s) ((folds_array s _).trans (startTables_array _ _ _ _))

/-- While SETTLE may run, its next folds are array work and it goes on (R145, R146). -/
theorem nextFolds_array (s : State) (h : settleAllowed s = true) : ArrayStep s (nextFolds s) := by
  unfold nextFolds
  rw [h]
  split
  · exact .refl s
  · rw [if_neg (by simp)]
    split
    · exact closeFolds_array s
    · refine (foldl_arrayStep _ (fun u c => ?_) _ _).trans (closeFolds_array _)
      split
      · exact .refl u
      · split
        · exact startFold_array u _
        · exact .refl u

theorem startProof_array (s : State) : ArrayStep s (startProof s) := by
  unfold startProof
  dsimp only
  split
  · exact startTables_array _ _ _ _
  · exact .refl s

/-- The margin's judgment takes E_avail as the pack gives it (R214). -/
theorem recomputeCover_eavail (s : State) : (recomputeCover s).bat.eavail = (refreshEnergy s).bat.eavail := by
  unfold recomputeCover takeCover
  dsimp only
  split
  · simp only [judgeMargin_frame]
  · rfl

/-! ## The end of a PARK (T11) -/

/-- What an entry to SERVE keeps with no droop standing, in SERVE and where a lost path makes it FAULT (R31, R44, R84). -/
theorem enterServe_keeps (s : State) (hb : s.pins.bulk ≠ .droop) :
    ((enterServe s).aon.hold = .serve ∨ (enterServe s).aon.hold = .fault) ∧
    ((enterServe s).aon.hold = .fault → ∃ c ∈ [FaultCause.rimArea, .stripe, .laneHalt, .coreDomain], (enterServe s).aon.faults = [c]) ∧
    (enterServe s).aon.img = (serveEntry s).aon.img ∧ (enterServe s).aon.cause = s.aon.cause ∧ (enterServe s).aon.stale = s.aon.stale ∧
    (enterServe s).nand.rims = s.nand.rims ∧ (enterServe s).nand.dram = (serveEntry s).nand.dram ∧ (enterServe s).cfl = s.cfl ∧
    (enterServe s).rst.report = s.rst.report ∧ (s.rst.run = none → (enterServe s).rst.run = none) ∧
    (s.rst.req = none → (enterServe s).rst.req = none) := by
  obtain e | ⟨c, hc, e⟩ := enterServe_calm s hb
  · rw [e]
    refine ⟨.inl ?_, fun f => absurd f ?_, rfl, ?_, ?_, ?_, rfl, ?_, ?_, ?_, ?_⟩ <;>
      simp only [serveEntry_keeps, imp_self, reduceCtorEq, not_false_iff]
  · rw [e]
    refine ⟨.inr ?_, fun _ => ⟨c, hc, ?_⟩, ?_, ?_, ?_, ?_, ?_, ?_, ?_, ?_, ?_⟩ <;> simp only [faultEntry_keeps, serveEntry_keeps, implies_true]

/-- A PARK's end, before the entry to SERVE: it is logged and its cause is gone (R31). -/
def parkOver (s : State) : State := { logEv s 0 .parkEnded with aon := { s.aon with cause := .none } }

theorem endPark_eq (s : State) :
    endPark s = startProof (noticeGeneral (enterServe (parkOver s)) (EVT [("state", .kw "SERVE")])) := by
  simp only [endPark, parkOver, logEv_frame]

/-- Where a PARK that is not cut ends: SERVE, or FAULT with the cause of the lost path; the cause of the PARK is gone (R30, R31, R44). -/
theorem endPark_keeps (s : State) (h : s.aon.hold = .park) (hb : s.pins.bulk ≠ .droop) :
    ((endPark s).aon.hold = .serve ∨ (endPark s).aon.hold = .fault) ∧
    ((endPark s).aon.hold = .fault → ∃ c ∈ [FaultCause.rimArea, .stripe, .laneHalt, .coreDomain], (endPark s).aon.faults = [c]) ∧
    (endPark s).aon.img = s.aon.img ∧ (endPark s).aon.cause = .none ∧ (endPark s).nand.rims = s.nand.rims ∧
    (endPark s).nand.dram = s.nand.dram ∧ (endPark s).cfl = s.cfl := by
  have work := startProof_array (noticeGeneral (enterServe (parkOver s)) (EVT [("state", .kw "SERVE")]))
  obtain ⟨hold, faults, img, cause, -, rims, dram, cfl, -⟩ := enterServe_keeps (parkOver s) (by simpa only [parkOver, logEv_frame] using hb)
  have was : (!ready (parkOver s) && !(parkOver s).pins.drstHigh) = false := by simp [ready, parkOver, h]
  rw [endPark_eq, work.aon, work.rims, work.dram, work.cfl]
  simp only [noticeGeneral_frame, img, cause, rims, dram, cfl, serveEntry_dram _ was, serveEntry_keeps, was, Bool.false_eq_true, false_and, if_false]
  refine ⟨hold, faults, ?_⟩
  simp only [parkOver, logEv_frame, and_self]

theorem usableDies_congr {s t : State} (hd : t.doms.dom = s.doms.dom) (hn : t.nand.dies = s.nand.dies) : usableDies t = usableDies s := by
  have same : usable t = usable s := funext fun d => by simp only [usable, dieOf, isOn, modeOf, domOf, hd, hn]; rfl
  rw [usableDies, usableDies, same]

/-- A reload of the descriptors leaves all but MAP's copy of the tenants' classes and dies (R108, R182). -/
theorem takeDescriptors_keeps (s : State) :
    (takeDescriptors s).aon = s.aon ∧ (takeDescriptors s).nand = s.nand ∧ (takeDescriptors s).ten = s.ten ∧
    (takeDescriptors s).map.dirty = s.map.dirty ∧ (takeDescriptors s).map.reload = s.map.reload ∧
    (takeDescriptors s).map.descriptors = true ∧ (takeDescriptors s).map.descDies = usableDies s ∧
    ∀ x : Tenant, (takeDescriptors s).map.classes[x.val] = attrClass (attrOf s x) := by
  have dies : usableDies (loadClasses s) = usableDies s := usableDies_congr (by simp only [loadClasses_frame]) (by simp only [loadClasses_frame])
  unfold takeDescriptors
  simp only [loadClasses_frame, dies, true_and]
  simp only [loadClasses, attrOf, Vector.getElem_ofFn, implies_true, and_self]

end Sys2Proof.Machine

open Sys2Proof Sys2Proof.Machine

/-- Settles O34: each wait's expiry is one step whose frame is known, and a reload adds to the dirty map. -/
theorem waitsAndDescriptors : Obligations.WaitsAndDescriptors := by
  unfold Obligations.WaitsAndDescriptors
  refine ⟨fun s h hb => ⟨_, rfl, ?_⟩, fun q s hq h => ⟨_, rfl, ?_⟩, fun s hon hr hn => ⟨_, rfl, ?_⟩, fun r s hon hr hn => ⟨_, rfl, ?_⟩,
    fun s hr h => ⟨_, rfl, ?_⟩⟩
  · rw [if_pos h]
    exact endPark_keeps s h hb
  · simp only [hq, if_pos h, noticeIssuer_frame, logEv_frame, and_self]
  · obtain ⟨aon, nand, ten, dirty, reload, desc, dies, classes⟩ := takeDescriptors_keeps s
    rw [if_neg (by simp [hon, hr])]
    simp only [reload, hn]
    exact ⟨desc, dies, classes, dirty, ten, aon, nand⟩
  · obtain ⟨aon, nand, ten, dirty, reload, desc, -, -⟩ := takeDescriptors_keeps s
    rw [if_neg (by simp [hon, hr])]
    simp only [reload, hn]
    have grow : ∀ q g, rsMem s.map.dirty g = true → rsMem (rsUnion s.map.dirty q) g = true := fun q g hg => by simp [rsMem_rsUnion, hg]
    split <;> simp only [answerBusy_frame, recomputeCover_frame, setSes_frame, setDirty_frame, setDirty_map_descriptors, setDirty_map_reload,
      setDirty_map_dirty, desc, nand, aon, ten, dirty, true_and, and_true]
    · exact grow _
    · exact grow _
  · rw [if_pos hr]
    have map := recomputeCover_map s h
    have aon := recomputeCover_aon s
    simp only [recomputeCover_frame, and_true]
    exact ⟨map, recomputeCover_eavail s, aon⟩

end

section
/-! SUPPORT. What a verb whose level and states are met makes of the state (R300, R305, R435), and the hold-control verbs (R30-R35, R145). -/

namespace Sys2Proof.Machine

/-! ## A verb that runs -/

/-- The state in which a verb runs: the session has taken the line's sequence (R282, R300). -/
def lineStart (s : State) (k : Sess) : State := setSes s k (fun q => { q with curLseq := nextLseq (getSes s k).curLseq })

@[simp] theorem lineStart_frame (s : State) (k : Sess) :
    (lineStart s k).aon = s.aon ∧ (lineStart s k).log = s.log ∧ (lineStart s k).pins = s.pins ∧ (lineStart s k).doms = s.doms ∧
    (lineStart s k).hp = s.hp ∧ (lineStart s k).map = s.map ∧ (lineStart s k).nand = s.nand ∧ (lineStart s k).rst = s.rst ∧
    (lineStart s k).ten = s.ten ∧ (lineStart s k).bat = s.bat ∧ (lineStart s k).shb = s.shb ∧ (lineStart s k).warp = s.warp ∧
    (lineStart s k).cfl = s.cfl ∧ (lineStart s k).store = s.store ∧ (lineStart s k).free = s.free ∧
    (lineStart s k).mg.running = s.mg.running := by
  simp only [lineStart, setSes_frame, and_self]

theorem getSes_lineStart (s : State) (k : Sess) :
    getSes (lineStart s k) k = { getSes s k with curLseq := nextLseq (getSes s k).curLseq } := by
  rw [lineStart, getSes_setSes]

theorem mayRun_ready {s : State} {k : Sess} {need : Priv} {states : List HoldState} (h : mayRun s k need states = true) :
    lineReady s k = true ∧ need.rank ≤ (getSes s k).priv.rank ∧ s.aon.hold ∈ states := by
  simpa [mayRun, and_assoc] using h

/-- A verb that may run and that nothing refuses runs its effect on the session's line. -/
theorem verb_onLine (k : Sess) (need : Priv) (states allowed : List HoldState) (refusals : State → List (Bool × Nat)) (f : Verb) (s : State)
    (h : mayRun s k need allowed = true) (ha : ∀ x ∈ allowed, x ∈ states) (hr : firstOf (refusals (lineStart s k)) = none) :
    verb k need false states refusals f (lineStart s k) = f (lineStart s k) := by
  obtain ⟨-, priv, hold⟩ := mayRun_ready h
  rw [verb_runs k need states refusals f (lineStart s k) (by rw [getSes_lineStart]; exact priv) (by rw [(lineStart_frame s k).1]; exact ha _ hold), hr]

/-- Its response line is what the session gets. -/
theorem onVerb_line {k : Sess} {s : State} {f : Verb} {t : State} {l : Line} (i : Instr) (b : Bool) (h : lineReady s k = true)
    (hf : f (lineStart s k) = (t, .line l)) : onVerb s k i b f = respond t k l := by
  rw [onVerb_ready s k i b f h]
  exact runLine_line s k _ f t l hf

/-- A verb whose effect is `u` answers its line in `u`. -/
theorem onVerb_answers {k : Sess} {s u : State} {f : Verb} {l : Line} (i : Instr) (b : Bool) (h : lineReady s k = true)
    (hf : f (lineStart s k) = (setSes u k (fun q => { q with curLseq := nextLseq (getSes s k).curLseq }), .line l)) :
    Answered u (onVerb s k i b f) k l := by
  rw [onVerb_line i b h hf]
  exact respond_answered u k _ l

/-- A response is the session's last one. -/
theorem respond_said (s : State) (k : Sess) (l : Line) : Said (respond s k l) k l := by
  have same : setSes s k (fun q => { q with curLseq := (getSes s k).curLseq }) = s := by
    show { s with mg := { s.mg with ses := s.mg.ses.set k.val s.mg.ses[k.val] } } = s
    rw [Vector.set_getElem_self]
  exact (same ▸ respond_answered s k (getSes s k).curLseq l).1

/-- A verb whose work goes on leaves its session busy (R300). -/
theorem onVerb_waits {k : Sess} {s t : State} {f : Verb} {w : Busy} (i : Instr) (b : Bool) (h : lineReady s k = true)
    (hf : f (lineStart s k) = (t, .wait w)) : onVerb s k i b f = setSes t k (fun q => { q with busy := some w }) := by
  rw [onVerb_ready s k i b f h]
  unfold runLine
  rw [← lineStart]
  simp only [hf]

/-! ## PARK (R17, R30, R33, R122) -/

/-- What a PARK that is accepted makes (R30, R42, R122): the wait for self-refresh, its coverage, and no settling. -/
theorem parkRequest_accepted (s : State) (c : Cause) (h : s.aon.hold = .serve) (hi : s.aon.img ≠ .pending) (hr : s.rst.req = none)
    (ha : armed s = true) (hs : allSelfRef s = false) :
    ∃ t, parkRequest s c = (t, .accepted) ∧ t.aon.hold = .park ∧ t.aon.cause = c ∧ t.nand.settle.running = false ∧ t.aon.img = s.aon.img ∧
      t.nand.rims = s.nand.rims ∧ t.nand.dram = s.nand.dram ∧ t.cfl = s.cfl ∧ t.ten = s.ten ∧ t.pins = s.pins := by
  have stay : ∀ u : State, u.map.geom = s.map.geom → u.hp = s.hp → observeSelfRef u = u := fun u hg hh =>
    if_pos (by rw [allSelfRef_congr hg (fun p => by rw [hh]), hs]; rfl)
  unfold parkRequest
  simp only [h, hi, hr, ha, Option.isSome_none, Bool.false_eq_true, Bool.not_true, if_false]
  split
  · refine ⟨_, rfl, ?_⟩
    rw [stay _ (by simp) (by simp)]
    simp
  · refine ⟨_, rfl, ?_⟩
    rw [stay _ (by simp) (by simp)]
    simp

/-! ## SERVE again with every domain at its mode -/

theorem setPll_dom (s : State) (p : Pll) (x : PllSt) : (setPll s p x).doms.dom = s.doms.dom ∧ (setPll s p x).doms.lanes = s.doms.lanes := by
  cases p <;> exact ⟨rfl, rfl⟩

/-- The PLLs follow the domains and change none (R48). -/
@[simp] theorem settlePlls_dom (s : State) : (settlePlls s).doms.dom = s.doms.dom ∧ (settlePlls s).doms.lanes = s.doms.lanes := by
  have step : ∀ (l : List Pll) (f : State → Pll → Bool) (u : State),
      (l.foldl (fun s p => if f s p = true then (if pllSt s p = .off then setPll s p .locking else s) else setPll s p .off) u).doms.dom =
        u.doms.dom ∧
      (l.foldl (fun s p => if f s p = true then (if pllSt s p = .off then setPll s p .locking else s) else setPll s p .off) u).doms.lanes =
        u.doms.lanes := by
    intro l f
    induction l with
    | nil => exact fun u => ⟨rfl, rfl⟩
    | cons p t ih =>
      intro u
      rw [List.foldl_cons, (ih _).1, (ih _).2]
      split
      · split
        · exact setPll_dom u p _
        · exact ⟨rfl, rfl⟩
      · exact setPll_dom u p _
  exact step [Pll.f, .m, .n] (fun s p => (allFin 20).any (fun d => pllOf d = some p && ((modeOf s d.val).powered || (domOf s d).enabling.isSome))) s

/-- Where no domain has come up, no lane is reset (R49). -/
theorem wakeLanes_quiet (before s : State) (h : ∀ n, (!(modeOf before n).powered && (modeOf s n).powered) = false) :
    wakeLanes before s = s := by
  unfold wakeLanes
  simp only [h, Bool.or_self, List.filter_false, List.foldl_nil]

theorem settleLanes_dom (s : State) : (settleLanes s).doms.dom = s.doms.dom := by simp only [settleLanes]

theorem modeOf_congr {s t : State} (h : t.doms.dom = s.doms.dom) (d : Nat) : modeOf t d = modeOf s d := by
  unfold modeOf
  rw [h]

/-- With every domain at its column's mode a change of modes is only the plumbing of lanes and PLLs (R52, R62). -/
theorem applyModes_same (s : State) (f : State → Dom → DMode) (h : ∀ d, (domOf s d).mode = .failed ∨ (domOf s d).mode = f s d) :
    applyModes s f = settlePlls (settleLanes s) := by
  have fold : ∀ l : List Dom, l.foldl (fun s' d => if (domOf s' d).mode = .failed then s' else setMode s' d (f s d)) s = s := by
    intro l
    induction l with
    | nil => rfl
    | cons d t ih =>
      rw [List.foldl_cons]
      obtain e | e := h d
      · rw [if_pos e, ih]
      · have : setMode s d (f s d) = s := if_pos e
        rw [this, ite_self, ih]
  have awake : wakeLanes s (settleLanes s) = settleLanes s := wakeLanes_quiet s _ fun n => by
    rw [modeOf_congr (settleLanes_dom s), Bool.not_and_self]
  rw [applyModes, fold, awake]

theorem modesServe_congr {s t : State} (h : t.doms.dom = s.doms.dom) (d : Dom) : modesServe t d = modesServe s d := by
  simp only [modesServe, optKeep, enabled, domOf, h]
  rfl

/-- The path that a save needs is judged by the rim area, the dies, the domains and the halted lanes alone (R44, R69). -/
theorem armLoss_congr {s t : State} (hn : t.nand = s.nand) (hd : t.doms.dom = s.doms.dom)
    (hl : ∀ n, (laneOf t n).halted = (laneOf s n).halted) : armLoss t = armLoss s := by
  have dies : usableDies t = usableDies s := usableDies_congr hd (by rw [hn])
  simp only [armLoss, dies, modeOf_congr hd, hl, hn]

/-- With the path whole and every domain at its mode, an entry to SERVE ends in SERVE (R44). -/
theorem enterServe_fit (s : State) (hl : armLoss s = none) (hr : ready s = true)
    (hm : ∀ d, (domOf s d).mode = .failed ∨ (domOf s d).mode = modesServe s d) : enterServe s = serveEntry s := by
  have fit : armLoss (serveEntry s) = armLoss s := by
    unfold serveEntry
    simp only [hr, Bool.not_true, Bool.false_and, Bool.false_eq_true, if_false]
    rw [applyModes_same]
    refine armLoss_congr (by simp only [recomputeCover_frame, settlePlls_frame, settleLanes_frame]) ?_ fun n => ?_
    · simp only [recomputeCover_frame, settlePlls_dom, settleLanes_dom]
    · simp only [laneOf, recomputeCover_frame, settlePlls_dom, settleLanes, Vector.getElem_ofFn]
      split
      · split <;> rfl
      · rfl
    · exact hm
  rw [enterServe_eq, fit, hl]

end Sys2Proof.Machine

open Sys2Proof Sys2Proof.Machine

/-- Settles O49: with the image pending the request is answered at once. -/
theorem parkWithAnImagePending : Obligations.ParkWithAnImagePending := by
  unfold Obligations.ParkWithAnImagePending
  intro k s h hi hr
  obtain ⟨ready, -, hold⟩ := mayRun_ready h
  have serve : s.aon.hold = .serve := by simpa using hold
  refine ⟨_, rfl, ?_⟩
  have line : parkVerb k (lineStart s k) = (lineStart s k, .line (OK [("state", .kw "SERVE"), ("save", .kw "none")])) := by
    rw [parkVerb, verb_onLine k .run _ [.serve] _ _ s h (by decide) rfl]
    simp [parkRequest, serve, hr, hi, okAns, ans]
  have ans := onVerb_answers (.park k) false ready (u := s) line
  exact ⟨ans, by rw [ans.2.2.2]; exact serve⟩

namespace Sys2Proof.Machine

/-- A PARK's end with the path whole and every domain at its mode: SERVE, with no cause and no alarm (R30, R31, R122). -/
theorem endPark_fit (s : State) (h : s.aon.hold = .park) (hl : armLoss s = none)
    (hm : ∀ d, (domOf s d).mode = .failed ∨ (domOf s d).mode = modesServe s d) :
    (endPark s).aon.hold = .serve ∧ (endPark s).aon.cause = .none ∧ (endPark s).aon.parkAlarm = false ∧ (endPark s).aon.img = s.aon.img ∧
    (endPark s).nand.rims = s.nand.rims ∧ (endPark s).nand.dram = s.nand.dram ∧ (endPark s).cfl = s.cfl := by
  have work := startProof_array (noticeGeneral (enterServe (parkOver s)) (EVT [("state", .kw "SERVE")]))
  have was : (!ready (parkOver s) && !(parkOver s).pins.drstHigh) = false := by simp [ready, parkOver, h]
  have whole : armLoss (parkOver s) = none :=
    (armLoss_congr (s := s) (by simp [parkOver]) (by simp [parkOver]) (fun n => by simp [parkOver, laneOf])).trans hl
  have modes : ∀ d, (domOf (parkOver s) d).mode = .failed ∨ (domOf (parkOver s) d).mode = modesServe (parkOver s) d := fun d => by
    have doms : (parkOver s).doms.dom = s.doms.dom := by simp only [parkOver, logEv_frame]
    rw [modesServe_congr doms, domOf, doms]
    exact hm d
  rw [endPark_eq, work.aon, work.rims, work.dram, work.cfl, enterServe_fit (parkOver s) whole (by simp [ready, parkOver, h]) modes]
  simp only [noticeGeneral_frame, serveEntry_dram _ was, serveEntry_keeps, serveEntry_parkAlarm, was, Bool.false_eq_true, false_and, if_false]
  simp only [parkOver, logEv_frame, and_self]

/-- The line's sequence leaves the session's unlock (R351). -/
theorem cfgGuard_lineStart (s : State) (k : Sess) : cfgGuard (lineStart s k) k = cfgGuard s k := by
  rw [cfgGuard, getSes_lineStart, (lineStart_frame s k).1]; rfl

/-- With a rank out of self-refresh nothing is observed (R100). -/
theorem observeSelfRef_stays (s : State) (h : allSelfRef s = false) : observeSelfRef s = s := if_pos (by rw [h]; rfl)

/-- What a RESTORE request that is accepted makes: it waits, owned by its session (R159, R160). -/
theorem restoreRequest_accepted (s : State) (c : Cause) (k : Sess) (r : Rim) (h : s.aon.hold = .serve) (hi : s.aon.img = .pending)
    (hq : s.rst.req = none) (hc : chosenRim s = some r) (hg : r.geom = s.map.geom) (hs : allSelfRef s = false) :
    restoreRequest s c (some k) none =
      (noteIssue { s with rst := { s.rst with req := some { source := c, session := some k, stagger := none } } } (some k) .restore,
        .accepted) := by
  have stay := observeSelfRef_stays { s with rst := { s.rst with req := some { source := c, session := some k, stagger := none } } } hs
  simp only [restoreRequest, h, hi, hq, hc, hg, stay, ne_eq, not_true, if_false, Option.isSome_none, Bool.false_eq_true]

/-- A session's noted issue and its line's sequence do not touch one another. -/
theorem noteIssue_lineStart (s u : State) (k : Sess) (i : Issue) (hu : u = setSes s k (fun q => { q with curLseq := nextLseq (getSes s k).curLseq })) :
    noteIssue u (some k) i = setSes (noteIssue s (some k) i) k (fun q => { q with curLseq := nextLseq (getSes s k).curLseq }) := by
  subst hu
  simp only [noteIssue, setSes_setSes]
  congr 1
  funext q
  split <;> rfl

/-- A die that holds no fold ready to start keeps its state when SETTLE stops (R150). -/
theorem stopSettle_die (s : State) (d : Die) (h : (dieOf s d).op ≠ .ready .fold) : dieOf (stopSettle s) d = dieOf s d := by
  have keep : (s.nand.dies[d.val]).op ≠ .ready .fold := h
  simp only [dieOf, stopSettle, Vector.getElem_map, keep, if_false]

/-- SETTLE's start while it may run (R145). -/
theorem startSettle_keeps (s : State) (h : settleAllowed s = true) :
    (startSettle s).nand.settle.running = true ∧ (startSettle s).aon = s.aon ∧ (startSettle s).nand.rims = s.nand.rims ∧
    (startSettle s).nand.dram = s.nand.dram := by
  have allowed : ∀ u : State, u.aon = s.aon → u.doms = s.doms → u.nand.dies = s.nand.dies → u.nand.prov = s.nand.prov → settleAllowed u = true :=
    fun u ha hd hn hv => by rw [← h, settleAllowed, settleAllowed, ha, usableDies_congr (by rw [hd]) hn, hv]
  have work := nextFolds_array (logEv { s with nand := { s.nand with settle := { s.nand.settle with running := true } } } 8 .foldStarted)
    (allowed _ (by simp) (by simp) (by simp) (by simp))
  refine ⟨work.settling.trans ?_, work.aon.trans ?_, work.rims.trans ?_, work.dram.trans ?_⟩ <;> simp only [logEv_frame]

/-- A request to settle where it may (R145, R309). -/
theorem settleStartReq_started (s : State) (h : s.aon.hold = .serve) (hi : s.aon.img = .track) (hu : (usableDies s).length ≠ 0)
    (hp : s.nand.prov ≠ .running) : ∃ t, settleStartReq s = (t, none) ∧ t.nand.settle.running = true ∧ t.aon = s.aon ∧
      t.nand.rims = s.nand.rims ∧ t.nand.dram = s.nand.dram := by
  obtain ⟨running, aon, rims, dram⟩ := startSettle_keeps s (by simp [settleAllowed, h, hi, hu, hp])
  unfold settleStartReq
  rw [if_neg (by simp [h]), if_neg (by simp [hi])]
  by_cases hr : s.nand.settle.running = true
  · rw [if_pos hr]
    exact ⟨s, rfl, hr, rfl, rfl, rfl⟩
  · rw [if_neg hr]
    exact ⟨_, rfl, running, aon, rims, dram⟩

/-! ## RESTORE DISCARD (R35) -/

theorem Ses.notice_busy (q : Ses) (l : Line) : (q.notice l).busy = q.busy := by
  unfold Ses.notice
  split_ifs <;> rfl

/-- A general notice ends no session's wait (R291). -/
theorem noticeGeneral_busy (s : State) (l : Line) (k : Sess) : (getSes (noticeGeneral s l) k).busy = (getSes s k).busy := by
  simp only [noticeGeneral, noticeTo, getSes, Vector.getElem_ofFn]
  split
  · exact Ses.notice_busy _ _
  · rfl

theorem getSes_congr {s t : State} (h : t.mg.ses = s.mg.ses) (k : Sess) : getSes t k = getSes s k := by
  unfold getSes
  rw [h]

theorem takeMargin_busy (s : State) (m : Margin) (k : Sess) : (getSes (takeMargin s m) k).busy = (getSes s k).busy := by
  have alarm : ∀ (u : State) (n : Nat), getSes (sendHoldAlarm u n) k = getSes u k := fun u n => getSes_congr (by simp only [sendHoldAlarm_frame]) k
  have note : getSes (logEv { s with bat := { s.bat with better := none, margin := m } } 2 .marginChange m.code) k = getSes s k :=
    getSes_congr (by simp only [logEv_frame]) k
  unfold takeMargin
  dsimp only
  split
  · rfl
  · split
    · rw [alarm, noticeGeneral_busy]
      exact congrArg Ses.busy note
    · rw [noticeGeneral_busy]
      exact congrArg Ses.busy note

theorem judgeMargin_busy (s : State) (k : Sess) : (getSes (judgeMargin s) k).busy = (getSes s k).busy := by
  unfold judgeMargin
  split
  · dsimp only
    split
    · rw [takeMargin_busy]; rfl
    · split
      · rw [takeMargin_busy]
      · rfl
  · rfl

theorem recomputeCover_busy (s : State) (k : Sess) : (getSes (recomputeCover s) k).busy = (getSes s k).busy := by
  have energy : getSes (refreshEnergy s) k = getSes s k := getSes_congr (by simp only [refreshEnergy_frame]) k
  unfold recomputeCover
  dsimp only
  split
  · rw [judgeMargin_busy]
    exact congrArg Ses.busy energy
  · exact congrArg Ses.busy energy

/-- What the acceptance of a RESTORE DISCARD leaves (R35): no relation, every bit of the dirty map, the machine as it was. -/
theorem discardImage_keeps (s : State) :
    (discardImage s).aon.img = .none ∧ (discardImage s).map.dirty = allGranules s ∧ (discardImage s).map.geom = s.map.geom ∧
    (discardImage s).aon.hold = s.aon.hold ∧ (discardImage s).nand.rims = s.nand.rims ∧ (discardImage s).cfl = s.cfl ∧
    (discardImage s).ten = s.ten := by
  have seeded : ∀ u : State, (reseedEg u).map.dirty = u.map.dirty := fun u => by simp only [reseedEg]
  unfold discardImage
  simp only [recomputeCover_frame, reseedEg_frame, dropImage_frame, dropImage_nandKeeps, dropRestore_frame, seeded, allGranules, and_self]

theorem discardImage_busy (s : State) (k : Sess) : (getSes (discardImage s) k).busy = (getSes s k).busy := by
  unfold discardImage
  rw [recomputeCover_busy]
  exact congrArg Ses.busy (getSes_congr (by simp only [reseedEg_frame, dropImage_frame, dropRestore_frame]) k)

@[simp] theorem waitFor_frame (s : State) (k : Sess) (b : Busy) :
    (waitFor s k b).aon = s.aon ∧ (waitFor s k b).log = s.log ∧ (waitFor s k b).pins = s.pins ∧ (waitFor s k b).doms = s.doms ∧
    (waitFor s k b).map = s.map ∧ (waitFor s k b).nand = s.nand ∧ (waitFor s k b).rst = s.rst ∧ (waitFor s k b).ten = s.ten ∧
    (waitFor s k b).shb = s.shb ∧ (waitFor s k b).cfl = s.cfl := by
  simp only [waitFor, setSes_frame, and_self]

/-- HOLD_L in SERVE with no relation starts a full save (R27, R31, R109). -/
theorem holdL_fullSave (s : State) (up : s.aon.por = .up) (hi : s.aon.img = .none) (h : s.aon.hold = .serve) (hv : s.nand.prov ≠ .running) :
    Completes .holdLLow s fun u => ∃ v, u.map.save = some v ∧ v.full = true := by
  refine trigger_completes (.holdLLow, .pin) (List.mem_cons_self ..) s up (by simp [h]) (by simp [h]) _ fun u at_ => ?_
  obtain ⟨w, hw, img, -⟩ := unplanned_starts u .pin (.inl ⟨at_.hold.trans h, by simp [at_.img, hi], by rw [at_.nand]; exact hv⟩)
  obtain ⟨v, hs, fresh⟩ := startSave_save w false .pin
  exact ⟨v, by rw [hw, hs], by simp [fresh.full, img, at_.img, hi]⟩

/-- Its work on the line of its session, whose wait goes on until the record has committed (R300, R309). -/
theorem discardWork (s : State) (k : Sess) :
    workOn s k .discard (fun s => startRim (discardImage s) (blankRim (discardImage s) .discard) (.discardRim (some k))) =
      (startRim (discardImage (waitFor s k .discard)) (blankRim (discardImage (waitFor s k .discard)) .discard) (.discardRim (some k)),
        .wait .discard) := by
  have busy : (getSes (startRim (discardImage (waitFor s k .discard)) (blankRim (discardImage (waitFor s k .discard)) .discard)
      (.discardRim (some k))) k).busy = some .discard := by
    show (getSes (discardImage (waitFor s k .discard)) k).busy = _
    rw [discardImage_busy, waitFor, getSes_setSes]
  unfold workOn
  simp only [busy]

end Sys2Proof.Machine

open Sys2Proof Sys2Proof.Machine

/-- Settles O51: each verb that may run is its request's effect on the session's line, with its answer. -/
theorem holdVerbs : Obligations.HoldVerbs := by
  unfold Obligations.HoldVerbs
  refine ⟨fun k s h hi hr ha hs => ⟨_, rfl, ?_⟩, fun k s h => ⟨_, rfl, ?_⟩, fun k s h hl hm => ⟨_, rfl, ?_⟩, fun k s h => ⟨_, rfl, ?_⟩,
    fun k n s h hn hx hc => ⟨_, rfl, ?_⟩, fun k r s h hi hq hc hg hs => ⟨_, rfl, ?_⟩, fun k s h => ⟨_, rfl, ?_⟩,
    fun k s h hi hu hp => ⟨_, rfl, ?_⟩, fun k s h => ⟨_, rfl, ?_⟩, fun k a b c d s h h1 h2 h3 h4 h5 h6 hc => ⟨_, rfl, ?_⟩⟩
  · obtain ⟨ready, -, hold⟩ := mayRun_ready h
    obtain ⟨t, req, hold', cause, settle, img, rims, dram, cfl, ten, pins⟩ := parkRequest_accepted (lineStart s k) (verbCause k)
      (by simpa using hold) (by simpa using hi) (by simpa using hr) ha hs
    have line : parkVerb k (lineStart s k) = (t, .line (OK [("state", .kw "PARK"), ("cover", coverVal t)])) := by
      rw [parkVerb, verb_onLine k .run _ [.serve] _ _ s h (by decide) rfl, req]
      rfl
    rw [onVerb_line (.park k) false ready line]
    have said := respond_said t k (OK [("state", .kw "PARK"), ("cover", coverVal t)])
    simp only [respond_frame, coverVal, hold', cause, settle, img, rims, dram, cfl, ten, pins, lineStart_frame, true_and, and_true] at said ⊢
    exact ⟨rfl, said⟩
  · obtain ⟨ready, -, hold⟩ := mayRun_ready h
    refine onVerb_answers _ _ ready ?_
    have park : s.aon.hold = .park := by simpa using hold
    rw [parkVerb, verb_onLine k .run _ [.park] _ _ s h (by decide) rfl]
    simp only [parkRequest, lineStart_frame, park]
    rfl
  · obtain ⟨ready, -, hold⟩ := mayRun_ready h
    have park : s.aon.hold = .park := by simpa using hold
    have line : parkCancelVerb k (lineStart s k) = (endPark (lineStart s k), .line (OK [("state", .kw "SERVE")])) := by
      rw [parkCancelVerb, verb_onLine k .run _ [.park] _ _ s h (by decide) rfl, if_pos (by simpa using park)]
      rfl
    obtain ⟨serve, cause, alarm, img, rims, dram, cfl⟩ := endPark_fit (lineStart s k) (by simpa using park) hl hm
    rw [onVerb_line (.parkCancel k) false ready line]
    simp only [respond_frame, serve, cause, alarm, img, rims, dram, cfl, lineStart_frame, true_and, and_true]
    exact respond_said _ _ _
  · obtain ⟨ready, -, hold⟩ := mayRun_ready h
    have serve : s.aon.hold = .serve := by simpa using hold
    refine onVerb_answers _ _ ready ?_
    rw [parkCancelVerb, verb_onLine k .run _ [.serve] _ _ s h (by decide) rfl, if_neg (by simp [serve])]
    rfl
  · obtain ⟨ready, -, -⟩ := mayRun_ready h
    refine onVerb_answers _ _ ready ?_
    have low : ¬n < 1000000000 := by omega
    have high : ¬600000000000 < n := by omega
    rw [parkSetVerb, verb_onLine k .keep _ [.serve, .park, .fault] _ _ s h (by decide)
      (by simp [firstOf, outOf, low, high, cfgGuard_lineStart, hc])]
    rfl
  · obtain ⟨ready, -, hold⟩ := mayRun_ready h
    have serve : s.aon.hold = .serve := by simpa using hold
    refine onVerb_answers _ _ ready ?_
    have req := restoreRequest_accepted (lineStart s k) (verbCause k) k r (by simpa using serve) (by simpa using hi) (by simpa using hq) hc
      (by simpa using hg) hs
    rw [restoreVerb, verb_onLine k .run _ [.serve] _ _ s h (by decide) rfl, req]
    exact congrArg (fun u => (u, Reply.line _)) (noteIssue_lineStart _ _ k .restore rfl)
  · obtain ⟨ready, -, hold⟩ := mayRun_ready h
    refine onVerb_answers _ _ ready ?_
    rw [restoreCancelVerb, verb_onLine k .run _ [.serve] _ _ s h (by decide) rfl]
    rfl
  · obtain ⟨ready, -, hold⟩ := mayRun_ready h
    have serve : s.aon.hold = .serve := by simpa using hold
    obtain ⟨t, req, run, aon, rims, dram⟩ := settleStartReq_started (lineStart s k) (by simpa using serve) (by simpa using hi) hu (by simpa using hp)
    have line : settleStartVerb k (lineStart s k) = (t, .line (OK [("settle", .nat 1)])) := by
      rw [settleStartVerb, verb_onLine k .run _ [.serve] _ _ s h (by decide) rfl, req, settleAnswer]
      simp only [run]
      rfl
    rw [onVerb_line (.settleStart k) false ready line]
    simp only [respond_frame, run, aon, rims, dram, lineStart_frame, true_and, and_true]
    exact respond_said _ _ _
  · obtain ⟨ready, -, hold⟩ := mayRun_ready h
    have serve : s.aon.hold = .serve := by simpa using hold
    have ans : Answered (stopSettle s) (onVerb s k (.settleStop k) false (settleStopVerb k)) k (OK [("settle", .nat 0)]) := by
      refine onVerb_answers _ _ ready ?_
      rw [settleStopVerb, verb_onLine k .run _ [.serve] _ _ s h (by decide) rfl]
      simp only [settleStopReq, lineStart_frame, serve]
      rfl
    have nand : (onVerb s k (.settleStop k) false (settleStopVerb k)).nand = (stopSettle s).nand := by rw [ans.2.2.2]
    simp only [nand, dieOf]
    refine ⟨ans, by simp only [stopSettle_frame], by simp [stopSettle], stopSettle_die s⟩
  · obtain ⟨ready, -, -⟩ := mayRun_ready h
    refine onVerb_answers _ _ ready ?_
    have fine : settleSetBad a b c d = false := by
      simp only [settleSetBad, outOf, Bool.or_eq_false_iff, decide_eq_false_iff_not]
      omega
    rw [settleSetVerb, verb_onLine k .keep _ [.serve, .fault] _ _ s h (by decide) (by simp [firstOf, fine, cfgGuard_lineStart, hc])]
    rfl

/-- Settles O50: the acceptance drops the relation and sets every dirty bit, so that the next save, with no relation, is full. -/
theorem restoreDiscardMakesTheNextSaveFull : Obligations.RestoreDiscardMakesTheNextSaveFull := by
  unfold Obligations.RestoreDiscardMakesTheNextSaveFull
  intro k s h hi hd
  obtain ⟨ready, -, hold⟩ := mayRun_ready h
  have serve : s.aon.hold = .serve := by simpa using hold
  obtain ⟨img, dirty, geom, held, rims, cfl, ten⟩ := discardImage_keeps (waitFor (lineStart s k) k .discard)
  have line := discardWork (lineStart s k) k
  have none : discarding (lineStart s k) = false := hd
  have run : restoreDiscardVerb k (lineStart s k) = (_, .wait .discard) :=
    (verb_onLine k .keep _ [.serve] _ _ s h (by decide) (by simp [firstOf, none, hi])).trans line
  refine ⟨_, rfl, ?_⟩
  rw [onVerb_waits (.restoreDiscard k) false ready run]
  refine ⟨?_, ?_, ?_, ?_, by rw [getSes_setSes], ?_, ?_, ?_, fun up fresh => holdL_fullSave _ up ?_ ?_ fresh⟩ <;>
    simp only [setSes_frame, startRim, img, dirty, geom, held, rims, cfl, ten, allGranules, waitFor_frame, lineStart_frame, serve]

end

section
/-! REFUTATION. What DOMAIN DISABLE FORCE does in a state whose rim commit cannot be (R61, R176). -/

namespace Sys2Proof.Machine

/-- FAULT, channel 0 on with both rings' dies on it and no other die to move to, the commit of a closing SAVE record still under way, and
S0 open at KEEP. No run leaves FAULT with that record (it is RESTORE's, R175), but the statement takes every state. -/
def forcedWithoutRings : State :=
  { State.reset with
    aon := { State.reset.aon with hold := .fault }
    doms := { State.reset.doms with dom := upd State.reset.doms.dom 12 (fun x => { x with mode := .on }) }
    nand := { State.reset.nand with
      profile := { State.reset.nand.profile with minStripe := 0 }
      rimJob := some { rim := blankRim State.reset .save, use := .zeroSave, a := freshCopy 0 0, b := freshCopy 0 0, dwell := false } }
    mg := { State.reset.mg with ses := upd State.reset.mg.ses 0 (fun q => { q with isOpen := true, priv := .keep }) } }

/-- The channel's loss leaves the record no ring: the entry to HELD that ends it takes the state out of FAULT. -/
theorem forcedWithoutRings_held :
    (onVerb forcedWithoutRings 0 (.domainDisableForce 0 12) false (domainDisableForceVerb 0 12)).aon.hold = .held := by
  decide +kernel

end Sys2Proof.Machine

open Sys2Proof Sys2Proof.Machine

/-- Refutes O59: its clause on FORCE keeps FAULT in FAULT, but in FAULT with a closing SAVE record under way, on rings that have no other
place, FORCE of the rings' channel ends in HELD. -/
theorem not_domainAndResetVerbs : ¬ Obligations.DomainAndResetVerbs := by
  unfold Obligations.DomainAndResetVerbs
  rintro ⟨-, -, force, -⟩
  have may : mayRun forcedWithoutRings 0 .keep [.serve, .fault] = true := by decide +kernel
  have free : domainRequired forcedWithoutRings 12 = false := by decide +kernel
  have on : isOn forcedWithoutRings 12 = true := by decide +kernel
  obtain ⟨t, run, hold, -⟩ := force 0 12 forcedWithoutRings may free on
  obtain rfl : onVerb forcedWithoutRings 0 (.domainDisableForce 0 12) false (domainDisableForceVerb 0 12) = t := Host.Outcome.next.inj run
  rw [forcedWithoutRings_held] at hold
  obtain hold | ⟨-, hold⟩ := hold <;> cases hold

end

section
/-! LAW. The steps of a restore and of the handback (R102, R163-R172). -/

namespace Sys2Proof.Machine

theorem withRun_restore (s : State) (f : RestoreRun → State) (r : RestoreRun) (h : s.aon.hold = .restore) (hr : s.rst.run = some r) :
    withRun s f = f r := by
  simp only [withRun, hr, h, if_true]

theorem handPhase_restore (s : State) (p : TakePhase) (f : State → State) (h : s.aon.hold = .restore) (hp : s.hp.phase = p) :
    handPhase s p f = f s := if_pos ⟨hp, h⟩

/-- The state in which a restore whose image stood hands over to SERVE (R171, R172). -/
def restored (s : State) (r : RestoreRun) : State :=
  { s with
    aon := { s.aon with img := .track, stale := false }
    map := { s.map with dirty := redirty s r }
    hp := { s.hp with filter := [] }
    nand := { s.nand with chosen := none, rimfb := false, dramSr := false }
    rst := { req := none, run := none, report := some (makeReport s r) } }

theorem finishRestore_eq (s : State) (r : RestoreRun) (h : r.imageLost = false) :
    finishRestore s r = noticeGeneral (logEv (enterServe (restored s r)) 0 .noticeSent)
      (EVT (("restore", .kw "done") :: reportFields (makeReport s r))) := by
  simp only [finishRestore, h, Bool.false_eq_true, if_false, restored]

/-- T16 leaves the rims and the code flash, and the DRAM unless the host holds DRST_L low, which also ends TRACK (R31, R84, R172). -/
theorem finishRestore_keeps (s : State) (r : RestoreRun) (hh : s.aon.hold = .restore) (hi : r.imageLost = false) (hb : s.pins.bulk ≠ .droop) :
    ((finishRestore s r).aon.hold = .serve ∨ (finishRestore s r).aon.hold = .fault) ∧
    (finishRestore s r).aon.img = (if s.pins.drstHigh = true then .track else .none) ∧ (finishRestore s r).aon.stale = false ∧
    (finishRestore s r).rst.run = none ∧ (finishRestore s r).rst.req = none ∧
    (finishRestore s r).rst.report = some (makeReport s r) ∧ (finishRestore s r).nand.rims = s.nand.rims ∧
    (s.pins.drstHigh = true → (finishRestore s r).nand.dram = s.nand.dram) ∧ (finishRestore s r).cfl = s.cfl := by
  have hr : ready (restored s r) = false := by simp only [ready, restored, hh]
  obtain ⟨hold, -, img, -, stale, rims, dram, cfl, report, run, req⟩ := enterServe_keeps (restored s r) hb
  rw [finishRestore_eq s r hi]
  simp only [noticeGeneral_frame, logEv_frame]
  refine ⟨hold, ?_, stale, run rfl, req rfl, report, rims, fun hd => ?_, cfl⟩
  · have hp : (restored s r).pins.drstHigh = s.pins.drstHigh := rfl
    have ht : (restored s r).aon.img = .track := rfl
    rw [img]
    simp only [serveEntry_keeps, hr, hp, ht, and_true]
    cases s.pins.drstHigh <;> rfl
  · have hp : (restored s r).pins.drstHigh = true := hd
    rw [dram, serveEntry_dram _ (by rw [hr, hp]; rfl)]
    rfl

/-- The handback's self-refresh entry takes every rank of both subchannels (R102). -/
theorem mem_allRanks (n : Nat) (x : Sub) (k : Rank) :
    (x, k) ∈ [Sub.a, Sub.b].flatMap (fun x => ((allFin 16).filter (fun r => r.val < n)).map (fun r => (x, r))) ↔ k.val < n := by
  cases x <;> simp [allFin]

/-- A record that does not pass gives way to the other retained one, which does (R163). -/
theorem restoreLoadDone_fallback (s : State) (r : RestoreRun) (x : Rim) (bd : List (ℕ × Bool)) (bt : List (ℕ × ℕ)) (h : s.aon.hold = .restore)
    (hr : s.rst.run = some r) (hl : r.loaded = false) (hp : recordPasses s bd bt r.rim = false) (ho : otherRim s r.rim = some x)
    (hx : recordPasses s bd bt x = true) :
    Completes (.restoreLoadDone bd bt) s fun t => t.aon = { s.aon with stale := true } ∧ t.nand.chosen = some x.seq ∧
      (∃ y, t.rst.run = some y ∧ y.rim = x ∧ y.stale = true ∧ y.rimfb = true ∧ y.loaded = true) ∧ t.nand.rims = s.nand.rims ∧
      t.nand.dram = s.nand.dram := by
  refine ⟨_, rfl, ?_⟩
  simp only [withRun_restore s _ r h hr, hl, hp, ho, Option.filter, hx, Bool.false_eq_true, if_false, if_true, setRun, logEv_frame, true_and]
  exact ⟨⟨_, rfl, rfl, rfl, rfl, rfl⟩, trivial⟩

/-- The end of the zero fill empties the granules that nothing supplied and starts the record that closes the restore (R165, R166, R168). -/
theorem zeroFillEnd_starts (s : State) (r : RestoreRun) (h : s.aon.hold = .restore) (hr : s.rst.run = some r) (ht : r.takeoverDone = true)
    (hs : r.streamDone = true) (hz : r.zeroDone = false) :
    Completes .zeroFillEnd s fun t =>
      t.nand.dram = s.nand.dram.fill (if r.short = true then zeroedGranules s r else rsUnion (zeroedGranules s r) r.lost) .zero ∧
      t.hp = { s.hp with phase := .dataEnd } ∧ (∃ x, t.rst.run = some x ∧ x.zeroDone = true) ∧
      (∃ j, t.nand.rimJob = some j ∧ j.use = .restoredRim ∧ (r.imageLost = false → j.rim.type = .restored)) ∧ t.nand.rims = s.nand.rims ∧
      t.aon = s.aon := by
  refine ⟨_, rfl, ?_⟩
  simp only [withRun_restore s _ r h hr, ht, hs, hz, Bool.and_self, Bool.not_false, if_true]
  refine ⟨rfl, rfl, ⟨_, rfl, rfl⟩, ⟨_, rfl, rfl, fun hi => ?_⟩, rfl, rfl⟩
  simp only [hi, Bool.false_eq_true, if_false]
  rfl

end Sys2Proof.Machine

open Sys2Proof Sys2Proof.Machine

/-- Settles O36, one phase after the other. -/
theorem restoreAndHandback : Obligations.RestoreAndHandback := by
  unfold Obligations.RestoreAndHandback
  refine ⟨fun r bd bt s h hr hl => ⟨fun hp => ?_, fun x hp ho hx => restoreLoadDone_fallback s r x bd bt h hr hl hp ho hx⟩,
    fun r s h hr ht hl hs hd hn hp => ?_, fun r s h hr hs hd => ?_, fun r s h hr ht hs hz => zeroFillEnd_starts s r h hr ht hs hz,
    fun s h hp => ?_, fun s h hp => ?_, fun r s h hp hr => ?_, fun r s h hp hr => ?_, fun r s h hp hr hd => ⟨fun hc => ?_, fun hc => ?_⟩,
    fun r s h hp hr hi hb => ?_⟩
  · show Host.Outcome.next (withRun s _) = _
    simp only [withRun_restore s _ r h hr, hl, hp, Bool.false_eq_true, if_false, if_true]
    rfl
  · show Host.Outcome.next (withRun s _) = _
    simp only [withRun_restore s _ r h hr, ht, hl, hs, hd, hn, hp, Bool.not_false, Bool.and_self, decide_true, if_true]
    rfl
  · refine ⟨_, rfl, ?_⟩
    simp only [withRun_restore s _ r h hr, hs, hd, Bool.not_false, Bool.and_self, if_true]
    exact ⟨rfl, ⟨_, rfl, rfl, rfl, rfl, rfl⟩, rfl⟩
  · exact congrArg Host.Outcome.next (handPhase_restore s _ _ h hp)
  · exact congrArg Host.Outcome.next (handPhase_restore s _ _ h hp)
  · show Host.Outcome.next (handPhase s _ _) = _
    simp only [handPhase_restore s _ _ h hp, hr]
  · refine ⟨_, rfl, ?_⟩
    simp only [handPhase_restore s _ _ h hp, hr]
    exact ⟨rfl, rfl, mem_allRanks _, rfl, rfl⟩
  · show Host.Outcome.next (handPhase s _ _) = _
    simp only [handPhase_restore s _ _ h hp, withRun_restore s _ r h hr, hd, hc, Bool.and_self, if_true]
    rfl
  · show Host.Outcome.next (handPhase s _ _) = _
    simp only [handPhase_restore s _ _ h hp, withRun_restore s _ r h hr, hc, Option.isSome_none, Bool.and_false, Bool.false_eq_true, if_false]
  · obtain ⟨hold, img, stale, run, req, report, keeps⟩ := finishRestore_keeps s r h hi hb
    refine ⟨_, rfl, ?_⟩
    rw [handPhase_restore s _ _ h hp, withRun_restore s _ r h hr]
    exact ⟨hold, img, stale, run, req, ⟨_, report, rfl, rfl, rfl, rfl⟩, keeps⟩

end

section
/-! LAW. The commit of a rim record (R113, R125, R140-R142, R149-R157). -/

namespace Sys2Proof.Machine

/-! ## Sets of granules -/

theorem rsMem_rsSub (r : RangeSet) (lo hi g : Nat) : rsMem (rsSub r lo hi) g = (rsMem r g && !decide (lo ≤ g ∧ g < hi)) := by
  induction r with
  | nil => rfl
  | cons p t ih =>
    obtain ⟨a, b⟩ := p
    have app : ∀ x y : RangeSet, rsMem (x ++ y) g = (rsMem x g || rsMem y g) := fun x y => List.any_append
    have one : ∀ x y : Nat, rsMem (if x < y then [(x, y)] else []) g = decide (x ≤ g ∧ g < y) := fun x y => by
      split
      · simp [rsMem]
      · simp only [rsMem, List.any_nil, false_eq_decide_iff]
        omega
    rw [rsSub, app, app, one, one, ih, rsMem_cons, Bool.eq_iff_iff]
    simp only [Bool.or_eq_true, Bool.and_eq_true, decide_eq_true_eq, Bool.not_eq_true', decide_eq_false_iff_not]
    cases rsMem t g <;> simp only [Bool.false_eq_true, or_false, or_true, true_and, false_and] <;> omega

/-- A difference holds only what the first set holds. -/
theorem rsDiff_subset (q : RangeSet) : ∀ (r : RangeSet) (g : Nat), rsMem r g = false → rsMem (rsDiff r q) g = false := by
  induction q with
  | nil => exact fun r g h => h
  | cons p t ih =>
    refine fun r g h => ih _ g ?_
    dsimp only
    split
    · rw [rsMem_rsSub, h]
      rfl
    · exact h

/-- A difference holds nothing of the second set. -/
theorem rsDiff_removes (q : RangeSet) : ∀ (r : RangeSet) (g : Nat), rsMem q g = true → rsMem (rsDiff r q) g = false := by
  induction q with
  | nil => exact fun r g h => nomatch h
  | cons p t ih =>
    intro r g h
    obtain ⟨a, b⟩ := p
    rw [rsMem_cons, Bool.or_eq_true, decide_eq_true_eq] at h
    obtain ⟨ha, hb⟩ | h := h
    · refine rsDiff_subset t _ g ?_
      dsimp only
      rw [if_pos (show a < b by omega), rsMem_rsSub, decide_eq_true ⟨ha, hb⟩, Bool.not_true, Bool.and_false]
    · exact ih _ g h

/-! ## Groups and dies -/

/-- A group's row names the group. -/
theorem groupOf_named (s : State) (d : Die) (b : Nat) : (groupOf s d b).die = d ∧ (groupOf s d b).block = b := by
  unfold groupOf
  split
  · rename_i found
    simpa using List.find?_some found
  · exact ⟨rfl, rfl⟩

theorem groupOf_setGroup (s : State) (g : Group) (d : Die) (b : Nat) (hd : g.die = d) (hb : g.block = b) :
    groupOf (setGroup s g) d b = g := by
  simp only [groupOf, setGroup, List.find?_cons, hd, hb, decide_true, and_self]

theorem groupOf_advancePage (s : State) (p : Page) : (groupOf (advancePage s p) p.die p.block).wp = p.page + 1 := by
  obtain ⟨hd, hb⟩ := groupOf_named s p.die p.block
  exact congrArg Group.wp (groupOf_setGroup _ { groupOf s p.die p.block with wp := p.page + 1, role := _ } _ _ hd hb)

theorem setRing_array (s : State) (b : Bool) (r : Ring) : ArrayStep s (setRing s b r) := by
  cases b <;> constructor <;> rfl

theorem setRing_groups (s : State) (b : Bool) (r : Ring) : (setRing s b r).nand.groups = s.nand.groups := by
  cases b <;> rfl

theorem groupOf_congr {s t : State} (h : t.nand.groups = s.nand.groups) (d : Die) (b : Nat) : groupOf t d b = groupOf s d b := by
  simp only [groupOf, h]

theorem useRingPage_array (s : State) (b : Bool) (q : Nat) (p : Page) : ArrayStep s (useRingPage s b q p) :=
  (advancePage_array s p).trans (setRing_array _ b _)

theorem addGrown_array (s : State) (cause : Nat) (d : Die) (plane b : Nat) : ArrayStep s (addGrown s cause d plane b) := by
  unfold addGrown
  dsimp only
  split
  · constructor <;> simp only [logEv_frame]
  · constructor <;> simp only [writeArea_frame]

theorem buryGroup_array (s : State) (g : Group) : ArrayStep s (buryGroup s g) := (setGroup_array s _).trans (addGrown_array _ _ _ _ _)

theorem pruneLayers_array (s : State) : ArrayStep s (pruneLayers s) := by constructor <;> rfl

theorem reclaim_array (s : State) (fold : Bool) : ArrayStep s (reclaim s fold) := by
  refine (pruneLayers_array s).trans (foldl_arrayStep _ (fun u g => ?_) _ _)
  dsimp only
  split
  · exact ite_arrayStep (.refl u) (setRole_array u _ _ _)
  · exact ite_arrayStep (.refl u) (setRole_array u _ _ _)
  · exact ite_arrayStep (buryGroup_array u g) (.refl u)
  · exact .refl u

/-! ## What a commit does -/

/-- The proofs that a record carries end the erases: the notices go out, and nothing of the machine but its jobs changes (R189, R190). -/
@[simp] theorem proveErases_keeps (s : State) (r : Rim) :
    (proveErases s r).aon = s.aon ∧ (proveErases s r).nand = s.nand ∧ (proveErases s r).map = s.map ∧ (proveErases s r).cfl = s.cfl := by
  unfold proveErases
  refine ⟨?_, ?_, ?_, ?_⟩ <;> simp only [foldl_aon, foldl_nand, foldl_map, foldl_cfl, noticeIssuer_frame, logEv_frame, implies_true]

/-- The groups whose erase a record checkpoints are FREE (R157). -/
def freeErased (s : State) : State :=
  s.nand.erased.foldl (fun s x =>
    setGroup s { groupOf s x.1 x.2 with role := .free, erases := (groupOf s x.1 x.2).erases + 1, wp := 0 }) s

theorem freeErased_array (s : State) : ArrayStep s (freeErased s) := foldl_arrayStep _ (fun u _ => setGroup_array u _) _ _

/-- The record as its commit completes it (R140). -/
def completed (s : State) (r : Rim) : Rim :=
  { r with checkpoint := s.nand.groups, warp := s.warp.ns, ndieM1 := (usableDies s).length - 1
           volatile_ := tenantsWith s attrVolatile, cont := r.cont && s.aon.cont }

/-- The record stands, before the erases that it proves end (R142, R151). -/
def recordStands (s : State) (r : Rim) : State :=
  logEv { s with
    nand := { s.nand with
      rims := r :: s.nand.rims, rimJob := none, rimfb := false, erased := []
      bbtTab := if r.dir.any (fun t => t.type = 7 && !t.reused) then (s.nand.bbt, s.nand.bbtGen) else s.nand.bbtTab }
    aon := { s.aon with nandDiverged := false, aonLost := false, failedSave := false } } 8 .rimCommitted r.seq r.type.code

theorem commitRecord_eq (s : State) (r : Rim) :
    commitRecord s r =
      (let x := completed (freeErased s) r
       let t := proveErases (recordStands (freeErased s) x) x
       if r.type.image then reclaim t (r.type = .fold) else t) := rfl

/-- A record that commits stands on top of the rims; the relation, the DRAM and the code flash stay (R142, R151). -/
theorem commitRecord_keeps (s : State) (r : Rim) :
    (∃ x, (commitRecord s r).nand.rims = x :: s.nand.rims ∧ x.seq = r.seq ∧ x.type = r.type) ∧ (commitRecord s r).nand.rimJob = none ∧
    (commitRecord s r).aon = { s.aon with nandDiverged := false, aonLost := false, failedSave := false } ∧
    (commitRecord s r).nand.chosen = s.nand.chosen ∧ (commitRecord s r).nand.dram = s.nand.dram ∧ (commitRecord s r).cfl = s.cfl := by
  have freed := freeErased_array s
  have swept : ArrayStep (proveErases (recordStands (freeErased s) (completed (freeErased s) r)) (completed (freeErased s) r))
      (commitRecord s r) := by
    rw [commitRecord_eq]
    exact ite_arrayStep (reclaim_array _ _) (.refl _)
  rw [swept.rims, swept.rimJob, swept.aon, swept.chosen, swept.dram, swept.cfl]
  simp only [proveErases_keeps, recordStands, logEv_frame, freed.rims, freed.aon, freed.chosen, freed.dram, freed.cfl]
  exact ⟨⟨_, rfl, rfl, rfl⟩, trivial, trivial, trivial, trivial, trivial⟩

@[simp] theorem learnEnergy_keeps (s : State) (v : Save) (n : Nat) :
    (learnEnergy s v n).aon = s.aon ∧ (learnEnergy s v n).nand = s.nand ∧ (learnEnergy s v n).map.dirty = s.map.dirty := by
  have logged : ∀ (c : Prop) [Decidable c], (if c then logEv s 8 .saveEnergy else s).aon = s.aon ∧
      (if c then logEv s 8 .saveEnergy else s).nand = s.nand ∧ (if c then logEv s 8 .saveEnergy else s).map = s.map := fun c _ => by
    split
    · simp only [logEv_frame, and_self]
    · exact ⟨rfl, rfl, rfl⟩
  unfold learnEnergy
  simp only [logged, and_self]

/-- A save's record leads to HELD, the image pending on it, its granules clean (R31, R113, R125). -/
theorem commitSave_keeps (s : State) (r : Rim) (v : Save) (h : s.map.save = some v) :
    (commitSave s r).aon.hold = .held ∧ (commitSave s r).aon.img = .pending ∧ (commitSave s r).aon.stale = false ∧
    (commitSave s r).nand.chosen = some r.seq ∧ (commitSave s r).map.save = none ∧
    (∃ x, (commitSave s r).nand.rims = x :: s.nand.rims ∧ x.seq = r.seq) ∧ (commitSave s r).nand.rimJob = none ∧
    (∀ g, rsMem v.committed g = true → rsMem (commitSave s r).map.dirty g = false) := by
  obtain ⟨⟨x, hx, hs, -⟩, -⟩ := commitRecord_keeps (addLayer s v) { r with usedDies := imageDies (addLayer s v) r }
  simp only [commitSave, h, enterHeld_keeps, learnEnergy_keeps, true_and]
  refine ⟨⟨x, hx, hs⟩, fun g hg => rsDiff_subset _ _ g (rsDiff_removes _ _ g hg)⟩

/-- A copy that is on its die takes the end of its program (R142). -/
theorem rimProgramDone_open (s : State) (b pass : Bool) (j : RimJob) (p : Page) (hj : s.nand.rimJob = some j)
    (hp : (getCopy j b).programmed = false) (hg : (getCopy j b).page = some p) (ho : (dieOf s (getCopy j b).die).op = .busy (.rim b p)) :
    rimProgramDone s b pass =
      (let t := setOp (useRingPage s b j.rim.seq p) (getCopy j b).die .idle
       if pass then
         let i := setCopy j b { getCopy j b with programmed := true }
         { t with nand := { t.nand with rimJob := some { i with dwell := i.a.programmed && i.b.programmed } } }
       else copyFails t j b) := by
  simp only [rimProgramDone, hj, hg, hp, ho, Bool.false_eq_true, ne_eq, not_true_eq_false, or_self, if_false]

/-- Both copies within the margin: the record commits, and what waits for it follows (R142, R148, R190). -/
theorem rimMarginDone_commits (s : State) (j : RimJob) (a b : MarginRead) (hj : s.nand.rimJob = some j) (hd : j.dwell = false)
    (ha : j.a.programmed = true) (hb : j.b.programmed = true) (ma : marginPasses s.nand.profile a = true)
    (mb : marginPasses s.nand.profile b = true) :
    rimMarginDone s a b = rimCommits s { j with a := { j.a with passed := true }, b := { j.b with passed := true } } := by
  simp only [rimMarginDone, hj, hd, ha, hb, ma, mb, Bool.or_true, Bool.not_true, Bool.or_self, Bool.false_eq_true, Bool.and_self, if_false,
    if_true]

/-- In HELD no proof and no fold follows a record. -/
theorem held_rests (s : State) (h : s.aon.hold = .held) : closeFolds (startProof s) = s := by
  have proof : startProof s = s := if_neg (by simp [h])
  rw [proof]
  exact if_pos (.inl (by simp [h]))

end Sys2Proof.Machine

open Sys2Proof Sys2Proof.Machine

/-- Settles O33: the two copies, the wait, and the two kinds of commit that it names. -/
theorem rimCommit : Obligations.RimCommit := by
  unfold Obligations.RimCommit
  refine ⟨fun b j p s hj hp hg ho => ⟨_, rfl, ?_⟩, fun b j p s hj hp hg ho ht => ⟨_, rfl, ?_⟩, fun j s hj => ?_,
    fun j a b s hj hd ha hb hu ma mb => ⟨_, rfl, ?_⟩, fun j v a b s hj hd ha hb hu hv ma mb => ⟨_, rfl, ?_⟩⟩
  · have used := (useRingPage_array s b j.rim.seq p).trans (setOp_array _ (getCopy j b).die .idle)
    rw [rimProgramDone_open s b true j p hj hp hg ho]
    refine ⟨⟨_, rfl, ?_⟩, ?_, ?_, used.rims, used.aon, used.dram, used.cfl⟩
    · cases b <;> simp [setCopy, getCopy]
    · exact congrArg DieSt.op (dieOf_setDie (useRingPage s b j.rim.seq p) (getCopy j b).die (fun x => { x with op := .idle }))
    · exact (congrArg Group.wp (groupOf_congr (setRing_groups _ b _) _ _)).trans (groupOf_advancePage s p)
  · have used := (useRingPage_array s b j.rim.seq p).trans (setOp_array _ (getCopy j b).die .idle)
    rw [rimProgramDone_open s b false j p hj hp hg ho]
    simp only [Bool.false_eq_true, if_false, copyFails, ht, if_true, againCopy, used.rimJob, hj, used.rims, used.aon, and_true]
    refine ⟨_, rfl, ?_⟩
    cases b <;> exact ⟨rfl, rfl, rfl, rfl, rfl⟩
  · show Host.Outcome.next (rimDwellEnd s) = _
    simp only [rimDwellEnd, hj]
  · have commit := commitRecord_keeps s { j.rim with copyA := j.a.page, copyB := j.b.page, ringDies := (s.nand.ringA.die, s.nand.ringB.die) }
    obtain ⟨rims, job, aon, -, dram, cfl⟩ := commit
    rw [rimMarginDone_commits s j a b hj hd ha hb ma mb]
    simp only [rimCommits, hu]
    have after := (startProof_array _).trans (closeFolds_array (startProof (commitRecord s
      { j.rim with copyA := j.a.page, copyB := j.b.page, ringDies := (s.nand.ringA.die, s.nand.ringB.die) })))
    rw [after.rims, after.rimJob, after.aon, after.dram, after.cfl]
    exact ⟨rims, job, by rw [aon], by rw [aon], by rw [aon], dram, cfl⟩
  · have commit := commitSave_keeps s { j.rim with copyA := j.a.page, copyB := j.b.page, ringDies := (s.nand.ringA.die, s.nand.ringB.die) } v hv
    rw [rimMarginDone_commits s j a b hj hd ha hb ma mb]
    simp only [rimCommits, hu]
    rw [held_rests _ commit.1]
    exact commit

end

section
/-! LAW. What the loss of a NAND channel leaves unchanged (R56, R67, R141, R364, R415). -/

namespace Sys2Proof.Machine

/-! ## The modes of the domains -/

theorem modeOf_dom (s : State) (d : Dom) : modeOf s d.val = (domOf s d).mode := dif_pos d.isLt

theorem domOf_congr {s t : State} (h : t.doms.dom = s.doms.dom) (d : Dom) : domOf t d = domOf s d := by
  simp only [domOf, h]

/-- Every domain reads the mode it had. -/
def SameModes (s t : State) : Prop := ∀ j, (domOf t j).mode = (domOf s j).mode

theorem SameModes.of_dom {s t : State} (h : t.doms.dom = s.doms.dom) : SameModes s t := fun j => by rw [domOf_congr h]

theorem SameModes.trans {s t u : State} (h : SameModes s t) (k : SameModes t u) : SameModes s u := fun j => (k j).trans (h j)

/-- A step that may be left out. -/
theorem SameModes.then_if {c : Prop} [Decidable c] {s u a : State} (h : SameModes s u) (k : SameModes u a) :
    SameModes s (if c then a else u) := by
  split
  · exact h.trans k
  · exact h

theorem foldl_sameModes {α : Type} (f : State → α → State) (h : ∀ u x, SameModes u (f u x)) (l : List α) (s : State) :
    SameModes s (l.foldl f s) := by
  induction l generalizing s with
  | nil => exact fun _ => rfl
  | cons x t ih => exact (h s x).trans (ih _)

theorem setDom_sameModes (s : State) (d : Dom) (f : DomSt → DomSt) (h : ∀ x, (f x).mode = x.mode) : SameModes s (setDom s d f) := fun j => by
  by_cases e : j = d
  · subst e
    rw [domOf_setDom, h]
  · rw [domOf_setDom_other _ _ _ _ e]

theorem abortWork_sameModes (s : State) (d : Dom) : SameModes s (abortWork s d) := by
  unfold abortWork
  refine foldl_sameModes _ (fun u n => ?_) _ _
  exact .of_dom rfl

theorem noticeDrain_sameModes (s : State) (d : Dom) (k : Option Sess) (x : Issue) (l : Line) :
    SameModes s (noticeIssuer (setRunDisable (setEnabled s d false) d true) k x l) :=
  (setDom_sameModes s d (fun x => { x with en := false }) fun _ => rfl).trans
    (.of_dom (by simp only [noticeIssuer_frame, setRunDisable_frame, setEnabled]))

/-- A change of one domain's mode: that domain reads it, the others what they did (R52). -/
theorem setMode_modes (s : State) (d : Dom) (m : DMode) :
    (domOf (setMode s d m) d).mode = m ∧ ∀ j, j ≠ d → (domOf (setMode s d m) j).mode = (domOf s j).mode := by
  by_cases h : (domOf s d).mode = m
  · rw [setMode, if_pos h]
    exact ⟨h, fun _ _ => rfl⟩
  · have enter : SameModes (setDom s d fun x => { x with
        mode := m, enabling := none, issuer := if m = .draining ∨ m = .stuck then x.issuer else none,
        failKind := if m = .failed then x.failKind else none }) (setMode s d m) := by
      unfold setMode
      rw [if_neg h]
      refine .then_if (.then_if (.then_if (.then_if (.then_if (.then_if (.then_if (.of_dom ?_) (.of_dom ?_)) (.of_dom rfl)) (.of_dom ?_))
        (abortWork_sameModes _ _)) (.of_dom rfl)) (.of_dom ?_)) (noticeDrain_sameModes _ _ _ _ _)
      · simp only [logPstate_frame]
      · simp only [leaveShb_frame]
      · simp only [darkWarp_frame]
      · simp only [enterShb_frame]
    refine ⟨(enter d).trans (by rw [domOf_setDom]), fun j hj => (enter j).trans (by rw [domOf_setDom_other _ _ _ _ hj])⟩

/-- A lane's reset is no business of the domains. -/
theorem wakeLanes_dom (before s : State) : (wakeLanes before s).doms.dom = s.doms.dom := by
  have reset : ∀ (u : State) (n : LaneId), (resetLane u n).doms.dom = u.doms.dom := fun u n => by
    unfold resetLane
    dsimp only
    split
    · rfl
    · simp only [logEv_frame]
  have fold : ∀ (l : List LaneId) (u : State), (l.foldl resetLane u).doms.dom = u.doms.dom := by
    intro l
    induction l with
    | nil => exact fun _ => rfl
    | cons n t ih => exact fun u => (ih _).trans (reset u n)
  exact fold _ _

/-- A column's modes: a domain that it leaves unpowered, unpowered before, stays so (R52). -/
theorem applyModes_unpowered (s : State) (f : State → Dom → DMode) (d : Dom) (hf : (f s d).powered = false)
    (h : (domOf s d).mode.powered = false) : (domOf (applyModes s f) d).mode.powered = false := by
  have fold : ∀ (l : List Dom) (u : State), (domOf u d).mode.powered = false →
      (domOf (l.foldl (fun s' x => if (domOf s' x).mode = .failed then s' else setMode s' x (f s x)) u) d).mode.powered = false := by
    intro l
    induction l with
    | nil => exact fun u hu => hu
    | cons x t ih =>
      refine fun u hu => ih _ ?_
      dsimp only
      split
      · exact hu
      · obtain ⟨self, other⟩ := setMode_modes u x (f s x)
        by_cases e : d = x
        · rw [← e] at self ⊢
          rw [self, hf]
        · rw [other d e, hu]
  unfold applyModes
  rw [domOf_congr ((settlePlls_dom _).1.trans ((wakeLanes_dom _ _).trans (settleLanes_dom _)))]
  exact fold _ s h

/-! ## The steps of a loss -/

/-- `t` is `s` after a channel's loss or a part of it: no rim goes, no NAND channel comes up, and with no operation under way the code
flash keeps every word (R67, R364). -/
structure ChannelStep (s t : State) : Prop where
  rims : t.nand.rims = s.nand.rims
  off : ∀ d : Dom, 12 ≤ d.val → (domOf s d).mode.powered = false → (domOf t d).mode.powered = false
  idle : currentOp s = none → currentOp t = none ∧ SameFlash s t

theorem ChannelStep.trans {s t u : State} (h : ChannelStep s t) (k : ChannelStep t u) : ChannelStep s u where
  rims := k.rims.trans h.rims
  off := fun d hd hs => k.off d hd (h.off d hd hs)
  idle := fun hs =>
    have ⟨ht, same⟩ := h.idle hs
    have ⟨hu, then_⟩ := k.idle ht
    ⟨hu, fun w => (then_ w).trans (same w)⟩

/-- A step that touches neither the rims nor the domains nor the code flash. -/
theorem ChannelStep.of_same {s t : State} (hr : t.nand.rims = s.nand.rims) (hd : t.doms.dom = s.doms.dom) (hc : t.cfl = s.cfl) :
    ChannelStep s t where
  rims := hr
  off := fun d _ h => by rw [domOf_congr hd, h]
  idle := fun h => ⟨by rw [← h]; simp only [currentOp, hc], fun w => by simp only [wordAt, hc]⟩

theorem ChannelStep.refl (s : State) : ChannelStep s s := .of_same rfl rfl rfl

theorem ArrayStep.channel {s t : State} (h : ArrayStep s t) : ChannelStep s t := .of_same h.rims (by rw [h.doms]) h.cfl

theorem foldl_channelStep {α : Type} (f : State → α → State) (h : ∀ u x, ChannelStep u (f u x)) (l : List α) (s : State) :
    ChannelStep s (l.foldl f s) := by
  induction l generalizing s with
  | nil => exact .refl s
  | cons x t ih => exact (h s x).trans (ih _)

theorem ite_channelStep {c : Prop} [Decidable c] {s a b : State} (ha : ChannelStep s a) (hb : ChannelStep s b) :
    ChannelStep s (if c then a else b) := by
  split
  · exact ha
  · exact hb

theorem logEv_channel (s : State) (d : Dom) (k : EvKind) (a b c e : Nat) : ChannelStep s (logEv s d k a b c e) :=
  .of_same (by simp only [logEv_frame]) (by simp only [logEv_frame]) (by simp only [logEv_frame])

/-- A column that brings no NAND channel up. -/
def KeepsChannelsOff (f : State → Dom → DMode) : Prop :=
  ∀ (s : State) (d : Dom), 12 ≤ d.val → (domOf s d).mode.powered = false → (f s d).powered = false

theorem applyModes_channel (s : State) (f : State → Dom → DMode) (hf : KeepsChannelsOff f) : ChannelStep s (applyModes s f) where
  rims := by simp only [applyModes_frame]
  off := fun d hd h => applyModes_unpowered s f d (hf s d hd h) h
  idle := fun h => ⟨by rw [← h]; simp only [currentOp, applyModes_frame], fun w => by simp only [wordAt, applyModes_frame]⟩

/-- The columns without a save set give a NAND channel no power. -/
theorem channel_ne {d : Dom} {n : Nat} (hd : 12 ≤ d.val) (hn : n < 12) : d ≠ Fin.ofNat 20 n := fun e => by
  have := congrArg Fin.val e
  simp at this
  omega

theorem modesDark_off : KeepsChannelsOff modesDark := fun s d hd _ => by
  have h0 : d ≠ 0 := channel_ne hd (n := 0) (by omega)
  have h1 : d ≠ 1 := channel_ne hd (n := 1) (by omega)
  simp only [modesDark, h0, h1, if_false, false_and, DMode.powered]

theorem modesHeldBulk_off : KeepsChannelsOff modesHeldBulk := fun s d hd _ => by
  have h0 : d ≠ 0 := channel_ne hd (n := 0) (by omega)
  have h1 : d ≠ 1 := channel_ne hd (n := 1) (by omega)
  have h5 : d ≠ 5 := channel_ne hd (n := 5) (by omega)
  have h6 : d ≠ 6 := channel_ne hd (n := 6) (by omega)
  simp only [modesHeldBulk, h0, h1, h5, h6, if_false, or_self, DMode.powered]

theorem modesHeldPack_off : KeepsChannelsOff modesHeldPack := fun s d hd _ => by
  have h0 : d ≠ 0 := channel_ne hd (n := 0) (by omega)
  have h5 : d ≠ 5 := channel_ne hd (n := 5) (by omega)
  have h6 : d ≠ 6 := channel_ne hd (n := 6) (by omega)
  simp only [modesHeldPack, h0, h5, h6, if_false, DMode.powered]

theorem modesServe_off : KeepsChannelsOff modesServe := fun s d hd h => by
  have h1 : d ≠ 1 := channel_ne hd (n := 1) (by omega)
  have h5 : d ≠ 5 := channel_ne hd (n := 5) (by omega)
  have ho : optional d = true := by simp [optional, hd]
  simp only [modesServe, h1, h5, or_self, if_false, ho, if_true, optKeep]
  revert h
  cases (domOf s d).mode <;> simp [DMode.powered]

theorem modesFault_off : KeepsChannelsOff modesFault := fun s d hd h => by
  have h0 : d ≠ 0 := channel_ne hd (n := 0) (by omega)
  have h1 : d ≠ 1 := channel_ne hd (n := 1) (by omega)
  have h7 : d ≠ 7 := channel_ne hd (n := 7) (by omega)
  by_cases hr : s.aon.boot.noRefclk = true
  · simp only [modesFault, hr, h0, h1, h7, if_true, if_false, false_and, DMode.powered]
  · rw [modesFault, if_neg hr]
    exact modesServe_off s d hd h

/-! ## HELD, DARK and FAULT -/

theorem powerDown_channel (s : State) : ChannelStep s (powerDown s) where
  rims := by simp only [powerDown_keeps]
  off := fun d _ h => by
    have mode : (domOf (powerDown s) d).mode = (domOf s d).mode := by
      simp only [powerDown, domOf, Vector.getElem_map, interruptCfl_frame, closeSessions_frame, dropRimJob_frame]
    rw [mode, h]
  idle := fun h => by
    have before : currentOp (closeSessions (dropRimJob s)) = none := by
      rw [← h]
      simp only [currentOp, closeSessions_frame, dropRimJob_frame]
    refine ⟨rfl, fun w => (interruptCfl_sameFlash _ before w).trans ?_⟩
    simp only [wordAt, closeSessions_frame, dropRimJob_frame]

/-- What ends at an entry to HELD or DARK, before the power goes (R31). -/
theorem ended_channel (s : State) : ChannelStep s (checkpointCells (stopArrays (dropRestore (abandonReload s)))) := by
  refine .of_same ?_ ?_ ?_ <;> simp only [checkpointCells_frame, stopArrays_frame, dropRestore_frame, abandonReload_frame]

theorem warpHold_channel (s : State) : ChannelStep s (warpHold s) := by
  refine .of_same ?_ ?_ ?_ <;> simp only [warpHold_frame]

theorem dramLost_channel (s : State) : ChannelStep s (dramLost s) := by
  refine .of_same ?_ ?_ ?_ <;> simp only [dramLost_frame]

theorem enterHeld_channel (s : State) : ChannelStep s (enterHeld s) := by
  refine (ended_channel s).trans ?_
  unfold enterHeld
  extract_lets a _ _ b c d _ e
  have marked : ChannelStep a { a with aon := { a.aon with hold := .held }, nand := { a.nand with dramSr := true } } := .of_same rfl rfl rfl
  have held : ChannelStep a b := marked.trans (powerDown_channel _)
  have modes : ChannelStep b c := by
    refine applyModes_channel b _ ?_
    split
    · exact modesHeldBulk_off
    · exact modesHeldPack_off
  have warp : ChannelStep c d := ite_channelStep (.refl c) (warpHold_channel c)
  clear_value d
  have qualified : ChannelStep d e := .of_same rfl rfl rfl
  exact (held.trans modes).trans ((warp.trans qualified).trans (ite_channelStep (.refl e) (dramLost_channel e)))

theorem enterDark_channel (s : State) : ChannelStep s (enterDark s) := by
  refine (ended_channel s).trans ?_
  unfold enterDark
  extract_lets a _ _ b c _ d
  have marked : ChannelStep a { a with aon := { a.aon with hold := .dark }, nand := { a.nand with dramSr := true } } := .of_same rfl rfl rfl
  have dark : ChannelStep a b := marked.trans (powerDown_channel _)
  have modes : ChannelStep b c := (applyModes_channel b _ modesDark_off).trans (warpHold_channel _)
  have qualified : ChannelStep c d := .of_same rfl rfl rfl
  exact (dark.trans modes).trans (qualified.trans (ite_channelStep (.refl d) (dramLost_channel d)))

theorem enterHeldOrDark_channel (s : State) (held : Bool) : ChannelStep s (enterHeldOrDark s held) :=
  ite_channelStep (enterHeld_channel s) (enterDark_channel s)

theorem faultMark_channel (s : State) (l : List FaultCause) : ChannelStep s (faultMark s l) := by
  unfold faultMark
  extract_lets a
  have job : ChannelStep s a := ite_channelStep (.refl s) (by refine .of_same ?_ ?_ ?_ <;> simp only [dropRimJob_frame])
  exact job.trans (.of_same rfl rfl rfl)

theorem faultPins_channel (s : State) : ChannelStep s (faultPins s) := .of_same rfl rfl rfl

theorem enterFault_channel (s : State) (l : List FaultCause) (n : Nat) : ChannelStep s (enterFault s l n) := by
  unfold enterFault
  extract_lets a b c
  have ended : ChannelStep s a := by
    have reload : ChannelStep s (abandonReload s) := by refine .of_same ?_ ?_ ?_ <;> simp only [abandonReload_frame]
    have dropped : ∀ u, ChannelStep u (dropRestore u) := fun u => by refine .of_same ?_ ?_ ?_ <;> simp only [dropRestore_frame]
    exact (ite_channelStep (.refl s) reload).trans (dropped _)
  have stopped : ChannelStep a (stopArrays a) := by refine .of_same ?_ ?_ ?_ <;> simp only [stopArrays_frame]
  have modes : ChannelStep b c := ((foldl_channelStep _ (fun u x => logEv_channel u _ _ _ _ _ _) l b).trans
    (applyModes_channel _ _ modesFault_off)).trans (faultPins_channel _)
  exact ((ended.trans stopped).trans (faultMark_channel _ l)).trans (modes.trans (ite_channelStep (enterHeldOrDark_channel c _) (.refl c)))

theorem saveFails_channel (s : State) (c : FaultCause) : ChannelStep s (saveFails s c) := by
  unfold saveFails
  extract_lets old _ _ t
  have marked : ChannelStep s t := .of_same rfl rfl rfl
  exact marked.trans ((logEv_channel t _ _ _ _ _ _).trans (enterFault_channel _ _ _))

theorem restoreFails_channel (s : State) : ChannelStep s (restoreFails s) := (logEv_channel s _ _ _ _ _ _).trans (enterFault_channel _ _ _)

theorem unarm_channel (s : State) (c : FaultCause) : ChannelStep s (unarm s c) :=
  ite_channelStep (enterFault_channel s _ _) (ite_channelStep (logEv_channel s _ _ _ _ _ _) (.refl s))

/-! ## Rings and rim copies -/

/-- The rim area is lost (R44). -/
theorem rimDead_channel (s : State) : ChannelStep s (unarm { s with nand := { s.nand with rimDead := true } } .rimArea) :=
  have dead : ChannelStep s { s with nand := { s.nand with rimDead := true } } := .of_same rfl rfl rfl
  dead.trans (unarm_channel _ _)

theorem rimImpossible_channel (s : State) (use : RimUse) : ChannelStep s (rimImpossible s use) := by
  have gone : ChannelStep s { s with nand := { s.nand with rimJob := none, tab := none } } := .of_same rfl rfl rfl
  have answered : ∀ u k l, ChannelStep u (answerBusy u k .discard l) := fun u k l => by
    refine .of_same ?_ ?_ ?_ <;> simp only [answerBusy_frame]
  refine gone.trans ?_
  unfold rimImpossible
  extract_lets _ t f
  cases use with
  | saveRim => exact saveFails_channel t _
  | restoredRim => exact restoreFails_channel t
  | zeroSave =>
    have pending : ChannelStep t { t with aon := { t.aon with img := .pending } } := .of_same rfl rfl rfl
    exact pending.trans (enterHeld_channel _)
  | discardRim k => exact (rimDead_channel t).trans (answered _ k _)
  | formatRim =>
    have never : ChannelStep t { t with nand := { t.nand with prov := .never } } := .of_same rfl rfl rfl
    exact never.trans (rimDead_channel _)
  | foldRim => exact rimDead_channel t
  | eraseProof => exact rimDead_channel t

theorem growRing_array (s : State) (r : Ring) (held : Option Nat) : ArrayStep s (growRing s r held).1 := by
  unfold growRing
  split
  · exact setGroup_array s _
  · exact .refl s

theorem freeRing_array (s : State) (r : Ring) : ArrayStep s (freeRing s r) := foldl_arrayStep _ (fun u _ => setRole_array u _ _ _) _ _

theorem placeRing_array (s : State) (b : Bool) (d : Die) : ArrayStep s (placeRing s b d) := by
  unfold placeRing
  extract_lets q
  have ring : ArrayStep s q.1 := (freeRing_array s _).trans (growRing_array _ _ _)
  refine (ring.trans (setRing_array _ b q.2)).trans ?_
  constructor <;> simp only [logEv_frame, writeArea_frame]

theorem moveRing_array (s t : State) (b : Bool) (h : moveRing s b = some t) : ArrayStep s t := by
  obtain ⟨d, -, rfl⟩ := Option.map_eq_some_iff.mp h
  exact placeRing_array s b d

theorem againCopy_channel (s : State) (b : Bool) (n : Nat) : ChannelStep s (againCopy s b n) := by
  unfold againCopy
  split
  · exact .of_same rfl rfl rfl
  · exact .refl s

theorem relocateCopy_channel (s : State) (b : Bool) : ChannelStep s (relocateCopy s b) := by
  unfold relocateCopy
  split
  · exact .refl s
  · split
    · rename_i moved
      exact (moveRing_array _ _ b moved).channel.trans (againCopy_channel _ b 0)
    · exact rimImpossible_channel s _

theorem copyFails_channel (s : State) (j : RimJob) (b : Bool) : ChannelStep s (copyFails s j b) :=
  ite_channelStep (againCopy_channel s b 1) (relocateCopy_channel s b)

/-- A ring's die is lost: the ring moves, or the rim area is gone (R141, R142). -/
theorem loseRing1_channel (s : State) (d : Die) (b : Bool) : ChannelStep s (loseRing1 s d b) := by
  refine ite_channelStep (.refl s) ?_
  split
  · exact relocateCopy_channel s b
  · refine ite_channelStep (.refl s) ?_
    split
    · rename_i moved
      exact (moveRing_array _ _ b moved).channel
    · exact rimDead_channel s

theorem loseRingDie_channel (s : State) (d : Die) : ChannelStep s (loseRingDie s d) :=
  (loseRing1_channel s d false).trans (loseRing1_channel _ d true)

theorem moveRings_channel (s : State) (d : Dom) : ChannelStep s (moveRings s d) := by
  unfold moveRings
  exact foldl_channelStep _ (fun u x => ite_channelStep (loseRingDie_channel u x) (.refl u)) _ _

/-! ## The save, the restore and the dies -/

theorem saveAdvance_channel (s : State) : ChannelStep s (saveAdvance s) := by
  unfold saveAdvance
  split
  · exact .refl s
  · exact ite_channelStep ((setSave_array _ _).trans (startTables_array _ _ _ _)).channel (.refl s)

theorem stopPlaits_channel (s : State) : ChannelStep s (stopPlaits s) := by
  unfold stopPlaits
  split
  · exact .refl s
  · exact (setSave_array _ _).channel.trans (saveAdvance_channel _)

theorem stripeShort_channel (s : State) : ChannelStep s (stripeShort s) := by
  unfold stripeShort
  split
  · exact ite_channelStep ((logEv_channel _ _ _ _ _ _ _).trans (stopPlaits_channel _)) (.refl s)
  · exact .refl s

theorem checkStripe_channel (s : State) : ChannelStep s (checkStripe s) := ite_channelStep (unarm_channel s _) (.refl s)

theorem checkReadPath_channel (s : State) : ChannelStep s (checkReadPath s) := by
  unfold checkReadPath
  split
  · exact ite_channelStep (restoreFails_channel s) (.refl s)
  · exact .refl s

theorem diesChanged_channel (s : State) : ChannelStep s (diesChanged s) := .of_same rfl rfl rfl

theorem tableFailed_channel (s : State) (d : Die) : ChannelStep s (tableFailed s d) := by
  unfold tableFailed
  split
  · exact .refl s
  · split
    · exact rimImpossible_channel s _
    · exact ((tab_array s _).trans (wakeStrands_array _)).channel

theorem strandFailed_channel (s : State) (d : Die) : ChannelStep s (strandFailed s d) := by
  unfold strandFailed
  extract_lets a b hit
  have failed : ChannelStep s b := ((setDie_array s d _).channel.trans (diesChanged_channel _)).trans (logEv_channel a _ _ _ _ _ _)
  refine failed.trans ?_
  split
  · exact tableFailed_channel b d
  · exact (((abandonPlaits_array b _ hit).channel.trans (tableFailed_channel _ d)).trans (stripeShort_channel _)).trans
      ((wakeStrands_array _).channel.trans (saveAdvance_channel _))

theorem dropFold_array (s : State) (d : Die) : ArrayStep s (dropFold s d) := folds_array s _

/-- What a die was about when its channel goes (R158). -/
theorem abandonDie_channel (s : State) (d : Die) : ChannelStep s (abandonDie s d) := by
  have idle : ArrayStep s (setOp s d .idle) := setOp_array s d _
  have rim : ∀ b, ChannelStep s (match (setOp s d .idle).nand.rimJob with
      | some j => copyFails (setOp s d .idle) j b
      | none => setOp s d .idle) := fun b => by
    split
    · exact idle.channel.trans (copyFails_channel _ _ b)
    · exact idle.channel
  have fold : ChannelStep s (match foldOf s d with
      | some f => setRole (dropFold (setOp s d .idle) d) d f.block .erasePending
      | none => setOp s d .idle) := by
    split
    · exact (idle.trans ((dropFold_array _ d).trans (setRole_array _ _ _ _))).channel
    · exact idle.channel
  unfold abandonDie
  split
  · exact strandFailed_channel s d
  · exact strandFailed_channel s d
  · exact strandFailed_channel s d
  · exact strandFailed_channel s d
  · exact strandFailed_channel s d
  · exact strandFailed_channel s d
  · exact rim _
  · exact rim _
  · exact fold
  · exact fold
  · exact .refl s
  · exact idle.channel

theorem channelLost_channel (s : State) (d : Dom) : ChannelStep s (channelLost s d) := by
  have cover : ∀ u : State, ChannelStep u (recomputeCover u) := fun u => by
    refine .of_same ?_ ?_ ?_ <;> simp only [recomputeCover_frame]
  exact (foldl_channelStep _ abandonDie_channel _ s).trans ((moveRings_channel _ d).trans ((diesChanged_channel _).trans ((cover _).trans
    ((stripeShort_channel _).trans ((checkStripe_channel _).trans ((checkReadPath_channel _).trans (saveAdvance_channel _)))))))

end Sys2Proof.Machine

end

section
/-! LAW. The other supplies and REFCLK (R24, R67, R68, R86, R415). -/

namespace Sys2Proof.Machine

/-! ## A channel is marked FAILED -/

theorem markFailed_modes (s : State) (d : Dom) (k : PowerFail) :
    (domOf (markFailed s d k) d).mode = .failed ∧ ∀ j, j ≠ d → (domOf (markFailed s d k) j).mode = (domOf s j).mode := by
  have lanes : ∀ (u : State) (j : Dom), (domOf (settleLanes u) j) = domOf u j := fun u j => domOf_congr (settleLanes_dom u) j
  unfold markFailed
  extract_lets a b
  obtain ⟨self, other⟩ := setMode_modes a d .failed
  have kind := setDom_sameModes b d (fun x => { x with failKind := some k, issuer := none, enabling := none }) (fun _ => rfl)
  refine ⟨?_, fun j hj => ?_⟩
  · rw [lanes, kind d, self]
  · rw [lanes, kind j, other j hj, domOf_congr (show a.doms.dom = s.doms.dom by simp only [a, logEv_frame])]

theorem markFailed_channel (s : State) (d : Dom) (k : PowerFail) : ChannelStep s (markFailed s d k) where
  rims := by simp only [markFailed, settleLanes_frame, setDom_frame, setMode_frame, logEv_frame]
  off := fun j _ h => by
    obtain ⟨self, other⟩ := markFailed_modes s d k
    by_cases e : j = d
    · rw [e, self]
      rfl
    · rw [other j e, h]
  idle := fun h => by
    have same : (markFailed s d k).cfl = s.cfl := by simp only [markFailed, settleLanes_frame, setDom_frame, setMode_frame, logEv_frame]
    exact ⟨by rw [← h]; simp only [currentOp, same], fun w => by simp only [wordAt, same]⟩

/-- After a list of channels has been marked FAILED, each of them is without power. -/
theorem foldl_markFailed_off (l : List Dom) (s : State) (d : Dom) (hd : 12 ≤ d.val) (h : d ∈ l) :
    (domOf (l.foldl (fun s d => markFailed s d .powerGood) s) d).mode.powered = false := by
  induction l generalizing s with
  | nil => exact absurd h List.not_mem_nil
  | cons x t ih =>
    have rest := foldl_channelStep (fun s d => markFailed s d .powerGood) (fun u x => markFailed_channel u x _) t (markFailed s x .powerGood)
    by_cases e : d = x
    · refine rest.off d hd ?_
      rw [e, (markFailed_modes s x _).1]
      rfl
    · exact ih _ ((List.mem_cons.mp h).resolve_left e)

theorem settlePlls_channel (s : State) : ChannelStep s (settlePlls s) :=
  .of_same (by simp only [settlePlls_frame]) (settlePlls_dom s).1 (by simp only [settlePlls_frame])

/-- The loss of VCCQ_N leaves no NAND channel with power (R67, R415). -/
theorem vccqNLow_channels (s : State) : Completes .vccqNLow s fun t => ChannelStep s t ∧ ∀ d : Dom, 12 ≤ d.val → (domOf t d).mode.powered = false := by
  refine ⟨_, rfl, ?_⟩
  extract_lets on a
  have mem : ∀ d, d ∈ on ↔ 12 ≤ d.val ∧ (domOf s d).mode.powered = true := fun d => by
    simp only [on, List.mem_filter, allFin, List.mem_finRange, true_and, Bool.and_eq_true, decide_eq_true_eq, modeOf_dom]
  split
  · rename_i none_
    refine ⟨.refl s, fun d hd => ?_⟩
    have out : d ∉ on := by simp [none_]
    rw [mem] at out
    simpa [hd] using out
  · have logged : ChannelStep s a := logEv_channel s _ _ _ _ _ _
    have marked := foldl_channelStep (fun s d => markFailed s d .powerGood) (fun u x => markFailed_channel u x _) on a
    have after := (settlePlls_channel (on.foldl (fun s d => markFailed s d .powerGood) a)).trans (foldl_channelStep _ channelLost_channel on _)
    refine ⟨(logged.trans marked).trans after, fun d hd => ?_⟩
    by_cases hp : (domOf s d).mode.powered = true
    · exact after.off d hd (foldl_markFailed_off on a d hd ((mem d).mpr ⟨hd, hp⟩))
    · exact ((logged.trans marked).trans after).off d hd (by simpa using hp)

/-! ## The PLLs -/

/-- The domains that a PLL clocks are powered or coming up (R48). -/
def pllNeeded (s : State) (p : Pll) : Bool :=
  (allFin 20).any (fun d => decide (pllOf d = some p) && ((modeOf s d.val).powered || (domOf s d).enabling.isSome))

/-- The warden's choice for one PLL. -/
def settlePll (s : State) (p : Pll) : State :=
  if pllNeeded s p then (if pllSt s p = .off then setPll s p .locking else s) else setPll s p .off

theorem settlePlls_eq (s : State) : settlePlls s = settlePll (settlePll (settlePll s .f) .m) .n := rfl

theorem pllNeeded_congr {s t : State} (h : t.doms.dom = s.doms.dom) (p : Pll) : pllNeeded t p = pllNeeded s p := by
  simp only [pllNeeded, modeOf_congr h, domOf_congr h]

theorem settlePll_dom (s : State) (p : Pll) : (settlePll s p).doms.dom = s.doms.dom := by
  unfold settlePll
  split
  · split
    · exact (setPll_dom s p _).1
    · rfl
  · exact (setPll_dom s p _).1

theorem pllSt_setPll (s : State) (p q : Pll) (x : PllSt) : pllSt (setPll s p x) q = if q = p then x else pllSt s q := by
  cases p <;> cases q <;> rfl

/-- A PLL is off exactly when no domain needs it. -/
theorem settlePll_off (s : State) (p : Pll) : (pllSt (settlePll s p) p = .off) ↔ pllNeeded s p = false := by
  unfold settlePll
  split
  · rename_i need
    split
    · simp [pllSt_setPll, need]
    · rename_i on
      simp [need, on]
  · rename_i need
    simp [pllSt_setPll, need]

theorem settlePll_other (s : State) (p q : Pll) (h : q ≠ p) : pllSt (settlePll s p) q = pllSt s q := by
  unfold settlePll
  split
  · split
    · rw [pllSt_setPll, if_neg h]
    · rfl
  · rw [pllSt_setPll, if_neg h]

theorem settlePlls_off (s : State) (p : Pll) : pllSt (settlePlls s) p = .off ↔ pllNeeded s p = false := by
  rw [settlePlls_eq]
  cases p with
  | f => rw [settlePll_other _ _ _ (by decide), settlePll_other _ _ _ (by decide), settlePll_off]
  | m => rw [settlePll_other _ _ _ (by decide), settlePll_off, pllNeeded_congr (settlePll_dom _ _)]
  | n => rw [settlePll_off, pllNeeded_congr ((settlePll_dom _ _).trans (settlePll_dom _ _))]

/-- After a relock a PLL has lock exactly when a domain needs it (R68). -/
theorem relock_pllOn (s : State) (p : Pll) : pllOn (relock s) p = pllNeeded s p := by
  have lock : ∀ x : PllSt, (x.lock = .locked) ↔ ¬ x = .off := fun x => by cases x <;> decide
  have st : pllSt (relock s) p = (pllSt (settlePlls s) p).lock := by cases p <;> rfl
  rw [pllOn, st, Bool.eq_iff_iff, decide_eq_true_eq, lock, settlePlls_off, Bool.not_eq_false]

/-! ## FAULT from a save, a restore and BOOT -/

/-- T13 with the supply standing: the fault and the failed save; no rim goes (R31, R46). -/
theorem saveFails_calm (s : State) (c : FaultCause) (hb : s.pins.bulk ≠ .droop) :
    (saveFails s c).aon.hold = .fault ∧ (saveFails s c).aon.faults = [c] ∧ (saveFails s c).aon.failedSave = true ∧
    (saveFails s c).aon.cont = s.aon.cont ∧ (saveFails s c).map.save = none ∧ (saveFails s c).nand.rims = s.nand.rims := by
  unfold saveFails
  extract_lets old _ _ t
  have calm : (logEv t 0 .rimFailed).pins.bulk ≠ .droop := by
    rw [show (logEv t 0 .rimFailed).pins = s.pins by simp only [logEv_frame, t]]
    exact hb
  rw [enterFault_calm _ _ _ calm]
  simp only [faultEntry_keeps, logEv_frame, t, true_and]
  exact ⟨rfl, rfl⟩

/-- T18 with the supply standing: the fault; the relation and the rims stay (R31, R176). -/
theorem restoreFails_calm (s : State) (hb : s.pins.bulk ≠ .droop) :
    (restoreFails s).aon.hold = .fault ∧ (restoreFails s).aon.faults = [.restore] ∧ (restoreFails s).aon.img = s.aon.img ∧
    (restoreFails s).rst.run = none ∧ (restoreFails s).nand.rims = s.nand.rims := by
  have calm : (logEv s 0 .restoreDropped).pins.bulk ≠ .droop := by
    rw [(logEv_frame s _ _ _ _ _ _).2.1]
    exact hb
  unfold restoreFails
  rw [enterFault_calm _ _ _ calm]
  simp only [faultEntry_keeps, logEv_frame, and_self]

/-! ## The commands -/

theorem execVddqDLow_rest (s : State) (hs : s.aon.hold ≠ .save) (hr : s.aon.hold ≠ .restore) :
    execVddqDLow s = .next (logEv (dramLost s) 0 .vddqLow) := by
  have hold : (logEv (dramLost s) 0 .vddqLow).aon.hold = s.aon.hold := by simp only [logEv_frame, dramLost]
  unfold execVddqDLow
  dsimp only
  split
  · rename_i e
    exact absurd (hold.symm.trans e) hs
  · rename_i e
    exact absurd (hold.symm.trans e) hr
  · rfl

theorem relock_frame (s : State) :
    (relock s).pins = s.pins ∧ (relock s).doms.dom = s.doms.dom ∧ (relock s).doms.lanes = s.doms.lanes ∧ (relock s).aon = s.aon ∧
    (relock s).nand = s.nand ∧ (relock s).cfl = s.cfl ∧ (relock s).map = s.map := by
  unfold relock
  simp only [settlePlls_frame, settlePlls_dom, and_self]

theorem execRefclkReturn_relocks (s : State) (h : s.pins.refclk = false) (hf : ¬(s.aon.hold = .fault ∧ s.aon.boot.noRefclk = true)) :
    execRefclkReturn s = .next (relock { s with pins := { s.pins with refclk := true } }) := by
  unfold execRefclkReturn
  rw [if_neg (by rw [h]; exact Bool.false_ne_true)]
  have aon := (relock_frame { s with pins := { s.pins with refclk := true } }).2.2.2.1
  refine congrArg Host.Outcome.next (if_neg fun e => hf ?_)
  rw [aon] at e
  exact e

theorem execRefclkLossLimit_lost (s : State) (h : s.pins.refclk = false) :
    execRefclkLossLimit s = .next (match s.aon.hold with
      | .save => saveFails s
      | .restore => restoreFails s
      | _ => s) := by
  unfold execRefclkLossLimit
  rw [h]
  rfl

/-- BOOT without REFCLK ends in FAULT, HP's own cause first (R86). -/
theorem refclkAbsentBoot_faults (s : State) (hh : s.aon.hold = .boot) (h : s.pins.refclk = false) (hb : s.pins.bulk ≠ .droop) :
    Completes .refclkAbsentBoot s fun t =>
      t.aon.hold = .fault ∧
      t.aon.faults = (if s.aon.boot.hpReady = true ∧ s.aon.hpOk = false then [.hpSelfcheck, .refclk] else [.refclk]) ∧
      t.aon.boot.noRefclk = true ∧ t.mg.running = false ∧ t.nand.rims = s.nand.rims ∧ t.cfl = s.cfl := by
  refine ⟨_, congrArg Host.Outcome.next (if_pos ⟨hh, h⟩), ?_⟩
  dsimp only
  rw [enterFault_calm _ _ _ (by exact hb)]
  simp only [faultEntry_keeps, true_and, and_true]
  cases s.aon.boot.hpReady <;> cases s.aon.hpOk <;> rfl

end Sys2Proof.Machine

open Sys2Proof Sys2Proof.Machine

/-- Settles O13: the supplies, and the four commands about REFCLK. -/
theorem otherSuppliesAndRefclk : Obligations.OtherSuppliesAndRefclk := by
  unfold Obligations.OtherSuppliesAndRefclk
  refine ⟨fun s hs hr => ⟨_, execVddqDLow_rest s hs hr, ?_⟩, fun s => ?_, fun s h => congrArg Host.Outcome.next (if_pos h),
    fun s h hf => ⟨_, execRefclkReturn_relocks s h hf, ?_⟩, fun s h hs hr => (execRefclkLossLimit_lost s h).trans ?_,
    fun s h hb hs => ⟨_, (execRefclkLossLimit_lost s h).trans (by rw [hs]), saveFails_calm s _ hb⟩,
    fun s h hb hr => ⟨_, (execRefclkLossLimit_lost s h).trans (by rw [hr]), restoreFails_calm s hb⟩,
    fun s hh h hb => refclkAbsentBoot_faults s hh h hb⟩
  · simp only [logEv_frame, dramLost, and_self]
  · obtain ⟨t, ht, step, off⟩ := vccqNLow_channels s
    exact ⟨t, ht, fun d hd => by rw [modeOf_dom, off d hd], step.rims, fun idle => (step.idle idle).2⟩
  · obtain ⟨pins, dom, lanes, aon, nand, cfl, map⟩ := relock_frame { s with pins := { s.pins with refclk := true } }
    exact ⟨pins, dom, lanes, fun p => relock_pllOn _ p, aon, nand, cfl, map⟩
  · split
    · rename_i e
      exact absurd e hs
    · rename_i e
      exact absurd e hr
    · rfl

end

section
/-! LAW. The image derivation and the end of BOOT (R31, R44, R161-R163). -/

namespace Sys2Proof.Machine

/-! ## The tables as BOOT finds them -/

theorem logEv_array (s : State) (d : Dom) (k : EvKind) (a b c e : Nat) : ArrayStep s (logEv s d k a b c e) := by
  constructor <;> simp only [logEv_frame]

theorem writeArea_array (s : State) (a : Area) : ArrayStep s (writeArea s a) := by
  constructor <;> simp only [writeArea_frame]

theorem identify_array (s : State) (f : NandFacts) : ArrayStep s (identify s f) := by
  unfold identify
  extract_lets p dies out _ a b _
  have found : ArrayStep s a := by constructor <;> rfl
  have logged : ArrayStep a b := foldl_arrayStep _ (fun u _ => logEv_array u _ _ _ _ _ _) out a
  clear_value a b
  exact (found.trans logged).trans (by constructor <;> rfl)

theorem uniteGrown_array (s : State) : ArrayStep s (uniteGrown s) := by
  unfold uniteGrown
  extract_lets a b n gen _ t
  have united : ArrayStep s t := by constructor <;> rfl
  exact united.trans (ite_arrayStep (writeArea_array t _) (.refl t))

theorem applyGrown_array (s : State) : ArrayStep s (applyGrown s) := foldl_arrayStep _ (fun u _ => setRole_array u _ _ _) _ _

theorem walkFree_array (z : List ((Die × Nat) × Nat)) (d : Die) (n : Nat) (s : State) : ArrayStep s (walkFree z d n s) := by
  induction n generalizing s with
  | zero => exact .refl s
  | succ n ih =>
    unfold walkFree
    split
    · exact ite_arrayStep ((setRole_array s _ _ _).trans (ih _)) (.refl s)
    · exact .refl s

theorem blankChecks_array (s : State) (f : NandFacts) : ArrayStep s (blankChecks s f) := by
  unfold blankChecks
  extract_lets a b _ _
  have closed : ArrayStep s a := foldl_arrayStep _ (fun u g => by
    split
    · exact setRole_array u _ _ _
    · exact ite_arrayStep (setGroup_array u _) (.refl u)
    · exact .refl u) _ s
  have walked : ArrayStep a b := foldl_arrayStep _ (fun u d => walkFree_array _ d _ u) _ a
  clear_value a b
  exact (closed.trans walked).trans (by constructor <;> rfl)

/-- The tables' load changes what MAP and XTS know of the NAND, no pin and no word of the code flash (R143, R151). -/
theorem loadTables_keeps (s : State) (f : NandFacts) : (loadTables s f).pins = s.pins ∧ (loadTables s f).cfl = s.cfl := by
  unfold loadTables
  extract_lets _ a _ b _ c
  have found := identify_array { s with nand := { s.nand with profile := s.nand.nextProfile.getD s.nand.profile, nextProfile := none } } f
  have grown : ArrayStep { b with nand := { b.nand with groups := tableAtBoot b } } c := (uniteGrown_array _).trans (applyGrown_array _)
  have checked : ArrayStep c (if uncleanShutdown c = true ∧ c.nand.rims ≠ [] then blankChecks c f else c) :=
    ite_arrayStep (blankChecks_array c f) (.refl c)
  exact ⟨checked.pins.trans (grown.pins.trans found.pins), checked.cfl.trans (grown.cfl.trans found.cfl)⟩

/-! ## The relation -/

/-- `t` is `s` with the relation derived: it is known and not TRACK; the records, the pins and the code flash stay (R161). -/
structure Derived (s t : State) : Prop where
  known : t.aon.imgKnown = true
  untracked : t.aon.img ≠ .track
  rims : t.nand.rims = s.nand.rims
  pins : t.pins = s.pins
  cfl : t.cfl = s.cfl

theorem deriveNone_derived (s : State) : Derived s (deriveNone s) ∧ (deriveNone s).aon.img = .none := by
  refine ⟨?_, by simp only [deriveNone, dropImage_nandKeeps]⟩
  constructor <;> simp only [deriveNone, dropImage_nandKeeps, dropImage_frame, ne_eq, reduceCtorEq, not_false_iff]

theorem derivePending_derived (s : State) (r : Rim) (stale rimfb : Bool) : Derived s (derivePending s r stale rimfb) :=
  ⟨rfl, ImgRel.noConfusion, rfl, rfl, rfl⟩

theorem Derived.of_log {s t : State} {d : Dom} {k : EvKind} {a : Nat} (h : Derived (logEv s d k a) t) : Derived s t := by
  obtain ⟨known, untracked, rims, pins, cfl⟩ := h
  simp only [logEv_frame] at rims pins cfl
  exact ⟨known, untracked, rims, pins, cfl⟩

theorem chooseRecord_derived (s : State) (r : Rim) (stale : Bool) (f : NandFacts) : Derived s (chooseRecord s r stale f) := by
  unfold chooseRecord
  split
  · exact derivePending_derived s r _ _
  · split
    · exact (derivePending_derived _ _ _ _).of_log
    · have lost := (deriveNone_derived (logEv { s with nand := { s.nand with imgloss := some (topSeq s) } } 8 .imageLost (topSeq s))).1.of_log
      exact ⟨lost.known, lost.untracked, lost.rims, lost.pins, lost.cfl⟩

theorem chooseRecord_passes (s : State) (r : Rim) (stale : Bool) (f : NandFacts) (h : recordPasses s f.badDirs f.badTables r = true) :
    chooseRecord s r stale f = derivePending s r stale false := if_pos h

/-- The top record's type decides (R161, R162). -/
theorem deriveImage_cons (s : State) (failed : Bool) (f : NandFacts) (r : Rim) (l : List Rim) (h : s.nand.rims = r :: l) :
    (r.type = .save → deriveImage s failed f = chooseRecord s r failed f) ∧
    (r.type = .format ∨ r.type = .discard → deriveImage s failed f = deriveNone s) ∧
    (r.type = .restored ∨ r.type = .fold → deriveImage s failed f = if failed then chooseRecord s r true f else deriveNone s) := by
  unfold deriveImage
  rw [h]
  refine ⟨fun t => ?_, fun t => ?_, fun t => ?_⟩
  · simp only [t]
  · obtain t | t := t <;> simp only [t]
  · obtain t | t := t <;> simp only [t]

theorem deriveImage_nil (s : State) (failed : Bool) (f : NandFacts) (h : s.nand.rims = []) : deriveImage s failed f = deriveNone s := by
  unfold deriveImage
  rw [h]

theorem deriveImage_derived (s : State) (failed : Bool) (f : NandFacts) : Derived s (deriveImage s failed f) := by
  match h : s.nand.rims with
  | [] =>
    rw [deriveImage_nil s failed f h]
    exact (deriveNone_derived s).1
  | r :: l =>
    obtain ⟨save, none_, old⟩ := deriveImage_cons s failed f r l h
    have derivedOr : Derived s (if failed then chooseRecord s r true f else deriveNone s) := by
      split
      · exact chooseRecord_derived s r true f
      · exact (deriveNone_derived s).1
    match t : r.type with
    | .save => rw [save t]; exact chooseRecord_derived s r _ f
    | .format => rw [none_ (.inl t)]; exact (deriveNone_derived s).1
    | .discard => rw [none_ (.inr t)]; exact (deriveNone_derived s).1
    | .restored => rw [old (.inl t)]; exact derivedOr
    | .fold => rw [old (.inr t)]; exact derivedOr

/-! ## The end of BOOT -/

theorem moveBoth_array (s t : State) (h : moveBoth s = some t) : ArrayStep s t := by
  obtain ⟨p, -, rfl⟩ := Option.map_eq_some_iff.mp h
  exact (placeRing_array s false p.1).trans (placeRing_array _ true p.2)

theorem placeRings_array (s t : State) (h : placeRings s = some t) : ArrayStep s t := by
  unfold placeRings at h
  split at h
  · cases h
    exact .refl s
  · exact moveRing_array s t _ h
  · exact moveRing_array s t _ h
  · exact moveBoth_array s t h

theorem checkRings_array (s : State) : ArrayStep s (checkRings s) := by
  refine ite_arrayStep (.refl s) ?_
  split
  · rename_i placed
    exact placeRings_array s _ placed
  · constructor <;> rfl

theorem takeDescriptors_array (s : State) : ArrayStep s (takeDescriptors s) := by
  obtain ⟨aon, nand, ten, dirty, -⟩ := takeDescriptors_keeps s
  obtain ⟨pins, doms, hp, rst, cfl, geom⟩ : (takeDescriptors s).pins = s.pins ∧ (takeDescriptors s).doms = s.doms ∧
      (takeDescriptors s).hp = s.hp ∧ (takeDescriptors s).rst = s.rst ∧ (takeDescriptors s).cfl = s.cfl ∧
      (takeDescriptors s).map.geom = s.map.geom := by simp only [takeDescriptors, loadClasses_frame, and_self]
  exact ⟨aon, pins, doms, hp, rst, ten, cfl, by rw [nand], by rw [nand], by rw [nand], by rw [nand], dirty, geom, by rw [nand]⟩

/-- What BOOT has derived of the image, and what its end leaves of it. -/
structure ImageKept (s t : State) : Prop where
  img : t.aon.img = s.aon.img
  known : t.aon.imgKnown = s.aon.imgKnown
  stale : t.aon.stale = s.aon.stale
  rims : t.nand.rims = s.nand.rims
  chosen : t.nand.chosen = s.nand.chosen
  dirty : t.map.dirty = s.map.dirty
  cfl : t.cfl = s.cfl

theorem ImageKept.trans {s t u : State} (h : ImageKept s t) (k : ImageKept t u) : ImageKept s u :=
  ⟨k.img.trans h.img, k.known.trans h.known, k.stale.trans h.stale, k.rims.trans h.rims, k.chosen.trans h.chosen, k.dirty.trans h.dirty,
    k.cfl.trans h.cfl⟩

theorem ArrayStep.image {s t : State} (h : ArrayStep s t) : ImageKept s t :=
  ⟨by rw [h.aon], by rw [h.aon], by rw [h.aon], h.rims, h.chosen, h.dirty, h.cfl⟩

theorem faultEntry_image (s : State) (l : List FaultCause) (n : Nat) : ImageKept s (faultEntry s l n) := by
  constructor <;> simp only [faultEntry_keeps]

/-- Without TRACK the reset that an entry to SERVE may make leaves the dirty map (R84). -/
theorem serveEntry_image (s : State) (h : s.aon.img ≠ .track) : ImageKept s (serveEntry s) := by
  have dirty : ∀ (u : State) (b : Bool), u.aon.img ≠ .track → (if b = true then hostReset u else u).map.dirty = u.map.dirty := fun u b hu => by
    split
    · simp only [hostReset, hu, if_false]
    · rfl
  constructor
  case dirty =>
    unfold serveEntry
    simp only [recomputeCover_frame, applyModes_frame]
    exact dirty _ _ h
  all_goals simp only [serveEntry_keeps, h, and_false, if_false]

theorem enterServe_image (s : State) (hb : s.pins.bulk ≠ .droop) (h : s.aon.img ≠ .track) : ImageKept s (enterServe s) := by
  obtain e | ⟨c, -, e⟩ := enterServe_calm s hb
  · rw [e]
    exact serveEntry_image s h
  · rw [e]
    exact (serveEntry_image s h).trans (faultEntry_image _ _ _)

/-- BOOT ends in T3 or T4 once the rings are placed and the descriptors taken (R31, R141). -/
theorem endBoot_cases (s : State) :
    ∃ u, ArrayStep s u ∧ (endBoot s = startProof (enterServe u) ∨ ∃ l, endBoot s = startProof (enterFault u l 4)) := by
  have before := (checkRings_array s).trans (takeDescriptors_array _)
  have provision : ∀ u : State, ArrayStep u (if u.nand.prov = .never then { u with nand := { u.nand with prov := .running } } else u) :=
    fun u => ite_arrayStep (by constructor <;> rfl) (.refl u)
  match h : armCauses (takeDescriptors (checkRings s)) with
  | [] => exact ⟨_, before.trans (provision _), .inl (by simp only [endBoot, h])⟩
  | c :: l => exact ⟨_, before, .inr ⟨c :: l, by simp only [endBoot, h]⟩⟩

/-- T3 or T4 with the supply standing: SERVE or FAULT, the image as it was derived (R31). -/
theorem endBoot_keeps (s : State) (hb : s.pins.bulk ≠ .droop) (h : s.aon.img ≠ .track) :
    ((endBoot s).aon.hold = .serve ∨ (endBoot s).aon.hold = .fault) ∧ ImageKept s (endBoot s) := by
  obtain ⟨u, before, e | ⟨l, e⟩⟩ := endBoot_cases s
  all_goals have calm : u.pins.bulk ≠ .droop := by rw [before.pins]; exact hb
  · have proof := startProof_array (enterServe u)
    rw [e, proof.aon]
    exact ⟨(enterServe_keeps u calm).1, (before.image.trans (enterServe_image u calm (by rw [before.aon]; exact h))).trans proof.image⟩
  · rw [enterFault_calm _ _ _ calm] at e
    have proof := startProof_array (faultEntry u l 4)
    rw [e, proof.aon]
    exact ⟨.inr (by simp only [faultEntry_keeps]), (before.image.trans (faultEntry_image u l 4)).trans proof.image⟩

theorem loadPrevLog_array (s : State) (b : Bool) : ArrayStep s (loadPrevLog s b) := by
  unfold loadPrevLog
  split
  · refine ite_arrayStep (by constructor <;> rfl) ?_
    constructor <;> simp only [logEv_frame]
  · constructor <;> rfl

theorem reseedEg_array (s : State) : ArrayStep s (reseedEg s) := by constructor <;> rfl

end Sys2Proof.Machine

open Sys2Proof Sys2Proof.Machine

/-- Settles O16: the tables are loaded, the top record's type decides, and the end of BOOT keeps what was derived. -/
theorem imageDerivationEndsBoot : Obligations.ImageDerivationEndsBoot := by
  unfold Obligations.ImageDerivationEndsBoot
  intro f s hh ht hp hm hb
  refine ⟨_, congrArg Host.Outcome.next (if_pos ⟨hh, ht, hp, hm⟩), ?_⟩
  obtain ⟨pins, cfl⟩ := loadTables_keeps s f
  dsimp only
  generalize failedSave { loadTables s f with aon := s.aon } f = failed
  generalize loadTables s f = u at *
  have derived := deriveImage_derived u failed f
  have logged := (reseedEg_array (deriveImage u failed f)).trans (loadPrevLog_array _ f.logReadable)
  obtain ⟨hold, ended⟩ := endBoot_keeps _ (by rw [logged.pins, derived.pins, pins]; exact hb) (by rw [logged.aon]; exact derived.untracked)
  have kept := logged.image.trans ended
  refine ⟨hold, kept.known.trans derived.known, by rw [kept.cfl, derived.cfl, cfl], kept.rims.trans derived.rims, fun none_ => ?_,
    fun r l top => ⟨fun t passes => ?_, fun t => ?_, fun t saved => ?_⟩⟩
  · rw [kept.img, deriveImage_nil u failed f none_, (deriveNone_derived u).2]
  · have pending : deriveImage u failed f = derivePending u r failed false :=
      ((deriveImage_cons u failed f r l top).1 t).trans (chooseRecord_passes u r failed f passes)
    rw [kept.img, kept.chosen, kept.dirty, kept.stale, pending]
    exact ⟨rfl, rfl, rfl, rfl⟩
  · rw [kept.img, (deriveImage_cons u failed f r l top).2.1 t, (deriveNone_derived u).2]
  · rw [kept.img, (deriveImage_cons u failed f r l top).2.2 t, saved, if_neg Bool.false_ne_true, (deriveNone_derived u).2]

end

section
/-! LAW. Mode-register capture and the operations of MPC (R51, R81, R87, R89, R96, R105). -/

namespace Sys2Proof.Machine

/-! ## One captured value -/

/-- A value whose kind has room in the capture set is its last entry, and the entry it supersedes is gone (R96). -/
theorem capture_room (s : State) (e : CapEntry)
    (h : (s.hp.capture.filter (fun x => decide (x.isDevice = e.isDevice))).length < if e.isDevice then 2048 else 8192) :
    capture s e = { s with hp := { s.hp with capture := s.hp.capture.filter (fun x => !x.sameKey e) ++ [e] } } :=
  if_pos (.inr h)

/-- A capture touches HP and the log alone. -/
theorem capture_aon (s : State) (e : CapEntry) : (capture s e).aon = s.aon := by
  unfold capture
  simp only [ite_aon, logEv_frame, ite_self]

/-- What a forwarded MRW, VrefCA or VrefCS does for one rank: the record to MAP, and the entry of the capture set (R51, R96). -/
def captureRank (x : Sub) (key : MrKey) (v : Byte) (s : State) (r : Rank) : State :=
  let s := snoopPut s (.capture x r key v)
  match look (x, r) s.hp.pda with
  | some sel => capture s (.device { sub := x, rank := r, key := key, sel := sel, value := v })
  | none => capture s (.rank { sub := x, rank := r, key := key, value := v })

/-- The entry that one rank's write makes of the selection in force. -/
theorem captureRank_eq (s : State) (x : Sub) (key : MrKey) (v : Byte) (r : Rank) :
    captureRank x key v s r = capture (snoopPut s (.capture x r key v)) (match look (x, r) s.hp.pda with
      | some sel => .device { sub := x, rank := r, key := key, sel := sel, value := v }
      | none => .rank { sub := x, rank := r, key := key, value := v }) := by
  have pda : (snoopPut s (.capture x r key v)).hp.pda = s.hp.pda := by rw [(snoopPut_sent s _).rest]
  unfold captureRank
  dsimp only
  rw [pda]
  cases look (x, r) s.hp.pda <;> rfl

theorem captureRank_aon (x : Sub) (key : MrKey) (v : Byte) (s : State) (r : Rank) : (captureRank x key v s r).aon = s.aon := by
  rw [captureRank_eq, capture_aon, (snoopPut_sent s _).rest]

/-- A write whose entry `e` has room: HP's buffer and capture set and lane 0 alone differ, and the record is on its way (R51, R90, R96). -/
theorem capture_snoopPut (s : State) (p : Snoop) (e : CapEntry)
    (h : (s.hp.capture.filter (fun x => decide (x.isDevice = e.isDevice))).length < if e.isDevice then 2048 else 8192) :
    let t := capture (snoopPut s p) e
    t.hp = { s.hp with snoop := t.hp.snoop, capture := s.hp.capture.filter (fun x => !x.sameKey e) ++ [e] } ∧
    (laneUp s 0 = true → snoopsOnTheWay t = snoopsOnTheWay s ++ [p]) ∧ (∀ n : LaneId, n ≠ 0 → laneOf t n = laneOf s n) ∧
    t = { s with hp := t.hp, doms := t.doms } := by
  have sent := snoopPut_sent s p
  have set : (snoopPut s p).hp.capture = s.hp.capture := by rw [sent.rest]
  have kept := capture_room (snoopPut s p) e (by rw [set]; exact h)
  rw [set] at kept
  dsimp only
  rw [kept]
  refine ⟨?_, sent.way, sent.lanes, ?_⟩
  · rw [sent.rest]
  · rw [sent.rest]

/-! ## Several ranks -/

theorem ready_congr {s t : State} (h : t.aon = s.aon) : ready t = ready s := by simp only [ready, h]

/-- A forwarded command that does the same for each rank it selects, and leaves READY (R87, R89). -/
def ForwardsEach (f : List Rank → Instr) : Prop :=
  ∃ g : State → Rank → State, (∀ u r, (g u r).aon = u.aon) ∧ ∀ l s, exec (f l) s = .next (onForward s (fun u => l.foldl g u))

/-- The command to several ranks is the command to each in turn. -/
theorem ForwardsEach.cons {f : List Rank → Instr} (h : ForwardsEach f) {s t : State} (hs : ready s = true) (r : Rank) (l : List Rank)
    (ht : exec (f [r]) s = .next t) : exec (f (r :: l)) s = exec (f l) t ∧ exec (f []) s = .next s := by
  obtain ⟨g, keeps, each⟩ := h
  rw [each, onForward_ready s _ hs] at ht
  obtain rfl : g s r = t := Host.Outcome.next.inj ht
  have ready_ : ready (g s r) = true := (ready_congr (keeps s r)).trans hs
  constructor
  · rw [each, each, onForward_ready s _ hs, onForward_ready _ _ ready_, List.foldl_cons]
  · rw [each, onForward_ready s _ hs, List.foldl_nil]

/-- What a forwarded MPC does for one rank (R89): an enumeration, a selection, or nothing. -/
def mpcRank (x : Sub) (op : Byte) (s : State) (r : Rank) : State :=
  if op.toNat / 16 = 6 then
    { s with hp := { s.hp with
        enums := if ((x, r), op &&& 0x0F) ∈ s.hp.enums then s.hp.enums else s.hp.enums ++ [((x, r), op &&& 0x0F)] } }
  else if op.toNat / 16 = 7 then
    { s with hp := { s.hp with pda := if op &&& 0x0F = 15 then drop (x, r) s.hp.pda else put (x, r) (op &&& 0x0F) s.hp.pda } }
  else s

theorem execMpc_eq (x : Sub) (l : List Rank) (op : Byte) (s : State) :
    exec (.mpc x l op) s = .next (onForward s (fun u => l.foldl (mpcRank x op) u)) := rfl

theorem mpcRank_aon (x : Sub) (op : Byte) (s : State) (r : Rank) : (mpcRank x op s r).aon = s.aon := by
  unfold mpcRank
  split
  · rfl
  · split <;> rfl

/-- The two operation codes and their IDs (log entry 11). -/
theorem mpc_code : ∀ i : Byte, i.toNat < 16 →
    (0x60 ||| i).toNat / 16 = 6 ∧ (0x60 ||| i) &&& 0x0F = i ∧ (0x70 ||| i).toNat / 16 = 7 ∧ (0x70 ||| i) &&& 0x0F = i := by
  decide +kernel

end Sys2Proof.Machine

open Sys2Proof Sys2Proof.Machine

/-- Settles O29: one rank's write is its record and its entry, and every such command is a fold over its ranks. -/
theorem modeRegisterCapture : Obligations.ModeRegisterCapture := by
  unfold Obligations.ModeRegisterCapture
  refine ⟨fun x r v m s h c hc => ?_, fun x r l v m s t h f hf ht => ?_, fun x r i s h hi => ?_, fun x a v s h => ?_⟩
  · have run : exec c.1 s = .next (captureRank x c.2 v s r) := by
      simp only [List.mem_cons, List.not_mem_nil, or_false] at hc
      obtain rfl | rfl | rfl := hc <;> exact congrArg Host.Outcome.next (onForward_ready s _ h)
    rw [captureRank_eq] at run
    refine ⟨fun none_ room => ⟨_, run, ?_⟩, fun k sel room => ⟨_, run, ?_⟩⟩
    · rw [none_]
      exact capture_snoopPut s _ _ room
    · have limit : (s.hp.capture.filter (fun e => decide (e.isDevice = true))).length < 2048 := by
        simp only [Bool.decide_eq_true]
        exact room
      rw [sel]
      obtain ⟨hp, -, -, rest⟩ := capture_snoopPut s (.capture x r c.2 v) (.device { sub := x, rank := r, key := c.2, sel := k, value := v }) limit
      exact ⟨hp, rest⟩
  · have each : ForwardsEach f := by
      simp only [List.mem_cons, List.not_mem_nil, or_false] at hf
      obtain rfl | rfl | rfl | rfl := hf
      · exact ⟨_, captureRank_aon x (.mr m) v, fun _ _ => rfl⟩
      · exact ⟨_, captureRank_aon x .vrefca v, fun _ _ => rfl⟩
      · exact ⟨_, captureRank_aon x .vrefcs v, fun _ _ => rfl⟩
      · exact ⟨_, mpcRank_aon x v, fun _ _ => rfl⟩
    exact each.cons h r l ht
  · obtain ⟨enum, id, sel, id'⟩ := mpc_code i hi
    constructor
    · rw [execMpc_eq, onForward_ready s _ h, List.foldl_cons, List.foldl_nil, mpcRank, if_pos enum, id]
    · rw [execMpc_eq, onForward_ready s _ h, List.foldl_cons, List.foldl_nil, mpcRank, if_neg (by rw [sel]; decide), if_pos sel, id']
  · refine ⟨_, congrArg Host.Outcome.next (onForward_ready s _ h), rfl, rfl⟩

end

section
/-! LAW. The management reset, the watchdog and a deferred activation (R63, R82, R83, R380, R390, R391). -/

namespace Sys2Proof.Machine

/-! ## The management reset -/

@[simp] theorem deliverDescriptors_frame (s : State) :
    (deliverDescriptors s).aon = s.aon ∧ (deliverDescriptors s).map = s.map ∧ (deliverDescriptors s).nand = s.nand ∧
    (deliverDescriptors s).bat = s.bat ∧ (deliverDescriptors s).cfl = s.cfl := by
  simp only [deliverDescriptors, setLane_frame, and_self]

/-- The reset of D02 stops the firmware, clears the fetch key and the unlock latch and notes its cause; the hold state and its relation, the
save under way, the NAND and the words of the code flash stay (R63, R83). -/
theorem managementReset_keeps (s : State) (c : ResetCause) :
    let t := managementReset s c
    t.mg.running = false ∧ t.aon.rst = c ∧ t.aon.wdArmed = false ∧ t.cfl.key = none ∧ t.cfl.latch = false ∧
    t.aon.wdResets = s.aon.wdResets ∧ t.aon.mgmtHold = s.aon.mgmtHold ∧ t.aon.hold = s.aon.hold ∧ t.aon.img = s.aon.img ∧
    t.map.save = s.map.save ∧ t.nand = s.nand ∧ t.cfl.words = s.cfl.words := by
  simp only [managementReset, logEv_frame, looseCfl_frame, closeSessions_frame, resetLanesOf_frame, ite_aon, ite_map, ite_nand, ite_cfl,
    deliverDescriptors_frame, ite_self, and_self]

/-- The sessions that reopen touch the management's output alone (R83, R291). -/
@[simp] theorem reopenSessions_frame (s : State) :
    (reopenSessions s).aon = s.aon ∧ (reopenSessions s).map = s.map ∧ (reopenSessions s).nand = s.nand ∧ (reopenSessions s).cfl = s.cfl ∧
    (reopenSessions s).mg.running = s.mg.running := by
  unfold reopenSessions
  dsimp only
  split <;> simp only [noticeAll_frame, openSessions_frame, and_self]

/-! ## A job that writes the option area -/

/-- A job lays out its operations when it joins an empty queue, where the option sequence admits it (R75, R357). -/
theorem startJob_activate (s : State) (k : Option Sess) (hj : s.cfl.jobs = []) (hf : optFull s = false) :
    ∃ l, l ≠ [] ∧ startJob s (.activate false) k = { s with cfl := { s.cfl with
      jobs := [{ use := .activate false, session := k, planned := true, ops := l, redo := l, retried := false }] } } := by
  have jobs : (pushJob s (.activate false) k).cfl.jobs =
      [{ use := .activate false, session := k, planned := false, ops := [], redo := [], retried := false }] := by
    simp only [pushJob, hj, List.nil_append]
  have full : optFull (pushJob s (.activate false) k) = false := hf
  have laid : (planOps (pushJob s (.activate false) k) (.activate false)).2 ≠ [] := by simp [planOps]
  refine ⟨_, laid, ?_⟩
  unfold startJob pump
  rw [jobs]
  show pumpJobs 5 _ = _
  rw [pumpJobs, jobs]
  simp only [Bool.false_eq_true, if_false, full, Bool.and_false, laid]
  rfl

end Sys2Proof.Machine

open Sys2Proof Sys2Proof.Machine

/-- Settles O20: the expiry is the management reset of a state that has noted the time, and the fourth one adds the hold. -/
theorem watchdogAndDeferredActivation : Obligations.WatchdogAndDeferredActivation := by
  unfold Obligations.WatchdogAndDeferredActivation
  refine ⟨fun s ha hr hh => congrArg Host.Outcome.next (if_pos ⟨ha, hr, hh⟩), fun s ha => ⟨_, congrArg Host.Outcome.next (if_pos ha), ?_⟩,
    fun s hd hh hr hj hf hv => ?_⟩
  · generalize s.aon.wdResets.filter (fun x => decide (s.aon.us < x + 600000000)) = past
    have reset := managementReset_keeps { s with aon := { s.aon with wdResets := past ++ [s.aon.us] } } .mgmtWatchdog
    dsimp only at reset ⊢
    simp only [List.length_append, List.length_singleton]
    by_cases h : 3 ≤ past.length
    · rw [if_pos (by omega)]
      simp only [reopenSessions_frame, logEv_frame, reset, h, decide_true, Bool.or_true, and_self]
    · rw [if_neg (by omega)]
      simp only [reset, h, decide_false, Bool.or_false, and_self]
  · obtain ⟨l, laid, start⟩ := startJob_activate s none hj hf
    have run : exec .deferredActivation s = .next (startJob s (.activate false) none) := by
      refine congrArg Host.Outcome.next ((if_pos ⟨hd, hh, hr, by simp [hj]⟩).trans ?_)
      rw [if_neg hv, if_neg (by simp [hf])]
    rw [start] at run
    exact ⟨_, run, ⟨_, rfl, rfl, rfl, rfl, laid⟩, rfl, rfl, rfl, rfl⟩

end

section
/-! LAW. The phases of BOOT before the firmware (R54, R78, R79, R81, R86, R92, R184, R346). -/

namespace Sys2Proof.Machine

/-! ## A column's modes -/

/-- The domains of a list take the column's mode each, but for the FAILED ones (R52, R64). -/
theorem foldl_setMode_mode (g : Dom → DMode) (l : List Dom) (hl : l.Nodup) (u : State) (d : Dom) :
    (domOf (l.foldl (fun s' x => if (domOf s' x).mode = .failed then s' else setMode s' x (g x)) u) d).mode =
      if d ∈ l ∧ (domOf u d).mode ≠ .failed then g d else (domOf u d).mode := by
  induction l generalizing u with
  | nil => simp
  | cons x t ih =>
    obtain ⟨fresh_, rest⟩ := List.nodup_cons.mp hl
    obtain ⟨self, other⟩ := setMode_modes u x (g x)
    rw [List.foldl_cons, ih rest]
    by_cases e : d = x
    · subst e
      by_cases failed : (domOf u d).mode = .failed
      · simp [fresh_, failed]
      · simp [fresh_, failed, self]
    · have same : (domOf (if (domOf u x).mode = .failed then u else setMode u x (g x)) d).mode = (domOf u d).mode := by
        split
        · rfl
        · exact other d e
      rw [same]
      simp [e]

/-- A change of modes brings every domain that has not FAILED to its column (R52, R64). -/
theorem applyModes_mode (s : State) (f : State → Dom → DMode) (d : Dom) :
    (domOf (applyModes s f) d).mode = if (domOf s d).mode = .failed then .failed else f s d := by
  unfold applyModes
  rw [domOf_congr ((settlePlls_dom _).1.trans ((wakeLanes_dom _ _).trans (settleLanes_dom _))),
    foldl_setMode_mode (f s) (allFin 20) (List.nodup_finRange 20)]
  by_cases failed : (domOf s d).mode = .failed
  · simp [failed]
  · simp [failed, allFin]

theorem applyWake_mode (s : State) (f : State → Dom → DMode) (d : Dom) :
    (domOf (applyWake s f) d).mode = if (domOf s d).mode = .failed then .failed else f s d := by
  have dom : (applyWake s f).doms = (applyModes s f).doms := by
    unfold applyWake
    simp only [ite_doms, wakeStakes_frame, ite_self]
  exact (congrArg DomSt.mode (domOf_congr (congrArg (·.dom) dom) d)).trans (applyModes_mode s f d)

theorem applyWake_aon (s : State) (f : State → Dom → DMode) : ∃ r, (applyWake s f).aon = { s.aon with runDisable := r } := by
  obtain ⟨r, h⟩ := applyModes_aon s f
  refine ⟨r, ?_⟩
  unfold applyWake
  simp only [ite_aon, wakeStakes_frame, ite_self, h]

/-! ## The domains come up -/

/-- The count at the first BOOT touches D06 and the log alone (R266, R268). -/
theorem startWarp_frame (s : State) :
    (startWarp s).aon = s.aon ∧ (startWarp s).pins = s.pins ∧ (startWarp s).doms = s.doms ∧ (startWarp s).nand = s.nand ∧
    (startWarp s).cfl = s.cfl := by
  simp only [startWarp, firstTable, ite_aon, ite_pins, ite_doms, ite_nand, ite_cfl, logEv_frame, ite_self, and_self]

/-- The column BOOT, with the clocks, the protection and the warp count that come with it (R78). -/
def raisedForBoot (s : State) : State := startWarp (loadProtection (relock (applyWake s modesBoot)))

/-- Of AON the run-time disable mask alone may differ, and the domains read the column BOOT (R54). -/
theorem raisedForBoot_keeps (s : State) :
    (∃ r, (raisedForBoot s).aon = { s.aon with runDisable := r }) ∧ (raisedForBoot s).cfl.words = s.cfl.words ∧
    (raisedForBoot s).nand = s.nand ∧ (raisedForBoot s).pins = s.pins ∧
    ∀ d : Dom, (domOf (raisedForBoot s) d).mode = if (domOf s d).mode = .failed then .failed else modesBoot s d := by
  obtain ⟨r, woken⟩ := applyWake_aon s modesBoot
  obtain ⟨warpAon, warpPins, warpDoms, warpNand, warpCfl⟩ := startWarp_frame (loadProtection (relock (applyWake s modesBoot)))
  obtain ⟨lockPins, dom, -, lockAon, lockNand, lockCfl, -⟩ := relock_frame (applyWake s modesBoot)
  have domains : (raisedForBoot s).doms.dom = (applyWake s modesBoot).doms.dom := by
    rw [raisedForBoot, warpDoms, (loadProtection_frame _).2.2.1, dom]
  refine ⟨⟨r, by rw [raisedForBoot, warpAon, (loadProtection_frame _).1, lockAon, woken]⟩, ?_, ?_, ?_, fun d => ?_⟩
  · rw [raisedForBoot, warpCfl]
    simp only [loadProtection_frame, lockCfl, applyWake_frame]
  · rw [raisedForBoot, warpNand]
    simp only [loadProtection_frame, lockNand, applyWake_frame]
  · rw [raisedForBoot, warpPins]
    simp only [loadProtection_frame, lockPins, applyWake_frame]
  · rw [domOf_congr domains, applyWake_mode]

/-- BOOT_DOMAINS_UP keeps AON but for the mask and its phase, and its domains read the column BOOT (R54, R78). -/
theorem bootDomainsUp_keeps (s : State) :
    let t := setBoot (holdElection (raisedForBoot s)) (fun b => { b with domainsUp := true })
    t.aon.boot = { s.aon.boot with domainsUp := true } ∧ t.aon.hold = s.aon.hold ∧ t.aon.img = s.aon.img ∧ t.cfl.words = s.cfl.words ∧
    t.nand = s.nand ∧ t.pins = s.pins ∧
    ∀ d : Dom, (domOf t d).mode = if (domOf s d).mode = .failed then .failed else if enabled s d = true then .on else .off := by
  obtain ⟨⟨r, aon⟩, words, nand, pins, mode⟩ := raisedForBoot_keeps s
  generalize raisedForBoot s = u at aon words nand pins mode ⊢
  have hold : u.aon.hold = s.aon.hold := by rw [aon]
  have img : u.aon.img = s.aon.img := by rw [aon]
  refine ⟨?_, hold, img, words, nand, pins, mode⟩
  rw [setBoot_aon_boot, holdElection, aon]

theorem execBootDomainsUp_boots (s : State) (hh : s.aon.hold = .boot) (hd : s.aon.boot.domainsUp = false) (hr : s.pins.refclk = true) :
    execBootDomainsUp s = .next (setBoot (holdElection (raisedForBoot s)) (fun b => { b with domainsUp := true })) := by
  unfold execBootDomainsUp raisedForBoot
  rw [if_pos ⟨hh, hd, hr⟩]

/-! ## The boot ROM -/

/-- Of two banks the first that fails a check leaves its place to the other, with FALLBACK = 1 (R79). -/
theorem bankFails_first (s : State) (h2 : s.aon.boot.second = false) (hf : s.aon.opt.fallback = true) :
    bankFails s = setBoot s (fun b => { b with trying := otherBank b.trying, second := true, header := false }) :=
  if_pos (by simp [h2, hf])

theorem execHeaderCheck_first (s : State) (hr : romRuns s = true) (hh : s.aon.boot.header = false) (h3 : isOn s 3 = true)
    (h2 : s.aon.boot.second = false) (hf : s.aon.opt.fallback = true) :
    execHeaderCheck s = .next (if bootHeaderOk s s.aon.boot.trying = true then setBoot s (fun b => { b with header := true })
      else setBoot s (fun b => { b with trying := otherBank b.trying, second := true, header := false })) := by
  unfold execHeaderCheck
  rw [if_pos (by simp [hr, hh]), h3, Bool.true_and, bankFails_first s h2 hf]

/-- The state after a body that passes on the first bank: that bank runs, its key fetched, with no fallback (R79, R346). -/
theorem execBodyCheck_passes (s : State) (hr : romRuns s = true) (hh : s.aon.boot.header = true) (hb : s.aon.boot.body = false)
    (h3 : isOn s 3 = true) (h2 : s.aon.boot.second = false) (ok : bodyDigestOk s s.aon.boot.trying = true) :
    execBodyCheck s = .next { s with
      cfl := { s.cfl with key := some s.aon.boot.trying }
      aon := { s.aon with boot := { s.aon.boot with body := true }, bank := s.aon.boot.trying, fwfb := false } } := by
  unfold execBodyCheck
  rw [if_pos (by simp [hr, hh, hb])]
  dsimp only
  rw [if_pos (by simp [h3, ok]), if_neg (by simp [setBoot, h2])]
  simp only [setBoot, h2]

theorem execBodyCheck_fails (s : State) (hr : romRuns s = true) (hh : s.aon.boot.header = true) (hb : s.aon.boot.body = false)
    (bad : bodyDigestOk s s.aon.boot.trying = false) : execBodyCheck s = .next (bankFails s) := by
  unfold execBodyCheck
  rw [if_pos (by simp [hr, hh, hb])]
  dsimp only
  rw [if_neg (by simp [bad])]

end Sys2Proof.Machine

open Sys2Proof Sys2Proof.Machine

/-- Settles O14: the column BOOT domain by domain, and each phase's command on its guard. -/
theorem bootPhasesOfTheHardware : Obligations.BootPhasesOfTheHardware := by
  unfold Obligations.BootPhasesOfTheHardware
  refine ⟨fun s hh hd hr => ⟨_, execBootDomainsUp_boots s hh hd hr, ?_⟩,
    fun pass s hh hp hd => congrArg Host.Outcome.next (if_pos ⟨hh, hp, hd⟩), fun s hr hh h3 h2 hf => ?_, fun s hr hh hb h3 h2 hf => ?_,
    fun root xts map s hh hf ht => congrArg Host.Outcome.next (if_pos ⟨hh, hf, ht⟩)⟩
  · obtain ⟨boot, hold, rest⟩ := bootDomainsUp_keeps s
    exact ⟨boot, hold.trans hh, rest⟩
  · refine (execHeaderCheck_first s hr hh h3 h2 hf).trans (congrArg Host.Outcome.next ?_)
    split <;> rfl
  · cases digest : bodyDigestOk s s.aon.boot.trying with
    | true => exact ⟨_, execBodyCheck_passes s hr hh hb h3 h2 digest, fun _ => rfl, fun h => absurd h.symm Bool.false_ne_true⟩
    | false =>
      refine ⟨_, execBodyCheck_fails s hr hh hb digest, fun h => absurd h Bool.false_ne_true, fun _ => ?_⟩
      exact bankFails_first s h2 hf

end

section
/-! LAW. Lanes one flit at a time (R49, R50, R51, R57, R62, R69, R330, R436). -/

namespace Sys2Proof.Machine

/-! ## One lane -/

/-- An update of a lane is what it makes of that lane's value. -/
theorem setLane_congr (s : State) (n : LaneId) (f g : Lane → Lane) (h : f (laneOf s n) = g (laneOf s n)) : setLane s n f = setLane s n g := by
  simp only [setLane, upd]
  exact congrArg (fun x => { s with doms := { s.doms with lanes := s.doms.lanes.set n.val x n.isLt } }) h

theorem eventLane_of_lt {n : LaneId} (h : n.val < 69) : eventLane n = false := decide_eq_false (by omega)

theorem laneOf_congr {s t : State} (h : t.doms.lanes = s.doms.lanes) (n : LaneId) : laneOf t n = laneOf s n := by
  simp only [laneOf, h]

theorem laneUp_congr {s t : State} (h : t.doms.dom = s.doms.dom) (n : LaneId) : laneUp t n = laneUp s n := by
  simp only [laneUp, modeOf_congr h]

/-! ## Sending -/

theorem execFlitSend_runs (s : State) (n : LaneId) (f : Flit) (h : runs s (laneSource n) = true) :
    execFlitSend n f s = .next (sendFlit s n f) := congrArg Host.Outcome.next (if_pos h)

/-- Where no event finds its lane without a credit, a source changes its lane alone (R49, R333). -/
theorem sendFlit_eq (s : State) (n : LaneId) (f : Flit) (g : Lane → Lane)
    (he : (eventLane n && laneUp s n && decide ((laneOf s n).credits = 0)) = false)
    (hg : g (laneOf s n) = if !laneUp s n ∨ ((modeOf s (laneEnds n).2 = .draining ∨ modeOf s (laneEnds n).2 = .stuck) ∧ f.kind = .desc)
      then { laneOf s n with outcome := .refused }
      else if 1 ≤ (laneOf s n).credits ∧ (laneOf s n).waiting = [] ∧ !(laneOf s n).halted
      then { laneOf s n with credits := (laneOf s n).credits - 1, flight := (laneOf s n).flight ++ [f], outcome := .sent }
      else { laneOf s n with waiting := (laneOf s n).waiting ++ [f], outcome := .waits }) :
    sendFlit s n f = setLane s n g := by
  unfold sendFlit
  rw [if_neg (by rw [he]; exact Bool.false_ne_true)]
  exact setLane_congr s n _ g hg.symm

/-- A credit for one flit (R49). -/
theorem sendFlit_sent (s : State) (n : LaneId) (f : Flit) (hu : laneUp s n = true) (hh : (laneOf s n).halted = false)
    (hw : (laneOf s n).waiting = []) (hc : 1 ≤ (laneOf s n).credits)
    (hd : f.kind = .desc → modeOf s (laneEnds n).2 ≠ .draining ∧ modeOf s (laneEnds n).2 ≠ .stuck) :
    sendFlit s n f = setLane s n (fun l => { l with credits := l.credits - 1, flight := l.flight ++ [f], outcome := .sent }) := by
  have some_ : (laneOf s n).credits ≠ 0 := by omega
  have taken : ¬((modeOf s (laneEnds n).2 = .draining ∨ modeOf s (laneEnds n).2 = .stuck) ∧ f.kind = .desc) := fun ⟨drains, desc⟩ =>
    drains.elim (hd desc).1 (hd desc).2
  exact sendFlit_eq s n f _ (by simp [some_]) (by simp [hu, hh, hw, hc, taken])

/-- Without a credit a flit other than a descriptor waits (R49). -/
theorem sendFlit_waits (s : State) (n : LaneId) (f : Flit) (hu : laneUp s n = true) (hc : (laneOf s n).credits = 0) (hn : n.val < 69)
    (hd : f.kind ≠ .desc) : sendFlit s n f = setLane s n (fun l => { l with waiting := l.waiting ++ [f], outcome := .waits }) :=
  sendFlit_eq s n f _ (by simp [eventLane_of_lt hn]) (by simp [hu, hc, hd])

/-- A DOWN lane, and a sink that drains for a descriptor, refuse the flit (R57, R62). -/
theorem sendFlit_refused (s : State) (n : LaneId) (f : Flit)
    (h : laneUp s n = false ∨ f.kind = .desc ∧ n.val < 69 ∧ modeOf s (laneEnds n).2 = .draining) :
    sendFlit s n f = setLane s n (fun l => { l with outcome := .refused }) := by
  obtain down | ⟨desc, hn, drains⟩ := h
  · exact sendFlit_eq s n f _ (by simp [down]) (by simp [down])
  · exact sendFlit_eq s n f _ (by simp [eventLane_of_lt hn]) (by simp [desc, drains])

/-! ## Arrival -/

/-- The state once the flit `f` stands in the sink's queue (R69). -/
def arrived (s : State) (n : LaneId) (f : Flit) (rest : List Flit) : State :=
  setLane s n (fun l => { l with flight := rest, queue := l.queue ++ [f] })

theorem execFlitArrival_clean (s : State) (n : LaneId) (f : Flit) (rest : List Flit) (hr : runs s (laneSink n) = true)
    (hf : (laneOf s n).flight = f :: rest) (hp : f.poison = false) : execFlitArrival n .clean s = .next (arrived s n f rest) := by
  unfold execFlitArrival
  rw [if_pos hr, hf]
  exact congrArg Host.Outcome.next (if_neg (by rw [if_neg (by decide), hp]; exact Bool.false_ne_true))

theorem execFlitArrival_corrected (s : State) (n : LaneId) (f : Flit) (rest : List Flit) (hr : runs s (laneSink n) = true)
    (hf : (laneOf s n).flight = f :: rest) (hp : f.poison = false) :
    execFlitArrival n .corrected s = .next (noteCorrected (arrived s n f rest) n) := by
  unfold execFlitArrival
  rw [if_pos hr, hf]
  exact congrArg Host.Outcome.next (if_neg (by rw [if_neg (by decide), hp]; exact Bool.false_ne_true))

theorem execFlitArrival_uncorrectable (s : State) (n : LaneId) (f : Flit) (rest : List Flit) (hr : runs s (laneSink n) = true)
    (hf : (laneOf s n).flight = f :: rest) :
    execFlitArrival n .uncorrectable s = .next (notePoison (arrived s n { f with poison := true } rest) n { f with poison := true }) := by
  unfold execFlitArrival
  rw [if_pos hr, hf]
  rfl

/-- A corrected flit is counted on its lane; the log apart, nothing else differs (R69, R330). -/
theorem noteCorrected_keeps (s : State) (n : LaneId) :
    (laneOf (noteCorrected s n) n).queue = (laneOf s n).queue ∧ (laneOf (noteCorrected s n) n).corr = (laneOf s n).corr + 1 ∧
    (∀ m, m ≠ n → laneOf (noteCorrected s n) m = laneOf s m) ∧ (noteCorrected s n).map = s.map ∧ (noteCorrected s n).nand = s.nand ∧
    (noteCorrected s n).aon = s.aon := by
  unfold noteCorrected
  extract_lets l recorded t
  have lanes : ∀ m, laneOf (logEv t (laneSink n) .laneCorr n.val (l.corrNew + 1)) m = laneOf t m := laneOf_congr (by simp only [logEv_frame])
  refine ⟨?_, ?_, fun m hm => ?_, ?_, ?_, ?_⟩
  · rw [lanes, laneOf_setLane]
  · rw [lanes, laneOf_setLane]
  · rw [lanes, laneOf_setLane_other _ _ _ _ hm]
  all_goals simp only [logEv_frame, t, setLane_frame]

/-- POISON on the host's lane 0 is counted and sets every bit of the dirty map (R107). -/
theorem notePoison_host (s : State) (f : Flit) :
    (laneOf (notePoison s 0 f) 0).queue = (laneOf s 0).queue ∧ (laneOf (notePoison s 0 f) 0).poison = (laneOf s 0).poison + 1 ∧
    (notePoison s 0 f).map = { s.map with dirty := allGranules s } ∧ (notePoison s 0 f).nand = s.nand ∧ (notePoison s 0 f).aon = s.aon := by
  unfold notePoison
  extract_lets t u
  rw [if_pos rfl]
  have lane : ∀ m, laneOf (logEv (setAllDirty u) 8 .mapPoison) m = laneOf t m :=
    laneOf_congr (by simp only [logEv_frame, setAllDirty_frame, u])
  refine ⟨?_, ?_, ?_, ?_, ?_⟩
  · rw [lane, laneOf_setLane]
  · rw [lane, laneOf_setLane]
  · have map : u.map = s.map := by simp only [u, t, logEv_frame, setLane_frame]
    have all : allGranules u = allGranules s := by simp only [allGranules, map]
    simp only [logEv_frame]
    show { u.map with dirty := allGranules u } = _
    rw [map, all]
  · simp only [logEv_frame, setAllDirty_frame, u, t, setLane_frame]
  · simp only [logEv_frame, setAllDirty_frame, u, t, setLane_frame]

/-! ## Credits -/

/-- The lane that carries a DONE lane's reports leads back between the same two domains, and is no event lane (R50, R51). -/
theorem statLane_back : ∀ n b : LaneId, statLane n = some b → laneEnds b = (laneEnds n).swap ∧ b ≠ n ∧ b.val < 69 := by
  decide +kernel

theorem statLane_up (s : State) {n b : LaneId} (h : statLane n = some b) : laneUp s b = laneUp s n := by
  rw [laneUp, laneUp, (statLane_back n b h).1, Prod.fst_swap, Prod.snd_swap, Bool.and_comm]

/-- The lane once a credit has come back below the depth: with nothing waiting the counter rises, and the flit whose work ended leaves the
queue (R49). -/
def credited (s : State) (n : LaneId) (tag : BitVec 8) : State := setLane s n (fun l => { l with
  credits := l.credits + 1, queue := if laneDone n = true then l.queue.eraseP (fun f => decide (f.tag = tag)) else l.queue.drop 1 })

theorem execCreditReturn_up (s : State) (n : LaneId) (g : BitVec 8) (h : WorkEnd) (hr : runs s (laneSink n) = true)
    (hu : laneUp s n = true) (hh : (laneOf s n).halted = false) (hw : (laneOf s n).waiting = [])
    (hc : (laneOf s n).credits < laneDepth n) :
    execCreditReturn { lane := n, tag := g, how := h } s = .next (
      if (laneDone n && (laneOf s n).queue.any (fun f => decide (f.tag = g))) = true then reportEnd (credited s n g) n g h
      else credited s n g) := by
  have refund : setLane s n (fun l => { l.refund with queue := l.finish (laneDone n) g }) = credited s n g :=
    setLane_congr s n _ _ (by simp only [Lane.refund, Lane.finish, hw])
  unfold execCreditReturn
  dsimp only
  rw [if_neg (by simp [hr, hh]), if_neg (by simp [hu]), if_neg (by omega), refund]

theorem execCreditReturn_down (s : State) (n : LaneId) (g : BitVec 8) (h : WorkEnd) (hr : runs s (laneSink n) = true)
    (hu : laneUp s n = false) (hh : (laneOf s n).halted = false) (hd : laneDone n = false) :
    execCreditReturn { lane := n, tag := g, how := h } s = .next (setLane s n (fun l => { l with queue := l.queue.drop 1 })) := by
  unfold execCreditReturn
  dsimp only
  rw [if_neg (by simp [hr, hh]), if_pos (by simp [hu])]
  exact congrArg Host.Outcome.next (setLane_congr s n _ _ (by simp only [Lane.finish, hd, Bool.false_eq_true, if_false]))

/-- A counter that would pass the depth halts the lane (R69). -/
theorem execCreditReturn_full (s : State) (n : LaneId) (g : BitVec 8) (h : WorkEnd) (hr : runs s (laneSink n) = true)
    (hu : laneUp s n = true) (hh : (laneOf s n).halted = false) (hc : (laneOf s n).credits = laneDepth n) (hs : coreSaveLane n = false) :
    execCreditReturn { lane := n, tag := g, how := h } s =
      .next (logEv (setLane s n (fun l => { l with halted := true })) (laneSink n) .laneHalted n.val) := by
  unfold execCreditReturn
  dsimp only
  rw [if_neg (by simp [hr, hh]), if_neg (by simp [hu]), if_pos (by omega), if_neg (by simp [hs])]

/-- The STAT flit that tells how a work ended goes back on its lane, and changes no other (R50). -/
theorem reportEnd_sent (s : State) (n b : LaneId) (g : BitVec 8) (h : WorkEnd) (hb : statLane n = some b) (hu : laneUp s n = true)
    (hh : (laneOf s b).halted = false) (hw : (laneOf s b).waiting = []) (hc : 1 ≤ (laneOf s b).credits) :
    reportEnd s n g h = setLane s b (fun l => { l with
      credits := l.credits - 1
      flight := l.flight ++ [{ kind := .stat, last := true, poison := false, tag := g, payload := .outcome h }]
      outcome := .sent }) := by
  unfold reportEnd
  rw [hb]
  exact sendFlit_sent s b _ ((statLane_up s hb).trans hu) hh hw hc (fun e => nomatch e)

end Sys2Proof.Machine

open Sys2Proof Sys2Proof.Machine

/-- Settles O18: a flit sent, its arrival, and the credit that comes back, by what each makes of its lane. -/
theorem flitsAndCredits : Obligations.FlitsAndCredits := by
  unfold Obligations.FlitsAndCredits
  refine ⟨fun n f s hr hu hh hw hc hd => ?_, fun n f s hr hu hc hn hd => ?_, fun n f s hr h => ?_,
    fun n f rest s hr hf hp => execFlitArrival_clean s n f rest hr hf hp,
    fun n f rest s hr hf hp => ⟨_, execFlitArrival_corrected s n f rest hr hf hp, ?_⟩,
    fun f rest s hr hf => ⟨_, execFlitArrival_uncorrectable s 0 f rest hr hf, ?_⟩, fun n g h s hr hu hh hw hc hl => ?_,
    fun n b g h s hr hu hh hw hc hd hb hq bh bw bc => ?_, fun n g h s hr hu hh hd => execCreditReturn_down s n g h hr hu hh hd,
    fun n g h s hr hu hh hc hs => ⟨_, execCreditReturn_full s n g h hr hu hh hc hs, ?_⟩⟩
  · exact (execFlitSend_runs s n f hr).trans (congrArg _ (sendFlit_sent s n f hu hh hw hc hd))
  · exact (execFlitSend_runs s n f hr).trans (congrArg _ (sendFlit_waits s n f hu hc hn hd))
  · exact (execFlitSend_runs s n f hr).trans (congrArg _ (sendFlit_refused s n f h))
  · obtain ⟨queue, corr, other, map, nand, aon⟩ := noteCorrected_keeps (arrived s n f rest) n
    exact ⟨by rw [queue, arrived, laneOf_setLane], by rw [corr, arrived, laneOf_setLane],
      fun m hm => (other m hm).trans (laneOf_setLane_other _ _ _ _ hm), map, nand, aon⟩
  · obtain ⟨queue, poison, map, nand, aon⟩ := notePoison_host (arrived s 0 { f with poison := true } rest) { f with poison := true }
    exact ⟨by rw [queue, arrived, laneOf_setLane], by rw [poison, arrived, laneOf_setLane], map, nand, aon⟩
  · refine (execCreditReturn_up s n g h hr hu hh hw hc).trans (congrArg Host.Outcome.next ?_)
    split
    · rename_i report
      have none_ : statLane n = none := hl.resolve_left (by simp only [Bool.and_eq_true] at report; simp [report.1])
      rw [reportEnd, none_]
      rfl
    · rfl
  · have apart := (statLane_back n b hb).2.1
    have back : laneOf (credited s n g) b = laneOf s b := laneOf_setLane_other _ _ _ _ apart
    have run := execCreditReturn_up s n g h hr hu hh hw hc
    rw [hd, hq, Bool.and_self, if_pos rfl,
      reportEnd_sent (credited s n g) n b g h hb ((laneUp_congr rfl n).trans hu) (by rw [back, bh]) (by rw [back, bw])
        (by rw [back]; exact bc)] at run
    refine ⟨_, run, ?_, ?_, fun m hn hm => ?_, rfl, rfl⟩
    · rw [laneOf_setLane_other _ _ _ _ apart.symm, credited, laneOf_setLane]
    · rw [laneOf_setLane, back]
    · rw [laneOf_setLane_other _ _ _ _ hm, credited, laneOf_setLane_other _ _ _ _ hn]
  · have lanes : ∀ m, laneOf (logEv (setLane s n (fun l => { l with halted := true })) (laneSink n) .laneHalted n.val) m =
        laneOf (setLane s n (fun l => { l with halted := true })) m := laneOf_congr (by simp only [logEv_frame])
    exact ⟨by rw [lanes, laneOf_setLane], fun m hm => by rw [lanes, laneOf_setLane_other _ _ _ _ hm], by simp only [logEv_frame, setLane_frame],
      by simp only [logEv_frame, setLane_frame]⟩

end

section
/-! LAW. What the loss of a NAND channel is made of, and that it brings no channel back (R54, R64, R66, R67). -/

namespace Sys2Proof.Machine

/-! ## The run-time disable mask -/

/-- A change of mode adds the domain to the run-time disable mask where it ends a disable, and nothing else (R54, R66). -/
theorem setMode_mask (s : State) (d : Dom) (m : DMode) :
    (setMode s d m).aon.runDisable =
      if (domOf s d).mode ≠ m ∧ ((domOf s d).mode = .draining ∨ (domOf s d).mode = .stuck) ∧ m.powered = false ∧ m ≠ .failed
      then upd s.aon.runDisable d (fun _ => true) else s.aon.runDisable := by
  unfold setMode
  by_cases h : (domOf s d).mode = m
  · simp only [h, if_true, ne_eq, not_true_eq_false, false_and, if_false]
  · simp only [h, if_false, ite_aon, noticeIssuer_frame, setRunDisable, setEnabled_frame, enterShb_frame, abortWork_frame, darkWarp_frame,
      leaveShb_frame, logPstate_frame, setDom_frame, ite_self, ne_eq, not_false_eq_true, true_and, Bool.not_eq_true']
    split <;> rfl

theorem setMode_mask_stays (s : State) (d j : Dom) (m : DMode) (h : s.aon.runDisable[j.val] = true) :
    (setMode s d m).aon.runDisable[j.val] = true := by
  rw [getElem_congr_coll (setMode_mask s d m)]
  split
  · by_cases e : j = d
    · rw [e, upd_self]
    · rw [upd_other _ _ _ _ e, h]
  · exact h

theorem applyModes_mask_stays (s : State) (f : State → Dom → DMode) (j : Dom) (h : s.aon.runDisable[j.val] = true) :
    (applyModes s f).aon.runDisable[j.val] = true := by
  have aon : (applyModes s f).aon = ((allFin 20).foldl
      (fun s' d => if (domOf s' d).mode = .failed then s' else setMode s' d (f s d)) s).aon := by
    simp only [applyModes, settlePlls_frame, wakeLanes_frame, settleLanes_frame]
  simp only [aon]
  refine List.foldlRecOn (motive := fun u : State => u.aon.runDisable[j.val] = true) _ _ h fun u hu d _ => ?_
  split
  · exact hu
  · exact setMode_mask_stays u d j _ hu

/-! ## A channel that is down -/

/-- No NAND channel that is OFF or FAILED, and no entry of the run-time disable mask, changes from `s` to `t`. -/
structure StaysDown (s t : State) : Prop where
  mode : ∀ d : Dom, 12 ≤ d.val → (domOf s d).mode = .off ∨ (domOf s d).mode = .failed → (domOf t d).mode = (domOf s d).mode
  mask : ∀ d : Dom, s.aon.runDisable[d.val] = true → t.aon.runDisable[d.val] = true

theorem StaysDown.trans {s t u : State} (h : StaysDown s t) (k : StaysDown t u) : StaysDown s u where
  mode := fun d hd hs => by
    have same := h.mode d hd hs
    exact (k.mode d hd (by rw [same]; exact hs)).trans same
  mask := fun d hs => k.mask d (h.mask d hs)

theorem StaysDown.of_same {s t : State} (hd : SameModes s t) (ha : t.aon.runDisable = s.aon.runDisable) : StaysDown s t :=
  ⟨fun d _ _ => hd d, fun d h => by simp only [ha, h]⟩

theorem StaysDown.refl (s : State) : StaysDown s s := .of_same (fun _ => rfl) rfl

theorem ite_staysDown {c : Prop} [Decidable c] {s a b : State} (ha : StaysDown s a) (hb : StaysDown s b) :
    StaysDown s (if c then a else b) := by
  split
  · exact ha
  · exact hb

/-- No column of R52 that a loss can lead to gives power to a NAND channel that has none. -/
theorem columns_channelOff (s : State) (d : Dom) (hd : 12 ≤ d.val) :
    modesDark s d = .off ∧ modesHeldBulk s d = .off ∧ modesHeldPack s d = .off ∧ modesServe s d = optKeep s d ∧
    (modesFault s d = .off ∨ modesFault s d = modesServe s d) := by
  have h0 : d ≠ 0 := channel_ne hd (n := 0) (by omega)
  have h1 : d ≠ 1 := channel_ne hd (n := 1) (by omega)
  have h5 : d ≠ 5 := channel_ne hd (n := 5) (by omega)
  have h6 : d ≠ 6 := channel_ne hd (n := 6) (by omega)
  have h7 : d ≠ 7 := channel_ne hd (n := 7) (by omega)
  have ho : optional d = true := by simp [optional, hd]
  refine ⟨by simp [modesDark, h0, h1], by simp [modesHeldBulk, h0, h1, h5, h6], by simp [modesHeldPack, h0, h5, h6],
    by simp [modesServe, h1, h5, ho], ?_⟩
  unfold modesFault
  split
  · simp [h1, h7]
  · exact .inr rfl

theorem applyModes_down (s : State) (f : State → Dom → DMode)
    (hf : ∀ d : Dom, 12 ≤ d.val → f s d = .off ∨ f s d = optKeep s d) : StaysDown s (applyModes s f) where
  mode := fun d hd hs => by
    rw [applyModes_mode]
    obtain off | failed := hs
    · have keep : optKeep s d = .off := by simp only [optKeep, off]
      rw [off, if_neg (by decide)]
      exact (hf d hd).elim id (fun e => e.trans keep)
    · rw [if_pos failed, failed]
  mask := applyModes_mask_stays s f

theorem modesFault_down (s : State) : StaysDown s (applyModes s modesFault) :=
  applyModes_down s _ fun d hd =>
    have ⟨_, _, _, serve, fault⟩ := columns_channelOff s d hd
    fault.imp_right (·.trans serve)

theorem powerDown_down (s : State) : StaysDown s (powerDown s) := by
  refine .of_same (fun d => ?_) ?_
  · simp only [powerDown, domOf, Vector.getElem_map, interruptCfl_frame, closeSessions_frame, dropRimJob_frame]
  · simp only [powerDown, interruptCfl_frame, closeSessions_frame, dropRimJob_frame]

/-- What ends at an entry to HELD or DARK, before the power goes (R31). -/
theorem ended_down (s : State) : StaysDown s (checkpointCells (stopArrays (dropRestore (abandonReload s)))) :=
  .of_same (.of_dom (by simp only [checkpointCells_frame, stopArrays_frame, dropRestore_frame, abandonReload_frame]))
    (by simp only [checkpointCells, stopArrays_frame, dropRestore_frame, abandonReload_frame])

theorem dramLost_down (s : State) : StaysDown s (dramLost s) := .of_same (.of_dom rfl) rfl

theorem warpHold_down (s : State) : StaysDown s (warpHold s) :=
  .of_same (.of_dom (by simp only [warpHold_frame])) (by simp only [warpHold_frame])

theorem enterHeld_down (s : State) : StaysDown s (enterHeld s) := by
  refine (ended_down s).trans ?_
  unfold enterHeld
  extract_lets a _ _ b c d _ e
  have marked : StaysDown a { a with aon := { a.aon with hold := .held }, nand := { a.nand with dramSr := true } } := .of_same (.of_dom rfl) rfl
  have modes : StaysDown b c := applyModes_down b _ fun n hn => by
    obtain ⟨-, bulk, pack, -⟩ := columns_channelOff b n hn
    split
    · exact .inl bulk
    · exact .inl pack
  have warp : StaysDown c d := ite_staysDown (.refl c) (warpHold_down c)
  clear_value d
  have qualified : StaysDown d e := .of_same (.of_dom rfl) rfl
  exact ((marked.trans (powerDown_down _)).trans modes).trans ((warp.trans qualified).trans (ite_staysDown (.refl e) (dramLost_down e)))

theorem enterDark_down (s : State) : StaysDown s (enterDark s) := by
  refine (ended_down s).trans ?_
  unfold enterDark
  extract_lets a _ _ b c _ d
  have marked : StaysDown a { a with aon := { a.aon with hold := .dark }, nand := { a.nand with dramSr := true } } := .of_same (.of_dom rfl) rfl
  have modes : StaysDown b c := (applyModes_down b _ fun n hn => .inl (columns_channelOff b n hn).1).trans (warpHold_down _)
  have qualified : StaysDown c d := .of_same (.of_dom rfl) rfl
  exact ((marked.trans (powerDown_down _)).trans modes).trans (qualified.trans (ite_staysDown (.refl d) (dramLost_down d)))

/-- FAULT's entry before a droop that stands is judged (R45). -/
theorem faultEntry_down (s : State) (l : List FaultCause) (n : Nat) : StaysDown s (faultEntry s l n) := by
  have logged : ∀ u : State, StaysDown u (l.foldl (fun s c => logEv s 0 .faultEntry c.code n) u) := fun u =>
    .of_same (.of_dom (by simp only [foldl_doms, logEv_frame, implies_true])) (by simp only [foldl_aon, logEv_frame, implies_true])
  have ended : StaysDown s (dropRestore (if isOn s 8 then s else abandonReload s)) :=
    .of_same (.of_dom (by simp only [dropRestore_frame, ite_doms, abandonReload_frame, ite_self]))
      (by simp only [dropRestore_frame, onOrAbandon_frame])
  have marked : ∀ u : State, StaysDown u (faultMark (stopArrays u) l) := fun u =>
    .of_same (.of_dom (by simp only [faultMark_keeps, stopArrays_frame]))
      (by simp only [faultMark, ite_aon, dropRimJob_frame, stopArrays_frame, ite_self])
  exact ((ended.trans (marked _)).trans ((logged _).trans (modesFault_down _))).trans (.of_same (.of_dom rfl) rfl)

theorem enterFault_down (s : State) (l : List FaultCause) (n : Nat) : StaysDown s (enterFault s l n) :=
  (faultEntry_down s l n).trans (ite_staysDown (ite_staysDown (enterHeld_down _) (enterDark_down _)) (.refl _))

/-! ## The steps of a loss -/

theorem ArrayStep.down {s t : State} (h : ArrayStep s t) : StaysDown s t := .of_same (.of_dom (by rw [h.doms])) (by rw [h.aon])

theorem foldl_staysDown {α : Type} (f : State → α → State) (h : ∀ u x, StaysDown u (f u x)) (l : List α) (s : State) :
    StaysDown s (l.foldl f s) :=
  List.foldlRecOn (motive := StaysDown s) l f (.refl s) fun _ hu _ _ => hu.trans (h _ _)

theorem logEv_down (s : State) (d : Dom) (k : EvKind) (a b c e : Nat) : StaysDown s (logEv s d k a b c e) :=
  .of_same (.of_dom (by simp only [logEv_frame])) (by simp only [logEv_frame])

theorem answerBusy_down (s : State) (k : Option Sess) (b : Busy) (l : Line) : StaysDown s (answerBusy s k b l) :=
  .of_same (.of_dom (by simp only [answerBusy_frame])) (by simp only [answerBusy_frame])

theorem recomputeCover_down (s : State) : StaysDown s (recomputeCover s) :=
  .of_same (.of_dom (by simp only [recomputeCover_frame])) (by rw [recomputeCover_aon])

theorem saveFails_down (s : State) (c : FaultCause) : StaysDown s (saveFails s c) := by
  unfold saveFails
  extract_lets old _ _ t
  have marked : StaysDown s t := .of_same (.of_dom rfl) rfl
  exact marked.trans ((logEv_down t _ _ _ _ _ _).trans (enterFault_down _ _ _))

theorem restoreFails_down (s : State) : StaysDown s (restoreFails s) := (logEv_down s _ _ _ _ _ _).trans (enterFault_down _ _ _)

theorem unarm_down (s : State) (c : FaultCause) : StaysDown s (unarm s c) :=
  ite_staysDown (enterFault_down s _ _) (ite_staysDown (logEv_down s _ _ _ _ _ _) (.refl s))

/-- The rim area is lost (R44). -/
theorem rimDead_down (s : State) : StaysDown s (unarm { s with nand := { s.nand with rimDead := true } } .rimArea) :=
  have dead : StaysDown s { s with nand := { s.nand with rimDead := true } } := .of_same (.of_dom rfl) rfl
  dead.trans (unarm_down _ _)

theorem rimImpossible_down (s : State) (use : RimUse) : StaysDown s (rimImpossible s use) := by
  have gone : StaysDown s { s with nand := { s.nand with rimJob := none, tab := none } } := .of_same (.of_dom rfl) rfl
  refine gone.trans ?_
  unfold rimImpossible
  extract_lets _ t f
  cases use with
  | saveRim => exact saveFails_down t _
  | restoredRim => exact restoreFails_down t
  | zeroSave =>
    have pending : StaysDown t { t with aon := { t.aon with img := .pending } } := .of_same (.of_dom rfl) rfl
    exact pending.trans (enterHeld_down _)
  | discardRim k => exact (rimDead_down t).trans (answerBusy_down _ _ _ _)
  | formatRim =>
    have never : StaysDown t { t with nand := { t.nand with prov := .never } } := .of_same (.of_dom rfl) rfl
    exact never.trans (rimDead_down _)
  | foldRim => exact rimDead_down t
  | eraseProof => exact rimDead_down t

theorem againCopy_down (s : State) (b : Bool) (n : Nat) : StaysDown s (againCopy s b n) := by
  unfold againCopy
  split
  · exact .of_same (.of_dom rfl) rfl
  · exact .refl s

theorem relocateCopy_down (s : State) (b : Bool) : StaysDown s (relocateCopy s b) := by
  unfold relocateCopy
  split
  · exact .refl s
  · split
    · rename_i moved
      exact (moveRing_array _ _ b moved).down.trans (againCopy_down _ b 0)
    · exact rimImpossible_down s _

theorem loseRing1_down (s : State) (d : Die) (b : Bool) : StaysDown s (loseRing1 s d b) := by
  refine ite_staysDown (.refl s) ?_
  split
  · exact relocateCopy_down s b
  · refine ite_staysDown (.refl s) ?_
    split
    · rename_i moved
      exact (moveRing_array _ _ b moved).down
    · exact rimDead_down s

theorem moveRings_down (s : State) (d : Dom) : StaysDown s (moveRings s d) :=
  foldl_staysDown _ (fun u x => ite_staysDown ((loseRing1_down u x false).trans (loseRing1_down _ x true)) (.refl u)) _ s

theorem saveAdvance_array (s : State) : ArrayStep s (saveAdvance s) := by
  unfold saveAdvance
  split
  · exact .refl s
  · exact ite_arrayStep ((setSave_array _ _).trans (startTables_array _ _ _ _)) (.refl s)

theorem stripeShort_array (s : State) : ArrayStep s (stripeShort s) := by
  have stopped : ∀ u : State, ArrayStep u (stopPlaits u) := fun u => by
    unfold stopPlaits
    split
    · exact .refl u
    · exact (setSave_array _ _).trans (saveAdvance_array _)
  unfold stripeShort
  split
  · exact ite_arrayStep (ArrayStep.trans (by constructor <;> simp only [logEv_frame]) (stopped _)) (.refl s)
  · exact .refl s

theorem tableFailed_down (s : State) (d : Die) : StaysDown s (tableFailed s d) := by
  unfold tableFailed
  split
  · exact .refl s
  · split
    · exact rimImpossible_down s _
    · exact ((tab_array s _).trans (wakeStrands_array _)).down

theorem diesChanged_down (s : State) : StaysDown s (diesChanged s) := .of_same (.of_dom rfl) rfl

theorem strandFailed_down (s : State) (d : Die) : StaysDown s (strandFailed s d) := by
  unfold strandFailed
  extract_lets a b hit
  have failed : StaysDown s b := ((setDie_array s d _).down.trans (diesChanged_down _)).trans (logEv_down a _ _ _ _ _ _)
  refine failed.trans ?_
  split
  · exact tableFailed_down b d
  · exact ((abandonPlaits_array b _ hit).down.trans (tableFailed_down _ d)).trans
      ((stripeShort_array _).trans ((wakeStrands_array _).trans (saveAdvance_array _))).down

/-- What a die was about when its channel goes (R158). -/
theorem abandonDie_down (s : State) (d : Die) : StaysDown s (abandonDie s d) := by
  have idle : ArrayStep s (setOp s d .idle) := setOp_array s d _
  have rim : ∀ b, StaysDown s (match (setOp s d .idle).nand.rimJob with
      | some j => copyFails (setOp s d .idle) j b
      | none => setOp s d .idle) := fun b => by
    split
    · exact idle.down.trans (ite_staysDown (againCopy_down _ b 1) (relocateCopy_down _ b))
    · exact idle.down
  have fold : StaysDown s (match foldOf s d with
      | some f => setRole (dropFold (setOp s d .idle) d) d f.block .erasePending
      | none => setOp s d .idle) := by
    split
    · exact (idle.trans ((dropFold_array _ d).trans (setRole_array _ _ _ _))).down
    · exact idle.down
  unfold abandonDie
  split
  · exact strandFailed_down s d
  · exact strandFailed_down s d
  · exact strandFailed_down s d
  · exact strandFailed_down s d
  · exact strandFailed_down s d
  · exact strandFailed_down s d
  · exact rim _
  · exact rim _
  · exact fold
  · exact fold
  · exact .refl s
  · exact idle.down

/-- The loss of a channel brings no channel back and takes no entry off the run-time disable mask. -/
theorem channelLost_down (s : State) (d : Dom) : StaysDown s (channelLost s d) := by
  have stripe : ∀ u : State, StaysDown u (checkStripe u) := fun u => ite_staysDown (unarm_down u _) (.refl u)
  have path : ∀ u : State, StaysDown u (checkReadPath u) := fun u => by
    unfold checkReadPath
    split
    · exact ite_staysDown (restoreFails_down u) (.refl u)
    · exact .refl u
  exact (foldl_staysDown _ abandonDie_down _ s).trans ((moveRings_down _ d).trans ((diesChanged_down _).trans ((recomputeCover_down _).trans
    ((stripeShort_array _).down.trans ((stripe _).trans ((path _).trans (saveAdvance_array _).down))))))

end Sys2Proof.Machine
end

section
/-! LAW. A domain that is enabled, fails or drains (R48, R54-R58, R66, R67). -/

namespace Sys2Proof.Machine

/-! ## A mode with power -/

/-- A domain whose mode becomes one with power: its enable ends (R52). -/
def withPower (m : DMode) (x : DomSt) : DomSt :=
  { x with mode := m, enabling := none, issuer := if m = .draining ∨ m = .stuck then x.issuer else none, failKind := none }

/-- A change to a mode with power touches that domain alone, of the domains, the lanes and AON (R52). -/
theorem setMode_powered (s : State) (d : Dom) (m : DMode) (h : (domOf s d).mode ≠ m) (hm : m.powered = true) :
    (setMode s d m).doms = (setDom s d (withPower m)).doms ∧ (setMode s d m).aon = s.aon := by
  have off : m ≠ .off := fun e => by rw [e] at hm; exact Bool.false_ne_true hm
  have failed : m ≠ .failed := fun e => by rw [e] at hm; exact Bool.false_ne_true hm
  unfold setMode
  rw [if_neg h]
  simp only [hm, off, failed, Bool.not_true, Bool.false_eq_true, or_self, and_false, false_and, if_false, ite_doms, ite_aon, enterShb_frame,
    logPstate_frame, setDom_frame, ite_self, and_true]
  rfl

/-! ## DOMAIN_UP -/

theorem resetLane_dom (s : State) (n : LaneId) : (resetLane s n).doms.dom = s.doms.dom := by
  unfold resetLane
  simp only [ite_doms, logEv_frame, ite_self]

theorem resetLanesOf_dom (s : State) (d : Dom) : (resetLanesOf s d).doms.dom = s.doms.dom :=
  List.foldlRecOn (motive := fun u : State => u.doms.dom = s.doms.dom) _ resetLane rfl fun u hu n _ => (resetLane_dom u n).trans hu

/-- A note that a channel waits for a full save is none about its mode or its enable (R56). -/
theorem setWaiting_keeps (s : State) (d : Dom) (b : Bool) :
    SameModes s (setDom s d (fun x => { x with waiting := b })) ∧
    ∀ e, (domOf (setDom s d (fun x => { x with waiting := b })) e).enabling = (domOf s e).enabling := by
  refine ⟨setDom_sameModes s d _ fun _ => rfl, fun e => ?_⟩
  by_cases he : e = d
  · rw [he, domOf_setDom]
  · rw [domOf_setDom_other _ _ _ _ he]

/-- A channel that joins the stripe, and D05's filters, touch neither a mode nor an enable (R56, R236). -/
theorem joinStripe_keeps (s : State) (d : Dom) :
    SameModes s (joinStripe s d) ∧ (∀ e, (domOf (joinStripe s d) e).enabling = (domOf s e).enabling) ∧
    (joinStripe s d).aon.runDisable = s.aon.runDisable ∧ (joinStripe s d).aon.hold = s.aon.hold ∧
    (joinStripe s d).nand.rims = s.nand.rims ∧ (joinStripe s d).cfl = s.cfl := by
  by_cases hd : 12 ≤ d.val
  · obtain ⟨modes, enables⟩ := setWaiting_keeps s d (s.aon.img ≠ .none)
    have join : joinStripe s d = recomputeCover (reseedEg (setDom s d (fun x => { x with waiting := s.aon.img ≠ .none }))) := if_pos hd
    have dom : ∀ e, domOf (joinStripe s d) e = domOf (setDom s d (fun x => { x with waiting := s.aon.img ≠ .none })) e :=
      domOf_congr (by simp only [join, recomputeCover_frame, reseedEg_frame])
    refine ⟨fun e => by rw [dom, modes e], fun e => by rw [dom, enables e], ?_, ?_, ?_, ?_⟩ <;> rw [join]
    · rw [recomputeCover_aon]
      simp only [reseedEg_frame, setDom_frame]
    all_goals simp only [recomputeCover_frame, reseedEg_frame, setDom_frame]
  · have join : joinStripe s d = if d = 5 then programFilters s else s := if_neg hd
    have dom : ∀ e, domOf (joinStripe s d) e = domOf s e := domOf_congr (by simp only [join, ite_doms, programFilters, ite_self])
    refine ⟨fun e => by rw [dom], fun e => by rw [dom], ?_, ?_, ?_, ?_⟩ <;>
      simp only [join, ite_aon, ite_nand, ite_cfl, programFilters, ite_self]

/-- A domain taken ON out of the run-time disable mask (R55). -/
def turnedOn (s : State) (d : Dom) : State := setRunDisable (setEnabled (setMode s d .on) d true) d false

theorem turnedOn_keeps (s : State) (d : Dom) :
    (domOf (turnedOn s d) d).mode = .on ∧ (turnedOn s d).aon.runDisable[d.val] = false ∧
    (∀ e : Dom, e ≠ d → (domOf (turnedOn s d) e).mode = (domOf s e).mode) ∧
    ((domOf s d).mode ≠ .on → (domOf (turnedOn s d) d).enabling = none) ∧ (turnedOn s d).nand = s.nand ∧ (turnedOn s d).cfl = s.cfl ∧
    (turnedOn s d).aon.hold = s.aon.hold := by
  obtain ⟨self, other⟩ := setMode_modes s d .on
  have dom : ∀ e, domOf (turnedOn s d) e = domOf (setEnabled (setMode s d .on) d true) e :=
    domOf_congr (by simp only [turnedOn, setRunDisable_frame])
  have modes : SameModes (setMode s d .on) (setEnabled (setMode s d .on) d true) := setDom_sameModes _ d _ fun _ => rfl
  refine ⟨by rw [dom, modes, self], upd_self _ d _, fun e he => by rw [dom, modes, other e he], fun off => ?_, ?_, ?_, ?_⟩
  · rw [dom, setEnabled, domOf_setDom, domOf_congr (s := setDom s d (withPower .on)) (by rw [(setMode_powered s d .on off rfl).1]), domOf_setDom]
    rfl
  all_goals simp only [turnedOn, setRunDisable_frame, setEnabled_frame, setMode_frame]

theorem execDomainUp_up (d : Dom) (k : Option Sess) (s : State) (h : (domOf s d).enabling = some k)
    (hp : ∀ p, pllOf d = some p → pllOn s p = true) :
    ∃ l, execDomainUp d s = .next (answerBusy (joinStripe (resetLanesOf (turnedOn s d) d) d) k (.domainEnable d) l) := by
  refine ⟨OK (domFields (joinStripe (resetLanesOf (turnedOn s d) d) d) d), congrArg Host.Outcome.next ?_⟩
  rw [h]
  dsimp only
  rw [if_neg]
  · rfl
  · cases e : pllOf d with
    | none => exact Bool.false_ne_true
    | some p => simp [hp p e]

/-! ## DOMAIN_POWER_FAIL, DRAIN_COMPLETE, DRAIN_LIMIT_EXPIRY -/

theorem recomputeCover_channel (s : State) : ChannelStep s (recomputeCover s) := by
  refine .of_same ?_ ?_ ?_ <;> simp only [recomputeCover_frame]

/-- What follows once an optional domain is out: a channel's loss, or the cover (R56, R67). -/
def domainGone (s : State) (d : Dom) : State := if 12 ≤ d.val then channelLost s d else recomputeCover s

/-- It leaves the domain out, every rim and, with no operation under way, every word of the code flash. -/
theorem domainGone_keeps (s : State) (d : Dom) (m : DMode) (hm : (domOf s d).mode = m) (out : 12 ≤ d.val → m = .off ∨ m = .failed) :
    (domOf (domainGone s d) d).mode = m ∧ (s.aon.runDisable[d.val] = true → (domainGone s d).aon.runDisable[d.val] = true) ∧
    ChannelStep s (domainGone s d) := by
  unfold domainGone
  split
  · rename_i hd
    have down := channelLost_down s d
    exact ⟨(down.mode d hd (by rw [hm]; exact out hd)).trans hm, down.mask d, channelLost_channel s d⟩
  · refine ⟨?_, (recomputeCover_down s).mask d, recomputeCover_channel s⟩
    exact (congrArg DomSt.mode (domOf_congr (by simp only [recomputeCover_frame]) d)).trans hm

theorem execDomainPowerFail_optional (d : Dom) (x : PowerFail) (s : State) (h0 : d ≠ 0) (ho : optional d = true)
    (h : (domOf s d).enabling.isSome = true ∨ (domOf s d).mode.powered = true) :
    ∃ l, execDomainPowerFail d x s = .next (domainGone (match (domOf s d).enabling with
      | some k => answerBusy (settlePlls (markFailed s d x)) k (.domainEnable d) l
      | none => settlePlls (markFailed s d x)) d) := by
  refine ⟨OK (domFields (settlePlls (markFailed s d x)) d), congrArg Host.Outcome.next ?_⟩
  dsimp only
  rw [if_neg]
  · rw [ho]
    rfl
  · obtain h | h := h <;> simp [h0, h]

theorem settleLanes_channel (s : State) : ChannelStep s (settleLanes s) :=
  .of_same (by simp only [settleLanes_frame]) (settleLanes_dom s) (by simp only [settleLanes_frame])

theorem setMode_channel (s : State) (d : Dom) (m : DMode) (hm : m.powered = false) : ChannelStep s (setMode s d m) where
  rims := by simp only [setMode_frame]
  off := fun j _ h => by
    obtain ⟨self, other⟩ := setMode_modes s d m
    by_cases e : j = d
    · rw [e, self, hm]
    · rw [other j e, h]
  idle := fun h => ⟨by rw [← h]; simp only [currentOp, setMode_frame], fun w => by simp only [wordAt, setMode_frame]⟩

theorem gatedMode_cases (d : Dom) : gatedMode d = .off ∨ d.val < 12 ∧ gatedMode d = .ret := by
  unfold gatedMode
  split
  · rename_i e
    exact .inr ⟨by rw [e]; decide, rfl⟩
  · exact .inl rfl

/-- A domain that drains and is gated joins the run-time disable mask (R54, R57). -/
theorem setMode_gated (s : State) (d : Dom) (h : (domOf s d).mode = .draining) :
    (setMode s d (gatedMode d)).aon.runDisable[d.val] = true := by
  have gated : gatedMode d ≠ .draining ∧ (gatedMode d).powered = false ∧ gatedMode d ≠ .failed := by
    obtain e | ⟨-, e⟩ := gatedMode_cases d <;> rw [e] <;> decide
  rw [getElem_congr_coll ((setMode_mask s d (gatedMode d)).trans (if_pos ⟨by rw [h]; exact gated.1.symm, .inl h, gated.2⟩)), upd_self]

/-! ## The commands -/

theorem domainUp_keeps (d : Dom) (k : Option Sess) (s : State) (h : (domOf s d).enabling = some k)
    (hp : ∀ p, pllOf d = some p → pllOn s p = true) : Completes (.domainUp d) s fun t =>
      (domOf t d).mode = .on ∧ t.aon.runDisable[d.val] = false ∧ (∀ e : Dom, e ≠ d → (domOf t e).mode = (domOf s e).mode) ∧
      ((domOf s d).mode ≠ .on → (domOf t d).enabling = none) ∧ t.nand.rims = s.nand.rims ∧ t.cfl = s.cfl ∧ t.aon.hold = s.aon.hold := by
  obtain ⟨l, run⟩ := execDomainUp_up d k s h hp
  refine ⟨_, run, ?_⟩
  obtain ⟨mode, mask, other, enable, nand, cfl, hold⟩ := turnedOn_keeps s d
  obtain ⟨modes, enables, masks, holds, rims, flash⟩ := joinStripe_keeps (resetLanesOf (turnedOn s d) d) d
  have dom : ∀ u : State, ∀ e, domOf (answerBusy u k (.domainEnable d) l) e = domOf u e := fun u =>
    domOf_congr (by simp only [answerBusy_frame])
  have reset : ∀ e, domOf (resetLanesOf (turnedOn s d) d) e = domOf (turnedOn s d) e := domOf_congr (resetLanesOf_dom _ d)
  simp only [dom, answerBusy_frame, modes _, enables, masks, holds, rims, flash, reset, resetLanesOf_frame, nand, cfl, hold, and_self, and_true]
  exact ⟨mode, mask, other, enable⟩

theorem domainPowerFail_keeps (d : Dom) (x : PowerFail) (s : State) (h0 : d ≠ 0) (ho : optional d = true)
    (h : (domOf s d).enabling.isSome = true ∨ (domOf s d).mode.powered = true) : Completes (.domainPowerFail d x) s fun t =>
      (domOf t d).mode = .failed ∧ ChannelStep s t := by
  obtain ⟨l, run⟩ := execDomainPowerFail_optional d x s h0 ho h
  refine ⟨_, run, ?_⟩
  have failed : ChannelStep s (settlePlls (markFailed s d x)) := (markFailed_channel s d x).trans (settlePlls_channel _)
  have mode : (domOf (settlePlls (markFailed s d x)) d).mode = .failed := by
    rw [domOf_congr (settlePlls_dom _).1, (markFailed_modes s d x).1]
  generalize settlePlls (markFailed s d x) = u at failed mode ⊢
  have answered : ∀ k, ChannelStep u (answerBusy u k (.domainEnable d) l) := fun k => by
    refine .of_same ?_ ?_ ?_ <;> simp only [answerBusy_frame]
  split
  · rename_i k _
    obtain ⟨gone, -, step⟩ := domainGone_keeps (answerBusy u k (.domainEnable d) l) d .failed
      ((congrArg DomSt.mode (domOf_congr (by simp only [answerBusy_frame]) d)).trans mode) (fun _ => .inr rfl)
    exact ⟨gone, (failed.trans (answered k)).trans step⟩
  · obtain ⟨gone, -, step⟩ := domainGone_keeps u d .failed mode (fun _ => .inr rfl)
    exact ⟨gone, failed.trans step⟩

/-- The drained domain is gated, before what follows of it (R57). -/
def gated (s : State) (d : Dom) : State := settlePlls (settleLanes (setMode s d (gatedMode d)))

theorem gated_keeps (s : State) (d : Dom) (h : (domOf s d).mode = .draining) :
    (domOf (gated s d) d).mode = gatedMode d ∧ (gated s d).aon.runDisable[d.val] = true ∧ ChannelStep s (gated s d) := by
  have without : (gatedMode d).powered = false := by obtain e | ⟨-, e⟩ := gatedMode_cases d <;> rw [e] <;> rfl
  refine ⟨?_, ?_, (setMode_channel s d _ without).trans ((settleLanes_channel _).trans (settlePlls_channel _))⟩
  · rw [gated, domOf_congr ((settlePlls_dom _).1.trans (settleLanes_dom _)), (setMode_modes s d _).1]
  · simp only [gated, settlePlls_frame, settleLanes_frame, setMode_gated s d h]

theorem drainComplete_keeps (d : Dom) (s : State) (h : (domOf s d).mode = .draining) (hd : drained s d = true) :
    Completes (.drainComplete d) s fun t =>
      (domOf t d).mode = gatedMode d ∧ t.aon.runDisable[d.val] = true ∧ ChannelStep s t := by
  refine ⟨domainGone (gated s d) d, congrArg Host.Outcome.next (if_pos ⟨h, hd⟩), ?_⟩
  obtain ⟨mode, mask, step⟩ := gated_keeps s d h
  obtain ⟨gone, masked, after⟩ := domainGone_keeps (gated s d) d _ mode fun channel =>
    .inl ((gatedMode_cases d).resolve_right fun ⟨core, _⟩ => Nat.not_le_of_lt core channel)
  exact ⟨gone, masked mask, step.trans after⟩

theorem drainLimitExpiry_keeps (d : Dom) (s : State) (h : (domOf s d).mode = .draining) : Completes (.drainLimitExpiry d) s fun t =>
    (domOf t d).mode = .stuck ∧ (∀ e : Dom, e ≠ d → domOf t e = domOf s e) ∧ t.aon = s.aon ∧ t.nand = s.nand ∧ t.cfl = s.cfl ∧
    t.doms.lanes = s.doms.lanes := by
  refine ⟨_, congrArg Host.Outcome.next (if_pos h), ?_⟩
  obtain ⟨doms, aon⟩ := setMode_powered s d .stuck (by rw [h]; decide) rfl
  dsimp only
  have dom : ∀ (k : Option Sess) (l : Line) (e : Dom),
      domOf (noticeIssuer (logEv (setMode s d .stuck) d .drainLimit) k (.drain d) l) e = domOf (setDom s d (withPower .stuck)) e :=
    fun k l => domOf_congr (by simp only [noticeIssuer_frame, logEv_frame, doms])
  refine ⟨by rw [dom, domOf_setDom]; rfl, fun e he => by rw [dom, domOf_setDom_other _ _ _ _ he], ?_⟩
  simp only [noticeIssuer_frame, logEv_frame, setMode_frame, aon, doms, setDom_doms_lanes, and_self]

end Sys2Proof.Machine

open Sys2Proof Sys2Proof.Machine

/-- Settles O19: the mode that each command gives the domain, and what follows of it leaves a domain that is out as it is. -/
theorem domainsComeUpAndGoDown : Obligations.DomainsComeUpAndGoDown := by
  unfold Obligations.DomainsComeUpAndGoDown
  refine ⟨fun p s hr ⟨d, hd, on⟩ => congrArg Host.Outcome.next (if_pos ?_), domainUp_keeps, fun d x s h0 ho h => ?_, fun d s h hd => ?_,
    drainLimitExpiry_keeps⟩
  · rw [hr, Bool.true_and, List.any_eq_true]
    exact ⟨d, List.mem_finRange d, by simp [hd, on]⟩
  · obtain ⟨t, run, failed, step⟩ := domainPowerFail_keeps d x s h0 ho h
    exact ⟨t, run, failed, step.rims, fun idle => (step.idle idle).2⟩
  · obtain ⟨t, run, mode, mask, step⟩ := drainComplete_keeps d s h hd
    exact ⟨t, run, mode, mask, step.rims, fun idle => (step.idle idle).2⟩

end

section
/-! LAW. The tick of an empty queue (R70, R262, R328), the crystal, the junction temperature, the sideband's standby supply and the
host's reset input (R84, R246, R388, R401, R408, R430). -/

namespace Sys2Proof.Machine

/-! ## The host's reset input (R84) -/

/-- A reset of the host clears HP's words and rows and ends continuity; without TRACK nothing is logged and the dirty map stays (R84). -/
theorem hostReset_host (s : State) :
    (hostReset s).hp = { s.hp with
      rcd := [], training := [], capture := [], pda := [], enums := [], mrcapOvf := false, rows := [], selfRef := [] } ∧
    (hostReset s).aon.cont = false ∧ (hostReset s).warp = s.warp ∧
    (s.aon.img ≠ .track → (hostReset s).log = s.log ∧ (hostReset s).map = s.map) := by
  unfold hostReset
  dsimp only
  split
  · rename_i track
    simp only [dropImage_frame, dropImage_nandKeeps, true_and]
    exact fun other => absurd track other
  · exact ⟨rfl, rfl, rfl, fun _ => ⟨rfl, rfl⟩⟩

/-- The reset with what follows of it: the cover where the relation was TRACK (R84, R121). -/
def hostResetWithCover (s : State) : State := if s.aon.img = .track then recomputeCover (hostReset s) else hostReset s

theorem hostResetWithCover_keeps (s : State) :
    (hostResetWithCover s).pins = s.pins ∧ (hostResetWithCover s).aon.cont = false ∧ (hostResetWithCover s).aon.hold = s.aon.hold ∧
    (hostResetWithCover s).hp = { s.hp with
      rcd := [], training := [], capture := [], pda := [], enums := [], mrcapOvf := false, rows := [], selfRef := [] } ∧
    (hostResetWithCover s).aon.img = (if s.aon.img = .track then .none else s.aon.img) ∧ (hostResetWithCover s).nand.rims = s.nand.rims ∧
    (hostResetWithCover s).cfl = s.cfl ∧ (hostResetWithCover s).warp = s.warp ∧
    (s.aon.img ≠ .track → (hostResetWithCover s).log = s.log ∧ (hostResetWithCover s).mg = s.mg ∧ (hostResetWithCover s).map = s.map) := by
  obtain ⟨hp, cont, warp, calm⟩ := hostReset_host s
  unfold hostResetWithCover
  split
  · rename_i track
    simp only [recomputeCover_frame, hostReset_keeps, hp, cont, warp, track, ne_eq, not_true_eq_false, false_implies, if_true, and_self]
  · rename_i other
    obtain ⟨log, map⟩ := calm other
    simp only [hostReset_keeps, hp, cont, warp, log, map, other, if_false, implies_true, and_self]

/-! ## The sideband's standby supply (R408, R414) -/

/-- A pipe whose partial input is abandoned. -/
def dropInput (q : Ses) : Ses := { q with line := [], lineErr := none }

/-- VSB_LOSS abandons the input of the two pipes and leaves every queue and output. -/
theorem dropInput_pipes (s : State) (k : Sess) :
    let q := getSes (setSes (setSes s 5 dropInput) 6 dropInput) k
    q.queue = (getSes s k).queue ∧ q.out = (getSes s k).out ∧ q.line = if isPipe k = true then [] else (getSes s k).line := by
  by_cases h6 : k = 6
  · subst h6
    rw [getSes_setSes, getSes_setSes_other _ _ _ _ (by decide)]
    exact ⟨rfl, rfl, rfl⟩
  · rw [getSes_setSes_other _ _ _ _ h6]
    by_cases h5 : k = 5
    · subst h5
      rw [getSes_setSes]
      exact ⟨rfl, rfl, rfl⟩
    · rw [getSes_setSes_other _ _ _ _ h5]
      have other : isPipe k = false := by
        have n5 : k.val ≠ 5 := fun e => h5 (Fin.ext e)
        have n6 : k.val ≠ 6 := fun e => h6 (Fin.ext e)
        simp only [isPipe, decide_eq_false_iff_not]
        omega
      exact ⟨rfl, rfl, by rw [other]; rfl⟩

end Sys2Proof.Machine

open Sys2Proof Sys2Proof.Machine

/-- Settles O3: an empty queue is one tick, and before the options are loaded the tick is AON's counts alone. -/
theorem emptyQueueIsOneMicrosecond : Obligations.EmptyQueueIsOneMicrosecond := by
  unfold Obligations.EmptyQueueIsOneMicrosecond
  have tick (s : State) (hq : s.pending = []) : step s = .next (idle s) := by rw [step, hq]
  refine ⟨tick, fun s hq asserted => ?_, fun s hq released unloaded => ⟨tickAon s, ?_, ?_⟩⟩
  · rw [tick s hq, idle, if_pos asserted]
  · rw [tick s hq, idle, if_neg released, if_pos unloaded]
  · exact ⟨rfl, rfl, rfl, rfl, rfl, rfl, rfl, rfl, rfl, rfl, rfl, rfl, rfl, rfl, rfl, rfl, hq⟩

/-- Settles O10: each event on its guard, the pipes' cut at VSB_LOSS, and a host reset with the cover that follows of it. -/
theorem crystalTemperatureVsbAndDramPins : Obligations.CrystalTemperatureVsbAndDramPins := by
  unfold Obligations.CrystalTemperatureVsbAndDramPins
  have level (s : State) (h : Bool) : ready { s with pins := { s.pins with drstHigh := h } } = ready s := ready_congr rfl
  have answers {s t : State} (h : s = t) : (Host.Outcome.next s : Out) = .next t := congrArg Host.Outcome.next h
  refine ⟨fun s started waits => answers (if_pos ⟨started, waits⟩), fun s started waits => answers (if_pos ⟨started, waits⟩),
    fun s failed => answers (if_pos ⟨rfl, failed⟩), fun s => answers (if_neg fun h => Bool.false_ne_true h.1), fun d s hot cool => ?_,
    fun d s cool => ?_, fun s => ⟨_, rfl, rfl, rfl, rfl, rfl, dropInput_pipes s, rfl, rfl, rfl, rfl, rfl⟩,
    fun s off => ⟨_, answers (if_neg (by rw [off]; exact Bool.false_ne_true)), rfl, rfl, rfl, rfl, rfl, rfl, rfl⟩, fun a b s => rfl,
    fun h s unready => answers (if_pos ?_), fun s ready_ => answers ((if_neg ?_).trans (if_pos rfl)),
    fun s ready_ => ⟨hostResetWithCover { s with pins := { s.pins with drstHigh := false, qrstHigh := false } },
      answers ((if_neg ?_).trans (if_neg Bool.false_ne_true)), hostResetWithCover_keeps _⟩⟩
  · refine answers ?_
    simp [cool, hot]
  · refine answers ?_
    simp [cool]
  · rw [level, unready]; rfl
  · rw [level, ready_]; exact Bool.false_ne_true
  · rw [level, ready_]; exact Bool.false_ne_true

end

section
/-! LAW. What FIRMWARE_START makes, and what the firmware prepares after it leaves as it was (R78, R83, R192, R206, R279). -/

namespace Sys2Proof.Machine

/-! ## Work on the arrays leaves the sessions -/

theorem openGroup_mg (s : State) (d : Die) (r : Role) : (openGroup s d r).1.mg = s.mg := by
  unfold openGroup
  split
  · rfl
  · split <;> rfl

theorem nextPage_mg (s : State) (d : Die) : (nextPage s d).1.mg = s.mg := by
  have h := openGroup_mg s d .deltaOpen
  unfold nextPage
  split <;> simpa only [*] using h

theorem wakeDie_mg (s : State) (d : Die) (w : Page → Work) : (wakeDie s d w).1.mg = s.mg := by
  have h := nextPage_mg s d
  unfold wakeDie
  split
  · rfl
  · split <;> (next e => rw [e] at h; exact h)

theorem foldl_fst_mg {α β : Type} (f : State × β → α → State × β) (h : ∀ q x, (f q x).1.mg = q.1.mg) (l : List α) (q : State × β) :
    (l.foldl f q).1.mg = q.1.mg :=
  List.foldlRecOn (motive := fun p : State × β => p.1.mg = q.1.mg) l f rfl fun p hp x _ => (h p x).trans hp

theorem wakeTable_mg (q : State × List TabStrand) (x : TabStrand) : (wakeTable q x).1.mg = q.1.mg := by
  unfold wakeTable
  split
  · exact wakeDie_mg _ _ _
  · rfl

theorem wakePlait_mg (q : State × List OpenPlait) (p : OpenPlait) : (wakePlait q p).1.mg = q.1.mg :=
  foldl_fst_mg wakeStrand (fun q x => by
    unfold wakeStrand
    split
    · exact wakeDie_mg _ _ _
    · rfl) p.strands (q.1, [])

theorem abandonPlaits_mg (s : State) (v : Save) (gone : OpenPlait → Bool) : (abandonPlaits s v gone).mg = s.mg := by
  refine foldl_mg _ (fun u p => foldl_mg _ (fun w x => ?_) _ _) _ _
  split
  · rw [ite_mg]; exact ite_self _
  · rw [ite_mg]; exact ite_self _
  · rfl

theorem wakeOnce_mg (s : State) : (wakeOnce s).mg = s.mg := by
  unfold wakeOnce
  extract_lets t
  have plaits : t.mg = s.mg := by
    simp only [t]
    split
    · exact (abandonPlaits_mg _ _ _).trans (foldl_fst_mg wakePlait wakePlait_mg _ (s, []))
    · rfl
  split
  · exact (foldl_fst_mg wakeTable wakeTable_mg _ (t, [])).trans plaits
  · exact plaits

theorem startProof_mg (s : State) : (startProof s).mg = s.mg := by
  unfold startProof startTables
  dsimp only
  split
  · split
    · rfl
    · exact (wakeOnce_mg _).trans (wakeOnce_mg _)
  · rfl

/-! ## The firmware's preparations -/

/-- `t` is `s` after a preparation of the firmware: sessions, records and code flash stay, and AON but for the pack's sums (R78, R212). -/
structure Prepared (s t : State) : Prop where
  mg : t.mg = s.mg
  aon : t.aon = { s.aon with packAcc := t.aon.packAcc }
  rims : t.nand.rims = s.nand.rims
  cfl : t.cfl = s.cfl

theorem Prepared.of_same {s t : State} (hm : t.mg = s.mg) (ha : t.aon = s.aon) (hr : t.nand.rims = s.nand.rims) (hc : t.cfl = s.cfl) :
    Prepared s t := ⟨hm, by rw [ha], hr, hc⟩

theorem Prepared.refl (s : State) : Prepared s s := .of_same rfl rfl rfl rfl

theorem Prepared.trans {s t u : State} (h : Prepared s t) (k : Prepared t u) : Prepared s u :=
  ⟨k.mg.trans h.mg, by rw [k.aon, h.aon], k.rims.trans h.rims, k.cfl.trans h.cfl⟩

theorem foldl_prepared {α : Type} (f : State → α → State) (h : ∀ u x, Prepared u (f u x)) (l : List α) (s : State) :
    Prepared s (l.foldl f s) :=
  List.foldlRecOn (motive := Prepared s) l f (.refl s) fun _ hu _ _ => hu.trans (h _ _)

theorem ite_prepared {c : Prop} [Decidable c] {s a b : State} (ha : Prepared s a) (hb : Prepared s b) : Prepared s (if c then a else b) := by
  split
  · exact ha
  · exact hb

theorem setArea_prepared (s : State) (a : Area) (x : AreaSt) : Prepared s (setArea s a x) := by
  refine .of_same ?_ ?_ ?_ ?_ <;> simp only [setArea_frame]

theorem settleAreas_prepared (s : State) : Prepared s (settleAreas s) := by
  unfold settleAreas
  exact foldl_prepared _ (fun u a => ite_prepared (.refl u) (setArea_prepared u a _)) _ _

theorem setSlot_prepared (s : State) (t : Tenant) (n : Nat) : Prepared s (setSlot s t n) := .of_same rfl rfl rfl rfl

theorem ten_prepared (s : State) (x : Tenants) : Prepared s { s with ten := x } := .of_same rfl rfl rfl rfl

theorem logEv_prepared (s : State) (d : Dom) (k : EvKind) (a b c e : Nat) : Prepared s (logEv s d k a b c e) := by
  refine .of_same ?_ ?_ ?_ ?_ <;> simp only [logEv_frame]

theorem loadKeys_prepared (s : State) : Prepared s (loadKeys s) := by
  have lost (u : State) (t : Tenant) (x : Tenants) : Prepared u (logEv (setSlot { u with ten := x } t 0) 2 .keyLost t.val) :=
    (ten_prepared u x).trans ((setSlot_prepared _ t 0).trans (logEv_prepared _ _ _ _ _ _ _))
  unfold loadKeys
  refine foldl_prepared _ (fun u t => ite_prepared (setSlot_prepared u t 3) ?_) _ _
  split
  · exact ite_prepared (ite_prepared (setSlot_prepared u t _) ((setSlot_prepared u t _).trans (ten_prepared _ _))) (lost u t _)
  · exact ite_prepared (lost u t _) (.refl u)

theorem startProof_prepared (s : State) : Prepared s (startProof s) :=
  have array := startProof_array s
  .of_same (startProof_mg s) array.aon array.rims array.cfl

theorem resumeErases_prepared (s : State) : Prepared s (resumeErases s) := by
  have job (u : State) (t : Tenant) (j : EraseJob) : Prepared u (setJob (setSlot u t 3) j) := (setSlot_prepared u t 3).trans (ten_prepared _ _)
  unfold resumeErases
  refine (ten_prepared s _).trans ((foldl_prepared _ (fun u t => job u t _) _ _).trans
    ((foldl_prepared _ (fun u t => ?_) _ _).trans (startProof_prepared _)))
  exact ite_prepared (job u t _) (ite_prepared (setSlot_prepared u t 3) (job u t _))

theorem bat_prepared (s : State) (x : Battery) : Prepared s { s with bat := x } := .of_same rfl rfl rfl rfl

theorem shb_prepared (s : State) (x : Shb) : Prepared s { s with shb := x } := .of_same rfl rfl rfl rfl

theorem reloadPack_prepared (s : State) : Prepared s (reloadPack s) := by
  unfold reloadPack
  split
  · exact ite_prepared (bat_prepared s _) (.refl s)
  · exact .refl s

theorem countCycles_prepared (s : State) (amp : ℚ) : Prepared s (countCycles s amp) := by
  unfold countCycles
  split
  · exact .refl s
  · exact bat_prepared s _

theorem resetRejected_prepared (s : State) : Prepared s (resetRejected s) := by
  unfold resetRejected
  split
  · exact (bat_prepared s _).trans (logEv_prepared _ _ _ _ _ _ _)
  · exact .refl s

theorem takeAnchor_prepared (s : State) (cells : List Nat) : Prepared s (takeAnchor s cells) := by
  have drawn (x : Battery) : Prepared s { s with free := s.free + 1, bat := x } := .of_same rfl rfl rfl rfl
  unfold takeAnchor
  dsimp only
  split
  · exact .refl s
  · exact ite_prepared (bat_prepared s _) ((drawn _).trans (resetRejected_prepared _))

theorem resumeEstimator_prepared (s : State) : Prepared s (resumeEstimator s) := by
  unfold resumeEstimator
  extract_lets a cells x acc u
  have sums : Prepared s u := ⟨rfl, rfl, rfl, rfl⟩
  have counted (x : Battery) (amp : ℚ) : Prepared s (countCycles { u with bat := x } amp) :=
    sums.trans ((bat_prepared u x).trans (countCycles_prepared _ amp))
  split
  · exact sums
  · exact ite_prepared sums (ite_prepared ((counted _ _).trans (takeAnchor_prepared _ _)) (counted _ _))

/-! ## Sessions that stay open -/

/-- `t` is `s` after a change that ends no session, opens none and halts nothing (R279, R300). -/
structure SameOpen (s t : State) : Prop where
  halted : t.mg.halted = s.mg.halted
  isOpen : ∀ k, (getSes t k).isOpen = (getSes s k).isOpen

theorem SameOpen.of_mg {s t : State} (h : t.mg = s.mg) : SameOpen s t := ⟨by rw [h], fun k => by rw [getSes_congr (s := s) (by rw [h])]⟩

theorem SameOpen.trans {s t u : State} (h : SameOpen s t) (k : SameOpen t u) : SameOpen s u :=
  ⟨k.halted.trans h.halted, fun x => (k.isOpen x).trans (h.isOpen x)⟩

theorem bat_sameOpen (s : State) (x : Battery) : SameOpen s { s with bat := x } := .of_mg rfl

theorem noticeTo_sameOpen (s : State) (p : Sess → Ses → Bool) (l : Line) : SameOpen s (noticeTo s p l) := by
  refine ⟨rfl, fun k => ?_⟩
  simp only [getSes, noticeTo, Vector.getElem_ofFn]
  split
  · exact Ses.notice_isOpen _ _
  · rfl

theorem takeMargin_sameOpen (s : State) (m : Margin) : SameOpen s (takeMargin s m) := by
  have alarm (u : State) (n : Nat) : SameOpen u (sendHoldAlarm u n) := .of_mg (by simp only [sendHoldAlarm_frame])
  have logged (u : State) : SameOpen u (logEv u 2 .marginChange m.code) := .of_mg (by simp only [logEv_frame])
  have noticed (u : State) (x : Battery) : SameOpen u (noticeGeneral (logEv { u with bat := x } 2 .marginChange m.code)
      (EVT [("margin", .kw m.text)])) := (bat_sameOpen u x).trans ((logged _).trans (noticeTo_sameOpen _ _ _))
  unfold takeMargin
  dsimp only
  split
  · exact bat_sameOpen s _
  · split
    · exact (noticed s _).trans (alarm _ _)
    · exact noticed s _

theorem judgeMargin_sameOpen (s : State) : SameOpen s (judgeMargin s) := by
  unfold judgeMargin
  dsimp only
  split
  · split
    · exact (bat_sameOpen s _).trans (takeMargin_sameOpen _ _)
    · split
      · exact takeMargin_sameOpen _ _
      · exact .of_mg rfl
  · exact .of_mg rfl

theorem recomputeCover_sameOpen (s : State) : SameOpen s (recomputeCover s) := by
  have cover (u : State) : SameOpen u (takeCover u) := .of_mg rfl
  have energy : SameOpen s (refreshEnergy s) := .of_mg (by simp only [refreshEnergy_frame])
  unfold recomputeCover
  dsimp only
  split
  · exact energy.trans ((cover _).trans (judgeMargin_sameOpen _))
  · exact energy

/-- S0, S5 and S6 are open once the sessions have reopened, and nothing is halted by it (R279). -/
theorem reopenSessions_opens (s : State) :
    (reopenSessions s).mg.halted = s.mg.halted ∧ ∀ k, isTunnel k = false → (getSes (reopenSessions s) k).isOpen = true := by
  have opened (k : Sess) (h : isTunnel k = false) : (getSes (openSessions s) k).isOpen = true := by
    simp only [getSes, openSessions, Vector.getElem_ofFn, h]
    rfl
  unfold reopenSessions
  dsimp only
  split
  · have told := noticeTo_sameOpen { openSessions s with mg := { (openSessions s).mg with announce := false } } (fun _ q => q.isOpen)
      (EVT [("rst", .kw (openSessions s).aon.rst.text)])
    exact ⟨told.halted, fun k h => (told.isOpen k).trans (opened k h)⟩
  · exact ⟨rfl, opened⟩

/-! ## FIRMWARE_START -/

/-- The firmware runs, its watchdog armed, its sessions not open yet (R78, R390). -/
def firmwareRuns (s : State) : State :=
  { s with
    mg := { s.mg with running := true, halted := false }
    aon := { s.aon with wdArmed := true, wdKick := s.aon.us, boot := { s.aon.boot with firmware := true } }
    bat := { s.bat with readTries := 0 } }

/-- The firmware's preparations, once its sessions are open (R78, R192, R206, R212, R236, R350). -/
def prepare (s : State) : State :=
  let s := resumeErases (loadKeys (settleAreas s))
  resumeEstimator (reloadPack (if isOn s 5 then programFilters s else s))

theorem prepare_prepared (s : State) : Prepared s (prepare s) := by
  have filters (u : State) : Prepared u (if isOn u 5 then programFilters u else u) :=
    ite_prepared (by unfold programFilters; exact shb_prepared u _) (.refl u)
  unfold prepare
  exact (settleAreas_prepared s).trans ((loadKeys_prepared _).trans ((resumeErases_prepared _).trans ((filters _).trans
    ((reloadPack_prepared _).trans (resumeEstimator_prepared _)))))

theorem raiseThermometer_idle (s : State) (h : s.aon.activated = false) : raiseThermometer s = s :=
  if_neg (by rw [h]; exact Bool.false_ne_true)

theorem execFirmwareStart_starts (s : State) (hr : romRuns s = true) (hb : s.aon.boot.body = true) (hf : s.aon.boot.firmware = false)
    (ha : s.aon.activated = false) : execFirmwareStart s = .next (recomputeCover (prepare (reopenSessions (firmwareRuns s)))) := by
  have guard : (romRuns s && s.aon.boot.body && !s.aon.boot.firmware) = true := by rw [hr, hb, hf]; rfl
  have idle_ : raiseThermometer (recomputeCover (prepare (reopenSessions (firmwareRuns s)))) =
      recomputeCover (prepare (reopenSessions (firmwareRuns s))) := by
    refine raiseThermometer_idle _ ?_
    rw [recomputeCover_aon, (prepare_prepared _).aon, (reopenSessions_frame _).1]
    exact ha
  unfold execFirmwareStart
  rw [if_pos guard, ← idle_]
  rfl

end Sys2Proof.Machine

open Sys2Proof Sys2Proof.Machine

/-- Settles O15: the sessions open with the start, and what the firmware prepares after it leaves them, AON's words and the records. -/
theorem firmwareStartOpensTheSessions : Obligations.FirmwareStartOpensTheSessions := by
  unfold Obligations.FirmwareStartOpensTheSessions
  intro s hr hb hf ha
  refine ⟨_, execFirmwareStart_starts s hr hb hf ha, ?_⟩
  obtain ⟨aon, -, nand, cfl, running⟩ := reopenSessions_frame (firmwareRuns s)
  obtain ⟨halted, opened⟩ := reopenSessions_opens (firmwareRuns s)
  generalize reopenSessions (firmwareRuns s) = u at *
  have prepared := prepare_prepared u
  have still := (SameOpen.of_mg prepared.mg).trans (recomputeCover_sameOpen _)
  have words : ∃ p a, (recomputeCover (prepare u)).aon = { (firmwareRuns s).aon with packAcc := p, parkAlarm := a } :=
    ⟨_, _, by rw [recomputeCover_aon, prepared.aon, aon]⟩
  obtain ⟨p, a, words⟩ := words
  rw [words]
  refine ⟨?_, still.halted.trans halted, rfl, rfl, rfl, fun k h => (still.isOpen k).trans (opened k h), rfl, rfl, ?_, ?_⟩
  · simp only [recomputeCover_frame, prepared.mg, running]; rfl
  · simp only [recomputeCover_frame, prepared.rims, nand]; rfl
  · simp only [recomputeCover_frame, prepared.cfl, cfl]; rfl

end

section
/-! LAW. Lines that are refused or wait: the level and the states of a verb's row, the recovery set and the four waiting lines (R80,
R193, R283, R295, R300, R305, R435). -/

namespace Sys2Proof.Machine

/-! ## A response under another sequence -/

/-- A session that keeps its sequence is as it was. -/
theorem setSes_sameLseq (s : State) (k : Sess) : setSes s k (fun q => { q with curLseq := (getSes s k).curLseq }) = s := by
  show { s with mg := { s.mg with ses := s.mg.ses.set k.val s.mg.ses[k.val] } } = s
  rw [Vector.set_getElem_self]

/-- A tunnel's frames carry nothing of its session's own sequence. -/
theorem tunnelSend_setSes (s : State) (k : Sess) (f : Ses → Ses) (n : NodeId) (p : List Byte) :
    tunnelSend (setSes s k f) n p = setSes (tunnelSend s n p) k f := rfl

/-- The line's sequence as the session holds it is no part of the answer (R284, R289). -/
theorem respondSeq_setLseq (s : State) (k : Sess) (x y : Byte) (l : Line) :
    respondSeq (setSes s k (fun q => { q with curLseq := x })) k y l = setSes (respondSeq s k y l) k (fun q => { q with curLseq := x }) := by
  unfold respondSeq
  split
  · simp only [setSes_setSes, getSes_setSes]
    split
    · rw [← tunnelSend_setSes, setSes_setSes]
    · rw [setSes_setSes]
  · rename_i ht
    split
    · unfold pipePut
      simp only [setSes_setSes, getSes_setSes]
      split
      · simp only [setSes, upd_upd]
      · rw [setSes_setSes]
    · rename_i hp
      have console : k = 0 := by
        simp only [isTunnel, isPipe, Bool.and_eq_true, decide_eq_true_eq] at ht hp
        exact Fin.ext (by show k.val = 0; omega)
      subst console
      simp only [consolePut, consolePrompt, setSes_setSes, getSes_setSes]

/-- Nor does an answer fix the sequence that the session holds after it. -/
theorem Answered.setLseq {s t : State} {k : Sess} {l : Line} (h : Answered s t k l) (x : Byte) :
    Answered s (setSes t k (fun q => { q with curLseq := x })) k l := by
  obtain ⟨said, path, ibi, rest⟩ := h
  refine ⟨by rw [Said, getSes_setSes]; exact said, fun ht => by rw [getSes_setSes]; exact path ht, ibi, ?_⟩
  rw [getSes_setSes]
  generalize (getSes t k).out = out, (getSes t k).lastLseq = last, (getSes t k).lastResp = resp, t.mg.txFeed = feed,
    t.shb.fifo = fifo, t.i3c.ibi = sent, (getSes t k).curLseq = y at rest ⊢
  rw [rest]
  simp only [setSes, upd_upd]

/-- A response line under any sequence changes the session's output path and nothing else. -/
theorem respondSeq_answered (s : State) (k : Sess) (x : Byte) (l : Line) : Answered s (respondSeq s k x l) k l := by
  have answered : Answered s (respondSeq (setSes s k (fun q => { q with curLseq := x })) k x l) k l := by
    have h := respond_answered s k x l
    rwa [respond, getSes_setSes] at h
  have back := respondSeq_setLseq (setSes s k (fun q => { q with curLseq := x })) k (getSes s k).curLseq x l
  rw [setSes_setSes, setSes_sameLseq] at back
  rw [back]
  exact answered.setLseq _

/-! ## Lines that are not executed -/

/-- Where the recovery set alone answers, a session that could execute answers 501 to a verb outside it (R80, R300). -/
theorem onVerb_recovering (s : State) (k : Sess) (i : Instr) (f : Verb) (ho : (getSes s k).isOpen = true) (hs : stalled s k = false)
    (hq : (getSes s k).queue = []) (hr : recovering s = true) : Answered s (onVerb s k i false f) k (ERR 501) := by
  have run : onVerb s k i false f = respond (lineStart s k) k (ERR 501) := by
    unfold onVerb onLineSeq
    simp only [ho, hs, hq, Bool.not_true, Bool.false_eq_true, if_false, ne_eq, not_true_eq_false, or_self]
    refine runLine_line s k _ _ _ _ ?_
    have recovers : recovering (lineStart s k) = true := hr
    rw [← lineStart, recovers]
    rfl
  rw [run]
  exact respond_answered s k _ _

/-- A line for a session that cannot execute now waits behind at most three others (R283, R300). -/
theorem onVerb_queued (s : State) (k : Sess) (i : Instr) (b : Bool) (f : Verb) (ho : (getSes s k).isOpen = true)
    (hs : stalled s k = true) (hq : (getSes s k).queue.length < 4) :
    onVerb s k i b f = setSes s k (fun q => { q with queue := q.queue ++ [{ lseq := nextLseq (getSes s k).curLseq, line := .cmd i }] }) := by
  unfold onVerb onLineSeq
  simp only [ho, hs, hq, Bool.not_true, Bool.false_eq_true, if_false, true_or, if_true]

/-- A fifth line is answered 410 (R300). -/
theorem onVerb_full (s : State) (k : Sess) (i : Instr) (b : Bool) (f : Verb) (ho : (getSes s k).isOpen = true)
    (hq : 4 ≤ (getSes s k).queue.length) : Answered s (onVerb s k i b f) k (ERR 410) := by
  have waits : (getSes s k).queue ≠ [] := fun e => by simp [e] at hq
  unfold onVerb onLineSeq
  simp only [ho, waits, Nat.not_lt.mpr hq, Bool.not_true, Bool.false_eq_true, if_false, ne_eq, not_false_eq_true, or_true, if_true]
  exact respondSeq_answered s k _ _

/-! ## The rows of the verbs -/

/-- The command `c` is a verb outside the recovery set (R80). -/
def OutsideRecovery (k : Sess) (c : Instr) : Prop := ∃ f, ∀ s, exec c s = .next (onVerb s k c false f)

/-- The command `c` is a verb whose row names its level and its states (R295, R305). -/
def VerbRow (k : Sess) (need : Priv) (states : List HoldState) (c : Instr) : Prop :=
  ∃ b refusals f, ∀ s, exec c s = .next (onVerb s k c b (verb k need false states refusals f))

/-- A line below its row's level is refused (R295). -/
theorem VerbRow.below {k : Sess} {need : Priv} {states : List HoldState} {c : Instr} {s : State} (h : VerbRow k need states c)
    (hr : lineReady s k = true) (hp : ¬ need.rank ≤ (getSes s k).priv.rank) :
    Completes c s fun t => Answered s t k (ERR (if need = .keep then 202 else 201)) := by
  obtain ⟨b, refusals, f, run⟩ := h
  exact ⟨_, run s, onVerb_answered s k c b _ _ hr (verb_below k need false states refusals f _ (by rwa [getSes_setSes]))⟩

/-- A line outside its row's states is refused (R305). -/
theorem VerbRow.outside {k : Sess} {need : Priv} {states : List HoldState} {c : Instr} {s : State} (h : VerbRow k need states c)
    (hr : lineReady s k = true) (hp : need.rank ≤ (getSes s k).priv.rank) (hs : s.aon.hold ∉ states) :
    Completes c s fun t => Answered s t k (ERR 301) := by
  obtain ⟨b, refusals, f, run⟩ := h
  exact ⟨_, run s, onVerb_answered s k c b _ _ hr (verb_outside k need states refusals f _ (by rwa [getSes_setSes]) hs)⟩

theorem Priv.rank_lt_keep (p : Priv) (h : p ≠ .keep) : ¬ Priv.keep.rank ≤ p.rank := by
  cases p with
  | view => decide
  | run => decide
  | keep => exact absurd rfl h

theorem Priv.rank_le_keep (p : Priv) : p.rank ≤ Priv.keep.rank := by cases p <;> decide

end Sys2Proof.Machine

open Sys2Proof Sys2Proof.Machine

/-- Settles O60: each verb's row, and what a session that cannot execute makes of a line. -/
theorem refusalsOfLines : Obligations.RefusalsOfLines := by
  unfold Obligations.RefusalsOfLines
  refine ⟨fun k s hr hp => ?_, fun k s hr hp => ?_, fun k s hr hp hb => ?_, fun k s ho hs hq hr => ?_,
    fun k s ho hs hq => ⟨_, rfl, _, onVerb_queued s k _ _ _ ho hs hq, rfl⟩, fun k s ho hq => ⟨_, rfl, onVerb_full s k _ _ _ ho hq⟩⟩
  · have refuse (states : List HoldState) (c : Instr) (row : VerbRow k .keep states c) : Completes c s fun t => Answered s t k (ERR 202) :=
      row.below hr (Priv.rank_lt_keep _ hp)
    simp only [List.forall_mem_cons, List.not_mem_nil, false_implies, implies_true, and_true]
    and_intros <;> exact refuse _ _ ⟨_, _, _, fun _ => rfl⟩
  · have refuse (states : List HoldState) (c : Instr) (row : VerbRow k .run states c) : Completes c s fun t => Answered s t k (ERR 201) :=
      row.below hr (by rw [hp]; decide)
    simp only [List.forall_mem_cons, List.not_mem_nil, false_implies, implies_true, and_true]
    and_intros <;> exact refuse _ _ ⟨_, _, _, fun _ => rfl⟩
  · have refuse (need : Priv) (states : List HoldState) (c : Instr) (row : VerbRow k need states c) (out : HoldState.boot ∉ states) :
        Completes c s fun t => Answered s t k (ERR 301) :=
      row.outside hr (by rw [hp]; exact need.rank_le_keep) (by rwa [hb])
    simp only [List.forall_mem_cons, List.not_mem_nil, false_implies, implies_true, and_true]
    and_intros <;> exact refuse _ _ _ ⟨_, _, _, fun _ => rfl⟩ (by decide)
  · have refuse (c : Instr) (verb_ : OutsideRecovery k c) : Completes c s fun t => Answered s t k (ERR 501) := by
      obtain ⟨f, run⟩ := verb_
      exact ⟨_, run s, onVerb_recovering s k c f ho hs hq hr⟩
    simp only [List.forall_mem_cons, List.not_mem_nil, false_implies, implies_true, and_true]
    and_intros <;> exact refuse _ ⟨_, fun _ => rfl⟩

end

section
/-! LAW. The phases of a takeover (R98, R100, R101, R103, R107, R119, R168). -/

namespace Sys2Proof.Machine

/-! ## Work on the arrays leaves MAP -/

theorem nextPage_map (s : State) (d : Die) : (nextPage s d).1.map = s.map := by
  have h : (openGroup s d .deltaOpen).1.map = s.map := by simp only [openGroup_frame]
  unfold nextPage
  split <;> simpa only [*] using h

theorem wakeDie_map (s : State) (d : Die) (w : Page → Work) : (wakeDie s d w).1.map = s.map := by
  have h := nextPage_map s d
  unfold wakeDie
  split
  · rfl
  · split <;> (next e => rw [e] at h; exact h)

theorem foldl_fst_map {α β : Type} (f : State × β → α → State × β) (h : ∀ q x, (f q x).1.map = q.1.map) (l : List α) (q : State × β) :
    (l.foldl f q).1.map = q.1.map :=
  List.foldlRecOn (motive := fun p : State × β => p.1.map = q.1.map) l f rfl fun p hp x _ => (h p x).trans hp

theorem wakeTable_map (q : State × List TabStrand) (x : TabStrand) : (wakeTable q x).1.map = q.1.map := by
  unfold wakeTable
  split
  · exact wakeDie_map _ _ _
  · rfl

theorem wakePlait_map (q : State × List OpenPlait) (p : OpenPlait) : (wakePlait q p).1.map = q.1.map :=
  foldl_fst_map wakeStrand (fun q x => by
    unfold wakeStrand
    split
    · exact wakeDie_map _ _ _
    · rfl) p.strands (q.1, [])

/-! ## The subchannels that a save skips -/

/-- `t` is `s` after a step of the save that forgets no skipped subchannel: the ports' marks stay, the list of skips stays, and a partial
save stays partial (R107). -/
structure SameSkips (s t : State) : Prop where
  portA : t.map.dqFailA = s.map.dqFailA
  portB : t.map.dqFailB = s.map.dqFailB
  save : ∀ v, s.map.save = some v → ∃ w, t.map.save = some w ∧ w.skips = v.skips ∧ (v.partial_ = true → w.partial_ = true)

theorem SameSkips.of_map {s t : State} (h : t.map = s.map) : SameSkips s t := ⟨by rw [h], by rw [h], fun v hv => ⟨v, by rw [h, hv], rfl, id⟩⟩

theorem SameSkips.trans {s t u : State} (h : SameSkips s t) (k : SameSkips t u) : SameSkips s u where
  portA := k.portA.trans h.portA
  portB := k.portB.trans h.portB
  save := fun v hv =>
    have ⟨w, hw, skips, part⟩ := h.save v hv
    have ⟨x, hx, skips', part'⟩ := k.save w hw
    ⟨x, hx, skips'.trans skips, part' ∘ part⟩

theorem setSave_sameSkips {s : State} {v : Save} (w : Save) (h : s.map.save = some v) (hs : w.skips = v.skips)
    (hp : v.partial_ = true → w.partial_ = true) : SameSkips s (setSave s w) :=
  ⟨rfl, rfl, fun x hx => ⟨w, rfl, by rw [hs, Option.some.inj (h.symm.trans hx)], by rw [← Option.some.inj (h.symm.trans hx)]; exact hp⟩⟩

theorem abandonPlaits_sameSkips {s : State} {v : Save} (w : Save) (gone : OpenPlait → Bool) (h : s.map.save = some v) (hs : w.skips = v.skips)
    (hp : w.partial_ = v.partial_) : SameSkips s (abandonPlaits s w gone) := by
  unfold abandonPlaits
  extract_lets out t
  have loads : t.map = s.map := by
    refine foldl_map _ (fun u p => foldl_map _ (fun x y => ?_) _ _) _ _
    split
    · rw [ite_map]; exact ite_self _
    · rw [ite_map]; exact ite_self _
    · rfl
  exact (SameSkips.of_map loads).trans (setSave_sameSkips (v := v) _ (by rw [loads, h]) hs (by rw [← hp]; exact id))

theorem wakeOnce_sameSkips (s : State) : SameSkips s (wakeOnce s) := by
  unfold wakeOnce
  extract_lets t
  have plaits : SameSkips s t := by
    simp only [t]
    split
    · next v hv =>
      have woken : (v.open_.foldl wakePlait (s, [])).1.map = s.map := foldl_fst_map wakePlait wakePlait_map _ (s, [])
      exact (SameSkips.of_map woken).trans (abandonPlaits_sameSkips (v := v) _ _ (by rw [woken, hv]) rfl rfl)
    · exact .of_map rfl
  split
  · exact plaits.trans (.of_map (foldl_fst_map wakeTable wakeTable_map _ (t, [])))
  · exact plaits

theorem wakeStrands_sameSkips (s : State) : SameSkips s (wakeStrands s) := (wakeOnce_sameSkips s).trans (wakeOnce_sameSkips _)

theorem startTables_sameSkips (s : State) (use : RimUse) (types : List Nat) (last : Option Die) : SameSkips s (startTables s use types last) := by
  unfold startTables
  split
  · exact .of_map rfl
  · refine SameSkips.trans ?_ (wakeStrands_sameSkips _)
    exact .of_map rfl

theorem saveAdvance_sameSkips (s : State) : SameSkips s (saveAdvance s) := by
  unfold saveAdvance
  split
  · exact .of_map rfl
  · next v hv =>
    split
    · refine SameSkips.trans ?_ (startTables_sameSkips _ _ _ _)
      exact setSave_sameSkips _ hv rfl fun h => by rw [h, Bool.true_or]
    · exact .of_map rfl

/-- A subchannel that a save skips joins the list of its skips, and the save is partial (R107). -/
theorem skipSub_save {s : State} {v : Save} (x : Sub) (h : s.map.save = some v) :
    (skipSub s x).map.dqFailA = s.map.dqFailA ∧ (skipSub s x).map.dqFailB = s.map.dqFailB ∧
    ∃ w, (skipSub s x).map.save = some w ∧ w.skips = v.skips ++ [x] ∧ w.partial_ = true := by
  unfold skipSub
  simp only [h]
  exact ⟨rfl, rfl, _, rfl, rfl, rfl⟩

/-! ## The retrain -/

/-- A phase ends when it is the present one and a save or a restore owns the flow. -/
theorem takePhase_due (s : State) (p : TakePhase) (f : State → State) (h : s.aon.hold = .save ∨ s.aon.hold = .restore) (hp : s.hp.phase = p) :
    takePhase s p f = f s := if_pos ⟨hp, h⟩

theorem portRetrainDone_due (s : State) (a b : Bool) (h : s.aon.hold = .save ∨ s.aon.hold = .restore) (hp : s.hp.phase = .retrain) :
    exec (.portRetrainDone a b) s = .next (retrained s a b) :=
  congrArg Host.Outcome.next (takePhase_due s .retrain (fun s => retrained s a b) h hp)

/-- A retrain leaves marks on the two ports, and all else of the machine but the log (R107). -/
theorem retrainEvents_keeps (s : State) (a b : Bool) :
    (retrainEvents s a b).aon = s.aon ∧ (retrainEvents s a b).map = { s.map with dqFailA := !a, dqFailB := !b } := by
  unfold retrainEvents
  cases a <;> cases b <;> simp only [Bool.false_eq_true, if_true, if_false, logEv_frame, and_self]

/-- MAP skips the subchannels whose port failed (R107). -/
def skipFailed (s : State) (a b : Bool) : State :=
  let t := if a then s else skipSub s .a
  if b then t else skipSub t .b

/-- In a save a retrain skips the subchannels that failed, and what follows of it forgets none (R98, R107). -/
theorem retrained_sameSkips (s : State) (a b : Bool) (h : s.aon.hold = .save) :
    SameSkips (skipFailed (retrainEvents s a b) a b) (retrained s a b) := by
  unfold retrained
  extract_lets t _ _ _ u
  have save : ¬t.aon.hold = .restore := by simp [t, retrainEvents_keeps, h]
  rw [if_neg save]
  show SameSkips u _
  clear_value u
  split
  · next w hw =>
    split
    · refine SameSkips.trans ?_ (saveAdvance_sameSkips _)
      exact SameSkips.trans (t := setPhase u .owned) (.of_map rfl) (setSave_sameSkips _ hw rfl id)
    · exact .of_map rfl
  · exact .of_map rfl

/-- With both ports trained and granules left, the first granule follows (R98). -/
theorem retrained_todo (s : State) (v : Save) (h : s.aon.hold = .save) (hv : s.map.save = some v) (ht : v.todo ≠ []) :
    retrained s true true = setPhase (retrainEvents s true true) .firstGranule := by
  simp only [retrained, retrainEvents_keeps, h, hv, ht, reduceCtorEq, if_true, if_false]

/-- With both ports trained a restore's takeover is over (R168). -/
theorem retrained_restore (s : State) (r : RestoreRun) (h : s.aon.hold = .restore) (hr : s.rst.run = some r) :
    retrained s true true =
      { setPhase (retrainEvents s true true) .owned with rst := { s.rst with run := some { r with takeoverDone := true } } } := by
  have run : (retrainEvents s true true).rst = s.rst := rfl
  simp only [retrained, retrainEvents_keeps, h, run, hr, Bool.and_self, if_true]

/-- A port that fails in a save is marked, and MAP skips its subchannel (R107). -/
theorem portFails (s : State) (v : Save) (a : Bool) (h : s.aon.hold = .save) (hv : s.map.save = some v) :
    (retrained s a !a).map.dqFailA = !a ∧ (retrained s a !a).map.dqFailB = a ∧
    ∃ w, (retrained s a !a).map.save = some w ∧ w.skips = v.skips ++ [if a then Sub.b else Sub.a] ∧ w.partial_ = true := by
  have marks := (retrainEvents_keeps s a !a).2
  have noted : (retrainEvents s a !a).map.save = some v := by rw [marks]; exact hv
  have skips : (skipFailed (retrainEvents s a !a) a !a) = skipSub (retrainEvents s a !a) (if a then Sub.b else Sub.a) := by cases a <;> rfl
  have kept := retrained_sameSkips s a (!a) h
  rw [skips] at kept
  obtain ⟨portA, portB, w, hw, ws, wp⟩ := skipSub_save (if a then Sub.b else Sub.a) noted
  obtain ⟨x, hx, xs, xp⟩ := kept.save w hw
  exact ⟨by rw [kept.portA, portA, marks], by rw [kept.portB, portB, marks]; exact Bool.not_not a, x, hx, xs.trans ws, xp wp⟩

/-- Close leaves no row open and every rank of the module in self-refresh (R98, R100). -/
theorem closeEnd_selfRef (s : State) (h : s.aon.hold = .save ∨ s.aon.hold = .restore) (hp : s.hp.phase = .close) : Completes .closeEnd s fun t =>
    t.hp = { s.hp with phase := .switch_, rows := [], selfRef := t.hp.selfRef } ∧
    (∀ (x : Sub) (r : Rank), (x, r) ∈ t.hp.selfRef ↔ r.val < geoNR s.map.geom) ∧ t = { s with hp := t.hp } := by
  refine ⟨_, congrArg Host.Outcome.next (takePhase_due s .close _ h hp), rfl, fun x r => ?_, rfl⟩
  cases x <;> simp [allFin]

end Sys2Proof.Machine

open Sys2Proof Sys2Proof.Machine

/-- Settles O31: each phase's end on its guard; of a failed port what follows of the retrain forgets nothing. -/
theorem takeoverPhases : Obligations.TakeoverPhases := by
  unfold Obligations.TakeoverPhases
  refine ⟨fun s h hp => congrArg Host.Outcome.next (takePhase_due s .burstDrain _ h hp), closeEnd_selfRef,
    fun s h hp => congrArg Host.Outcome.next (takePhase_due s .switch_ _ h hp),
    fun s h hp => congrArg Host.Outcome.next (takePhase_due s .clock _ h hp),
    fun s h hp => congrArg Host.Outcome.next (takePhase_due s .portStart _ h hp), fun v s h hp hv ht => ?_, fun v s h hp hv => ?_,
    fun r s h hp hr => ?_, fun v s h hp hv => ?_⟩
  · rw [portRetrainDone_due s true true (.inl h) hp, retrained_todo s v h hv ht]
    rfl
  · exact ⟨⟨_, portRetrainDone_due s false true (.inl h) hp, portFails s v false h hv⟩,
      ⟨_, portRetrainDone_due s true false (.inl h) hp, portFails s v true h hv⟩⟩
  · refine ⟨_, portRetrainDone_due s true true (.inr h) hp, ?_⟩
    rw [retrained_restore s r h hr]
    exact ⟨rfl, rfl, rfl⟩
  · refine (congrArg Host.Outcome.next (takePhase_due s .firstGranule _ (.inl h) hp)).trans ?_
    simp only [setPhase_map, hv]
    rfl

end

section
/-! LAW. Geometry, profile and pack settings as verbs (R92, R95, R130, R152, R203, R212, R220, R313, R314, R316). -/

namespace Sys2Proof.Machine

/-! ## Refusals -/

/-- A verb is not refused exactly when none of its refusals applies (R435). -/
theorem firstOf_eq_none (l : List (Bool × Nat)) : firstOf l = none ↔ l.all (fun p => !p.1) = true := by
  induction l with
  | nil => simp [firstOf]
  | cons p t ih =>
    obtain ⟨b, c⟩ := p
    cases b <;> simp [firstOf, ih]

/-! ## Staged uploads (R314) -/

/-- What a session has staged is what stands in its uploads. -/
theorem staged_congr {s t : State} {k : Sess} (h : (getSes t k).uploads = (getSes s k).uploads) (x : UploadKind) : staged t k x = staged s k x := by
  unfold staged
  rw [h]

theorem staged_lineStart (s : State) (k : Sess) (x : UploadKind) : staged (lineStart s k) k x = staged s k x :=
  staged_congr (by rw [getSes_lineStart]) x

/-- A staging that is set to nothing is empty. -/
theorem staged_setStaged_nil (s : State) (k : Sess) (x : UploadKind) : staged (setStaged s k x []) k x = [] := by
  have gone : (getSes (setStaged s k x []) k).uploads.find? (fun u => decide (u.kind = x)) = none := by
    simp [setStaged]
  unfold staged
  rw [gone]

/-- A response leaves what its session has staged. -/
theorem staged_respond (s : State) (k : Sess) (l : Line) (x : UploadKind) : staged (respond s k l) k x = staged s k x := by
  refine staged_congr ?_ x
  obtain ⟨-, -, -, e⟩ := setSes_sameLseq s k ▸ respond_answered s k (getSes s k).curLseq l
  rw [getSes, e, upd_self]
  rfl

/-- A piece joins the staging of the line's session under either sequence. -/
theorem stagePiece_lineStart (s : State) (k : Sess) (x : UploadKind) (o : Nat) (d : List Byte) :
    stagePiece (lineStart s k) k x o d = setSes (stagePiece s k x o d) k (fun q => { q with curLseq := nextLseq (getSes s k).curLseq }) := by
  rw [stagePiece, staged_lineStart]
  simp only [stagePiece, setStaged, lineStart, setSes_setSes]

/-- A piece of an upload is answered with its place and its length. -/
theorem piece_answered {k : Sess} {s : State} {f : Verb} (i : Instr) (x : UploadKind) (o : Nat) (d : List Byte) (h : lineReady s k = true)
    (hf : f (lineStart s k) = okAns (stagePiece (lineStart s k) k x o d) [("off", .nat o), ("len", .nat d.length)]) :
    Answered (stagePiece s k x o d) (onVerb s k i false f) k (OK [("off", .nat o), ("len", .nat d.length)]) := by
  refine onVerb_answers i false h ?_
  rw [hf, stagePiece_lineStart]
  rfl

/-! ## The geometry word (R92, R95) -/

/-- A new word is in force with no relation and the whole dirty map set; of the arrays only SETTLE stops (R95, R145). -/
theorem setGeometry_keeps (s : State) (w : Word) :
    (setGeometry s w).map.geom = w ∧ (setGeometry s w).aon.img = .none ∧ (setGeometry s w).map.dirty = allGranules (setGeometry s w) ∧
    (setGeometry s w).aon.hold = s.aon.hold ∧ (setGeometry s w).ten = s.ten ∧
    (setGeometry s w).nand = { s.nand with settle := { s.nand.settle with running := false } } ∧ (setGeometry s w).cfl = s.cfl := by
  have seeded : ∀ u : State, (reseedEg u).map.dirty = u.map.dirty := fun _ => rfl
  have settle : ∀ u : State, (dropImage u).nand = { u.nand with settle := { u.nand.settle with running := false } } := fun _ => rfl
  unfold setGeometry storesCfg
  simp only [allGranules, recomputeCover_frame, reseedEg_frame, seeded, writeArea_frame, dropImage_frame, dropImage_nandKeeps, settle,
    flushSnoops_frame, and_self]

theorem geometryRefusals_lineStart (s : State) (k : Sess) (n : Nat) : geometryRefusals (lineStart s k) k n = geometryRefusals s k n := by
  unfold geometryRefusals mapUnfit
  simp only [lineStart_frame, cfgGuard_lineStart]

/-- Each of the seven sizes has its code (R92). -/
theorem granCode_size : ∀ c : Fin 7, granCode (16384 * 2 ^ c.val) = some c.val := by decide

/-! ## The pack's settings and tables -/

/-- `t` is `s` after a change that keeps the pack's settings and tables and what each session has staged. -/
structure SameSettings (s t : State) : Prop where
  set : t.bat.set = s.bat.set
  ocvLfp : t.bat.ocvLfp = s.bat.ocvLfp
  ocvNmc : t.bat.ocvNmc = s.bat.ocvNmc
  uploads : ∀ k, (getSes t k).uploads = (getSes s k).uploads

theorem SameSettings.of_same {s t : State} (hb : t.bat = s.bat) (hm : t.mg = s.mg) : SameSettings s t :=
  ⟨by rw [hb], by rw [hb], by rw [hb], fun k => congrArg Ses.uploads (getSes_congr (by rw [hm]) k)⟩

theorem SameSettings.trans {s t u : State} (h : SameSettings s t) (k : SameSettings t u) : SameSettings s u :=
  ⟨k.set.trans h.set, k.ocvLfp.trans h.ocvLfp, k.ocvNmc.trans h.ocvNmc, fun x => (k.uploads x).trans (h.uploads x)⟩

theorem Ses.notice_uploads (q : Ses) (l : Line) : (q.notice l).uploads = q.uploads := by
  unfold Ses.notice
  split_ifs <;> rfl

theorem noticeGeneral_sameSettings (s : State) (l : Line) : SameSettings s (noticeGeneral s l) := by
  refine ⟨rfl, rfl, rfl, fun k => ?_⟩
  simp only [noticeGeneral, noticeTo, getSes, Vector.getElem_ofFn]
  split
  · exact Ses.notice_uploads _ _
  · rfl

theorem takeMargin_sameSettings (s : State) (m : Margin) : SameSettings s (takeMargin s m) := by
  have alarm (u : State) (n : Nat) : SameSettings u (sendHoldAlarm u n) := .of_same (by simp only [sendHoldAlarm_frame]) (by simp only [sendHoldAlarm_frame])
  have logged (u : State) : SameSettings u (logEv u 2 .marginChange m.code) := .of_same (by simp only [logEv_frame]) (by simp only [logEv_frame])
  have class_ : SameSettings s { s with bat := { s.bat with better := none, margin := m } } := ⟨rfl, rfl, rfl, fun _ => rfl⟩
  have noticed := class_.trans ((logged _).trans (noticeGeneral_sameSettings _ (EVT [("margin", .kw m.text)])))
  unfold takeMargin
  dsimp only
  split
  · exact ⟨rfl, rfl, rfl, fun _ => rfl⟩
  · split
    · exact noticed.trans (alarm _ _)
    · exact noticed

theorem judgeMargin_sameSettings (s : State) : SameSettings s (judgeMargin s) := by
  have judged : SameSettings s { s with bat := { s.bat with judged := true } } := ⟨rfl, rfl, rfl, fun _ => rfl⟩
  unfold judgeMargin
  dsimp only
  split
  · split
    · exact judged.trans (takeMargin_sameSettings _ _)
    · split
      · exact takeMargin_sameSettings _ _
      · exact ⟨rfl, rfl, rfl, fun _ => rfl⟩
  · exact .of_same rfl rfl

theorem refreshEnergy_sameSettings (s : State) : SameSettings s (refreshEnergy s) := by
  unfold refreshEnergy
  split
  · exact ⟨rfl, rfl, rfl, fun _ => rfl⟩
  · split
    · exact ⟨rfl, rfl, rfl, fun _ => rfl⟩
    · exact .of_same rfl rfl

/-- A recomputation of the coverage keeps the settings, the tables and the stagings (R121, R217). -/
theorem recomputeCover_sameSettings (s : State) : SameSettings s (recomputeCover s) := by
  have cover (u : State) : SameSettings u (takeCover u) := .of_same rfl rfl
  unfold recomputeCover
  dsimp only
  split
  · exact (refreshEnergy_sameSettings s).trans ((cover _).trans (judgeMargin_sameSettings _))
  · exact refreshEnergy_sameSettings s

/-- The firmware's setpoint is the pack's I_set alone (R200). -/
theorem writeSetpoint_eq (s : State) :
    writeSetpoint s = { s with bat := { s.bat with iset := if s.mg.running then iSet s else s.bat.iset } } := by
  unfold writeSetpoint
  split <;> rfl

theorem batKeyOk_lineStart (s : State) (k : Sess) : batKeyOk (lineStart s k) = batKeyOk s := rfl

/-- What BAT SET makes of the state: the settings in CFG, the energy's seeds where P_MOD changed, the setpoint and the coverage (R120, R201,
R316). -/
def batSettings (s : State) (b : BatSet) : State :=
  let t := storesCfg { s with bat := { s.bat with set := b } }
  recomputeCover (writeSetpoint (if b.pmod = s.bat.set.pmod then t else reseedAll t))

theorem batSettings_keeps (s : State) (b : BatSet) :
    (batSettings s b).bat.set = b ∧ (batSettings s b).aon.hold = s.aon.hold ∧ (batSettings s b).nand = s.nand ∧
    (batSettings s b).ten = s.ten ∧ (batSettings s b).cfl = s.cfl := by
  unfold batSettings storesCfg
  simp only [(recomputeCover_sameSettings _).set, recomputeCover_frame, writeSetpoint_eq, ite_aon, ite_nand, ite_ten, ite_bat, ite_cfl,
    reseedAll_frame, writeArea_frame, ite_self, and_self]

/-! ## The charger -/

/-- `t` is `s` but for the charger's mode and what goes with it (R200, R202, R203). -/
def ChargerStep (s t : State) : Prop := ∃ mode interrupted full time,
  t = { s with bat := { s.bat with chg := mode, pausedFrom := interrupted, fromFull := full, chgTime := time } }

theorem ChargerStep.trans {s t u : State} (h : ChargerStep s t) (k : ChargerStep t u) : ChargerStep s u := by
  obtain ⟨_, _, _, _, rfl⟩ := h
  obtain ⟨_, _, _, _, rfl⟩ := k
  exact ⟨_, _, _, _, rfl⟩

theorem setChg_charger (s : State) (m : ChgMode) : ChargerStep s (setChg s m) := ⟨_, _, _, _, rfl⟩

theorem callMode_charger (s : State) : ChargerStep s (callMode s) := by
  unfold callMode
  dsimp only
  split
  · exact (setChg_charger s _).trans (setChg_charger _ _)
  · exact setChg_charger s _

theorem qualifyCharger_charger (s : State) : ChargerStep s (qualifyCharger s) := by
  unfold qualifyCharger
  split_ifs
  · exact setChg_charger s _
  · exact setChg_charger s _
  · exact setChg_charger s _
  · exact callMode_charger s

/-- What BAT CLEAR makes of the state: no lock, no faults, no retry time, and the charger qualified anew (R203). -/
def chargerCleared (s : State) : State :=
  qualifyCharger (setChg (clearRetry { s with bat := { s.bat with locked := false, chgFaults := [] } }) .off)

theorem chargerCleared_keeps (s : State) :
    (chargerCleared s).aon = { s.aon with retryEnd := none } ∧ (chargerCleared s).bat.locked = false ∧
    (chargerCleared s).bat.chgFaults = [] ∧ (chargerCleared s).bat.retryLeft = none ∧ (chargerCleared s).nand = s.nand ∧
    (chargerCleared s).map = s.map := by
  obtain ⟨_, _, _, _, e⟩ : ChargerStep (clearRetry { s with bat := { s.bat with locked := false, chgFaults := [] } }) (chargerCleared s) :=
    (setChg_charger _ .off).trans (qualifyCharger_charger _)
  rw [e]
  exact ⟨rfl, rfl, rfl, rfl, rfl, rfl⟩

/-- A REST window holds the charger, whichever mode it was in, for 30 min (R220). -/
theorem openRest_opens (s : State) :
    (openRest s).bat.restUntil = some (s.aon.us + 1800000000) ∧ PauseCause.rest ∈ (openRest s).bat.pauses ∧
    (openRest s).bat.chg.charging = false ∧ (openRest s).aon = s.aon ∧ (openRest s).nand = s.nand ∧ (openRest s).map = s.map := by
  have held : PauseCause.rest ∈ if PauseCause.rest ∈ s.bat.pauses then s.bat.pauses else s.bat.pauses ++ [.rest] := by
    split
    · assumption
    · exact List.mem_append_right _ (List.mem_singleton_self _)
  unfold openRest
  dsimp only
  split
  · exact ⟨rfl, held, rfl, rfl, rfl, rfl⟩
  · next idle => exact ⟨rfl, held, by simpa using fun h => idle (.inl h), rfl, rfl, rfl⟩

/-! ## The OCV tables (R212) -/

/-- What a whole LFP table makes of the state: the table stands in PACK, and the coverage is that of now. -/
def lfpStored (s : State) (t : List Nat) : State := recomputeCover (writeArea { s with bat := { s.bat with ocvLfp := some t } } .pack)

theorem lfpStored_keeps (s : State) (t : List Nat) :
    (lfpStored s t).bat.ocvLfp = some t ∧ (lfpStored s t).bat.ocvNmc = s.bat.ocvNmc ∧ (lfpStored s t).nand = s.nand ∧
    ∀ k x, staged (lfpStored s t) k x = staged s k x := by
  have same := recomputeCover_sameSettings (writeArea { s with bat := { s.bat with ocvLfp := some t } } .pack)
  refine ⟨same.ocvLfp.trans ?_, same.ocvNmc.trans ?_, by simp only [lfpStored, recomputeCover_frame, writeArea_frame],
    fun k x => staged_congr ((same.uploads k).trans (congrArg Ses.uploads (getSes_congr ?_ k))) x⟩ <;> simp only [writeArea_frame]

/-! ## The verbs on their lines -/

theorem mapGeometryVerb_runs (s : State) (k : Sess) (n : Nat) (h : mayRun s k .keep [.serve, .fault] = true)
    (hr : (geometryRefusals s k n).all (fun p => !p.1) = true) :
    mapGeometryVerb k n (lineStart s k) = okAns (setGeometry (lineStart s k) (BitVec.ofNat 32 n))
      [("geom", .hex 8 (setGeometry (lineStart s k) (BitVec.ofNat 32 n)).map.geom.toNat),
        ("img", .kw (setGeometry (lineStart s k) (BitVec.ofNat 32 n)).aon.img.text)] :=
  verb_onLine k .keep _ [.serve, .fault] _ _ s h (by decide) ((firstOf_eq_none _).mpr (by rw [geometryRefusals_lineStart]; exact hr))

theorem mapGranuleVerb_runs (s : State) (k : Sess) (c : Fin 7) (h : mayRun s k .keep [.serve] = true) (hi : s.aon.img ≠ .pending)
    (hb : boundariesOff s (withGran s.map.geom c.val) = false) (hc : cfgGuard s k = false) (hf : geoFits (withGran s.map.geom c.val) = true) :
    mapGranuleVerb k (16384 * 2 ^ c.val) (lineStart s k) = okAns (setGeometry (lineStart s k) (withGran s.map.geom c.val))
      [("gran", .size (geoG (setGeometry (lineStart s k) (withGran s.map.geom c.val)).map.geom)),
        ("img", .kw (setGeometry (lineStart s k) (withGran s.map.geom c.val)).aon.img.text)] := by
  have aligned : boundariesOff (lineStart s k) (withGran s.map.geom c.val) = false := hb
  rw [mapGranuleVerb, verb_onLine k .keep _ [.serve] _ _ s h (by decide)
    (by simp [firstOf, granCode_size, hi, aligned, cfgGuard_lineStart, hc, hf])]
  simp only [granCode_size, Option.getD_some, lineStart_frame]

/-- The state after a profile that passed its check: the staging discarded, the profile in CFG for the next BOOT (R314). -/
def profileStored (s : State) (k : Sess) (l : List Byte) : State :=
  storesCfg { setStaged s k .profile [] with nand := { s.nand with nextProfile := some (profileOf l) } }

theorem profileStored_keeps (s : State) (k : Sess) (l : List Byte) :
    (profileStored s k l).nand = { s.nand with nextProfile := some (profileOf l) } ∧ staged (profileStored s k l) k .profile = [] ∧
    (profileStored s k l).aon = s.aon ∧ (profileStored s k l).map = s.map := by
  have store : (profileStored s k l).mg = (setStaged s k .profile []).mg := by simp only [profileStored, storesCfg, writeArea_frame]
  refine ⟨by simp only [profileStored, storesCfg, writeArea_frame], ?_, ?_, ?_⟩
  · rw [staged_congr (s := setStaged s k .profile []) (congrArg Ses.uploads (getSes_congr (by rw [store]) k)), staged_setStaged_nil]
  · simp only [profileStored, storesCfg, writeArea_frame, setStaged, setSes_aon]
  · simp only [profileStored, storesCfg, writeArea_frame, setStaged, setSes_map]

theorem mapProfileCommitVerb_runs (s : State) (k : Sess) (h : mayRun s k .keep [.serve, .fault] = true)
    (hp : profileOk (staged s k .profile) = true) (hc : cfgGuard s k = false) :
    mapProfileCommitVerb k (lineStart s k) = okAns (profileStored (lineStart s k) k (staged s k .profile))
      [("profile", .nat (profileOf (staged s k .profile)).number), ("effective", .kw "BOOT")] := by
  rw [mapProfileCommitVerb, verb_onLine k .keep _ [.serve, .fault] _ _ s h (by decide) rfl]
  simp only [staged_lineStart, hp, cfgGuard_lineStart, hc, Bool.not_true, Bool.false_eq_true, if_false]
  rfl

theorem batSetVerb_runs (s : State) (k : Sess) (l : List (BatKey × Nat)) (h : mayRun s k .keep [.serve, .park, .fault] = true)
    (hc : cfgGuard s k = false) (hl : l.all (fun p => batKeyOk s (putBatKeys s.bat.set l) p.1 p.2) = true) :
    batSetVerb k l (lineStart s k) = okAns (batSettings (lineStart s k) (putBatKeys s.bat.set l))
      (l.map (fun p => (batKeyText p.1, batKeyVal p.1 p.2))) := by
  have fine : l.any (fun p => !batKeyOk s (putBatKeys s.bat.set l) p.1 p.2) = false := by simpa [List.all_eq_true] using hl
  refine verb_onLine k .keep _ [.serve, .park, .fault] _ _ s h (by decide) ((firstOf_eq_none _).mpr ?_)
  simp only [batKeyOk_lineStart, lineStart_frame, fine, cfgGuard_lineStart, hc]
  rfl

theorem batOcvloadCommitVerb_runs (s : State) (k : Sess) (h : mayRun s k .keep [.serve, .fault] = true)
    (hl : (staged s k (.ocv 1)).length = 168) :
    batOcvloadCommitVerb k 1 (lineStart s k) =
      okAns (lfpStored (setStaged (lineStart s k) k (.ocv 1) []) (ocvTableOf (staged s k (.ocv 1)))) [("chem", .kw "LFP")] := by
  rw [batOcvloadCommitVerb, verb_onLine k .keep _ [.serve, .fault] _ _ s h (by decide) rfl]
  simp only [staged_lineStart, hl]
  rfl

end Sys2Proof.Machine

open Sys2Proof Sys2Proof.Machine

/-- Settles O54: each verb that may run is its effect on the session's line, with its answer. -/
theorem mapAndPackVerbs : Obligations.MapAndPackVerbs := by
  unfold Obligations.MapAndPackVerbs
  refine ⟨fun k n s h hr => ⟨_, rfl, ?_⟩, fun k c s h hi hb hc hf => ⟨_, rfl, ?_⟩,
    fun k o d s h hl => ⟨fun ho => ⟨_, rfl, ?_⟩, fun c hc ho => ⟨_, rfl, ?_⟩⟩, fun k s h hp hc => ⟨_, rfl, ?_⟩, fun k s h hm => ⟨_, rfl, ?_⟩,
    fun k l s h hc hl => ⟨_, rfl, ?_⟩, fun k s h => ⟨_, rfl, ?_⟩, fun k s h => ⟨_, rfl, ?_⟩, fun k s h hl => ⟨_, rfl, ?_⟩⟩
  · obtain ⟨geom, img, dirty, hold, ten, nand, cfl⟩ := setGeometry_keeps (lineStart s k) (BitVec.ofNat 32 n)
    rw [onVerb_line (.mapGeometry k n) false (mayRun_ready h).1 (mapGeometryVerb_runs s k n h hr)]
    simp only [respond_frame, allGranules, geom, img, dirty, hold, ten, nand, cfl, lineStart_frame, true_and, and_true]
    exact respond_said _ _ _
  · obtain ⟨geom, img, dirty, -, ten, nand, -⟩ := setGeometry_keeps (lineStart s k) (withGran s.map.geom c.val)
    rw [onVerb_line (.mapGranule k _) false (mayRun_ready h).1 (mapGranuleVerb_runs s k c h hi hb hc hf)]
    simp only [respond_frame, allGranules, geom, img, dirty, ten, nand, lineStart_frame, and_self]
  · refine piece_answered _ .profile o d (mayRun_ready h).1 ?_
    have next : pieceOut (lineStart s k) k .profile o = false := by rw [pieceOut, staged_lineStart]; exact ho
    exact verb_onLine k .keep _ [.serve, .fault] _ _ s h (by decide) (by simp [firstOf, hl, next])
  · refine piece_answered _ (.ocv c) o d (mayRun_ready h).1 ?_
    have next : pieceOut (lineStart s k) k (.ocv c) o = false := by rw [pieceOut, staged_lineStart]; exact ho
    exact verb_onLine k .keep _ [.serve, .fault] _ _ s h (by decide) (by simp [firstOf, hl, next, Nat.not_le.mpr hc])
  · obtain ⟨nand, staging, aon, map⟩ := profileStored_keeps (lineStart s k) k (staged s k .profile)
    rw [onVerb_line (.mapProfileCommit k) false (mayRun_ready h).1 (mapProfileCommitVerb_runs s k h hp hc), staged_respond, staging]
    simp only [respond_frame, nand, aon, map, lineStart_frame, and_self]
  · refine onVerb_answers _ _ (mayRun_ready h).1 ?_
    have may : mayProvision (lineStart s k) = true := hm
    exact verb_onLine k .keep _ [.serve, .fault] _ _ s h (by decide) (by simp [firstOf, may])
  · obtain ⟨set, hold, nand, ten, cfl⟩ := batSettings_keeps (lineStart s k) (putBatKeys s.bat.set l)
    rw [onVerb_line (.batSet k l) false (mayRun_ready h).1 (batSetVerb_runs s k l h hc hl)]
    simp only [respond_frame, set, hold, nand, ten, cfl, lineStart_frame, true_and, and_true]
    exact respond_said _ _ _
  · obtain ⟨aon, locked, faults, retry, nand, map⟩ := chargerCleared_keeps (lineStart s k)
    have run : batClearVerb k (lineStart s k) = okAns (chargerCleared (lineStart s k)) [("chg", .kw (chargerCleared (lineStart s k)).bat.chg.text)] :=
      verb_onLine k .keep _ [.serve, .fault] _ _ s h (by decide) rfl
    rw [onVerb_line (.batClear k) false (mayRun_ready h).1 run]
    simp only [respond_frame, aon, locked, faults, retry, nand, map, lineStart_frame, true_and, and_true]
    exact respond_said _ _ _
  · obtain ⟨rest, pause, off, aon, nand, map⟩ := openRest_opens (lineStart s k)
    have run : batRestVerb k (lineStart s k) = _ := verb_onLine k .run _ [.serve, .park] _ _ s h (by decide) rfl
    rw [onVerb_line (.batRest k) false (mayRun_ready h).1 run]
    simp only [respond_frame, rest, pause, off, aon, nand, map, lineStart_frame, true_and, and_true]
    exact respond_said _ _ _
  · obtain ⟨lfp, nmc, nand, stagings⟩ := lfpStored_keeps (setStaged (lineStart s k) k (.ocv 1) []) (ocvTableOf (staged s k (.ocv 1)))
    rw [onVerb_line (.batOcvloadCommit k 1) false (mayRun_ready h).1 (batOcvloadCommitVerb_runs s k h hl), staged_respond, stagings,
      staged_setStaged_nil]
    simp only [respond_frame, lfp, nmc, nand, true_and]
    exact ⟨rfl, respond_said _ _ _, rfl⟩

end

section
/-! LAW. The elementary moves by which a save gives work to the dies and takes it back, what every chain of them keeps, and the stop of
the plaits (R114, R116, R119, R123, R127, R134, R215, R216). -/

namespace Sys2Proof.Machine

/-! ## The moves -/

/-- One elementary move of a save's work: a die changes, a group changes, the save's plan changes and what has stopped stays stopped, a
record's tables change. -/
inductive StrandMove : State → State → Prop
  | die (s : State) (d : Die) (f : DieSt → DieSt) : StrandMove s (setDie s d f)
  | group (s : State) (g : Group) : StrandMove s (setGroup s g)
  | plan (s : State) (v w : Save) (h : s.map.save = some v) (stop : v.stop = true → w.stop = true) : StrandMove s (setSave s w)
  | tables (s : State) (j : TableJob) : StrandMove s { s with nand := { s.nand with tab := some j } }

/-- A chain of moves. -/
abbrev StrandWork : State → State → Prop := Relation.ReflTransGen StrandMove

/-- What every move keeps, every chain keeps. -/
theorem StrandWork.keeps {P : State → Prop} (h : ∀ {s t}, StrandMove s t → P s → P t) {s t : State} (w : StrandWork s t) (hs : P s) : P t := by
  induction w with
  | refl => exact hs
  | tail _ move ih => exact h move ih

theorem foldl_fst_strandWork {α β : Type} (f : State × β → α → State × β) (h : ∀ q x, StrandWork q.1 (f q x).1) (l : List α)
    (q : State × β) : StrandWork q.1 (l.foldl f q).1 :=
  List.foldlRecOn (motive := fun p : State × β => StrandWork q.1 p.1) l f .refl fun _ hp x _ => hp.trans (h _ x)

/-! ## The save's operations are chains of moves -/

theorem nextPage_work (s : State) (d : Die) : StrandWork s (nextPage s d).1 := by
  have opened : StrandWork s (openGroup s d .deltaOpen).1 := by
    unfold openGroup
    split
    · exact .refl
    · split
      · exact .single (.group s _)
      · exact .refl
  unfold nextPage
  split <;> simpa only [*] using opened

theorem wakeDie_work (s : State) (d : Die) (w : Page → Work) : StrandWork s (wakeDie s d w).1 := by
  have paged := nextPage_work s d
  unfold wakeDie
  split
  · exact .refl
  · split
    · next e => rw [e] at paged; exact paged.tail (.die _ d _)
    · next e => rw [e] at paged; exact paged.tail (.die _ d _)

theorem wakePlait_work (q : State × List OpenPlait) (p : OpenPlait) : StrandWork q.1 (wakePlait q p).1 :=
  foldl_fst_strandWork wakeStrand (fun q x => by
    unfold wakeStrand
    split
    · exact wakeDie_work _ _ _
    · exact .refl) p.strands (q.1, [])

theorem wakeTable_work (q : State × List TabStrand) (x : TabStrand) : StrandWork q.1 (wakeTable q x).1 := by
  unfold wakeTable
  split
  · exact wakeDie_work _ _ _
  · exact .refl

/-- Plaits are abandoned: their dies' loads go, then the plan changes (R116). -/
theorem abandonPlaits_work {s : State} {v : Save} (w : Save) (gone : OpenPlait → Bool) (h : s.map.save = some v) (stop : w.stop = v.stop) :
    StrandWork s (abandonPlaits s w gone) := by
  unfold abandonPlaits
  extract_lets out t
  have dropped : ∀ {u : State} {c : Prop} [Decidable c] (d : Die), StrandWork s u ∧ u.map = s.map →
      StrandWork s (if c then setOp u d .idle else u) ∧ (if c then setOp u d .idle else u).map = s.map := fun {u} _ _ d ⟨work, map⟩ => by
    split
    · exact ⟨work.tail (.die u d _), map⟩
    · exact ⟨work, map⟩
  have loads : StrandWork s t ∧ t.map = s.map :=
    List.foldlRecOn (motive := fun u : State => StrandWork s u ∧ u.map = s.map) out _ ⟨.refl, rfl⟩ fun u hu p _ =>
      List.foldlRecOn (motive := fun u : State => StrandWork s u ∧ u.map = s.map) p.strands _ hu fun u hu x _ => by
        split
        · exact dropped x.die hu
        · exact dropped x.die hu
        · exact hu
  exact loads.1.tail (.plan t v _ (by rw [loads.2, h]) fun on => by rw [← on]; exact stop)

theorem wakeOnce_work (s : State) : StrandWork s (wakeOnce s) := by
  unfold wakeOnce
  extract_lets t
  have plaits : StrandWork s t := by
    simp only [t]
    split
    · next v hv =>
      have woken : (v.open_.foldl wakePlait (s, [])).1.map = s.map := foldl_fst_map wakePlait wakePlait_map _ (s, [])
      exact (foldl_fst_strandWork wakePlait wakePlait_work v.open_ (s, [])).trans (abandonPlaits_work (v := v) _ _ (by rw [woken, hv]) rfl)
    · exact .refl
  split
  · exact plaits.trans ((foldl_fst_strandWork wakeTable wakeTable_work _ (t, [])).tail (.tables _ _))
  · exact plaits

theorem startTables_work (s : State) (use : RimUse) (types : List Nat) (last : Option Die) : StrandWork s (startTables s use types last) := by
  unfold startTables
  split
  · exact .refl
  · exact .head (.tables s _) ((wakeOnce_work _).trans (wakeOnce_work _))

theorem saveAdvance_work (s : State) : StrandWork s (saveAdvance s) := by
  unfold saveAdvance
  split
  · exact .refl
  · next v hv =>
    split
    · refine .trans (.single (.plan s v _ hv ?_)) (startTables_work _ _ _ _)
      exact id
    · exact .refl

theorem stopPlaits_work (s : State) : StrandWork s (stopPlaits s) := by
  unfold stopPlaits
  split
  · exact .refl
  · next v hv => exact .head (.plan s v _ hv fun _ => rfl) (saveAdvance_work _)

/-! ## What every chain keeps -/

theorem StrandMove.array {s t : State} (h : StrandMove s t) : ArrayStep s t := by
  cases h with
  | die d f => exact setDie_array s d f
  | group g => exact setGroup_array s g
  | plan v w => exact setSave_array s w
  | tables j => exact tab_array s _

theorem StrandWork.array {s t : State} (h : StrandWork s t) : ArrayStep s t :=
  h.keeps (P := ArrayStep s) (fun move hs => hs.trans move.array) (.refl s)

/-- A save's work stays within MAP and the NAND. -/
theorem StrandWork.within {s t : State} (h : StrandWork s t) : t = { s with map := t.map, nand := t.nand } := by
  refine h.keeps (P := fun t => t = { s with map := t.map, nand := t.nand }) (fun {t u} move ht => ?_) rfl
  have one : u = { t with map := u.map, nand := u.nand } := by cases move <;> rfl
  rw [ht] at one
  exact one

/-- A save that has stopped stays so (R123). -/
theorem StrandWork.stopped {s t : State} (h : StrandWork s t) {v : Save} (hv : s.map.save = some v) (stop : v.stop = true) :
    ∃ w, t.map.save = some w ∧ w.stop = true := by
  refine h.keeps (P := fun t => ∃ w, t.map.save = some w ∧ w.stop = true) (fun {t u} move ⟨w, hw, on⟩ => ?_) ⟨v, hv, stop⟩
  cases move with
  | plan a b ha keeps =>
    cases ha.symm.trans hw
    exact ⟨b, rfl, keeps on⟩
  | _ => exact ⟨w, hw, on⟩

/-! ## The stop of the plaits -/

/-- After a stop no plait of the save may start (R123). -/
theorem stopPlaits_stops (s : State) (w : Save) (h : (stopPlaits s).map.save = some w) : w.stop = true := by
  unfold stopPlaits at h
  split at h
  · next none_ => rw [none_] at h; cases h
  · next v _ =>
    obtain ⟨x, hx, on⟩ := (saveAdvance_work (setSave s { v with stop := true })).stopped rfl rfl
    rw [Option.some.inj (h.symm.trans hx), on]

/-- A stop of the plaits stays within MAP and the NAND, and leaves the rims and the DRAM (R123, R216). -/
theorem stopPlaits_keeps (s : State) :
    (∀ v, (stopPlaits s).map.save = some v → v.stop = true) ∧ (stopPlaits s).nand.rims = s.nand.rims ∧
    (stopPlaits s).nand.dram = s.nand.dram ∧ stopPlaits s = { s with map := (stopPlaits s).map, nand := (stopPlaits s).nand } :=
  ⟨stopPlaits_stops s, (stopPlaits_work s).array.rims, (stopPlaits_work s).array.dram, (stopPlaits_work s).within⟩

/-- Below the reserve floor no plait may start (R123). -/
theorem plaitAllowed_below (s : State) (v : Save) (h : s.map.eRem < eFloor s) : plaitAllowed s v = false := by
  have short : decide (eFloor s ≤ s.map.eRem) = false := decide_eq_false (not_le.mpr h)
  simp only [plaitAllowed, short, Bool.and_false, Bool.false_and]

end Sys2Proof.Machine

open Sys2Proof Sys2Proof.Machine

/-- Settles O26: the two notes are MAP's own, and a stop of the plaits stays within MAP and the NAND. -/
theorem energyInASave : Obligations.EnergyInASave := by
  unfold Obligations.EnergyInASave
  refine ⟨fun s h hr => ⟨_, congrArg Host.Outcome.next (if_pos ⟨h, hr⟩), rfl, fun low v => plaitAllowed_below _ v low⟩,
    fun s h => congrArg Host.Outcome.next (if_pos h), fun s h => ?_, fun s h hp hb he => ?_, fun s h => ?_⟩
  · obtain ⟨stop, rims, dram, rest⟩ := stopPlaits_keeps { s with bat := { s.bat with eod := true } }
    refine ⟨_, congrArg Host.Outcome.next (by rw [h]), ?_, stop, rims, dram, ?_⟩
    · rw [rest]
    · rw [rest]
  · have pack : onBulk s = false := by simp [onBulk, hb]
    refine congrArg Host.Outcome.next ?_
    obtain h | h := h
    · simp only [h, hp, pack, he, and_self, if_true]
    · simp only [h, hp, pack, he, and_self, if_true]
  · obtain ⟨stop, rims, dram, rest⟩ := stopPlaits_keeps { s with aon := { s.aon with hwFloor := true } }
    refine ⟨_, congrArg Host.Outcome.next (if_pos h), ?_, stop, rims, dram, ?_⟩
    · rw [rest]
    · rw [rest]

end

section
/-! REFUTATION. What a failed strand program retires where the die works at another die's page (R116, R134, R154). -/

namespace Sys2Proof.Machine

/-- A strand's program failure retires the page's block on the die that failed, and the strand fails (R116, R154). -/
theorem strandProgramDone_fail (s : State) (d : Die) (p : Page) (x : Fin 4) (h : (dieOf s d).op = .busy (.strand p)) :
    exec (.strandProgramDone d (.fail x)) s =
      .next (strandFailed (retire (setOp (advancePage s p) d .idle) causeProg d x.val p.block) d) :=
  congrArg Host.Outcome.next (by rw [h])

/-- The first page of block 0 on die 1. -/
def strayPage : Page := { die := 1, block := 0, page := 0 }

/-- A save in which die 0 programs a strand at a page of die 1, in a group of die 1 that is open for strands. No run comes there, for a
strand takes its page on its own die (`nextPage`), but the statement takes every state and lets the page name any die. -/
def strayStrand : State :=
  { newSave State.reset false with nand := { State.reset.nand with
      dies := upd State.reset.nand.dies 0 (fun x => { x with present := true, op := .busy (.strand strayPage) })
      groups := [{ die := 1, block := 0, role := .deltaOpen, erases := 0, wp := 0, cause := 0, plane := 0 }] } }

/-- The failure leaves the group of the page open. -/
theorem strayStrand_fails :
    (groupOf (strandFailed (retire (setOp (advancePage strayStrand strayPage) 0 .idle) causeProg 0 0 strayPage.block) 0)
      strayPage.die strayPage.block).role = .deltaOpen := by
  decide +kernel

end Sys2Proof.Machine

open Sys2Proof Sys2Proof.Machine

/-- Refutes O32: its clause on a failed strand retires the group of the page that the die programs, whatever die that page names; the
model retires the page's block on the die that failed, so a page of another die leaves its group open. -/
theorem not_plaitsAndStrands : ¬ Obligations.PlaitsAndStrands := by
  unfold Obligations.PlaitsAndStrands
  rintro ⟨-, -, -, -, -, fails, -⟩
  have busy : (dieOf strayStrand 0).op = .busy (.strand strayPage) := by decide +kernel
  have open_ : (groupOf strayStrand strayPage.die strayPage.block).role = .deltaOpen := by decide +kernel
  obtain ⟨t, run, -, role, -⟩ := fails 0 strayPage 0 _ strayStrand busy rfl rfl open_
  obtain rfl := Host.Outcome.next.inj ((strandProgramDone_fail strayStrand 0 strayPage 0 busy).symm.trans run)
  obtain role | role := role
  · cases strayStrand_fails.symm.trans role
  · cases strayStrand_fails.symm.trans role

end

section
/-! REFUTATION. What provisioning's wipe does to a record on NAND that has no factory table (R143, R152). -/

namespace Sys2Proof.Machine

/-- A FORMAT record whose one copy is the first page of block 0 on die 0. -/
def lateRecord : Rim := { blankRim State.reset .format with copyA := some { die := 0, block := 0, page := 0 } }

/-- NAND in SERVE that is not provisioned and has no factory table, with a record on it. No run comes there, for a record is committed only
after provisioning has made the table, but the statement takes every state and its hypotheses leave the records free. -/
def lateNand : State :=
  { State.reset with
    aon := { State.reset.aon with hold := .serve }
    nand := { State.reset.nand with rims := [lateRecord] } }

/-- No factory mark, and a blank check that finds zero bits in block 0 of die 0. -/
def lateFacts : FirstFacts := { marks := [], zeroBits := [((0, 0), 4096)] }

/-- The wipe erases the group, and the record goes with its last copy (R133, R143, R152). -/
theorem provisioningStart_lateNand : ∃ t, exec (.provisioningStart lateFacts) lateNand = .next t ∧ t.nand.rims.length = 0 :=
  ⟨_, rfl, by decide +kernel⟩

end Sys2Proof.Machine

open Sys2Proof Sys2Proof.Machine

/-- Refutes O17: its first clause keeps the records over PROVISIONING_START in every state, but the model erases each group that is not
blank, and a record whose last copy stands in such a group goes with it. -/
theorem not_provisioningMarksAndFormats : ¬ Obligations.ProvisioningMarksAndFormats := by
  unfold Obligations.ProvisioningMarksAndFormats
  rintro ⟨start, -, -⟩
  have waits : provisions lateNand = true := by decide +kernel
  obtain ⟨t, run, -, -, -, -, rims, -, -⟩ := start lateFacts lateNand waits rfl rfl
  obtain ⟨u, ran, none_⟩ := provisioningStart_lateNand
  obtain rfl := Host.Outcome.next.inj (run.symm.trans ran)
  rw [rims] at none_
  cases none_

end

section
/-! LAW. The rows of the block-state table, and the elementary moves by which SETTLE, its records' tables and a save's strands work on the
dies: what every chain of them keeps (R114, R127, R134, R135, R145, R146, R148, R150). -/

namespace Sys2Proof.Machine

/-! ## Rows of the block-state table -/

/-- `g` is the only row of its group, and the group is not FREE. -/
structure SoleRow (s : State) (g : Group) : Prop where
  taken : g.role ≠ .free
  stands : g ∈ s.nand.groups
  sole : ∀ x ∈ s.nand.groups, x.die = g.die → x.block = g.block → x = g

theorem SoleRow.of_groups {s t : State} {g : Group} (h : SoleRow s g) (e : t.nand.groups = s.nand.groups) : SoleRow t g :=
  ⟨h.taken, e ▸ h.stands, e ▸ h.sole⟩

theorem groupOf_soleRow {s : State} {g : Group} (h : SoleRow s g) {d : Die} {b : Nat} (hd : g.die = d) (hb : g.block = b) :
    groupOf s d b = g := by
  unfold groupOf
  split
  · next x found =>
    have named : x.die = d ∧ x.block = b := by simpa using List.find?_some found
    exact h.sole x (List.mem_of_find?_eq_some found) (named.1.trans hd.symm) (named.2.trans hb.symm)
  · next none_ => exact absurd (List.find?_eq_none.mp none_ g h.stands) (by simp [hd, hb])

/-- A row that is written is the only one of its group. -/
theorem setGroup_soleRow (s : State) (g : Group) (h : g.role ≠ .free) : SoleRow (setGroup s g) g := by
  refine ⟨h, List.mem_cons_self, fun x hx hd hb => ?_⟩
  obtain rfl | rest := List.mem_cons.mp hx
  · rfl
  · exact absurd (List.mem_filter.mp rest).2 (by simp [hd, hb])

/-- A row stays while another group's row is written. -/
theorem setGroup_soleRow_other {s : State} {g : Group} (h : SoleRow s g) (x : Group) (ne : ¬(g.die = x.die ∧ g.block = x.block)) :
    SoleRow (setGroup s x) g := by
  have left : g ∈ s.nand.groups.filter (fun y => !(y.die = x.die ∧ y.block = x.block)) :=
    List.mem_filter.mpr ⟨h.stands, by simpa only [Bool.not_eq_true', decide_eq_false_iff_not] using ne⟩
  refine ⟨h.taken, List.mem_cons_of_mem _ left, fun y hy hd hb => ?_⟩
  obtain rfl | rest := List.mem_cons.mp hy
  · exact absurd ⟨hd.symm, hb.symm⟩ ne
  · exact h.sole y (List.mem_filter.mp rest).1 hd hb

theorem firstGroup_mem {l : List Group} {g : Group} (h : firstGroup l = some g) : g ∈ l := by
  refine List.foldlRecOn (motive := fun acc : Option Group => ∀ a, acc = some a → a ∈ l) l _ (by simp)
    (fun acc ih x hx a ha => ?_) g h
  cases acc with
  | none => exact Option.some.inj ha ▸ hx
  | some y =>
    dsimp only at ha
    split at ha
    · exact Option.some.inj ha ▸ hx
    · exact ih a ha

/-- The group that opens next is FREE: its row is no row that stands for a group in use (R135). -/
theorem nextFree_other {s : State} {d : Die} {tlc : Bool} {held : Option Nat} {g x : Group} (h : SoleRow s g)
    (hx : nextFree s d tlc held = some x) : ¬(g.die = x.die ∧ g.block = x.block) := by
  rintro ⟨hd, hb⟩
  have from_ := firstGroup_mem hx
  simp only [List.mem_append, Option.mem_toList, Option.map_eq_some_iff, List.mem_filter] at from_
  obtain ⟨b, fresh, rfl⟩ | ⟨row, role⟩ := from_
  · obtain ⟨nd, nb⟩ := groupOf_named s d b
    have untouched := List.find?_some fresh
    simp only [Bool.and_eq_true, Bool.not_eq_true', List.any_eq_false] at untouched
    exact absurd (untouched.1 g h.stands) (by simp [hd, hb, nd, nb])
  · rw [h.sole x row hd.symm hb.symm] at role
    simp [h.taken] at role

/-- To open a group leaves the row of every group in use. -/
theorem openGroup_soleRow {s : State} {g : Group} (h : SoleRow s g) (d : Die) (r : Role) : SoleRow (openGroup s d r).1 g := by
  unfold openGroup
  split
  · exact h
  · split
    · next x hx => exact setGroup_soleRow_other h { x with role := r, wp := 0 } (nextFree_other (x := x) h hx)
    · exact h

/-! ## The moves -/

/-- One elementary move of the work on the arrays: a die changes, a group opens, a save's plan, a record's tables or the folds change,
SETTLE stops. -/
inductive SettleMove : State → State → Prop
  | die (s : State) (d : Die) (f : DieSt → DieSt) : SettleMove s (setDie s d f)
  | opens (s : State) (d : Die) (r : Role) : SettleMove s (openGroup s d r).1
  | plan (s : State) (v : Save) : SettleMove s (setSave s v)
  | tables (s : State) (j : TableJob) : SettleMove s { s with nand := { s.nand with tab := some j } }
  | folds (s : State) (l : List FoldDie) : SettleMove s { s with nand := { s.nand with settle := { s.nand.settle with folds := l } } }
  | stops (s : State) : SettleMove s (stopSettle s)

/-- A chain of moves. -/
abbrev SettleWork : State → State → Prop := Relation.ReflTransGen SettleMove

/-- What every move of the work on the arrays keeps. -/
structure SettleKeeps (s t : State) : Prop where
  aon : t.aon = s.aon
  cfl : t.cfl = s.cfl
  rims : t.nand.rims = s.nand.rims
  dram : t.nand.dram = s.nand.dram
  bbt : t.nand.bbt = s.nand.bbt
  marginFailed : t.nand.settle.marginFailed = s.nand.settle.marginFailed
  rows : ∀ g, SoleRow s g → SoleRow t g

theorem SettleMove.keeps {s t : State} (h : SettleMove s t) : SettleKeeps s t := by
  cases h with
  | opens d r =>
    have work := openGroup_array s d r
    have other : (openGroup s d r).1.nand.bbt = s.nand.bbt ∧
        (openGroup s d r).1.nand.settle.marginFailed = s.nand.settle.marginFailed := by
      unfold openGroup
      split
      · exact ⟨rfl, rfl⟩
      · split <;> exact ⟨rfl, rfl⟩
    exact ⟨work.aon, work.cfl, work.rims, work.dram, other.1, other.2, fun g h => openGroup_soleRow h d r⟩
  | _ => exact ⟨rfl, rfl, rfl, rfl, rfl, rfl, fun g h => h.of_groups rfl⟩

theorem SettleWork.keeps {s t : State} (h : SettleWork s t) : SettleKeeps s t := by
  induction h with
  | refl => exact ⟨rfl, rfl, rfl, rfl, rfl, rfl, fun _ => id⟩
  | tail _ move ih =>
    have one := move.keeps
    exact ⟨one.aon.trans ih.aon, one.cfl.trans ih.cfl, one.rims.trans ih.rims, one.dram.trans ih.dram, one.bbt.trans ih.bbt,
      one.marginFailed.trans ih.marginFailed, fun g h => one.rows g (ih.rows g h)⟩

/-! ## The work on the arrays is a chain of moves -/

theorem foldl_settleWork {α : Type} (f : State → α → State) (h : ∀ u x, SettleWork u (f u x)) (l : List α) (s : State) :
    SettleWork s (l.foldl f s) :=
  List.foldlRecOn (motive := SettleWork s) l f .refl fun _ hu x _ => hu.trans (h _ x)

theorem foldl_fst_settleWork {α β : Type} (f : State × β → α → State × β) (h : ∀ q x, SettleWork q.1 (f q x).1) (l : List α)
    (q : State × β) : SettleWork q.1 (l.foldl f q).1 :=
  List.foldlRecOn (motive := fun p : State × β => SettleWork q.1 p.1) l f .refl fun _ hp x _ => hp.trans (h _ x)

theorem ite_settleWork {c : Prop} [Decidable c] {s a b : State} (ha : SettleWork s a) (hb : SettleWork s b) :
    SettleWork s (if c then a else b) := by
  split
  · exact ha
  · exact hb

theorem wakeDie_settleWork (s : State) (d : Die) (w : Page → Work) : SettleWork s (wakeDie s d w).1 := by
  have opened : SettleWork s (openGroup s d .deltaOpen).1 := .single (.opens s d _)
  unfold wakeDie nextPage
  split
  · exact .refl
  · revert opened
    rcases openGroup s d .deltaOpen with ⟨u, g⟩
    intro opened
    cases g with
    | none => exact opened.tail (.die u d _)
    | some g => exact opened.tail (.die u d _)

theorem wakePlait_settleWork (q : State × List OpenPlait) (p : OpenPlait) : SettleWork q.1 (wakePlait q p).1 :=
  foldl_fst_settleWork wakeStrand (fun q x => by
    unfold wakeStrand
    split
    · exact wakeDie_settleWork _ _ _
    · exact .refl) p.strands (q.1, [])

theorem wakeTable_settleWork (q : State × List TabStrand) (x : TabStrand) : SettleWork q.1 (wakeTable q x).1 := by
  unfold wakeTable
  split
  · exact wakeDie_settleWork _ _ _
  · exact .refl

theorem abandonPlaits_settleWork (s : State) (v : Save) (gone : OpenPlait → Bool) : SettleWork s (abandonPlaits s v gone) := by
  unfold abandonPlaits
  refine (foldl_settleWork _ (fun u p => foldl_settleWork _ (fun w x => ?_) _ _) _ _).tail (.plan _ _)
  split
  · exact ite_settleWork (.single (.die w x.die _)) .refl
  · exact ite_settleWork (.single (.die w x.die _)) .refl
  · exact .refl

theorem wakeOnce_settleWork (s : State) : SettleWork s (wakeOnce s) := by
  unfold wakeOnce
  extract_lets t
  have plaits : SettleWork s t := by
    simp only [t]
    split
    · exact (foldl_fst_settleWork wakePlait wakePlait_settleWork _ (s, [])).trans (abandonPlaits_settleWork _ _ _)
    · exact .refl
  split
  · exact plaits.trans ((foldl_fst_settleWork wakeTable wakeTable_settleWork _ (t, [])).tail (.tables _ _))
  · exact plaits

theorem wakeStrands_settleWork (s : State) : SettleWork s (wakeStrands s) := (wakeOnce_settleWork s).trans (wakeOnce_settleWork _)

theorem startTables_settleWork (s : State) (use : RimUse) (types : List Nat) (last : Option Die) :
    SettleWork s (startTables s use types last) := by
  unfold startTables
  split
  · exact .refl
  · exact .head (.tables s _) (wakeStrands_settleWork _)

theorem closeFolds_settleWork (s : State) : SettleWork s (closeFolds s) :=
  ite_settleWork .refl (.head (.folds s _) (startTables_settleWork _ _ _ _))

theorem startFold_settleWork (s : State) (d : Die) : SettleWork s (startFold s d) := by
  have opened : SettleWork s (openGroup s d .baseOpen).1 := .single (.opens s d _)
  unfold startFold
  revert opened
  rcases openGroup s d .baseOpen with ⟨u, g⟩
  intro opened
  cases g with
  | none => exact opened
  | some g => exact opened.trans (ite_settleWork .refl (.head (.die u d _) (.single (.folds _ _))))

/-- The next folds are work on the arrays, also where SETTLE stops (R145, R146). -/
theorem nextFolds_settleWork (s : State) : SettleWork s (nextFolds s) := by
  refine ite_settleWork .refl (ite_settleWork (.single (.stops s)) (ite_settleWork (closeFolds_settleWork s)
    ((foldl_settleWork _ (fun u c => ite_settleWork .refl ?_) _ s).trans (closeFolds_settleWork _))))
  split
  · exact startFold_settleWork u _
  · exact .refl

/-! ## Where nothing waits -/

/-- While SETTLE does not run, no fold starts and none closes. -/
theorem nextFolds_stopped (s : State) (h : s.nand.settle.running = false) : nextFolds s = s := if_pos (by simp [h])

/-- Without a save and without tables under way no strand waits. -/
theorem wakeStrands_idle (s : State) (hv : s.map.save = none) (ht : s.nand.tab = none) : wakeStrands s = s := by
  have once : wakeOnce s = s := by simp only [wakeOnce, hv, ht]
  rw [wakeStrands, once, once]

/-- With SETTLE stopped and neither a save nor tables under way, the end of a die's work leads to no other. -/
theorem noWork_follows (s : State) (h : s.nand.settle.running = false) (hv : s.map.save = none) (ht : s.nand.tab = none) :
    wakeStrands (nextFolds s) = s := by
  rw [nextFolds_stopped s h, wakeStrands_idle s hv ht]

end Sys2Proof.Machine

end

section
/-! LAW. The folds by die, the retirement of a group, and what an erase and a fold's program do before the work that follows them (R134,
R135, R141, R146, R153, R154, R157). -/

namespace Sys2Proof.Machine

/-! ## Folds -/

theorem foldOf_die {s : State} {d : Die} {f : FoldDie} (h : foldOf s d = some f) : f.die = d := by
  simpa using List.find?_some h

theorem foldOf_setFold (s : State) {d : Die} (f : FoldDie) (h : f.die = d) : foldOf (setFold s f) d = some f := by
  simp only [foldOf, setFold, List.find?_cons, h, decide_true]

theorem foldOf_dropFold (s : State) (d : Die) : foldOf (dropFold s d) d = none := by
  simp [foldOf, dropFold]

@[simp] theorem groupOf_dropFold (s : State) (d e : Die) (b : Nat) : groupOf (dropFold s d) e b = groupOf s e b := rfl

@[simp] theorem groupOf_setOp (s : State) (d e : Die) (o : DieOp) (b : Nat) : groupOf (setOp s d o) e b = groupOf s e b := rfl

/-- The tables of a record leave the settle engine as it is. -/
theorem startTables_settle (s : State) (use : RimUse) (types : List Nat) (last : Option Die) :
    (startTables s use types last).nand.settle = s.nand.settle :=
  (startTables_work s use types last).keeps (P := fun t => t.nand.settle = s.nand.settle)
    (fun move hs => by cases move <;> exact hs) rfl

/-- A fold that is not ready stays as it is while the ready ones close (R148). -/
theorem foldOf_closeFolds (s : State) {d : Die} {f : FoldDie} (h : foldOf s d = some f) (open_ : f.full s.nand.profile.wls = false) :
    foldOf (closeFolds s) d = some f := by
  unfold closeFolds
  dsimp only
  split
  · exact h
  · have same : (fun g : FoldDie => decide (g.die = d)) ∘
        (fun g : FoldDie => if g.full s.nand.profile.wls then { g with closing := true } else g) = fun g => decide (g.die = d) := by
      funext g
      dsimp only [Function.comp]
      split <;> rfl
    have found : s.nand.settle.folds.find? (fun g => decide (g.die = d)) = some f := h
    rw [foldOf, startTables_settle, List.find?_map, same, found, Option.map_some, if_neg (by simp [open_])]

/-! ## Retirement -/

/-- Live data depend on the NAND and on the save under way alone. -/
theorem hasLive_congr {s t : State} (hn : t.nand = s.nand) (hm : t.map = s.map) (d : Die) (b : Nat) : hasLive t d b = hasLive s d b := by
  cases s
  cases t
  dsimp only at hn hm
  subst hn hm
  rfl

/-- The roles in which a group may still be retired (R154). -/
def Role.canRetire (r : Role) : Bool := r ≠ .retiring && r ≠ .grownBad && r ≠ .factoryBad

/-- What the entry in the grown table changes: that table, its copy in the config store, and the log (R153, R156). -/
theorem addGrown_nand (s : State) (cause : Nat) (d : Die) (plane b : Nat) : ∃ l n c f,
    (addGrown s cause d plane b).nand = { s.nand with bbt := l, bbtGen := n, bbtCfg := c, bbtFull := f } := by
  unfold addGrown
  split
  · simp only [logEv_frame]
    exact ⟨_, _, _, _, rfl⟩
  · simp only [writeArea_frame]
    exact ⟨_, _, _, _, rfl⟩

theorem addGrown_bbt (s : State) (cause : Nat) (d : Die) (plane b : Nat) (h : s.nand.bbt.length < 4096) :
    (addGrown s cause d plane b).nand.bbt = s.nand.bbt ++ [{ cause := cause, die := d, plane := plane, block := b }] := by
  unfold addGrown
  rw [if_neg (Nat.not_le.mpr h)]
  simp only [writeArea_frame]

/-- The row of a group that is retired, in its new role (R154). -/
def retiredRow (s : State) (cause : Nat) (d : Die) (plane b : Nat) (r : Role) : Group :=
  { groupOf s d b with role := r, cause := cause, plane := plane }

/-- A group that is in use retires: RETIRING with live data, else GROWN_BAD with its entry in the grown table (R154). -/
theorem retire_eq (s : State) (cause : Nat) (d : Die) (plane b : Nat) (h : (groupOf s d b).role.canRetire = true) :
    retire s cause d plane b =
      (let t := logEv s (dieDom d) .groupRetired d.val b cause
       if hasLive s d b then setGroup t (retiredRow s cause d plane b .retiring)
       else addGrown (setGroup t (retiredRow s cause d plane b .grownBad)) cause d plane b) := by
  have live := hasLive_congr (s := s) (t := logEv s (dieDom d) .groupRetired d.val b cause) (by simp only [logEv_frame])
    (by simp only [logEv_frame]) d b
  unfold retire
  dsimp only
  rw [if_neg (by simpa [Role.canRetire, and_assoc] using h), live]
  rfl

theorem retire_array (s : State) (cause : Nat) (d : Die) (plane b : Nat) : ArrayStep s (retire s cause d plane b) := by
  unfold retire
  refine ite_arrayStep (.refl s) (ite_arrayStep ?_ ?_)
  · exact (logEv_array s _ _ _ _ _ _).trans (setGroup_array _ _)
  · exact ((logEv_array s _ _ _ _ _ _).trans (setGroup_array _ _)).trans (addGrown_array _ _ _ _ _)

/-- A retirement leaves the folds and the tables under way. -/
theorem retire_settle (s : State) (cause : Nat) (d : Die) (plane b : Nat) :
    (retire s cause d plane b).nand.settle = s.nand.settle ∧ (retire s cause d plane b).nand.tab = s.nand.tab := by
  have grown : ∀ u : State, (addGrown u cause d plane b).nand.settle = u.nand.settle ∧
      (addGrown u cause d plane b).nand.tab = u.nand.tab := fun u => by
    obtain ⟨l, n, c, f, e⟩ := addGrown_nand u cause d plane b
    rw [e]
    exact ⟨rfl, rfl⟩
  unfold retire
  dsimp only
  split
  · exact ⟨rfl, rfl⟩
  · split
    · simp [setGroup]
    · simp [grown, setGroup]

/-- A group that is retired stands in the table as RETIRING or as GROWN_BAD (R154). -/
theorem retire_soleRow (s : State) (cause : Nat) (d : Die) (plane b : Nat)
    (h : (groupOf s d b).role.canRetire = true) :
    ∃ r, (r = .retiring ∨ r = .grownBad) ∧ SoleRow (retire s cause d plane b) (retiredRow s cause d plane b r) := by
  rw [retire_eq s cause d plane b h]
  dsimp only
  split
  · exact ⟨.retiring, .inl rfl, setGroup_soleRow _ _ (by simp [retiredRow])⟩
  · have written := setGroup_soleRow (logEv s (dieDom d) .groupRetired d.val b cause) (retiredRow s cause d plane b .grownBad)
      (by simp [retiredRow])
    refine ⟨.grownBad, .inr rfl, written.of_groups ?_⟩
    obtain ⟨l, n, c, f, e⟩ := addGrown_nand _ cause d plane b
    rw [e]

/-- A group without live data is GROWN_BAD at once, and the grown table takes its entry (R153, R154). -/
theorem retire_bare (s : State) (cause : Nat) (d : Die) (plane b : Nat)
    (h : (groupOf s d b).role.canRetire = true) (bare : hasLive s d b = false) (room : s.nand.bbt.length < 4096) :
    SoleRow (retire s cause d plane b) (retiredRow s cause d plane b .grownBad) ∧
    (retire s cause d plane b).nand.bbt = s.nand.bbt ++ [{ cause := cause, die := d, plane := plane, block := b }] := by
  rw [retire_eq s cause d plane b h]
  simp only [bare, Bool.false_eq_true, if_false]
  have written := setGroup_soleRow (logEv s (dieDom d) .groupRetired d.val b cause) (retiredRow s cause d plane b .grownBad)
    (by simp [retiredRow])
  refine ⟨written.of_groups ?_, ?_⟩
  · obtain ⟨l, n, c, f, e⟩ := addGrown_nand _ cause d plane b
    rw [e]
  · rw [addGrown_bbt _ cause d plane b (by simpa [setGroup] using room)]
    simp [setGroup]

theorem groupOf_retiredRow {s t : State} {cause : Nat} {d : Die} {plane b : Nat} {r : Role}
    (h : SoleRow t (retiredRow s cause d plane b r)) : (groupOf t d b).role = r := by
  obtain ⟨hd, hb⟩ := groupOf_named s d b
  rw [groupOf_soleRow h hd hb]
  rfl

/-! ## The ends of programs, margin reads and erases -/

/-- The fold of a die after its word line has been programmed (R146). -/
def FoldDie.programmed (f : FoldDie) (d : Die) : FoldDie :=
  { f with wp := f.wp + 1, busy := false, taking := [], copied := f.copied ++
      f.taking.zipIdx.map (fun x => { x.1 with page := { die := d, block := f.block, page := 3 * f.wp + x.2 } }) }

/-- The word line that a die has programmed stands in its group (R146). -/
def lineProgrammed (s : State) (d : Die) (f : FoldDie) : State :=
  let s := setOp s d .idle
  setFold (setGroup s { groupOf s d f.block with role := .baseOpen, wp := f.wp + 1 }) (f.programmed d)

theorem execFoldProgramDone_pass (s : State) (d : Die) (f : FoldDie) (ho : (dieOf s d).op = .busy .fold) (hf : foldOf s d = some f) :
    exec (.foldProgramDone d .pass) s = .next (wakeStrands (nextFolds (lineProgrammed s d f))) := by
  show execFoldProgramDone d .pass s = _
  simp only [execFoldProgramDone, ho, hf]
  rfl

theorem execFoldProgramDone_fail (s : State) (d : Die) (f : FoldDie) (x : Fin 4) (ho : (dieOf s d).op = .busy .fold)
    (hf : foldOf s d = some f) : exec (.foldProgramDone d (.fail x)) s =
      .next (wakeStrands (nextFolds (dropFold (retire (setOp s d .idle) causeProg d x.val f.block) d))) := by
  show execFoldProgramDone d (.fail x) s = _
  simp only [execFoldProgramDone, ho, hf]

/-- A margin read counts in SERVE while SETTLE runs, for a word line that may be read of a fold that is not closing (R148, R157). -/
structure MarginDue (s : State) (d : Die) (f : FoldDie) : Prop where
  fold : foldOf s d = some f
  serve : s.aon.hold = .serve
  running : s.nand.settle.running = true
  line : f.read < foldReadable s f
  closing : f.closing = false

theorem execFoldMarginReadDone_due (s : State) (d : Die) (f : FoldDie) (r : FoldRead) (h : MarginDue s d f) :
    exec (.foldMarginReadDone d r) s = .next (if r.bits.any (· ≤ s.nand.profile.marginBits) then
      closeFolds (setFold s { f with read := f.read + 1 }) else nextFolds (foldMarginFailed s f r.plane.val)) := by
  show execFoldMarginReadDone d r s = _
  simp only [execFoldMarginReadDone, h.fold]
  rw [if_neg (by simp [h.serve, h.running, h.line, h.closing])]

/-- What a failed margin read does to the group at the first and at the second time (R157). -/
theorem foldMarginFailed_group (s : State) (d : Die) (f : FoldDie) (plane : Nat) (hf : foldOf s d = some f)
    (role : (groupOf s d f.block).role = .baseOpen) : let t := foldMarginFailed s f plane
    t.nand.rims = s.nand.rims ∧ t.nand.dram = s.nand.dram ∧
    ((d, f.block) ∉ s.nand.settle.marginFailed → (d, f.block) ∈ t.nand.settle.marginFailed ∧
      SoleRow t { groupOf s d f.block with role := .erasePending }) ∧
    ((d, f.block) ∈ s.nand.settle.marginFailed →
      ∃ r, (r = .retiring ∨ r = .grownBad) ∧ SoleRow t (retiredRow (dropFold s d) causeMargin d plane f.block r)) := by
  obtain rfl := foldOf_die hf
  have can : (groupOf (dropFold s f.die) f.die f.block).role.canRetire = true := by
    rw [groupOf_dropFold, role]
    rfl
  unfold foldMarginFailed
  dsimp only
  by_cases second : (f.die, f.block) ∈ s.nand.settle.marginFailed
  · have work := (dropFold_array s f.die).trans (retire_array (dropFold s f.die) causeMargin f.die plane f.block)
    rw [if_pos (List.any_eq_true.mpr ⟨_, second, decide_eq_true rfl⟩)]
    exact ⟨work.rims, work.dram, fun first => absurd second first, fun _ => retire_soleRow _ _ _ _ _ can⟩
  · rw [if_neg (by simpa using second)]
    exact ⟨rfl, rfl, fun _ => ⟨List.mem_cons_self, setGroup_soleRow _ _ (by simp)⟩, fun h => absurd h second⟩

theorem execBlockEraseDone_busy (s : State) (d : Die) (b : Nat) (r : ProgStatus) (ho : (dieOf s d).op = .busy (.erase b)) :
    exec (.blockEraseDone d b r) s = .next (wakeStrands (nextFolds (match r with
      | .pass => groupErased (setOp s d .idle) d b
      | .fail plane => retire (ringWithout (setOp s d .idle) d b) causeErase d plane.val b))) :=
  congrArg Host.Outcome.next (if_neg (not_not.mpr ho))

/-- A group that has been erased waits for the checkpoint that makes it FREE (R134, R157). -/
def awaitsCheckpoint (s : State) (d : Die) (b : Nat) : State := { s with nand := { s.nand with erased := s.nand.erased ++ [(d, b)] } }

/-- A group that is not worn and belongs to no ring waits for its checkpoint once it is erased. -/
theorem groupErased_pending (s : State) (d : Die) (b : Nat) (role : (groupOf s d b).role = .erasePending)
    (young : (groupOf s d b).erases + 1 < 10 * s.nand.profile.pslcPe) :
    groupErased s d b = awaitsCheckpoint (forgetGroup s d b) d b := by
  have row : groupOf (forgetGroup s d b) d b = groupOf s d b := rfl
  have fit : ¬ 10 * (forgetGroup s d b).nand.profile.pslcPe ≤ (groupOf s d b).erases + 1 := Nat.not_le.mpr young
  unfold groupErased
  dsimp only
  rw [row, if_neg (by simp [role]), if_neg fit]
  rfl

/-- A ring that loses a group changes, and nothing else: the rows, the grown table, the records and the live data stay. -/
theorem ringWithout_keeps (s : State) (d : Die) (b : Nat) : let t := ringWithout s d b
    t.nand.groups = s.nand.groups ∧ t.nand.bbt = s.nand.bbt ∧ t.nand.rims = s.nand.rims ∧ hasLive t d b = hasLive s d b := by
  unfold ringWithout
  dsimp only
  split_ifs <;> exact ⟨rfl, rfl, rfl, rfl⟩

/-- A read that does not decode is noted as wear and in the log, its group retires, and the restore that streams notes the granule (R155,
R167). -/
theorem execNandReadDone_fail (s : State) (p : Page) (x : Fin 4) (g q : Nat) (r : RestoreRun) (present : (dieOf s p.die).present = true)
    (run : s.rst.run = some r) (streams : r.streaming = true) : Completes (.nandReadDone p x g q .fail) s fun t =>
      t.rst.run = some { r with failed := r.failed ++ [(g, q)] } ∧ t.nand.rims = s.nand.rims ∧ t.nand.dram = s.nand.dram := by
  have read : ArrayStep s (logEv (noteWear s p.die s.nand.profile.retryN 0) (dieDom p.die) .granuleRead p.die.val g) :=
    (setDie_array s p.die _).trans (logEv_array _ _ _ _ _ _ _)
  have worn := read.trans (retire_array _ causeRead p.die x.val p.block)
  refine ⟨_, rfl, ?_⟩
  simp only [present, Bool.not_true, Bool.false_eq_true, if_false]
  rw [worn.rst, run]
  simp only [streams, if_true]
  exact ⟨trivial, worn.rims, worn.dram⟩

end Sys2Proof.Machine

open Sys2Proof Sys2Proof.Machine

/-- Settles O35: what each command does to the fold, the group or the die itself; the laws of the work on the arrays keep it over what
follows. -/
theorem settlingAndWear : Obligations.SettlingAndWear := by
  unfold Obligations.SettlingAndWear
  refine ⟨fun s ok off due => ⟨startSettle s, ?_, ?_⟩, fun s on free layers => ⟨stopSettle s, ?_, ?_⟩,
    fun d f s ho hf off hv ht => ⟨_, execFoldProgramDone_pass s d f ho hf, ?_⟩,
    fun d f x s ho hf off hv ht role => ⟨_, execFoldProgramDone_fail s d f x ho hf, ?_⟩,
    fun d f x n s hf hs on line closing more fits => ⟨_, execFoldMarginReadDone_due s d f _ ⟨hf, hs, on, line, closing⟩, ?_⟩,
    fun d f x s hf hs on line closing role => ⟨_, execFoldMarginReadDone_due s d f _ ⟨hf, hs, on, line, closing⟩, ?_⟩,
    fun d b s ho role young off hv ht => ⟨_, execBlockEraseDone_busy s d b _ ho, ?_⟩,
    fun d b x s ho role bare room => ⟨_, execBlockEraseDone_busy s d b _ ho, ?_⟩,
    fun p x g q n s present warn retire_ => ?_, fun p x g q r s present run streams => ?_⟩
  · exact congrArg Host.Outcome.next (if_pos (by simpa [ok, off] using due))
  · obtain ⟨running, aon, rims, dram⟩ := startSettle_keeps s ok
    have cfl : (startSettle s).cfl = s.cfl := (SettleWork.keeps (nextFolds_settleWork _)).cfl.trans (by simp only [logEv_frame])
    exact ⟨running, rims, dram, by rw [aon], cfl⟩
  · exact congrArg Host.Outcome.next (if_pos (by simp [on, free, layers]))
  · refine ⟨rfl, fun d => ?_, rfl, rfl, rfl, rfl⟩
    by_cases ready_ : (dieOf s d).op = .ready .fold
    · rw [if_pos ready_]
      exact (Vector.getElem_map _ _).trans (if_pos ready_)
    · rw [if_neg ready_]
      exact stopSettle_die s d ready_
  · rw [noWork_follows (lineProgrammed s d f) off hv ht]
    obtain ⟨hd, hb⟩ := groupOf_named s d f.block
    have row : groupOf (lineProgrammed s d f) d f.block = { groupOf s d f.block with role := .baseOpen, wp := f.wp + 1 } :=
      groupOf_setGroup (setOp s d .idle) _ d f.block hd hb
    have fold : foldOf (lineProgrammed s d f) d = some (f.programmed d) := foldOf_setFold _ (f.programmed d) (foldOf_die hf : f.die = d)
    have idle : (dieOf (lineProgrammed s d f) d).op = .idle := congrArg DieSt.op (dieOf_setDie s d (fun x => { x with op := .idle }))
    rw [row]
    exact ⟨⟨f.programmed d, fold, rfl, rfl, rfl, rfl, rfl, rfl⟩, idle, rfl, rfl, rfl, rfl, rfl⟩
  · obtain ⟨settle, tab⟩ := retire_settle (setOp s d .idle) causeProg d x.val f.block
    have work := (setOp_array s d .idle).trans (retire_array (setOp s d .idle) causeProg d x.val f.block)
    have can : (groupOf (setOp s d .idle) d f.block).role.canRetire = true := by
      rw [groupOf_setOp, role]
      rfl
    have map : (retire (setOp s d .idle) causeProg d x.val f.block).map = s.map := by simp only [retire_frame, setOp_frame]
    obtain ⟨r, out, row⟩ := retire_soleRow (setOp s d .idle) causeProg d x.val f.block can
    rw [noWork_follows (dropFold _ d) ((congrArg Settle.running settle).trans off) ((congrArg MapSt.save map).trans hv) (tab.trans ht)]
    exact ⟨foldOf_dropFold _ d, (groupOf_retiredRow row).symm ▸ out, work.rims, work.aon⟩
  · have work := (setFold_array s { f with read := f.read + 1 }).trans (closeFolds_array _)
    rw [if_pos (by simpa using fits)]
    refine ⟨foldOf_closeFolds _ (foldOf_setFold s { f with read := f.read + 1 } (foldOf_die hf : f.die = d)) ?_, work.rims, work.aon⟩
    simp [FoldDie.full, setFold, more]
  · obtain ⟨rims, dram, first, second⟩ := foldMarginFailed_group s d f x.val hf role
    have after := SettleWork.keeps (nextFolds_settleWork (foldMarginFailed s f x.val))
    refine ⟨after.rims.trans rims, after.dram.trans dram, fun new => ?_, fun old => ?_⟩
    · obtain ⟨noted, row⟩ := first new
      obtain ⟨hd, hb⟩ := groupOf_named s d f.block
      have pending := groupOf_soleRow (after.rows _ row) hd hb
      exact ⟨after.marginFailed ▸ noted, congrArg Group.role pending⟩
    · obtain ⟨r, out, row⟩ := second old
      exact (groupOf_retiredRow (after.rows _ row)).symm ▸ out
  · dsimp only
    rw [groupErased_pending (setOp s d .idle) d b role young,
      noWork_follows (awaitsCheckpoint (forgetGroup (setOp s d .idle) d b) d b) off hv ht]
    exact ⟨rfl, congrArg DieSt.op (dieOf_setDie s d (fun x => { x with op := .idle })), rfl, rfl, rfl, rfl⟩
  · obtain ⟨groups, table, rims, live⟩ := ringWithout_keeps (setOp s d .idle) d b
    have can : (groupOf (ringWithout (setOp s d .idle) d b) d b).role.canRetire = true := by
      rw [groupOf_congr groups, groupOf_setOp, role]
      rfl
    obtain ⟨row, bbt⟩ := retire_bare (ringWithout (setOp s d .idle) d b) causeErase d x.val b can (live.trans bare)
      ((congrArg List.length table).trans_lt room)
    have after := SettleWork.keeps ((nextFolds_settleWork (retire (ringWithout (setOp s d .idle) d b) causeErase d x.val b)).trans
      (wakeStrands_settleWork _))
    exact ⟨groupOf_retiredRow (after.rows _ row), after.bbt.trans (bbt.trans (congrArg (· ++ _) table)),
      after.rims.trans ((retire_array _ _ _ _ _).rims.trans rims)⟩
  · show execNandReadDone p x g q (.hard n) s = _
    simp only [execNandReadDone, present, Nat.not_lt.mpr warn, Nat.not_lt.mpr retire_, Bool.not_true, Bool.false_eq_true, if_false]
    rfl
  · exact execNandReadDone_fail s p x g q r present run streams

end

section
/-! LAW. Tenants' words, crypto-erases and their steps (R181, R189, R190, R192, R194, R195). -/

namespace Sys2Proof.Machine

/-! ## The fields of a tenant's word (R181) -/

/-- A tenant's word as a number: its fields at their places. -/
theorem makeAttr_toNat (gen cls : Nat) (vol dis : Bool) (slot : Nat) : (makeAttr gen cls vol dis slot).toNat =
    gen % 65536 * 65536 + cls % 8 * 16 + (if vol then 8 else 0) + (if dis then 4 else 0) + slot % 4 := by
  rw [makeAttr, BitVec.toNat_ofNat]
  refine Nat.mod_eq_of_lt ?_
  split <;> split <;> omega

@[simp] theorem attrGen_makeAttr (gen cls : Nat) (vol dis : Bool) (slot : Nat) : attrGen (makeAttr gen cls vol dis slot) = gen % 65536 := by
  rw [attrGen, BitVec.extractLsb'_toNat, makeAttr_toNat, Nat.shiftRight_eq_div_pow]
  split <;> split <;> omega

@[simp] theorem attrClass_makeAttr (gen cls : Nat) (vol dis : Bool) (slot : Nat) : attrClass (makeAttr gen cls vol dis slot) = cls % 8 := by
  rw [attrClass, BitVec.extractLsb'_toNat, makeAttr_toNat, Nat.shiftRight_eq_div_pow]
  split <;> split <;> omega

@[simp] theorem attrSlot_makeAttr (gen cls : Nat) (vol dis : Bool) (slot : Nat) : attrSlot (makeAttr gen cls vol dis slot) = slot % 4 := by
  rw [attrSlot, BitVec.extractLsb'_toNat, makeAttr_toNat, Nat.shiftRight_eq_div_pow]
  split <;> split <;> omega

@[simp] theorem attrVolatile_makeAttr (gen cls : Nat) (vol dis : Bool) (slot : Nat) : attrVolatile (makeAttr gen cls vol dis slot) = vol := by
  rw [attrVolatile, BitVec.getLsbD, makeAttr_toNat, Nat.testBit_eq_decide_div_mod_eq]
  cases vol <;> cases dis <;> simp <;> omega

@[simp] theorem attrDisabled_makeAttr (gen cls : Nat) (vol dis : Bool) (slot : Nat) : attrDisabled (makeAttr gen cls vol dis slot) = dis := by
  rw [attrDisabled, BitVec.getLsbD, makeAttr_toNat, Nat.testBit_eq_decide_div_mod_eq]
  cases vol <;> cases dis <;> simp <;> omega

theorem attrGen_lt (a : Word) : attrGen a < 65536 := (a.extractLsb' 16 16).isLt
theorem attrClass_lt (a : Word) : attrClass a < 8 := (a.extractLsb' 4 3).isLt
theorem attrSlot_lt (a : Word) : attrSlot a < 4 := (a.extractLsb' 0 2).isLt

/-- A tenant's word stands in the tenants' record alone. -/
theorem attrOf_congr {s t : State} (h : t.ten = s.ten) (x : Tenant) : attrOf t x = attrOf s x := by
  rw [attrOf, h, attrOf]

/-! ## Erases under way -/

theorem jobOf_congr {s t : State} (h : t.ten.jobs = s.ten.jobs) (x : Tenant) : jobOf t x = jobOf s x := by
  rw [jobOf, h, jobOf]

theorem jobOf_names {s : State} {x : Tenant} {j : EraseJob} (h : jobOf s x = some j) : j.t = x := by
  simpa using List.find?_some (show s.ten.jobs.find? (fun i => decide (i.t = x)) = some j from h)

/-- The step that an erase has taken is what its tenant's erase shows. -/
theorem jobOf_setJob (s : State) (j : EraseJob) {x : Tenant} (h : j.t = x) : jobOf (setJob s j) x = some j := by
  subst h
  have gone : (s.ten.jobs.filter (fun i => decide (i.t ≠ j.t))).find? (fun i => decide (i.t = j.t)) = none := by simp [List.find?_eq_none]
  rw [jobOf, setJob, List.find?_append, gone]
  simp

/-- Of an unanswered erase the outcome is still to come. -/
theorem eraseRuns_of_job {s : State} {x : Tenant} {j : EraseJob} (h : jobOf s x = some j) (hp : j.phase ≠ .proof) : eraseRuns s x = true := by
  rw [eraseRuns, h]
  exact decide_eq_true hp

theorem mem_insertFin {m : Nat} (n : Fin m) (l : List (Fin m)) : n ∈ insertFin n l := by
  induction l with
  | nil => exact List.mem_singleton_self n
  | cons a t ih =>
    unfold insertFin
    split_ifs with before same
    · exact List.mem_cons_self
    · exact same ▸ List.mem_cons_self
    · exact List.mem_cons_of_mem a ih

theorem look_put {α β : Type} [DecidableEq α] (k : α) (b : β) (l : List (α × β)) : look k (put k b l) = some b := by
  induction l with
  | nil => exact if_pos rfl
  | cons p t ih =>
    obtain ⟨a, c⟩ := p
    by_cases h : a = k
    · simp [put, look, h]
    · simpa [put, look, h] using ih

/-! ## KEY_ZEROIZE (R189, R194, R195) -/

/-- The XTS slot is empty and reads ERASED, and the erase waits for the key store. -/
def slotEmptied (s : State) (x : Tenant) (j : EraseJob) (failed : Bool) : State :=
  setJob { setSlot s x 3 with ten := { (setSlot s x 3).ten with loaded := s.ten.loaded.filter (fun y => y ≠ x) } }
    { j with phase := .keyStore, zeroFail := failed }

/-- A slot whose read-back is not zero is unusable, and its tenant DISABLED (R195). -/
def slotDistrusted (s : State) (x : Tenant) : State :=
  let a := attrOf s x
  let t := setAttr s x (makeAttr (attrGen a) (attrClass a) (attrVolatile a) true 3)
  { t with ten := { t.ten with unusable := insertFin x t.ten.unusable } }

theorem slotEmptied_keeps (s : State) (x : Tenant) (j : EraseJob) (failed : Bool) (h : j.t = x) :
    attrSlot (attrOf (slotEmptied s x j failed) x) = 3 ∧ x ∉ (slotEmptied s x j failed).ten.loaded ∧
    jobOf (slotEmptied s x j failed) x = some { j with phase := .keyStore, zeroFail := failed } ∧
    (∀ y, y ≠ x → attrOf (slotEmptied s x j failed) y = attrOf s y) := by
  have slot : ∀ y, attrOf (slotEmptied s x j failed) y = attrOf (setSlot s x 3) y := fun _ => rfl
  refine ⟨?_, ?_, jobOf_setJob _ _ h, fun y other => ?_⟩
  · rw [slot, setSlot, attrOf_setAttr, attrSlot_makeAttr]
  · simp [slotEmptied, setJob]
  · rw [slot, setSlot, attrOf_setAttr_other _ _ _ _ other]

theorem slotDistrusted_keeps (s : State) (x : Tenant) :
    attrSlot (attrOf (slotDistrusted s x) x) = 3 ∧ attrDisabled (attrOf (slotDistrusted s x) x) = true ∧
    x ∈ (slotDistrusted s x).ten.unusable ∧ (∀ y, y ≠ x → attrOf (slotDistrusted s x) y = attrOf s y) := by
  have word : ∀ y, attrOf (slotDistrusted s x) y =
      attrOf (setAttr s x (makeAttr (attrGen (attrOf s x)) (attrClass (attrOf s x)) (attrVolatile (attrOf s x)) true 3)) y := fun _ => rfl
  refine ⟨?_, ?_, mem_insertFin x _, fun y other => ?_⟩
  · rw [word, attrOf_setAttr, attrSlot_makeAttr]
  · rw [word, attrOf_setAttr, attrDisabled_makeAttr]
  · rw [word, attrOf_setAttr_other _ _ _ _ other]

theorem keyZeroize_waits (s : State) (x : Tenant) (j : EraseJob) (b : Bool) (h : jobOf s x = some j) (hf : keyInFlight s x = true) :
    exec (.keyZeroize x b) s = .next s := by
  show execKeyZeroize x b s = _
  simp [execKeyZeroize, h, hf]

theorem keyZeroize_due (s : State) (x : Tenant) (j : EraseJob) (h : jobOf s x = some j) (hp : j.phase = .zeroize)
    (hf : keyInFlight s x = false) :
    exec (.keyZeroize x true) s = .next (recomputeCover (slotEmptied s x j false)) ∧
    exec (.keyZeroize x false) s = .next (recomputeCover (logEv (slotDistrusted (slotEmptied s x j true) x) 11 .zeroizeFail x.val)) := by
  constructor
  · show execKeyZeroize x true s = _
    simp only [execKeyZeroize, h, hp, hf]
    rfl
  · show execKeyZeroize x false s = _
    simp only [execKeyZeroize, h, hp, hf]
    rfl

/-! ## KEY_STORE_WRITE_DONE and OLD_COPY_ERASE_DONE (R189, R190, R192) -/

/-- The new copy of the key store lacks the blob and carries the erase-list bit. -/
theorem keyStoreWriteDone_keeps (s : State) (x : Tenant) (j : EraseJob) (h : jobOf s x = some j) (hp : j.phase = .keyStore) :
    Completes (.keyStoreWriteDone x) s fun t =>
      t.ten.blobs[x.val] = none ∧ (∀ y : Tenant, y ≠ x → t.ten.blobs[y.val] = s.ten.blobs[y.val]) ∧ x ∈ t.ten.eraseList ∧
      x ∉ t.aon.erases ∧ jobOf t x = some { j with phase := .oldCopy } ∧ t.ten.attr = s.ten.attr ∧ t.cfl = s.cfl ∧ t.nand = s.nand := by
  have named : j.t = x := jobOf_names h
  refine ⟨_, rfl, ?_⟩
  simp only [h, hp, ne_eq, not_true, if_false]
  refine ⟨?_, fun y other => ?_, mem_insertFin x _, ?_, jobOf_setJob _ _ named, ?_, ?_, ?_⟩
  · exact upd_self _ _ _
  · simp only [setJob, upd_other _ _ _ _ other, setArea_frame, writeArea_frame]
  · simp [setJob]
  all_goals simp only [setJob, setArea_frame, writeArea_frame]

/-- A verified erase of the old copy: the outcome stands, and the proof is due. -/
def oldCopyVerified (s : State) (x : Tenant) (j : EraseJob) : State :=
  let t := setArea s .keys { areaOf s .keys with otherErased := true }
  setJob { t with ten := { t.ten with oldDirty := false, kdestroy := put x true t.ten.kdestroy } } { j with phase := .proof }

theorem oldCopyVerified_keeps (s : State) (x : Tenant) (j : EraseJob) (h : j.t = x) :
    look x (oldCopyVerified s x j).ten.kdestroy = some true ∧ jobOf (oldCopyVerified s x j) x = some { j with phase := .proof } ∧
    (oldCopyVerified s x j).ten.blobs = s.ten.blobs ∧ (oldCopyVerified s x j).ten.attr = s.ten.attr ∧ (oldCopyVerified s x j).cfl = s.cfl := by
  refine ⟨look_put x true _, jobOf_setJob _ _ h, ?_, ?_, ?_⟩ <;> simp only [oldCopyVerified, setJob, setArea_frame]

theorem answerErase_frame (s : State) (j : EraseJob) (b : Bool) : (answerErase s j b).ten = s.ten ∧ (answerErase s j b).cfl = s.cfl := by
  simp only [answerErase, answerBusy_frame, and_self]

/-- The answer and the start of the proof leave what the verified erase has noted. -/
theorem oldCopyEraseDone_verified (s : State) (x : Tenant) (j : EraseJob) (h : jobOf s x = some j) (hp : j.phase = .oldCopy)
    (hn : j.proven = false) : Completes (.oldCopyEraseDone x true) s fun t => t.ten = (oldCopyVerified s x j).ten ∧ t.cfl = s.cfl := by
  have done : exec (.oldCopyEraseDone x true) s = .next (startProof (answerErase (oldCopyVerified s x j) j true)) := by
    show execOldCopyEraseDone x true s = _
    simp only [execOldCopyEraseDone, h, hp, ne_eq, not_true, if_false, Bool.not_true, Bool.false_and, Bool.false_eq_true]
    rw [if_neg (by simp [hn])]
    rfl
  have proof := startProof_array (answerErase (oldCopyVerified s x j) j true)
  obtain ⟨ten, cfl⟩ := answerErase_frame (oldCopyVerified s x j) j true
  exact ⟨_, done, proof.ten.trans ten, proof.cfl.trans (cfl.trans (oldCopyVerified_keeps s x j (jobOf_names h)).2.2.2.2)⟩

end Sys2Proof.Machine

open Sys2Proof Sys2Proof.Machine

/-- Settles O21: each command does its phase's step of the tenant's erase, and the coverage, the answer and the proof that follow leave the
tenants' record. -/
theorem cryptoEraseStepByStep : Obligations.CryptoEraseStepByStep := by
  unfold Obligations.CryptoEraseStepByStep
  refine ⟨fun x j b s h _ hf => keyZeroize_waits s x j b h hf, fun x j s h hp hf => ⟨_, (keyZeroize_due s x j h hp hf).1, ?_⟩,
    fun x j s h hp hf => ⟨_, (keyZeroize_due s x j h hp hf).2, ?_⟩, fun x j s h hp => keyStoreWriteDone_keeps s x j h hp,
    fun x j s h hp hn => ?_, fun x j s h hp ht => ?_⟩
  · obtain ⟨slot, out, job, others⟩ := slotEmptied_keeps s x j false (jobOf_names h)
    have ten : (recomputeCover (slotEmptied s x j false)).ten = (slotEmptied s x j false).ten := by simp only [recomputeCover_frame]
    simp only [attrOf_congr ten, jobOf_congr (congrArg Tenants.jobs ten), ten, slot, job, recomputeCover_frame, true_and]
    exact ⟨out, others, rfl, rfl, rfl, rfl⟩
  · obtain ⟨-, -, job, others⟩ := slotEmptied_keeps s x j true (jobOf_names h)
    obtain ⟨slot, disabled, unusable, stay⟩ := slotDistrusted_keeps (slotEmptied s x j true) x
    have ten : (recomputeCover (logEv (slotDistrusted (slotEmptied s x j true) x) 11 .zeroizeFail x.val)).ten =
        (slotDistrusted (slotEmptied s x j true) x).ten := by simp only [recomputeCover_frame, logEv_frame]
    simp only [attrOf_congr ten, jobOf_congr (congrArg Tenants.jobs ten), ten, slot, disabled, recomputeCover_frame, logEv_frame, true_and]
    exact ⟨unusable, job, fun y other => (stay y other).trans (others y other), rfl⟩
  · obtain ⟨t, done, ten, cfl⟩ := oldCopyEraseDone_verified s x j h hp hn
    obtain ⟨outcome, job, blobs, attr, -⟩ := oldCopyVerified_keeps s x j (jobOf_names h)
    rw [← ten] at outcome blobs attr
    exact ⟨t, done, outcome, ⟨_, (jobOf_congr (congrArg Tenants.jobs ten) x).trans job, rfl⟩, blobs, attr, cfl⟩
  · show execOldCopyEraseDone x false s = _
    simp [execOldCopyEraseDone, h, hp, ht]

end

section
/-! LAW. The TENANT verbs on their lines: staged changes, the commit, and the class, policy and disabled bit of one tenant (R178, R181-R183, R310, R311). -/

namespace Sys2Proof.Machine

@[simp] theorem tenantOf_val (x : Tenant) : tenantOf x.val = x := Fin.ext (Nat.mod_eq_of_lt x.isLt)

/-- Work that leaves its session's wait goes on under it (R300). -/
theorem workOn_waits {s : State} {k : Sess} {b : Busy} {f : State → State} (h : (getSes (f (waitFor s k b)) k).busy = some b) :
    workOn s k b f = (f (waitFor s k b), .wait b) := by
  unfold workOn
  simp only [h]

/-! ## Staged changes (R310) -/

/-- A session with one more staged change. -/
def Ses.staging (q : Ses) (e : DWord) (isAdd : Bool) : Ses :=
  if isAdd then { q with adds := q.adds ++ [e] } else { q with dels := q.dels ++ [e] }

theorem stageEntry_new (s : State) (k : Sess) (e : DWord) (isAdd : Bool) (h : stagedAlready s k e isAdd = false) :
    stageEntry s k e isAdd = setSes s k (fun q => q.staging e isAdd) := by
  have new : (if isAdd then (if (getSes s k).adds.any (· = e) then getSes s k else { getSes s k with adds := (getSes s k).adds ++ [e] })
      else if (getSes s k).dels.any (· = e) then getSes s k else { getSes s k with dels := (getSes s k).dels ++ [e] }) =
      (getSes s k).staging e isAdd := by
    cases isAdd <;> exact if_neg (Bool.eq_false_iff.mp h)
  unfold stageEntry setSes
  rw [upd_congr s.mg.ses k _ (fun q => q.staging e isAdd) new]

theorem stagedChanges_staging (s : State) (k : Sess) (e : DWord) (isAdd : Bool) :
    stagedChanges (setSes s k (fun q => q.staging e isAdd)) k = stagedChanges s k + 1 := by
  rw [stagedChanges, stagedChanges, getSes_setSes]
  cases isAdd
  · exact congrArg _ List.length_append
  · simp only [Ses.staging, if_true, List.length_append, List.length_singleton]
    omega

/-- `t` stands with `s` in what the session `k` has staged and in the committed map. -/
structure SameStaged (s t : State) (k : Sess) : Prop where
  adds : (getSes t k).adds = (getSes s k).adds
  dels : (getSes t k).dels = (getSes s k).dels
  map : t.ten.map = s.ten.map

theorem lineStart_sameStaged (s : State) (k : Sess) : SameStaged s (lineStart s k) k :=
  ⟨by rw [getSes_lineStart], by rw [getSes_lineStart], rfl⟩

theorem waitFor_sameStaged (s : State) (k : Sess) (b : Busy) : SameStaged s (waitFor (lineStart s k) k b) k := by
  refine ⟨?_, ?_, rfl⟩ <;> rw [waitFor, getSes_setSes, getSes_lineStart]

section
variable {s t : State} {k : Sess} (h : SameStaged s t k)
include h

theorem SameStaged.changes : stagedChanges t k = stagedChanges s k := by rw [stagedChanges, h.adds, h.dels, stagedChanges]
theorem SameStaged.newMap : newMap t k = newMap s k := by rw [Machine.newMap, h.adds, h.dels, h.map, Machine.newMap]
theorem SameStaged.unmatched : delUnmatched t k = delUnmatched s k := by rw [delUnmatched, h.dels, h.map, delUnmatched]

end

/-- RANGE ADD and RANGE DEL of a change that is not staged yet stage it. -/
theorem rangeVerb_runs (s : State) (k : Sess) (n : Nat) (r : RangeArg) (isAdd : Bool) (h : mayRun s k .keep [.serve, .fault] = true)
    (hi : s.aon.img ≠ .pending) (hr : rangeBad n r = false) (hc : stagedChanges s k < 64)
    (hs : stagedAlready s k (rangeEntry n r) isAdd = false) :
    rangeVerb k n r isAdd (lineStart s k) =
      (setSes (setSes s k (fun q => q.staging (rangeEntry n r) isAdd)) k (fun q => { q with curLseq := nextLseq (getSes s k).curLseq }),
        .line (OK [("staged", .nat (stagedChanges s k + 1))])) := by
  have same := lineStart_sameStaged s k
  have new : stagedAlready (lineStart s k) k (rangeEntry n r) isAdd = false := by
    rw [stagedAlready, same.adds, same.dels]
    exact hs
  have commute : setSes (lineStart s k) k (fun q => q.staging (rangeEntry n r) isAdd) =
      setSes (setSes s k (fun q => q.staging (rangeEntry n r) isAdd)) k (fun q => { q with curLseq := nextLseq (getSes s k).curLseq }) := by
    rw [lineStart, setSes_setSes, setSes_setSes]
    cases isAdd <;> rfl
  rw [rangeVerb, verb_onLine k .keep _ [.serve, .fault] _ _ s h (by decide)
    (by simp [firstOf, hi, hr, same.changes, Nat.not_le.mpr hc])]
  simp only [stageEntry_new _ k _ isAdd new, stagedChanges_staging, same.changes]
  rw [commute]
  rfl

/-! ## TENANT COMMIT (R178, R311) -/

/-- The changes of a session pass every check of a commit. -/
structure CommitPasses (s : State) (k : Sess) : Prop where
  idle : s.map.reload = none
  img : s.aon.img ≠ .pending
  unlocked : cfgGuard s k = false
  inside : (getSes s k).adds.any (entryOutside s.map.geom) = false
  sub : (getSes s k).adds.any (fun e => decide (enSub e = 3)) = false
  aligned : (getSes s k).adds.any (entryUnaligned s.map.geom) = false
  apart : sharing s.map.geom (newMap s k) = false
  room : (newMap s k).length ≤ 4096
  matched : delUnmatched s k = false

theorem tenantCommitVerb_runs (s : State) (k : Sess) (h : mayRun s k .keep [.serve, .fault] = true) (ok : CommitPasses s k) :
    tenantCommitVerb k (lineStart s k) =
      if stagedChanges s k = 0 then okAns (lineStart s k) [("changed", .nat 0), ("entries", .nat s.ten.map.length)]
      else workOn (lineStart s k) k .commit (fun u =>
        writeArea { u with map := { u.map with reload := some { map := newMap u k, session := some k } } } .ten) := by
  have same := lineStart_sameStaged s k
  obtain ⟨idle, img, unlocked, inside, sub, aligned, apart, room, matched⟩ := ok
  rw [tenantCommitVerb, verb_onLine k .keep _ [.serve, .fault] _ _ s h (by decide) ((firstOf_eq_none _).mpr ?_), same.changes]
  · rfl
  · simp only [lineStart_frame, same.adds, same.newMap, same.unmatched, cfgGuard_lineStart, idle, img, unlocked, inside, sub, aligned, apart,
      matched, Nat.not_lt.mpr room, Bool.and_false]
    rfl

/-- A commit's changes go to the reload, and its session waits. -/
theorem tenantCommit_changes (s : State) (k : Sess) (h : mayRun s k .keep [.serve, .fault] = true) (ok : CommitPasses s k)
    (hc : stagedChanges s k ≠ 0) : Completes (.tenantCommit k) s fun t =>
      t.map = { s.map with reload := some { map := newMap s k, session := some k } } ∧ (getSes t k).busy = some .commit ∧ t.ten = s.ten ∧
      t.aon = s.aon ∧ t.nand = s.nand ∧ t.cfl = s.cfl ∧ t.shb = s.shb := by
  have run := tenantCommitVerb_runs s k h ok
  rw [if_neg hc, workOn_waits ?_] at run
  · refine ⟨_, congrArg Host.Outcome.next (onVerb_waits (.tenantCommit k) false (mayRun_ready h).1 run), ?_⟩
    simp only [getSes_setSes, setSes_frame, writeArea_frame, (waitFor_sameStaged s k .commit).newMap, waitFor_frame, lineStart_frame, and_self]
  · rw [getSes_congr (s := waitFor (lineStart s k) k .commit) (by simp only [writeArea_frame]), waitFor, getSes_setSes]

/-! ## Class, policy and disabled bit of one tenant (R181-R183) -/

/-- `t` is `s` with the class, the policy and the disabled bit of the tenant `x` set: its slot and generation, every other tenant's word, the
map and the NAND stay. -/
structure AttrSet (s t : State) (x : Tenant) (cls : Nat) (vol dis : Bool) : Prop where
  cls : attrClass (attrOf t x) = cls
  vol : attrVolatile (attrOf t x) = vol
  dis : attrDisabled (attrOf t x) = dis
  slot : attrSlot (attrOf t x) = attrSlot (attrOf s x)
  gen : attrGen (attrOf t x) = attrGen (attrOf s x)
  others : ∀ y, y ≠ x → attrOf t y = attrOf s y
  map : t.ten.map = s.ten.map
  nand : t.nand = s.nand

theorem AttrSet.refl (s : State) (x : Tenant) :
    AttrSet s s x (attrClass (attrOf s x)) (attrVolatile (attrOf s x)) (attrDisabled (attrOf s x)) :=
  ⟨rfl, rfl, rfl, rfl, rfl, fun _ _ => rfl, rfl, rfl⟩

/-- Of the state before only the tenants' record and the NAND count. -/
theorem AttrSet.before {s s' t : State} {x : Tenant} {cls : Nat} {vol dis : Bool} (h : AttrSet s' t x cls vol dis) (ten : s'.ten = s.ten)
    (nand : s'.nand = s.nand) : AttrSet s t x cls vol dis := by
  have word := attrOf_congr ten
  exact { h with
    slot := h.slot.trans (by rw [word]), gen := h.gen.trans (by rw [word]), others := fun y other => (h.others y other).trans (word y)
    map := h.map.trans (by rw [ten]), nand := h.nand.trans nand }

/-- Of the state after likewise. -/
theorem AttrSet.after {s t t' : State} {x : Tenant} {cls : Nat} {vol dis : Bool} (h : AttrSet s t' x cls vol dis) (ten : t.ten = t'.ten)
    (nand : t.nand = t'.nand) : AttrSet s t x cls vol dis := by
  have word := attrOf_congr ten
  exact ⟨by rw [word, h.cls], by rw [word, h.vol], by rw [word, h.dis], by rw [word, h.slot], by rw [word, h.gen],
    fun y other => (word y).trans (h.others y other), by rw [ten, h.map], nand.trans h.nand⟩

theorem changeAttr_set (s : State) (x : Tenant) (cls : Nat) (vol dis : Bool) (h : cls < 8) :
    AttrSet s (changeAttr s x cls vol dis) x cls vol dis := by
  have set : AttrSet s (setAttr s x (makeAttr (attrGen (attrOf s x)) cls vol dis (attrSlot (attrOf s x)))) x cls vol dis := by
    refine ⟨?_, ?_, ?_, ?_, ?_, fun y other => attrOf_setAttr_other _ _ _ _ other, rfl, rfl⟩ <;> rw [attrOf_setAttr]
    · rw [attrClass_makeAttr, Nat.mod_eq_of_lt h]
    · rw [attrVolatile_makeAttr]
    · rw [attrDisabled_makeAttr]
    · rw [attrSlot_makeAttr, Nat.mod_eq_of_lt (attrSlot_lt _)]
    · rw [attrGen_makeAttr, Nat.mod_eq_of_lt (attrGen_lt _)]
  refine set.after ?_ ?_ <;> simp only [changeAttr, recomputeCover_frame, writeArea_frame]

theorem dirtyTenant_frame (s : State) (x : Tenant) : (dirtyTenant s x).ten = s.ten ∧ (dirtyTenant s x).nand = s.nand := by
  simp only [dirtyTenant, setDirty_frame, and_self]

theorem tenantSetVerb_runs (s : State) (k : Sess) (x : Tenant) (c p : Option Nat) (h : mayRun s k .keep [.serve, .fault] = true)
    (hc : outOf 0 7 c = false) (hp : outOf 0 1 p = false) (hg : cfgGuard s k = false) :
    ∃ t, tenantSetVerb k x.val c p (lineStart s k) = attrAnswer t x ∧ AttrSet s t x (c.getD (attrClass (attrOf s x)))
      ((p.map (fun n => decide (n = 1))).getD (attrVolatile (attrOf s x))) (attrDisabled (attrOf s x)) := by
  have class_ : c.getD (attrClass (attrOf s x)) < 8 := by
    cases c with
    | none => exact attrClass_lt _
    | some n =>
      simp only [outOf, Bool.or_eq_false_iff, decide_eq_false_iff_not] at hc
      simp only [Option.getD_some]
      omega
  have word : attrOf (lineStart s k) x = attrOf s x := rfl
  rw [tenantSetVerb, verb_onLine k .keep _ [.serve, .fault] _ _ s h (by decide)
    (by simp [firstOf, hc, hp, cfgGuard_lineStart, hg, Nat.le_of_lt_succ x.isLt])]
  simp only [tenantOf_val, word]
  refine ⟨_, rfl, ?_⟩
  split
  · obtain ⟨ten, nand⟩ := dirtyTenant_frame (lineStart s k) x
    exact (changeAttr_set _ x _ _ _ class_).before ten nand
  · exact (changeAttr_set _ x _ _ _ class_).before rfl rfl

theorem tenantEnableVerb_runs (s : State) (k : Sess) (x : Tenant) (h : mayRun s k .keep [.serve, .fault] = true) (hg : cfgGuard s k = false)
    (hu : s.ten.unusable.any (fun y => decide (y = x)) = false) :
    ∃ t, tenantEnableVerb k x.val (lineStart s k) = attrAnswer t x ∧
      AttrSet s t x (attrClass (attrOf s x)) (attrVolatile (attrOf s x)) false := by
  have word : attrOf (lineStart s k) x = attrOf s x := rfl
  rw [tenantEnableVerb, verb_onLine k .keep _ [.serve, .fault] _ _ s h (by decide)
    ((firstOf_eq_none _).mpr (by
      simp only [tenantOf_val, lineStart_frame, cfgGuard_lineStart, hg, hu, Nat.not_lt.mpr (Nat.le_of_lt_succ x.isLt)]
      rfl))]
  simp only [tenantOf_val, word]
  refine ⟨_, rfl, ?_⟩
  split
  · obtain ⟨ten, nand⟩ := dirtyTenant_frame (lineStart s k) x
    exact (changeAttr_set _ x _ _ _ (attrClass_lt _)).before ten nand
  · next enabled => exact Bool.eq_false_iff.mpr enabled ▸ (AttrSet.refl (lineStart s k) x).before rfl rfl

theorem tenantDisableVerb_runs (s : State) (k : Sess) (x : Tenant) (h : mayRun s k .keep [.serve, .park, .save, .fault] = true)
    (hg : cfgGuard s k = false) :
    ∃ t, tenantDisableVerb k x.val (lineStart s k) = attrAnswer t x ∧
      AttrSet s t x (attrClass (attrOf s x)) (attrVolatile (attrOf s x)) true := by
  have word : attrOf (lineStart s k) x = attrOf s x := rfl
  rw [tenantDisableVerb, verb_onLine k .keep _ [.serve, .park, .save, .fault] _ _ s h (by decide)
    (by simp [firstOf, cfgGuard_lineStart, hg, Nat.le_of_lt_succ x.isLt])]
  simp only [tenantOf_val, word]
  refine ⟨_, rfl, ?_⟩
  split
  · next disabled => exact disabled ▸ (AttrSet.refl (lineStart s k) x).before rfl rfl
  · exact (changeAttr_set _ x _ _ _ (attrClass_lt _)).before rfl rfl

/-- The answer with the tenant's word leaves what the verb has set. -/
theorem attrAnswer_onLine {s t : State} {k : Sess} {x : Tenant} {f : Verb} {cls : Nat} {vol dis : Bool} (i : Instr) (h : lineReady s k = true)
    (hf : f (lineStart s k) = attrAnswer t x) (set : AttrSet s t x cls vol dis) :
    AttrSet s (onVerb s k i false f) x cls vol dis ∧
    Said (onVerb s k i false f) k (OK [("tenant", .nat x.val), ("attr", .hex 8 (attrOf (onVerb s k i false f) x).toNat)]) := by
  rw [onVerb_line i false h hf]
  have ten : (respond t k (OK [("tenant", .nat x.val), ("attr", .hex 8 (attrOf t x).toNat)])).ten = t.ten := by simp only [respond_frame]
  exact ⟨set.after ten (by simp only [respond_frame]), (attrOf_congr ten x).symm ▸ respond_said t k _⟩

end Sys2Proof.Machine

open Sys2Proof Sys2Proof.Machine

/-- Settles O52: each verb that may run stages, commits or sets what its line says, with its answer. -/
theorem tenantVerbs : Obligations.TenantVerbs := by
  unfold Obligations.TenantVerbs
  refine ⟨fun k n r s h hi hr hc => ⟨fun new => ⟨_, rfl, ?_⟩, fun new => ⟨_, rfl, ?_⟩⟩, fun k s h => ⟨_, rfl, ?_⟩,
    fun k s h idle img unlocked inside sub aligned apart room matched =>
      have ok : CommitPasses s k := ⟨idle, img, unlocked, inside, sub, aligned, apart, room, matched⟩
      ⟨tenantCommit_changes s k h ok, fun none_ => ⟨_, rfl, ?_⟩⟩,
    fun k x c p s h hc hp hg => ⟨_, rfl, ?_⟩, fun k x s h hg hu => ⟨_, rfl, ?_⟩, fun k x s h hg => ⟨_, rfl, ?_⟩⟩
  · exact onVerb_answers _ _ (mayRun_ready h).1 (rangeVerb_runs s k n r true h hi hr hc new)
  · exact onVerb_answers _ _ (mayRun_ready h).1 (rangeVerb_runs s k n r false h hi hr hc new)
  · refine onVerb_answers _ _ (mayRun_ready h).1 ?_
    rw [tenantDiscardVerb, verb_onLine k .keep _ [.serve, .fault] _ _ s h (by decide) rfl, lineStart, setSes_setSes, setSes_setSes]
    rfl
  · refine onVerb_answers _ _ (mayRun_ready h).1 ?_
    rw [tenantCommitVerb_runs s k h ok, if_pos none_]
    rfl
  · obtain ⟨t, run, set⟩ := tenantSetVerb_runs s k x c p h hc hp hg
    obtain ⟨⟨cls, vol, dis, slot, gen, others, map, nand⟩, said⟩ := attrAnswer_onLine (.tenantSet k x.val c p) (mayRun_ready h).1 run set
    refine ⟨cls, ?_, dis, slot, gen, others, map, nand, said⟩
    refine Bool.eq_iff_iff.mp vol |>.trans ?_
    cases p <;> simp
  · obtain ⟨t, run, set⟩ := tenantEnableVerb_runs s k x h hg hu
    obtain ⟨⟨cls, -, dis, slot, gen, others, map, nand⟩, -⟩ := attrAnswer_onLine (.tenantEnable k x.val) (mayRun_ready h).1 run set
    exact ⟨dis, cls, slot, gen, others, map, nand⟩
  · obtain ⟨t, run, set⟩ := tenantDisableVerb_runs s k x h hg
    obtain ⟨⟨cls, -, dis, slot, gen, others, map, nand⟩, -⟩ := attrAnswer_onLine (.tenantDisable k x.val) (mayRun_ready h).1 run set
    exact ⟨dis, cls, slot, gen, others, map, nand⟩

end

section
/-! LAW. The KEY verbs on their lines: the owner key, a key that enters a slot, and the begin of a crypto-erase (R185, R186, R189, R194,
R312). -/

namespace Sys2Proof.Machine

/-! ## Verbs that are refused, and verbs of S0 -/

/-- A verb that may run and that one of its refusals meets answers the first of them (R435). -/
theorem verb_refuses (k : Sess) (need : Priv) (states allowed : List HoldState) (refusals : State → List (Bool × Nat)) (f : Verb) (s : State)
    {c : Nat} (h : mayRun s k need allowed = true) (ha : ∀ x ∈ allowed, x ∈ states) (hr : firstOf (refusals (lineStart s k)) = some c) :
    verb k need false states refusals f (lineStart s k) = err (lineStart s k) c := by
  obtain ⟨-, priv, hold⟩ := mayRun_ready h
  rw [verb_runs k need states refusals f (lineStart s k) (by rw [getSes_lineStart]; exact priv)
    (by rw [(lineStart_frame s k).1]; exact ha _ hold), hr]

/-- On S0 a form restricted to S0 is as any other (R435). -/
theorem verb_onS0 {k : Sess} {s0Only : Bool} (h : s0Only = true → k = 0) (need : Priv) (states : List HoldState)
    (refusals : State → List (Bool × Nat)) (f : Verb) : verb k need s0Only states refusals f = verb k need false states refusals f := by
  cases s0Only
  · rfl
  · obtain rfl := h rfl
    rfl

/-- An answer leaves the tenants' record. -/
theorem Answered.ten {s t : State} {k : Sess} {l : Line} (h : Answered s t k l) : t.ten = s.ten := by
  obtain ⟨-, -, -, rest⟩ := h
  rw [rest]

/-! ## KEY OWNER (R185) -/

/-- The owner key stands in SEC, wrapped under K_store. -/
def ownerStored (s : State) (key : List Byte) : State := writeArea { s with ten := { s.ten with otk := some (keyWrap kStore key) } } .sec

theorem ownerKey_ownerStored {s t : State} {key : List Byte} (h : t.ten = (ownerStored s key).ten) (whole : key.length % 8 = 0) :
    ownerKey t = some key := by
  have stored : (ownerStored s key).ten.otk = some (keyWrap kStore key) := by simp only [ownerStored, writeArea_frame]
  rw [ownerKey, h, stored, Option.bind_some, keyUnwrap_keyWrap _ _ whole]

theorem newOwner_plain (s : State) (b : List Byte) (h : b.length = 32) : newOwner s true b = some b := by
  simp [newOwner, h]

theorem newOwner_wrapped {s : State} {o b c key : List Byte} (ho : s.ten.otk = some o) (hc : keyUnwrap kStore o = some c)
    (hk : keyUnwrap c b = some key) (h : key.length = 32) : newOwner s false b = some key := by
  simp [newOwner, ownerKey, ho, hc, hk, h]

/-- The owner key that the line carries, plain on S0 or under the present one, is stored and answered. -/
theorem keyOwner_stored (s : State) (k : Sess) (plain : Bool) (b key : List Byte) (h : mayRun s k .keep [.serve, .fault] = true)
    (hg : cfgGuard s k = false) (hp : plain = true → k = 0) (hl : b.length = if plain then 32 else 40)
    (ho : plain = true ∨ s.ten.otk.isSome = true) (hn : newOwner s plain b = some key) (hk : key.length = 32) :
    Answered (ownerStored s key) (onVerb s k (.keyOwner k plain b) false (keyOwnerVerb k plain b)) k (OK [("owner", .kw "SET")]) ∧
    ownerKey (onVerb s k (.keyOwner k plain b) false (keyOwnerVerb k plain b)) = some key := by
  have owner : newOwner (lineStart s k) plain b = some key := hn
  have answered : Answered (ownerStored s key) (onVerb s k (.keyOwner k plain b) false (keyOwnerVerb k plain b)) k
      (OK [("owner", .kw "SET")]) := by
    refine onVerb_answers _ _ (mayRun_ready h).1 ?_
    rw [keyOwnerVerb, verb_onS0 hp, verb_onLine k .keep _ [.serve, .fault] _ _ s h (by decide) ((firstOf_eq_none _).mpr ?_)]
    · simp only [owner]
      rfl
    · cases plain
      · have present : s.ten.otk.isSome = true := by simpa using ho
        simp [owner, cfgGuard_lineStart, hg, hl, present]
      · simp [cfgGuard_lineStart, hg, hl]
  exact ⟨answered, ownerKey_ownerStored answered.ten (by rw [hk])⟩

/-- A wrapped owner key whose check fails is answered 109. -/
theorem keyOwner_fails (s : State) (k : Sess) (o b : List Byte) (h : mayRun s k .keep [.serve, .fault] = true) (ho : s.ten.otk = some o)
    (hl : b.length = 40) (hn : newOwner s false b = none) :
    Answered s (onVerb s k (.keyOwner k false b) false (keyOwnerVerb k false b)) k (ERR 109) := by
  have owner : newOwner (lineStart s k) false b = none := hn
  refine onVerb_answers _ _ (mayRun_ready h).1 ?_
  rw [keyOwnerVerb, verb_refuses k .keep _ [.serve, .fault] _ _ s h (by decide) (c := 109) (by simp [firstOf, hl, ho, owner])]
  rfl

/-! ## A key enters a slot (R181, R186) -/

/-- `t` is `s` with the key in the slot of the tenant `x`: GEN has moved on, the blob holds the key wrapped, the XTS slot is loaded and the
tenant's granules are dirty; every other tenant's word, the NAND and the code flash stay. -/
structure KeyPlaced (s t : State) (x : Tenant) (slot : Nat) (key : List Byte) : Prop where
  slot : attrSlot (attrOf t x) = slot
  gen : attrGen (attrOf t x) = attrGen (attrOf s x) + 1
  cls : attrClass (attrOf t x) = attrClass (attrOf s x)
  loaded : x ∈ t.ten.loaded
  blob : ∃ b, t.ten.blobs[x.val] = some b ∧ b.gen = attrGen (attrOf s x) + 1 ∧ b.wrapped = keyWrap kStore key
  others : ∀ y, y ≠ x → attrOf t y = attrOf s y
  dirty : t.map.dirty = rsUnion s.map.dirty (tenantGranules s s.ten.map x)
  nand : t.nand = s.nand
  cfl : t.cfl = s.cfl

theorem placeKey_placed (s : State) (x : Tenant) (slot : Nat) (key : List Byte) (hs : slot < 4) (hg : attrGen (attrOf s x) < 65535) :
    KeyPlaced s (placeKey s x slot key) x slot key := by
  have word : ∀ y, attrOf (placeKey s x slot key) y = attrOf (setAttr s x (makeAttr (attrGen (attrOf s x) + 1) (attrClass (attrOf s x))
      (attrVolatile (attrOf s x)) (attrDisabled (attrOf s x)) slot)) y := fun _ => rfl
  refine ⟨?_, ?_, ?_, mem_insertFin x _, ⟨_, upd_self _ _ _, rfl, rfl⟩, fun y other => ?_, rfl, rfl, rfl⟩
  · rw [word, attrOf_setAttr, attrSlot_makeAttr, Nat.mod_eq_of_lt hs]
  · rw [word, attrOf_setAttr, attrGen_makeAttr, Nat.mod_eq_of_lt (by omega)]
  · rw [word, attrOf_setAttr, attrClass_makeAttr, Nat.mod_eq_of_lt (attrClass_lt _)]
  · rw [word, attrOf_setAttr_other _ _ _ _ other]

theorem tenantGranules_congr {s t : State} (h : t.map = s.map) (m : List DWord) (x : Tenant) : tenantGranules t m x = tenantGranules s m x := by
  simp only [tenantGranules, allGranules, h]

/-- Of the state before only the tenants' record, MAP, the NAND and the code flash count. -/
theorem KeyPlaced.before {s s' t : State} {x : Tenant} {slot : Nat} {key : List Byte} (h : KeyPlaced s' t x slot key) (ten : s'.ten = s.ten)
    (map : s'.map = s.map) (nand : s'.nand = s.nand) (cfl : s'.cfl = s.cfl) : KeyPlaced s t x slot key := by
  have word := attrOf_congr ten
  exact { h with
    gen := h.gen.trans (by rw [word]), cls := h.cls.trans (by rw [word]), blob := by rw [← word]; exact h.blob
    others := fun y other => (h.others y other).trans (word y)
    dirty := h.dirty.trans (by rw [tenantGranules_congr map, map, ten]), nand := h.nand.trans nand, cfl := h.cfl.trans cfl }

/-- Of the state after only the tenants' record, the dirty map, the NAND and the code flash count. -/
theorem KeyPlaced.after {s t t' : State} {x : Tenant} {slot : Nat} {key : List Byte} (h : KeyPlaced s t' x slot key) (ten : t.ten = t'.ten)
    (dirty : t.map.dirty = t'.map.dirty) (nand : t.nand = t'.nand) (cfl : t.cfl = t'.cfl) : KeyPlaced s t x slot key := by
  have word := attrOf_congr ten
  exact ⟨by rw [word, h.slot], by rw [word, h.gen], by rw [word, h.cls], by rw [ten]; exact h.loaded, by simp only [ten]; exact h.blob,
    fun y other => (word y).trans (h.others y other), dirty.trans h.dirty, nand.trans h.nand, cfl.trans h.cfl⟩

/-- The XTS slot then holds the key itself. -/
theorem KeyPlaced.xtsKey {s t : State} {x : Tenant} {slot : Nat} {key : List Byte} (h : KeyPlaced s t x slot key)
    (whole : key.length % 8 = 0) : xtsKey t x = key := by
  obtain ⟨b, held, -, wrapped⟩ := h.blob
  have loaded : t.ten.loaded.any (fun y => decide (y = x)) = true := by simpa using h.loaded
  rw [Machine.xtsKey, if_pos loaded, held]
  simp only [wrapped, keyUnwrap_keyWrap _ _ whole, Option.getD_some]

/-- The key store's write, the coverage and the answer leave the key where it was placed. -/
theorem keyAnswer_onLine {s t : State} {k : Sess} {x : Tenant} {f : Verb} {slot : Nat} {key : List Byte} (i : Instr) (h : lineReady s k = true)
    (hf : f (lineStart s k) = keyAnswer (recomputeCover (writeArea t .keys)) x) (placed : KeyPlaced s t x slot key) :
    KeyPlaced s (onVerb s k i false f) x slot key := by
  rw [onVerb_line i false h hf]
  refine placed.after ?_ ?_ ?_ ?_ <;> simp only [respond_frame, recomputeCover_frame, writeArea_frame]

theorem keyGen_placed (s : State) (k : Sess) (x : Tenant) (h : mayRun s k .run [.serve, .fault] = true) (he : eraseRuns s x = false)
    (hs : slotLoaded (attrOf s x) = false) (hg : attrGen (attrOf s x) < 65535) :
    ∃ key, KeyPlaced s (onVerb s k (.keyGen k x.val) false (keyGenVerb k x.val)) x 2 key := by
  have word : attrOf (lineStart s k) x = attrOf s x := rfl
  have idle : eraseRuns (lineStart s k) x = false := he
  have placed : KeyPlaced s (drawKey (lineStart s k) x) x 2 (bytesAt (Config.drbg s.free 64) 0 64) :=
    (placeKey_placed { lineStart s k with free := s.free + 1 } x 2 _ (by decide) hg).before rfl rfl rfl rfl
  refine ⟨_, keyAnswer_onLine _ (mayRun_ready h).1 ?_ placed⟩
  rw [keyGenVerb, verb_onLine k .run _ [.serve, .fault] _ _ s h (by decide)
    (by simp [firstOf, word, idle, hs, Nat.not_le.mpr hg, Nat.not_le.mpr x.isLt]), tenantOf_val]
  rfl

/-- A key that KEY LOAD carries is a whole number of blocks (R186). -/
theorem loadedKey_length {s : State} {x : Tenant} {b key : List Byte} (h : loadedKey s x b = some key) : key.length % 8 = 0 := by
  unfold loadedKey at h
  split at h
  · cases h
  · split at h
    · next unwrapped =>
      split_ifs at h
      exact Option.some_inj.mp h ▸ keyUnwrap_length _ _ _ unwrapped
    · cases h

theorem keyLoad_placed (s : State) (k : Sess) (x : Tenant) (o b key : List Byte) (h : mayRun s k .run [.serve, .fault] = true)
    (he : eraseRuns s x = false) (hl : b.length = 72) (ho : s.ten.otk = some o) (hs : slotLoaded (attrOf s x) = false)
    (hg : attrGen (attrOf s x) < 65535) (hk : loadedKey s x b = some key) :
    KeyPlaced s (onVerb s k (.keyLoad k x.val b) false (keyLoadVerb k x.val b)) x 1 key := by
  have word : attrOf (lineStart s k) x = attrOf s x := rfl
  have idle : eraseRuns (lineStart s k) x = false := he
  have carried : loadedKey (lineStart s k) x b = some key := hk
  have placed : KeyPlaced s (placeKey (lineStart s k) x 1 key) x 1 key := 
    (placeKey_placed (lineStart s k) x 1 key (by decide) hg).before rfl rfl rfl rfl
  refine keyAnswer_onLine _ (mayRun_ready h).1 ?_ placed
  rw [keyLoadVerb, verb_onLine k .run _ [.serve, .fault] _ _ s h (by decide)
    (by simp [firstOf, word, idle, carried, hl, ho, hs, Nat.not_le.mpr hg, Nat.not_le.mpr x.isLt]), tenantOf_val]
  simp only [carried]
  rfl

theorem keyLoad_fails (s : State) (k : Sess) (x : Tenant) (o b : List Byte) (h : mayRun s k .run [.serve, .fault] = true)
    (he : eraseRuns s x = false) (hl : b.length = 72) (ho : s.ten.otk = some o) (hk : loadedKey s x b = none) :
    Answered s (onVerb s k (.keyLoad k x.val b) false (keyLoadVerb k x.val b)) k (ERR 109) := by
  have idle : eraseRuns (lineStart s k) x = false := he
  have carried : loadedKey (lineStart s k) x b = none := hk
  refine onVerb_answers _ _ (mayRun_ready h).1 ?_
  rw [keyLoadVerb, verb_refuses k .run _ [.serve, .fault] _ _ s h (by decide) (c := 109)
    (by simp [firstOf, idle, carried, hl, ho, Nat.not_le.mpr x.isLt])]
  rfl

/-! ## KEY ERASE (R189, R194) -/

/-- A crypto-erase begins: it stands in AON's record, and its key is to be zeroed. -/
def eraseBegun (s : State) (k : Sess) (x : Tenant) : State :=
  let t := noteIssue s (some k) (.erase x)
  setJob { t with aon := { t.aon with erases := insertFin x t.aon.erases } }
    { t := x, phase := .zeroize, session := some k, tries := 0, zeroFail := false, proven := false }

theorem eraseBegun_busy (s : State) (k : Sess) (x : Tenant) : (getSes (eraseBegun s k x) k).busy = (getSes s k).busy := by
  show (getSes (noteIssue s (some k) (.erase x)) k).busy = _
  rw [noteIssue, getSes_setSes]
  split <;> rfl

theorem eraseRuns_eraseBegun (s : State) (k : Sess) (x : Tenant) : eraseRuns (eraseBegun s k x) x = true :=
  eraseRuns_of_job (jobOf_setJob _ _ rfl) (by simp)

theorem keyEraseVerb_runs (s : State) (k : Sess) (x : Tenant) (h : mayRun s k .keep [.serve, .park, .save, .fault] = true)
    (he : eraseRuns s x = false) :
    (slotLoaded (attrOf s x) = true → keyEraseVerb k x.val (lineStart s k) =
      (eraseBegun (waitFor (lineStart s k) k (.keyErase x)) k x, .wait (.keyErase x))) ∧
    (attrSlot (attrOf s x) = 0 → keyEraseVerb k x.val (lineStart s k) = okAns (lineStart s k)
      [("tenant", .nat x.val), ("slot", .kw "EMPTY"), ("gen", .nat (attrGen (attrOf s x))), ("kdestroy", .kw "VERIFIED")]) := by
  have word : attrOf (lineStart s k) x = attrOf s x := rfl
  have idle : eraseRuns (lineStart s k) x = false := he
  rw [keyEraseVerb, verb_onLine k .keep _ [.serve, .park, .save, .fault] _ _ s h (by decide) (by simp [firstOf, Nat.not_le.mpr x.isLt])]
  simp only [tenantOf_val, word, idle, Bool.false_eq_true, if_false]
  refine ⟨fun loaded => ?_, fun empty => if_pos empty⟩
  have key : attrSlot (attrOf s x) = 1 ∨ attrSlot (attrOf s x) = 2 := by simpa [slotLoaded] using loaded
  rw [if_neg (by omega), if_neg (by omega)]
  exact workOn_waits (f := fun u => eraseBegun u k x) (by rw [eraseBegun_busy, waitFor, getSes_setSes])

/-- Of a loaded slot the erase begins, and its session waits. -/
theorem keyErase_begins (s : State) (k : Sess) (x : Tenant) (h : mayRun s k .keep [.serve, .park, .save, .fault] = true)
    (he : eraseRuns s x = false) (hs : slotLoaded (attrOf s x) = true) : Completes (.keyErase k x.val) s fun t =>
      (getSes t k).busy = some (.keyErase x) ∧ eraseRuns t x = true ∧ t.aon = { s.aon with erases := insertFin x s.aon.erases } ∧
      t.ten = { s.ten with jobs := t.ten.jobs } ∧ t.nand = s.nand ∧ t.map = s.map := by
  refine ⟨_, congrArg Host.Outcome.next (onVerb_waits (.keyErase k x.val) false (mayRun_ready h).1 ((keyEraseVerb_runs s k x h he).1 hs)), ?_⟩
  exact ⟨by rw [getSes_setSes], eraseRuns_eraseBegun _ k x, rfl, rfl, rfl, rfl⟩

end Sys2Proof.Machine

open Sys2Proof Sys2Proof.Machine

/-- Settles O53: each verb that may run stores, places or erases the key that its line names, or answers why not. -/
theorem keyVerbs : Obligations.KeyVerbs := by
  unfold Obligations.KeyVerbs
  refine ⟨fun b s h hl hg => ⟨_, rfl, keyOwner_stored s 0 true b b h hg (fun _ => rfl) hl (.inl rfl) (newOwner_plain s b hl) hl⟩,
    fun k o b s h ho hl hg => ⟨_, rfl, fun c key hc hk len => ?_, keyOwner_fails s k o b h ho hl⟩,
    fun k x s h he hs hg => ⟨_, rfl, ?_⟩,
    fun k x o b s h he hl ho hs hg => ⟨_, rfl, keyLoad_fails s k x o b h he hl ho, fun key hk => ?_⟩,
    fun k x s h he => ⟨keyErase_begins s k x h he, fun empty => ⟨_, rfl, ?_⟩⟩⟩
  · exact keyOwner_stored s k false b key h hg (fun plain => absurd plain Bool.false_ne_true) hl (.inr (by rw [ho]; rfl))
      (newOwner_wrapped ho hc hk len) len
  · obtain ⟨_, slot, gen, cls, loaded, ⟨b, held, bgen, -⟩, others, dirty, nand, cfl⟩ := keyGen_placed s k x h he hs hg
    exact ⟨slot, gen, cls, loaded, ⟨b, held, bgen⟩, others, dirty, nand, cfl⟩
  · have placed := keyLoad_placed s k x o b key h he hl ho hs hg hk
    exact ⟨placed.xtsKey (loadedKey_length hk), placed.slot, placed.gen, placed.loaded, placed.dirty, placed.others, placed.nand⟩
  · exact onVerb_answers _ _ (mayRun_ready h).1 ((keyEraseVerb_runs s k x h he).2 empty)

end

section
/-! LAW. The charger's modes, its pauses and its faults (R197, R200, R202-R204, R220). -/

namespace Sys2Proof.Machine

/-! ## Modes -/

/-- A step of the charger is the pack's alone. -/
theorem ChargerStep.within {s t : State} (h : ChargerStep s t) : t = { s with bat := t.bat } := by
  obtain ⟨_, _, _, _, rfl⟩ := h
  rfl

theorem ChargerStep.pauses {s t : State} (h : ChargerStep s t) : t.bat.pauses = s.bat.pauses := by
  obtain ⟨_, _, _, _, rfl⟩ := h
  rfl

/-- A charge ends in MAINT or DONE by the setting, and its time starts again (R202, R203). -/
theorem chargeEnds_ends (s : State) :
    (chargeEnds s).bat.chg = (if s.bat.set.maint = true then .maint else .done) ∧ (chargeEnds s).bat.chgTime = 0 := by
  refine ⟨rfl, if_pos (.inr ?_)⟩
  split
  · exact .inr rfl
  · exact .inl rfl

theorem ite_charger {c : Prop} [Decidable c] {s a b : State} (ha : ChargerStep s a) (hb : ChargerStep s b) :
    ChargerStep s (if c then a else b) := by
  split
  · exact ha
  · exact hb

theorem chargeEnds_charger (s : State) : ChargerStep s (chargeEnds s) := setChg_charger s _

/-- A mode taken between two that charge leaves the mark of R202. -/
theorem setChg_fromFull_charging (s : State) (m : ChgMode) (h : s.bat.chg.charging = true) (paused : s.bat.chg ≠ .paused) :
    (setChg s m).bat.fromFull = s.bat.fromFull := by
  simp [setChg, h, paused]

/-- A charge that goes on after a pause is not marked anew (R202). -/
theorem setChg_fromFull_resumed (s : State) (m : ChgMode) (h : s.bat.chg = .paused) (before : s.bat.pausedFrom.charging = true) :
    (setChg s m).bat.fromFull = s.bat.fromFull := by
  simp [setChg, h, before]

/-- A charge that starts at a SoC of 99 % or more is marked (R202). -/
theorem setChg_fromFull_started (s : State) (m : ChgMode) (h : s.bat.chg = .off) (charging : m.charging = true) :
    (setChg s m).bat.fromFull = decide (99 / 100 ≤ socOf s) := by
  have idle : ChgMode.off.charging = false := rfl
  simp [setChg, h, charging, idle]

/-- The mode that the voltages call for, but where that is CV a marked charge ends at once (R200, R202). -/
theorem callMode_chg (s : State) : (callMode s).bat.chg =
    if modeByVoltage s = .cv ∧ (setChg s (modeByVoltage s)).bat.fromFull = true then (if s.bat.set.maint = true then .maint else .done)
    else modeByVoltage s := by
  have mode : (setChg s (modeByVoltage s)).bat.chg = modeByVoltage s := rfl
  unfold callMode
  dsimp only
  rw [mode]
  split
  · exact (chargeEnds_ends _).1
  · exact mode

/-! ## Pauses -/

theorem leavePause_charger (s : State) : ChargerStep s (leavePause s) := by
  unfold leavePause
  split_ifs
  · exact setChg_charger s _
  · exact callMode_charger s
  · exact ⟨_, _, _, _, rfl⟩

/-- Without a mark the charger goes on in MAINT where it held that, else as the voltages call for (R200, log entry 77). -/
theorem leavePause_chg (s : State) (h : s.bat.chg = .paused) (none_ : s.bat.pauses = []) (unmarked : s.bat.fromFull = false)
    (before : s.bat.pausedFrom.charging = true) :
    (leavePause s).bat.chg = if s.bat.pausedFrom = .maint ∧ s.bat.set.maint = true then .maint else modeByVoltage s := by
  unfold leavePause
  rw [if_pos ⟨h, none_⟩]
  split
  · rfl
  · rw [callMode_chg, setChg_fromFull_resumed s _ h before, unmarked, if_neg (by simp)]

/-- A charger that is not PAUSED does not leave PAUSED. -/
theorem leavePause_other (s : State) (h : s.bat.chg ≠ .paused) : leavePause s = s := if_neg (fun k => h k.1)

theorem mem_addPause (c : PauseCause) (l : List PauseCause) :
    c ∈ (if c ∈ l then l else l ++ [c]) ∧ ∀ d ∈ l, d ∈ (if c ∈ l then l else l ++ [c]) := by
  split
  · next held => exact ⟨held, fun _ h => h⟩
  · exact ⟨List.mem_append_right l (List.mem_singleton_self c), fun _ h => List.mem_append_left [c] h⟩

/-- The charger is PAUSED for a cause, in which it keeps every cause before it (R200). -/
def pausedFor (s : State) (c : PauseCause) : State :=
  setChg { s with bat := { s.bat with pauses := if c ∈ s.bat.pauses then s.bat.pauses else s.bat.pauses ++ [c] } } .paused

theorem pausedFor_pauses (s : State) (c : PauseCause) :
    (pausedFor s c).bat.chg = .paused ∧ c ∈ (pausedFor s c).bat.pauses ∧ (∀ d ∈ s.bat.pauses, d ∈ (pausedFor s c).bat.pauses) ∧
    pausedFor s c = { s with bat := (pausedFor s c).bat } :=
  ⟨rfl, (mem_addPause c _).1, (mem_addPause c _).2, rfl⟩

theorem execChgPause_pauses (c : PauseCause) (s : State) (hc : c ≠ .bulk) (h : s.bat.chg.charging = true ∨ s.bat.chg = .done) :
    execChgPause c s = .next (pausedFor s c) := by
  unfold execChgPause
  dsimp only
  rw [if_neg hc, if_pos h]
  rfl

/-- In SERVE the low input of the charger is a cause and a level (R200). -/
theorem execChgPause_bulk (s : State) (hold : s.aon.hold = .serve) (h : s.bat.chg.charging = true) :
    execChgPause .bulk s = .next { pausedFor s .bulk with pins := { s.pins with bulk11 := false } } := by
  have serve : ∀ t : State, t.aon.hold = .serve → supplyModes t = t := fun t ht => by rw [supplyModes, ht]
  unfold execChgPause
  dsimp only
  rw [if_pos rfl, if_pos (.inl h)]
  exact congrArg Host.Outcome.next (serve _ hold)

theorem execChgResume_ends (c : PauseCause) (s : State) (hc : c ≠ .bulk) : execChgResume c s = .next (endPause s c) := by
  unfold execChgResume
  dsimp only
  rw [if_neg hc]

/-- The end of a cause takes it away, and is the charger's step then (R200). -/
theorem endPause_charger (s : State) (c : PauseCause) :
    ChargerStep { s with bat := { s.bat with pauses := s.bat.pauses.filter (fun d => d ≠ c) } } (endPause s c) := leavePause_charger _

theorem endPause_ends (s : State) (c : PauseCause) :
    (endPause s c).bat.pauses = s.bat.pauses.filter (fun d => d ≠ c) ∧ endPause s c = { s with bat := (endPause s c).bat } ∧
    (s.bat.chg ≠ .paused → (endPause s c).bat.chg = s.bat.chg) :=
  ⟨(endPause_charger s c).pauses, (endPause_charger s c).within, fun h => by rw [endPause, leavePause_other]; exact h⟩

/-- At the end of the last cause the charger leaves PAUSED (R200). -/
theorem endPause_last (s : State) (c : PauseCause) (h : s.bat.chg = .paused) (one : s.bat.pauses = [c]) (unmarked : s.bat.fromFull = false)
    (before : s.bat.pausedFrom.charging = true) :
    (endPause s c).bat.pauses = [] ∧
    (endPause s c).bat.chg = if s.bat.pausedFrom = .maint ∧ s.bat.set.maint = true then .maint else modeByVoltage s := by
  have none_ : s.bat.pauses.filter (fun d => d ≠ c) = [] := by simp [one]
  exact ⟨(endPause_ends s c).1.trans none_, leavePause_chg _ h none_ unmarked before⟩

/-! ## Faults -/

/-- `t` is `s` after a charger fault: the retry timer runs in AON and the config store has its time, the third fault within 24 h locks, and
besides the event nothing else differs (R203, R204). -/
structure ChargerFaulted (s t : State) : Prop where
  chg : t.bat.chg = .fault
  aon : t.aon = { s.aon with retryEnd := some (s.aon.us + s.bat.set.retryNs / 1000) }
  retryLeft : t.bat.retryLeft = some (ceilDiv (s.bat.set.retryNs / 1000) 1000000)
  locked : t.bat.locked =
    (s.bat.locked || decide (2 ≤ (s.bat.chgFaults.filter (fun x => decide (s.aon.us < x + 86400000000))).length))
  within : t = { s with bat := t.bat, aon := t.aon, log := t.log, store := t.store }

theorem chargerFault_faulted (s : State) (cause : Nat) : ChargerFaulted s (chargerFault s cause) := by
  refine ⟨rfl, rfl, rfl, ?_, rfl⟩
  show (s.bat.locked || decide (3 ≤ (s.bat.chgFaults.filter (fun x => decide (s.aon.us < x + 86400000000)) ++ [s.aon.us]).length)) = _
  simp

/-- A fault that D01 finds (R203). -/
theorem chargerTrips_faulted (s : State) (cause : Nat) (on_ : isOn s 1 = true) (h : s.bat.chg ≠ .fault) :
    ChargerFaulted s (chargerTrips s cause) := by
  rw [chargerTrips, if_pos ⟨on_, h⟩]
  exact chargerFault_faulted s cause

/-! ## The retry -/

/-- From OFF, with no retry timer and no lock, the charger is where the pack, its causes and the voltages put it (R200, R202). -/
theorem qualifyCharger_chg (s : State) (h : s.bat.chg = .off) (timer : s.aon.retryEnd = none) (unlocked : s.bat.locked = false) :
    (qualifyCharger s).bat.chg = if mayCharge s = false then .off else if s.bat.pauses ≠ [] then .paused
      else if modeByVoltage s = .cv ∧ 99 / 100 ≤ socOf s then (if s.bat.set.maint = true then .maint else .done) else modeByVoltage s := by
  unfold qualifyCharger
  by_cases may : mayCharge s = true
  · simp only [may, timer, unlocked, Bool.not_true, Option.isSome_none, Bool.false_eq_true, or_self, Bool.true_eq_false, if_false]
    split
    · rfl
    · rw [callMode_chg]
      refine if_congr (and_congr_right fun cv => ?_) rfl rfl
      rw [cv, setChg_fromFull_started s .cv h rfl, decide_eq_true_iff]
  · have no : mayCharge s = false := by simpa using may
    rw [if_pos (by simp [no]), if_pos no]
    rfl

end Sys2Proof.Machine

open Sys2Proof Sys2Proof.Machine

/-- Settles O22: each event is one mode taken, one cause begun or ended, or one fault. -/
theorem chargerModes : Obligations.ChargerModes := by
  unfold Obligations.ChargerModes
  refine ⟨fun s h => ⟨_, congrArg Host.Outcome.next (if_pos h), rfl, rfl, rfl⟩,
    fun s h => ⟨_, congrArg Host.Outcome.next (if_pos h), ?_, ?_⟩,
    fun s h taper => ⟨_, congrArg Host.Outcome.next (if_pos ⟨h, taper⟩), (chargeEnds_ends s).1, (chargeEnds_ends s).2, rfl⟩,
    fun s taper => congrArg Host.Outcome.next (if_neg (by simp [taper])),
    fun s h low => ⟨_, congrArg Host.Outcome.next (if_pos ⟨h, low⟩), rfl, rfl⟩,
    fun c s hc h => ⟨_, execChgPause_pauses c s hc h, pausedFor_pauses s c⟩,
    fun s hold h => ⟨_, execChgPause_bulk s hold h, rfl, (mem_addPause .bulk s.bat.pauses).1, rfl, rfl⟩,
    fun c s hc h one unmarked before => ⟨_, execChgResume_ends c s hc, ?_⟩, fun c hc s on_ h => ?_,
    fun s h => ⟨_, congrArg Host.Outcome.next (if_pos h), ?_⟩, fun s h late => ⟨_, congrArg Host.Outcome.next (if_pos ⟨h, late⟩), ?_⟩,
    fun s timer unlocked => ⟨qualifyCharger (setChg (clearRetry s) .off), congrArg Host.Outcome.next ?_, ?_⟩⟩
  · have mark := setChg_fromFull_charging s .cv (by rw [h]; rfl) (by simp [h])
    rw [← mark]
    split
    · exact (chargeEnds_ends _).1
    · rfl
  · exact (ite_charger ((setChg_charger s .cv).trans (chargeEnds_charger _)) (setChg_charger s .cv)).within
  · obtain ⟨pauses, chg⟩ := endPause_last s c h one unmarked before
    exact ⟨chg, pauses, (endPause_ends s c).2.1⟩
  · have trips (cause : Nat) := chargerTrips_faulted s cause on_ h
    obtain rfl | rfl : c = .cellOv ∨ c = .buck := by simpa using hc
    · exact ⟨_, rfl, (trips 0).chg, (trips 0).aon, (trips 0).retryLeft, (trips 0).locked, (trips 0).within⟩
    · exact ⟨_, rfl, (trips 3).chg, (trips 3).aon, (trips 3).retryLeft, (trips 3).locked, (trips 3).within⟩
  · have fault := chargerFault_faulted s 1
    exact ⟨fault.chg, fault.aon, fault.within⟩
  · have fault := chargerFault_faulted s 2
    exact ⟨fault.chg, fault.aon, fault.within⟩
  · rw [if_pos timer]
    exact if_neg (by rw [show (clearRetry s).bat.locked = s.bat.locked from rfl, unlocked]; exact Bool.false_ne_true)
  · have chg := qualifyCharger_chg (setChg (clearRetry s) .off) rfl rfl unlocked
    obtain ⟨_, _, _, _, e⟩ := (setChg_charger (clearRetry s) .off).trans (qualifyCharger_charger _)
    refine ⟨by rw [e]; rfl, by rw [e]; rfl, chg, by rw [e]; rfl⟩

end

section
/-! LAW. What follows of a change of the pack, and the filter's work: what each leaves as it was (R121, R199, R200, R207, R208, R210, R211). -/

namespace Sys2Proof.Machine

/-! ## The coverage and the charger follow the pack -/

theorem takeMargin_bat (s : State) (m : Margin) : (takeMargin s m).bat = { s.bat with margin := m, better := none } := by
  unfold takeMargin
  dsimp only
  split
  · next same => rw [same]
  · split
    · simp only [sendHoldAlarm_frame, noticeGeneral_frame, logEv_frame]
    · simp only [noticeGeneral_frame, logEv_frame]

/-- A judgment is the margin's part of the pack (R217). -/
theorem judgeMargin_bat (s : State) : ∃ margin judged better,
    (judgeMargin s).bat = { s.bat with margin := margin, judged := judged, better := better } := by
  unfold judgeMargin
  dsimp only
  split
  · split
    · exact ⟨_, _, _, takeMargin_bat _ _⟩
    · split
      · exact ⟨_, _, _, takeMargin_bat s _⟩
      · exact ⟨_, _, _, rfl⟩
  · exact ⟨_, _, _, rfl⟩

theorem refreshEnergy_bat (s : State) : ∃ energy, (refreshEnergy s).bat = { s.bat with eavail := energy } := by
  unfold refreshEnergy
  split
  · exact ⟨_, rfl⟩
  · split <;> exact ⟨_, rfl⟩

/-- A recomputation of the coverage is E_avail and the margin's part of the pack (R214, R217). -/
theorem recomputeCover_bat (s : State) : ∃ energy margin judged better,
    (recomputeCover s).bat = { s.bat with eavail := energy, margin := margin, judged := judged, better := better } := by
  obtain ⟨energy, energised⟩ := refreshEnergy_bat s
  unfold recomputeCover
  dsimp only
  split
  · obtain ⟨_, _, _, judged⟩ := judgeMargin_bat (takeCover (refreshEnergy s))
    exact ⟨energy, _, _, _, by rw [judged, takeCover, energised]⟩
  · exact ⟨energy, _, _, _, energised⟩

/-- `t` is `s` after the charger and the coverage have followed a change: of the pack its presence, the result, the records, the
estimate and the conversions stay, of AON all but the PARK alarm, and the image, the keys and the code flash. -/
structure PackFollows (s t : State) : Prop where
  present : t.bat.present = s.bat.present
  judgedPack : t.bat.judgedPack = s.bat.judgedPack
  result : t.bat.result = s.bat.result
  pid : t.bat.pid = s.bat.pid
  packRec : t.bat.packRec = s.bat.packRec
  readTries : t.bat.readTries = s.bat.readTries
  cells : t.bat.cells = s.bat.cells
  est : t.bat.est = s.bat.est
  anchored : t.bat.anchored = s.bat.anchored
  anchorUs : t.bat.anchorUs = s.bat.anchorUs
  ring : t.bat.ring = s.bat.ring
  icmd : t.bat.icmd = s.bat.icmd
  aon : t.aon = { s.aon with parkAlarm := t.aon.parkAlarm }
  nand : t.nand = s.nand
  ten : t.ten = s.ten
  cfl : t.cfl = s.cfl

theorem PackFollows.trans {s t u : State} (h : PackFollows s t) (k : PackFollows t u) : PackFollows s u where
  present := k.present.trans h.present
  judgedPack := k.judgedPack.trans h.judgedPack
  result := k.result.trans h.result
  pid := k.pid.trans h.pid
  packRec := k.packRec.trans h.packRec
  readTries := k.readTries.trans h.readTries
  cells := k.cells.trans h.cells
  est := k.est.trans h.est
  anchored := k.anchored.trans h.anchored
  anchorUs := k.anchorUs.trans h.anchorUs
  ring := k.ring.trans h.ring
  icmd := k.icmd.trans h.icmd
  aon := by rw [k.aon, h.aon]
  nand := k.nand.trans h.nand
  ten := k.ten.trans h.ten
  cfl := k.cfl.trans h.cfl

theorem PackFollows.hold {s t : State} (h : PackFollows s t) : t.aon.hold = s.aon.hold := by rw [h.aon]

theorem PackFollows.checkpoint {s t : State} (h : PackFollows s t) : t.aon.checkpoint = s.aon.checkpoint := by rw [h.aon]

/-- An event is the log's alone. -/
theorem logEv_follows (s : State) (d : Dom) (k : EvKind) (a b c e : Nat) : PackFollows s (logEv s d k a b c e) := by
  constructor <;> simp only [logEv_frame]

theorem ChargerStep.follows {s t : State} (h : ChargerStep s t) : PackFollows s t := by
  obtain ⟨_, _, _, _, rfl⟩ := h
  constructor <;> rfl

theorem followCharger_follows (s : State) : PackFollows s (followCharger s) := by
  have setpoint : PackFollows s (writeSetpoint s) := by
    rw [writeSetpoint_eq]
    constructor <;> rfl
  refine setpoint.trans (ChargerStep.follows ?_)
  exact ite_charger (setChg_charger _ _) (ite_charger (qualifyCharger_charger _) (leavePause_charger _))

theorem recomputeCover_follows (s : State) : PackFollows s (recomputeCover s) := by
  obtain ⟨_, _, _, _, bat⟩ := recomputeCover_bat s
  constructor
  case aon => exact recomputeCover_aon s
  all_goals simp only [bat, recomputeCover_frame]

/-- The charger and the coverage follow the pack. -/
theorem packFollowed (s : State) : PackFollows s (recomputeCover (followCharger s)) :=
  (followCharger_follows s).trans (recomputeCover_follows _)

/-- A recomputation of the coverage leaves the charger as it stands. -/
theorem recomputeCover_chg (s : State) : (recomputeCover s).bat.chg = s.bat.chg := by
  obtain ⟨_, _, _, _, b⟩ := recomputeCover_bat s
  rw [b]

/-- A pack that may not be charged has the charger OFF (R199, R200, R223). -/
theorem followCharger_off (s : State) (h : mayCharge s = false) : (followCharger s).bat.chg = .off := by
  have no : mayCharge (writeSetpoint s) = false := by rw [writeSetpoint_eq]; exact h
  unfold followCharger
  dsimp only
  rw [if_pos (by rw [no]; rfl)]
  rfl

/-! ## The filter's work -/

/-- `t` is `s` after work of the filter: the conversions, the loop's command and the probe stay, and all of AON, the image, the keys and the
code flash. -/
structure FilterStep (s t : State) : Prop where
  ring : t.bat.ring = s.bat.ring
  icmd : t.bat.icmd = s.bat.icmd
  probe : t.bat.probe = s.bat.probe
  aon : t.aon = s.aon
  nand : t.nand = s.nand
  ten : t.ten = s.ten
  cfl : t.cfl = s.cfl

theorem FilterStep.refl (s : State) : FilterStep s s := ⟨rfl, rfl, rfl, rfl, rfl, rfl, rfl⟩

theorem FilterStep.trans {s t u : State} (h : FilterStep s t) (k : FilterStep t u) : FilterStep s u :=
  ⟨k.ring.trans h.ring, k.icmd.trans h.icmd, k.probe.trans h.probe, k.aon.trans h.aon, k.nand.trans h.nand, k.ten.trans h.ten,
    k.cfl.trans h.cfl⟩

theorem addLoad_filter (s : State) (dt : ℚ) : FilterStep s (addLoad s dt) := by
  unfold addLoad
  split
  · exact ⟨rfl, rfl, rfl, rfl, rfl, rfl, rfl⟩
  · exact .refl s

theorem addChargeTime_filter (s : State) (ms : Nat) : FilterStep s (addChargeTime s ms) := by
  unfold addChargeTime
  split
  · exact ⟨rfl, rfl, rfl, rfl, rfl, rfl, rfl⟩
  · exact .refl s

theorem countCycles_filter (s : State) (amp : ℚ) : FilterStep s (countCycles s amp) := by
  unfold countCycles
  split
  · exact .refl s
  · exact ⟨rfl, rfl, rfl, rfl, rfl, rfl, rfl⟩

theorem resetRejected_filter (s : State) : FilterStep s (resetRejected s) := by
  unfold resetRejected
  split
  · exact ⟨rfl, rfl, rfl, rfl, rfl, rfl, rfl⟩
  · exact .refl s

/-- Prediction and update (R207, R208). -/
theorem stepFilter_filter (s : State) (r : PackRec) (x : Sample) (dt : ℚ) : FilterStep s (stepFilter s r x dt) := by
  have sums (amp : ℚ) := (addLoad_filter s dt).trans (countCycles_filter (addLoad s dt) amp)
  unfold stepFilter
  dsimp only
  refine .trans ?_ (resetRejected_filter _)
  exact { sums (packCurrent s * dt) with }

/-- An anchor, whether it counts or not (R210, R213). -/
theorem takeAnchor_filter (s : State) (cells : List Nat) : FilterStep s (takeAnchor s cells) := by
  unfold takeAnchor
  dsimp only
  split
  · exact .refl s
  · split
    · exact ⟨rfl, rfl, rfl, rfl, rfl, rfl, rfl⟩
    · refine .trans ?_ (resetRejected_filter _)
      exact ⟨rfl, rfl, rfl, rfl, rfl, rfl, rfl⟩

theorem estNow_filter (s : State) : FilterStep s (estNow s) := ⟨rfl, rfl, rfl, rfl, rfl, rfl, rfl⟩

/-- The imbalance alarm is a flag and an event: the cells and what the filter leaves stay (R223). -/
theorem noteImbalance_filter (s : State) (x : Sample) : FilterStep s (noteImbalance s x) ∧ (noteImbalance s x).bat.cells = s.bat.cells := by
  unfold noteImbalance
  dsimp only
  split <;> exact ⟨⟨rfl, rfl, rfl, rfl, rfl, rfl, rfl⟩, rfl⟩

/-! ## Probes -/

/-- `t` is `s` after work on the impedance table: what the filter's work leaves, and the cells. -/
structure ProbeStep (s t : State) : Prop extends FilterStep s t where
  cells : t.bat.cells = s.bat.cells

theorem ProbeStep.refl (s : State) : ProbeStep s s := ⟨.refl s, rfl⟩

theorem ProbeStep.trans {s t u : State} (h : ProbeStep s t) (k : ProbeStep t u) : ProbeStep s u :=
  ⟨h.toFilterStep.trans k.toFilterStep, k.cells.trans h.cells⟩

theorem foldl_probe {α : Type} (f : State → α → State) (h : ∀ u x, ProbeStep u (f u x)) (l : List α) (s : State) :
    ProbeStep s (l.foldl f s) :=
  List.foldlRecOn (motive := ProbeStep s) l f (.refl s) fun _ hu _ _ => hu.trans (h _ _)

theorem noteProbe_probe (s : State) (cell : Nat) (ok : Bool) : ProbeStep s (noteProbe s cell ok) := by
  unfold noteProbe
  dsimp only
  split
  · exact ⟨⟨rfl, rfl, rfl, rfl, rfl, rfl, rfl⟩, rfl⟩
  · split <;> exact ⟨⟨rfl, rfl, rfl, rfl, rfl, rfl, rfl⟩, rfl⟩

/-- A measured r_ser goes into its bin or is noted as rejected (R211). -/
theorem probeSer_probe (s : State) (cell : Nat) (z m : ℚ) : ProbeStep s (probeSer s cell z m) := by
  unfold probeSer
  dsimp only
  split
  · exact .refl s
  · split
    · refine .trans ?_ (noteProbe_probe _ cell true)
      exact ⟨⟨rfl, rfl, rfl, rfl, rfl, rfl, rfl⟩, rfl⟩
    · exact noteProbe_probe s cell false

/-- A measured r_pol goes into its bin or is noted as rejected (R211). -/
theorem probePol_probe (s : State) (cell : Nat) (z m : ℚ) : ProbeStep s (probePol s cell z m) := by
  unfold probePol
  dsimp only
  split
  · exact .refl s
  · split
    · refine .trans ?_ (noteProbe_probe _ cell true)
      exact ⟨⟨rfl, rfl, rfl, rfl, rfl, rfl, rfl⟩, rfl⟩
    · exact noteProbe_probe s cell false

theorem estAfterProbe_probe (s : State) : ProbeStep s (estAfterProbe s) := by
  unfold estAfterProbe
  split
  · exact ⟨estNow_filter s, rfl⟩
  · exact .refl s

end Sys2Proof.Machine

end

section
/-! LAW. The pack's presence and its identity record (R198, R199, R222). -/

namespace Sys2Proof.Machine

/-! ## The result -/

/-- A result is the pack's, with an event of the log (R199). -/
theorem setResult_frame (s : State) (r : PackResult) :
    (setResult s r).bat = { s.bat with result := r } ∧ (setResult s r).aon = s.aon ∧ (setResult s r).nand = s.nand ∧
    (setResult s r).ten = s.ten ∧ (setResult s r).cfl = s.cfl := by
  unfold setResult
  split
  · next same => exact ⟨by rw [← same], rfl, rfl, rfl, rfl⟩
  · exact ⟨rfl, rfl, rfl, rfl, rfl⟩

/-- `t` is `s` after a record was taken up for a pack: its result, its identity and the count of tries stay, and AON, the image, the keys
and the code flash. -/
structure RecordStep (s t : State) : Prop where
  result : t.bat.result = s.bat.result
  pid : t.bat.pid = s.bat.pid
  readTries : t.bat.readTries = s.bat.readTries
  aon : t.aon = s.aon
  nand : t.nand = s.nand
  ten : t.ten = s.ten
  cfl : t.cfl = s.cfl

theorem learnPack_record (s : State) (serial rsInit : Nat) : RecordStep s (learnPack s serial rsInit) := ⟨rfl, rfl, rfl, rfl, rfl, rfl, rfl⟩

theorem keepPack_record (s : State) (r : PackRec) : RecordStep s (keepPack s r) := ⟨rfl, rfl, rfl, rfl, rfl, rfl, rfl⟩

/-- The learned state goes on where it is this pack's; otherwise learning starts (R199). -/
theorem keepOrLearn_record (s : State) (r : PackRec) (serial rsInit : Nat) :
    RecordStep s (if r.serial = serial then keepPack s r else learnPack s serial rsInit) := by
  split
  · exact keepPack_record s r
  · exact learnPack_record s _ _

/-! ## A valid record -/

/-- The record is the pack's identity, and a value beyond the limits of R197 is logged. -/
def packNoted (s : State) (b : List Byte) : State :=
  let t := if packClamped b then logEv s 2 .packClamp else s
  { t with bat := { t.bat with pid := some (packIdOf b) } }

theorem packNoted_keeps (s : State) (b : List Byte) :
    (packNoted s b).bat = { s.bat with pid := some (packIdOf b) } ∧ (packNoted s b).aon = s.aon ∧ (packNoted s b).nand = s.nand ∧
    (packNoted s b).ten = s.ten ∧ (packNoted s b).cfl = s.cfl := by
  unfold packNoted
  dsimp only
  split <;> exact ⟨rfl, rfl, rfl, rfl, rfl⟩

/-- Chemistry and cells equal the options: the result is ID, and a record is taken up (R199). -/
theorem packIdentified_id (s : State) (b : List Byte) (chem : packChem b = s.aon.opt.chem.toNat) (cells : packCells b = cellCount s) :
    RecordStep (setResult (packNoted s b) .id) (packIdentified s b) := by
  obtain ⟨-, aon, -, -, -⟩ := packNoted_keeps s b
  have same : ¬ (packChem b ≠ (packNoted s b).aon.opt.chem.toNat ∨ packCells b ≠ cellCount (packNoted s b)) := by
    rw [not_or, not_not, not_not, cellCount, aon]
    exact ⟨chem, cells⟩
  unfold packIdentified
  extract_lets p logged _ noted taken
  rw [if_neg (show ¬ (p.chem ≠ noted.aon.opt.chem.toNat ∨ p.cells ≠ cellCount noted) from same)]
  split
  · split
    · exact keepPack_record taken _
    · split
      · exact keepOrLearn_record taken _ _ _
      · exact learnPack_record taken _ _
  · exact keepOrLearn_record taken _ _ _
  · exact learnPack_record taken _ _

/-- Otherwise it is MISMATCH, and the estimator stops (R199). -/
theorem packIdentified_mismatch (s : State) (b : List Byte) (other : packChem b ≠ s.aon.opt.chem.toNat ∨ packCells b ≠ cellCount s) :
    packIdentified s b = setResult (stopEstimator (packNoted s b)) .mismatch := by
  obtain ⟨-, aon, -, -, -⟩ := packNoted_keeps s b
  have differs : packChem b ≠ (packNoted s b).aon.opt.chem.toNat ∨ packCells b ≠ cellCount (packNoted s b) := by
    rw [cellCount, aon]
    exact other
  exact if_pos differs

/-- A pack that does not fit may not be charged (R199). -/
theorem mayCharge_mismatch (s : State) (h : s.bat.result = .mismatch) : mayCharge s = false := by
  simp [mayCharge, h]

/-- What follows of a pack that fits (R199). -/
theorem packIdentified_id_followed (s : State) (b : List Byte) (chem : packChem b = s.aon.opt.chem.toNat)
    (cells : packCells b = cellCount s) : ∃ t, t = recomputeCover (followCharger (packIdentified s b)) ∧
      t.bat.result = .id ∧ t.bat.pid = some (packIdOf b) ∧ t.bat.readTries = s.bat.readTries ∧ t.nand = s.nand ∧ t.ten = s.ten ∧
      t.cfl = s.cfl ∧ t.aon.hold = s.aon.hold := by
  have record := packIdentified_id s b chem cells
  have follows := packFollowed (packIdentified s b)
  obtain ⟨bat, aon, nand, ten, cfl⟩ := packNoted_keeps s b
  refine ⟨_, rfl, ?_⟩
  rw [follows.result, record.result, follows.pid, record.pid, follows.readTries, record.readTries, follows.nand, record.nand, follows.ten,
    record.ten, follows.cfl, record.cfl, follows.hold, record.aon]
  simp only [setResult_frame, bat, aon, nand, ten, cfl, and_self]

/-- What follows of a pack that does not (R199). -/
theorem packIdentified_mismatch_followed (s : State) (b : List Byte)
    (other : packChem b ≠ s.aon.opt.chem.toNat ∨ packCells b ≠ cellCount s) :
    ∃ t, t = recomputeCover (followCharger (packIdentified s b)) ∧ t.bat.result = .mismatch ∧ t.bat.cells = [] ∧ t.bat.chg = .off ∧
      t.nand = s.nand ∧ t.ten = s.ten ∧ t.cfl = s.cfl := by
  obtain ⟨-, -, nand, ten, cfl⟩ := packNoted_keeps s b
  have follows := packFollowed (packIdentified s b)
  have off := (recomputeCover_chg _).trans (followCharger_off (packIdentified s b)
    (mayCharge_mismatch _ (by rw [packIdentified_mismatch s b other, (setResult_frame _ _).1])))
  refine ⟨_, rfl, ?_⟩
  rw [follows.result, follows.cells, off, follows.nand, follows.ten, follows.cfl, packIdentified_mismatch s b other]
  obtain ⟨bat, -, nand', ten', cfl'⟩ := setResult_frame (stopEstimator (packNoted s b)) .mismatch
  rw [bat, nand', ten', cfl']
  exact ⟨rfl, rfl, rfl, nand, ten, cfl⟩

/-- What follows where no record is readable: a record of the pack's own is learned (R199, R223). -/
theorem packAnonymous_followed (s : State) : ∃ t, t = recomputeCover (followCharger (packAnonymous s)) ∧
    t.bat.result = .anon ∧ t.bat.pid = none ∧ t.bat.est = .learning ∧ (∃ r, t.bat.packRec = some r ∧ r.serial = 0 ∧ r.est = .learning) ∧
    t.nand = s.nand ∧ t.ten = s.ten ∧ t.cfl = s.cfl := by
  have follows := packFollowed (packAnonymous s)
  have record : RecordStep (setResult { s with bat := { s.bat with pid := none } } .anon) (packAnonymous s) := learnPack_record _ 0 0
  refine ⟨_, rfl, ?_⟩
  rw [follows.result, record.result, follows.pid, record.pid, follows.est, follows.packRec, follows.nand, record.nand, follows.ten,
    record.ten, follows.cfl, record.cfl]
  obtain ⟨bat, -, nand, ten, cfl⟩ := setResult_frame { s with bat := { s.bat with pid := none } } .anon
  rw [bat, nand, ten, cfl]
  exact ⟨rfl, rfl, rfl, ⟨_, rfl, rfl, rfl⟩, rfl, rfl, rfl⟩

/-! ## The commands -/

/-- The count of reads that failed. -/
def readTriesAt (s : State) (n : Nat) : State := { s with bat := { s.bat with readTries := n } }

theorem execPackEepromRead_valid (b : List Byte) (s : State) (present : s.bat.present = true) (run : s.mg.running = true)
    (ok : packRecordOk b = true) :
    execPackEepromRead true b s = .next (recomputeCover (followCharger (packIdentified (readTriesAt s 0) b))) := by
  exact congrArg Host.Outcome.next ((if_pos (by rw [present, run]; rfl)).trans (if_pos (by rw [ok]; rfl)))

theorem execPackEepromRead_failed (a : Bool) (b : List Byte) (s : State) (present : s.bat.present = true) (run : s.mg.running = true)
    (bad : a = false ∨ packRecordOk b = false) : execPackEepromRead a b s =
      .next (if s.bat.readTries < 3 then readTriesAt s (s.bat.readTries + 1)
        else recomputeCover (followCharger (packAnonymous (readTriesAt s 0)))) := by
  have fails : (a && packRecordOk b) = false := Bool.and_eq_false_iff.mpr bad
  exact congrArg Host.Outcome.next ((if_pos (by rw [present, run]; rfl)).trans (if_neg (by rw [fails]; exact Bool.false_ne_true)))

/-- The pack is gone, and the estimator stopped (R199, R222). -/
def packGone (s : State) : State :=
  stopEstimator { s with bat := { s.bat with present := false, judgedPack := true, readTries := 0, pid := none, ring := [] } }

theorem execPackPresenceChange_absent (s : State) :
    execPackPresenceChange false s = .next (recomputeCover (setChg (setResult (packGone s) .none) .off)) := rfl

end Sys2Proof.Machine

open Sys2Proof Sys2Proof.Machine

/-- Settles O23: the result and the record that each command takes up, and what follows of it. -/
theorem packIdentity : Obligations.PackIdentity := by
  unfold Obligations.PackIdentity
  refine ⟨fun s => ⟨_, execPackPresenceChange_absent s, ?_⟩, fun s => rfl, fun b s present run ok chem cells => ?_,
    fun b s present run ok other => ?_, fun a b s present run bad => ?_⟩
  · have off := recomputeCover_chg (setChg (setResult (packGone s) .none) .off)
    have follows := (setChg_charger (setResult (packGone s) .none) .off).follows.trans (recomputeCover_follows _)
    obtain ⟨bat, aon, nand, ten, cfl⟩ := setResult_frame (packGone s) .none
    dsimp only
    rw [follows.present, follows.judgedPack, follows.result, follows.pid, follows.cells, off, follows.hold, follows.nand, follows.ten,
      follows.cfl, bat, aon, nand, ten, cfl]
    exact ⟨rfl, rfl, rfl, rfl, rfl, rfl, rfl, rfl, rfl, rfl⟩
  · obtain ⟨t, e, followed⟩ := packIdentified_id_followed (readTriesAt s 0) b chem cells
    exact ⟨t, (execPackEepromRead_valid b s present run ok).trans (by rw [e]), followed⟩
  · obtain ⟨t, e, followed⟩ := packIdentified_mismatch_followed (readTriesAt s 0) b other
    exact ⟨t, (execPackEepromRead_valid b s present run ok).trans (by rw [e]), followed⟩
  · have read := execPackEepromRead_failed a b s present run bad
    refine ⟨fun few => read.trans (by rw [if_pos few]; rfl), fun enough => ?_⟩
    obtain ⟨t, e, followed⟩ := packAnonymous_followed (readTriesAt s 0)
    exact ⟨t, read.trans (by rw [if_neg (not_lt.mpr enough), e]), followed⟩

end

section
/-! LAW. A conversion, the warden's account, anchors and the margin (R201, R206, R208, R210, R212, R217, R218, R223, R388). -/

namespace Sys2Proof.Machine

/-! ## Conversions -/

/-- The conversion is the newest sample, and I_cmd lies between 0 and I_set (R201, R206). -/
theorem takeSample_takes (s : State) (x : Sample) (i : Nat) :
    newest (takeSample s x i).bat = some x ∧ (takeSample s x i).bat.icmd = min i s.bat.iset := ⟨rfl, rfl⟩

/-- The ring is all that decides which conversion is the newest. -/
theorem newest_congr {b c : Battery} (h : b.ring = c.ring) : newest b = newest c := by
  rw [newest, h, newest]

/-- The checkpoint is the filter's state (R212). -/
def CheckpointHolds (s : State) : Prop := s.aon.checkpoint = some s.bat.cells

/-- What follows the pack leaves the checkpoint the filter's state. -/
theorem PackFollows.checkpointHolds {s t : State} (h : PackFollows s t) (k : CheckpointHolds s) : CheckpointHolds t := by
  rw [CheckpointHolds, h.checkpoint, h.cells]
  exact k

theorem noteImbalance_checkpointHolds {s : State} (x : Sample) (k : CheckpointHolds s) : CheckpointHolds (noteImbalance s x) := by
  obtain ⟨filter, cells⟩ := noteImbalance_filter s x
  rw [CheckpointHolds, filter.aon, cells]
  exact k

/-- A plausible conversion after its sample was taken: prediction, update, checkpoint and the imbalance alarm (R206-R208, R212). -/
def conversionDone (s : State) (x : Sample) (dt : Nat) (r : PackRec) : State :=
  noteImbalance (storeCheckpoint (addChargeTime (stepFilter s r x ((dt : ℚ) / 1000)) dt)) x

theorem conversionDone_checkpointHolds (s : State) (x : Sample) (dt : Nat) (r : PackRec) : CheckpointHolds (conversionDone s x dt r) :=
  noteImbalance_checkpointHolds x rfl

theorem storeCheckpoint_keeps (s : State) : (storeCheckpoint s).bat = s.bat ∧ (storeCheckpoint s).aon.hold = s.aon.hold ∧
    (storeCheckpoint s).nand = s.nand ∧ (storeCheckpoint s).ten = s.ten ∧ (storeCheckpoint s).cfl = s.cfl := ⟨rfl, rfl, rfl, rfl, rfl⟩

theorem conversionDone_keeps (s : State) (x : Sample) (dt : Nat) (r : PackRec) :
    (conversionDone s x dt r).bat.ring = s.bat.ring ∧ (conversionDone s x dt r).bat.icmd = s.bat.icmd ∧
    (conversionDone s x dt r).aon.hold = s.aon.hold ∧ (conversionDone s x dt r).nand = s.nand ∧ (conversionDone s x dt r).ten = s.ten ∧
    (conversionDone s x dt r).cfl = s.cfl := by
  have stepped := (stepFilter_filter s r x ((dt : ℚ) / 1000)).trans (addChargeTime_filter _ dt)
  obtain ⟨bat, hold, nand, ten, cfl⟩ := storeCheckpoint_keeps (addChargeTime (stepFilter s r x ((dt : ℚ) / 1000)) dt)
  obtain ⟨noted, -⟩ := noteImbalance_filter (storeCheckpoint (addChargeTime (stepFilter s r x ((dt : ℚ) / 1000)) dt)) x
  rw [conversionDone, noted.ring, noted.icmd, noted.aon, noted.nand, noted.ten, noted.cfl, bat, hold, nand, ten, cfl, stepped.ring,
    stepped.icmd, stepped.aon, stepped.nand, stepped.ten, stepped.cfl]
  exact ⟨rfl, rfl, rfl, rfl, rfl, rfl⟩

theorem execEstimatorStep_plausible (x : Sample) (dt i : Nat) (r : PackRec) (s : State) (run : s.mg.running = true)
    (present : s.bat.present = true) (cells : s.bat.cells ≠ []) (fine : implausible (filled s s.bat.cells.length x) = false)
    (sense : s.bat.est ≠ .sensefail) (record : s.bat.packRec = some r) : execEstimatorStep x dt i s =
      .next (recomputeCover (followCharger
        (conversionDone (takeSample s (filled s s.bat.cells.length x) i) (filled s s.bat.cells.length x) dt r))) := by
  have taken : (takeSample s (filled s s.bat.cells.length x) i).bat.packRec = some r := record
  have good : (takeSample s (filled s s.bat.cells.length x) i).bat.est ≠ .sensefail := sense
  have runs : ¬ (!(s.mg.running && s.bat.present && decide (s.bat.cells ≠ []))) = true := by simp [run, present, cells]
  unfold execEstimatorStep
  dsimp only
  rw [if_neg runs, if_neg (by simp [fine]), if_neg good, taken]
  rfl

theorem execEstimatorStep_implausible (x : Sample) (dt i : Nat) (s : State) (run : s.mg.running = true) (present : s.bat.present = true)
    (cells : s.bat.cells ≠ []) (bad : implausible (filled s s.bat.cells.length x) = true) :
    execEstimatorStep x dt i s = .next (senseFails (takeSample s (filled s s.bat.cells.length x) i)) := by
  have runs : ¬ (!(s.mg.running && s.bat.present && decide (s.bat.cells ≠ []))) = true := by simp [run, present, cells]
  unfold execEstimatorStep
  dsimp only
  rw [if_neg runs, if_pos bad]

/-- The sense path fails once: SENSEFAIL, and a charger that it finds working is OFF (R223). -/
theorem senseFails_fails (s : State) : (senseFails s).bat.est = .sensefail ∧ (senseFails s).bat.ring = s.bat.ring ∧
    (s.bat.est ≠ .sensefail → (senseFails s).bat.chg = .off) ∧ (senseFails s).nand = s.nand ∧ (senseFails s).cfl = s.cfl := by
  unfold senseFails
  split
  · next failed => exact ⟨failed, rfl, fun h => absurd failed h, rfl, rfl⟩
  · have follows := (logEv_follows { s with bat := { s.bat with est := .sensefail } } 2 .senseFail 0 0 0 0).trans
      ((setChg_charger _ .off).follows.trans (recomputeCover_follows _))
    exact ⟨follows.est, follows.ring, fun _ => recomputeCover_chg _, follows.nand, follows.cfl⟩

/-! ## The warden's account -/

/-- The warden's sample and what it adds up (R206). -/
def wardenStep (s : State) (x : Sample) (i : Nat) : State := addChargeTime (addLoad (followCharger (takeSample s x i)) 10) 10000

theorem wardenStep_keeps (s : State) (x : Sample) (i : Nat) :
    newest (wardenStep s x i).bat = some x ∧ (wardenStep s x i).aon.packAcc = s.aon.packAcc ∧ (wardenStep s x i).aon.hold = s.aon.hold ∧
    (wardenStep s x i).nand = s.nand ∧ (wardenStep s x i).cfl = s.cfl := by
  have follows := followCharger_follows (takeSample s x i)
  have sums := (addLoad_filter (followCharger (takeSample s x i)) 10).trans (addChargeTime_filter _ 10000)
  refine ⟨newest_congr (sums.ring.trans follows.ring), ?_, ?_, sums.nand.trans follows.nand, sums.cfl.trans follows.cfl⟩
  · rw [wardenStep, sums.aon, follows.aon]
    rfl
  · rw [wardenStep, sums.aon, follows.aon]
    rfl

/-- The warden's account after 10 s at a current (R206, R210). -/
def accountAfter (s : State) (i : ℚ) (last : List Nat) : State :=
  { s with
    free := s.free + 1
    aon := { s.aon with packAcc :=
      { charge := s.aon.packAcc.charge + i * 10, gap := s.aon.packAcc.gap + 10
        rest := if resting s i then s.aon.packAcc.rest + 10 else 0, last := last } } }

/-- Ten seconds join the gap, and the rest where it holds (R210). -/
theorem accountAfter_adds (s : State) (i : ℚ) (last : List Nat) :
    (accountAfter s i last).aon.packAcc.gap = s.aon.packAcc.gap + 10 ∧ (accountAfter s i last).aon.packAcc.last = last ∧
    ((accountAfter s i last).aon.packAcc.rest = s.aon.packAcc.rest + 10 ∨ (accountAfter s i last).aon.packAcc.rest = 0) ∧
    (accountAfter s i last).bat = s.bat ∧ (accountAfter s i last).aon.hold = s.aon.hold ∧ (accountAfter s i last).nand = s.nand ∧
    (accountAfter s i last).cfl = s.cfl :=
  ⟨rfl, rfl, ite_eq_or_eq _ _ _, rfl, rfl, rfl, rfl⟩

theorem execWardenPackSample_due (x : Sample) (i : Nat) (s : State) (up : s.aon.por = .up) (off : (modeOf s 2).powered = false)
    (charge : s.aon.batEmpty = false) (present : s.bat.present = true) : execWardenPackSample x i s =
      .next (accountAfter (wardenStep s (filled s (cellCount s) x) i) (packCurrent (wardenStep s (filled s (cellCount s) x) i))
        (filledCells s (cellCount s) x.cells)) := by
  refine congrArg Host.Outcome.next (if_neg ?_)
  simp [up, off, charge, present]

/-! ## Anchors -/

/-- An anchor whose every cell is certain enough sets the cells, and the anchor's time starts again (R210). -/
theorem takeAnchor_counts (s : State) (r : PackRec) (cells : List Nat) (record : s.bat.packRec = some r)
    (certain : (cells.map (anchorCell s)).all (anchorCounts s) = true) :
    (takeAnchor s cells).bat.cells = cells.map (anchorCell s) ∧ (takeAnchor s cells).bat.anchored = true ∧
    (takeAnchor s cells).bat.anchorUs = s.aon.us := by
  unfold takeAnchor
  rw [record]
  dsimp only
  rw [if_pos certain]
  exact ⟨rfl, rfl, rfl⟩

/-- What REST_ANCHOR makes of a conversion at rest (R210, R212). -/
def anchorDone (s : State) (cells : List Nat) : State := recomputeCover (storeCheckpoint (takeAnchor { s with free := s.free + 1 } cells))

theorem anchorDone_keeps (s : State) (cells : List Nat) : (anchorDone s cells).nand = s.nand ∧ (anchorDone s cells).cfl = s.cfl := by
  have anchor := takeAnchor_filter { s with free := s.free + 1 } cells
  have follows := recomputeCover_follows (storeCheckpoint (takeAnchor { s with free := s.free + 1 } cells))
  obtain ⟨-, -, nand, -, cfl⟩ := storeCheckpoint_keeps (takeAnchor { s with free := s.free + 1 } cells)
  exact ⟨(follows.nand.trans nand).trans anchor.nand, (follows.cfl.trans cfl).trans anchor.cfl⟩

theorem anchorDone_counts (s : State) (r : PackRec) (cells : List Nat) (record : s.bat.packRec = some r)
    (certain : (cells.map (anchorCell { s with free := s.free + 1 })).all (anchorCounts { s with free := s.free + 1 }) = true) :
    (anchorDone s cells).bat.cells = cells.map (anchorCell { s with free := s.free + 1 }) ∧ (anchorDone s cells).bat.anchored = true ∧
    (anchorDone s cells).bat.anchorUs = s.aon.us ∧ CheckpointHolds (anchorDone s cells) := by
  have follows := recomputeCover_follows (storeCheckpoint (takeAnchor { s with free := s.free + 1 } cells))
  obtain ⟨set, anchored, us⟩ := takeAnchor_counts { s with free := s.free + 1 } r cells record certain
  exact ⟨follows.cells.trans set, follows.anchored.trans anchored, follows.anchorUs.trans us, follows.checkpointHolds rfl⟩

theorem execRestAnchor_runs (s : State) (x : Sample) (conversion : newest s.bat = some x) (usable : packUsable s = true)
    (run : s.mg.running = true) : execRestAnchor s = .next (if resting s (packCurrent s) then anchorDone s x.cells else s) := by
  unfold execRestAnchor
  rw [conversion]
  simp only [usable, run, Bool.true_and]
  rfl

end Sys2Proof.Machine

open Sys2Proof Sys2Proof.Machine

/-- Settles O24: what each step takes or sets, and what follows of it leaves that, the image and the code flash. -/
theorem estimatorSteps : Obligations.EstimatorSteps := by
  unfold Obligations.EstimatorSteps
  refine ⟨fun x dt i r s run present cells fine sense record =>
      ⟨_, execEstimatorStep_plausible x dt i r s run present cells fine sense record, ?_⟩,
    fun x dt i s run present cells bad => ⟨_, execEstimatorStep_implausible x dt i s run present cells bad, ?_⟩,
    fun x i s up off charge present => ⟨_, execWardenPackSample_due x i s up off charge present, ?_⟩,
    fun m s better => ⟨takeMargin s m, ?_, ?_⟩,
    fun x r s conversion usable run record => ⟨_, execRestAnchor_runs s x conversion usable run, ?_⟩,
    fun s usable before late => ⟨_, congrArg Host.Outcome.next (if_pos ⟨usable, before, late⟩), ?_⟩,
    fun s failed => ⟨_, congrArg Host.Outcome.next (if_pos failed), ?_⟩⟩
  · obtain ⟨ring, icmd, hold, nand, ten, cfl⟩ := conversionDone_keeps (takeSample s (filled s s.bat.cells.length x) i)
      (filled s s.bat.cells.length x) dt r
    have follows := packFollowed (conversionDone (takeSample s (filled s s.bat.cells.length x) i) (filled s s.bat.cells.length x) dt r)
    obtain ⟨conversion, command⟩ := takeSample_takes s (filled s s.bat.cells.length x) i
    exact ⟨(newest_congr (follows.ring.trans ring)).trans conversion, (follows.icmd.trans icmd).trans command,
      follows.checkpointHolds (conversionDone_checkpointHolds _ _ _ _), follows.hold.trans hold, follows.nand.trans nand,
      follows.ten.trans ten, follows.cfl.trans cfl⟩
  · obtain ⟨est, ring, off, nand, cfl⟩ := senseFails_fails (takeSample s (filled s s.bat.cells.length x) i)
    exact ⟨est, newest_congr ring, off, nand, cfl⟩
  · obtain ⟨conversion, account, hold, nand, cfl⟩ := wardenStep_keeps s (filled s (cellCount s) x) i
    obtain ⟨gap, last, rest, bat, hold', nand', cfl'⟩ := accountAfter_adds (wardenStep s (filled s (cellCount s) x) i)
      (packCurrent (wardenStep s (filled s (cellCount s) x) i)) (filledCells s (cellCount s) x.cells)
    rw [account] at gap rest
    exact ⟨(congrArg newest bat).trans conversion, gap, last, rest, hold'.trans hold, nand'.trans nand, cfl'.trans cfl⟩
  · exact congrArg Host.Outcome.next (by rw [better])
  · simp only [takeMargin_bat, takeMargin_frame, and_self]
  · cases rest : resting s (packCurrent s)
    · exact ⟨rfl, rfl, fun _ => rfl, fun h => absurd h Bool.false_ne_true⟩
    · obtain ⟨nand, cfl⟩ := anchorDone_keeps s x.cells
      exact ⟨nand, cfl, fun h => absurd h.symm Bool.false_ne_true, fun _ => anchorDone_counts s r x.cells record⟩
  · have follows := (logEv_follows { s with bat := { s.bat with est := .unanchored } } 2 .unanchored 0 0 0 0).trans
      (recomputeCover_follows _)
    exact ⟨follows.est, follows.hold, follows.nand, follows.cfl⟩
  · have follows := packFollowed { s with bat := { s.bat with est := .learning, anchored := false, probed := false } }
    exact ⟨follows.est, follows.hold, follows.nand, follows.cfl⟩

end

section
/-! LAW. REST requests and windows, the probes and the pack record (R211, R212, R219, R220, R275). -/

namespace Sys2Proof.Machine

/-! ## REST -/

/-- The first request's time is noted; notices, the event and the frame leave the rest of the pack, AON, the image and the code flash
(R219, R275). -/
theorem execRestRequest_asks (s : State) (wanted : restWanted s = true) (run : s.mg.running = true) :
    Completes .restRequest s fun t =>
      t.bat.firstRestReq = some (s.bat.firstRestReq.getD s.aon.us) ∧ t.bat.chg = s.bat.chg ∧ t.aon = s.aon ∧ t.nand = s.nand ∧
      t.cfl = s.cfl := by
  refine ⟨_, congrArg Host.Outcome.next (if_pos (by rw [wanted, run]; rfl)), ?_⟩
  dsimp only
  split
  · simp only [fwSend_frame, logEv_frame, noticeAll_frame, and_self]
  · simp only [logEv_frame, noticeAll_frame, and_self]

/-- A REST window pauses a charger that charges for 30 min (R220). -/
theorem openRest_pauses (s : State) (h : s.bat.chg.charging = true) : (openRest s).bat.chg = .paused ∧
    openRest s = { s with bat := (openRest s).bat } := by
  unfold openRest
  dsimp only
  rw [if_pos (.inl h)]
  exact ⟨rfl, rfl⟩

/-- The end of a REST window takes its cause away (R220). -/
theorem restWindow_ends (s : State) : ∃ t, t = endPause { s with bat := { s.bat with restUntil := none } } .rest ∧
    t.bat.restUntil = none ∧ .rest ∉ t.bat.pauses ∧ (s.bat.chg ≠ .paused → t.bat.chg = s.bat.chg) ∧ t = { s with bat := t.bat } := by
  obtain ⟨pauses, within, mode⟩ := endPause_ends { s with bat := { s.bat with restUntil := none } } .rest
  obtain ⟨_, _, _, _, step⟩ := endPause_charger { s with bat := { s.bat with restUntil := none } } .rest
  refine ⟨_, rfl, by rw [step], ?_, mode, within⟩
  rw [pauses]
  simp

/-! ## Probes -/

/-- The state of a probe after its second sample: the step and the voltages after it (R211). -/
def probeStepped (s : State) (p : Probe) (after : List Nat) (dI : ℚ) : State :=
  { s with
    free := s.free + 1
    bat := { s.bat with probe := some { p with after := after, dI := dI, z0 := s.bat.cells.map (·.z) } } }

/-- A step of 1 A or more measures every cell (R211). -/
def impedanceProbed (s : State) (p : Probe) (after : List Nat) (dI : ℚ) : State :=
  estAfterProbe (((p.before.zip after).zipIdx).foldl (fun s x =>
    probeSer s x.2 ((s.bat.cells.map (·.z)).getD x.2 0) ((milli x.1.1 - milli x.1.2) / dI * 10000)) (probeStepped s p after dI))

theorem impedanceProbed_probe (s : State) (p : Probe) (after : List Nat) (dI : ℚ) :
    ProbeStep (probeStepped s p after dI) (impedanceProbed s p after dI) :=
  (foldl_probe _ (fun u _ => probeSer_probe u _ _ _) _ _).trans (estAfterProbe_probe _)

theorem execImpedanceProbe_runs (l : List Nat) (p : Probe) (s : State) (probe : s.bat.probe = some p) (first : p.after = [])
    (usable : packUsable s = true) : execImpedanceProbe l s =
      .next (if loadPower s / packVolts (filledCells s p.before.length l) - p.dI < 1 then
          { s with free := s.free + 1, bat := { s.bat with probe := none } }
        else impedanceProbed s p (filledCells s p.before.length l)
          (loadPower s / packVolts (filledCells s p.before.length l) - p.dI)) := by
  unfold execImpedanceProbe
  rw [probe]
  dsimp only
  rw [if_neg (by simp [first, usable])]
  rfl

/-- Two seconds into a save each cell's r_pol is measured (R211). -/
def polarisationProbed (s : State) (p : Probe) (after2s : List Nat) : State :=
  let t := tableTemp s
  ((p.after.zip (filledCells s p.after.length after2s)).zipIdx).foldl (fun s x =>
    let z := (s.bat.cells.map (·.z)).getD x.2 0
    let dOcv := ocv s (p.z0.getD x.2 0) t - ocv s z t
    probePol s x.2 z ((milli x.1.1 - milli x.1.2 - dOcv) / (p.dI * (1 - expNeg (2 / tau s))) * 10000)) s

theorem polarisationProbed_probe (s : State) (p : Probe) (l : List Nat) : ProbeStep s (polarisationProbed s p l) :=
  foldl_probe _ (fun u _ => probePol_probe u _ _ _) _ _

theorem execPolarisationProbe_runs (l : List Nat) (p : Probe) (s : State) (probe : s.bat.probe = some p) (second : p.after ≠ [])
    (usable : packUsable s = true) (save : s.aon.hold = .save) : execPolarisationProbe l s =
      .next { polarisationProbed s p l with
        free := (polarisationProbed s p l).free + 1
        bat := { (polarisationProbed s p l).bat with probe := none } } := by
  unfold execPolarisationProbe
  rw [probe]
  dsimp only
  rw [if_neg (by simp [second, usable, save])]
  rfl

/-! ## The pack record -/

theorem execPackRecordWrite_due (r : PackRec) (s : State) (run : s.mg.running = true) (record : s.bat.packRec = some r)
    (due : ∀ w, s.bat.storedAt = some w → w + 86400000000 ≤ s.aon.us) : execPackRecordWrite s =
      .next (writeArea { s with bat := { s.bat with stored := s.bat.packRec, storedAt := some s.aon.us } } .pack) := by
  refine congrArg Host.Outcome.next (if_pos ?_)
  cases at_ : s.bat.storedAt with
  | none => simp [run, record]
  | some w => simp [run, record, due w at_]

end Sys2Proof.Machine

open Sys2Proof Sys2Proof.Machine

/-- Settles O25: each window, probe or write is one change of the pack. -/
theorem restWindowsAndProbes : Obligations.RestWindowsAndProbes := by
  unfold Obligations.RestWindowsAndProbes
  refine ⟨execRestRequest_asks, fun s hold wanted alone h => ⟨openRest s, congrArg Host.Outcome.next (if_pos ⟨hold, wanted, alone⟩), ?_⟩,
    fun s open_ => ?_, fun l p s probe first usable => ?_,
    fun l p s probe second usable save => ⟨_, execPolarisationProbe_runs l p s probe second usable save, ?_⟩,
    fun r s run record due => ⟨_, execPackRecordWrite_due r s run record due, ?_⟩⟩
  · obtain ⟨until_, pause, -⟩ := openRest_opens s
    obtain ⟨paused, within⟩ := openRest_pauses s h
    exact ⟨until_, pause, paused, within⟩
  · obtain ⟨t, rfl, ended⟩ := restWindow_ends s
    exact ⟨_, congrArg Host.Outcome.next (if_pos open_), ended⟩
  · have run := execImpedanceProbe_runs l p s probe first usable
    refine ⟨fun step => ⟨_, run.trans (by rw [if_neg step]), ?_⟩, fun small => ⟨_, run.trans (by rw [if_pos small]), rfl, rfl⟩⟩
    have kept := impedanceProbed_probe s p (filledCells s p.before.length l)
      (loadPower s / packVolts (filledCells s p.before.length l) - p.dI)
    exact ⟨⟨_, kept.probe, rfl, rfl⟩, kept.cells, kept.aon, kept.nand, kept.cfl⟩
  · have kept := polarisationProbed_probe s p l
    exact ⟨rfl, kept.cells, kept.aon, kept.nand, kept.cfl⟩
  · rw [record]
    exact ⟨rfl, rfl⟩

end

section
/-! SUPPORT. What the operations of the shelf bus change of SHB and leave as it was (R231-R234, R244, R251). -/

namespace Sys2Proof.Machine

/-! ## The interrupt and the mode -/

theorem raiseIrq_shb (s : State) (bits : Word) : (raiseIrq s bits).shb = { s.shb with irq := s.shb.irq ||| bits } := by
  unfold raiseIrq
  dsimp only
  split
  · rfl
  · rfl

/-- Raised bits touch BW_IRQ and the in-band interrupts alone (R246, R251). -/
theorem raiseIrq_within (s : State) (bits : Word) :
    raiseIrq s bits = { s with shb := (raiseIrq s bits).shb, i3c := (raiseIrq s bits).i3c } := by
  unfold raiseIrq
  dsimp only
  split
  · rfl
  · rfl

theorem setBusMode_shb (s : State) (m : BusMode) : ∃ irq, (setBusMode s m).shb = { s.shb with mode := m, irq := irq } := by
  unfold setBusMode
  split
  · next same => exact ⟨s.shb.irq, by rw [← same]⟩
  · exact ⟨_, by rw [raiseIrq_shb, (dropKeeper_frame _).2.2.2.2.2.2.2.2.2.2.1]⟩

/-- Joining the bus sets the mode, BW_IRQ and the wait for integration alone (R231, R234). -/
theorem joinBus_shb (s : State) : ∃ m irq i, (joinBus s).shb = { s.shb with mode := m, irq := irq, integrating := i } ∧
    (m = s.shb.mode ∨ m = .listen) := by
  unfold joinBus
  split
  · exact ⟨_, _, _, rfl, .inl rfl⟩
  · split
    · obtain ⟨irq, shb⟩ := setBusMode_shb s .listen
      exact ⟨_, irq, s.shb.integrating, shb, .inr rfl⟩
    · exact ⟨_, _, _, rfl, .inl rfl⟩

/-- Detection begins anew with the rates of the option area (R232, R233). -/
theorem detect_shb (s : State) : ∃ m irq i, (m = .detecting ∨ m = .listen) ∧ (detect s).shb = { s.shb with
    mode := m, irq := irq, integrating := i, nrate := s.aon.opt.nomRate.toNat, drate := s.aon.opt.dataRate.toNat, cand := 4, validRun := 0
    errRun := 0, dcand := 0, dvalid := 0, derr := 0, recovering := false, noFrame := false } := by
  unfold detect
  dsimp only
  generalize fresh : ({ s with shb := { s.shb with
      nrate := s.aon.opt.nomRate.toNat, drate := s.aon.opt.dataRate.toNat, cand := 4, validRun := 0, errRun := 0, dcand := 0
      dvalid := 0, derr := 0, integrating := false, recovering := false, noFrame := false } } : State) = u
  obtain ⟨irq, detecting⟩ := setBusMode_shb u .detecting
  obtain ⟨m, irq', i, joined, mode⟩ := joinBus_shb (setBusMode u .detecting)
  refine ⟨m, irq', i, by simpa only [detecting] using mode, ?_⟩
  rw [joined, detecting, ← fresh]

/-- SHB takes its new error state, and a change of it raises BW_IRQ.STATE (R244, R251). -/
def passiveNoted (s : State) (now old : Bool) : State :=
  if now = old then setShb s (fun b => { b with passive := now }) else raiseIrq (setShb s (fun b => { b with passive := now })) irqState

theorem passiveNoted_shb (s : State) (now old : Bool) :
    ∃ irq, (passiveNoted s now old).shb = { s.shb with passive := now, irq := irq } := by
  unfold passiveNoted
  split
  · exact ⟨_, rfl⟩
  · exact ⟨_, raiseIrq_shb _ _⟩

@[simp] theorem passiveNoted_frame (s : State) (now old : Bool) :
    (passiveNoted s now old).aon = s.aon ∧ (passiveNoted s now old).nand = s.nand ∧ (passiveNoted s now old).cfl = s.cfl ∧
    (passiveNoted s now old).mg = s.mg := by
  unfold passiveNoted
  split
  · simp
  · simp

/-! ## A vector's entry by its number -/

theorem updNat_eq_upd {α : Type} {n : Nat} (v : Vector α n) (i : Fin n) (f : α → α) : updNat v i.val f = upd v i f := dif_pos i.isLt

end Sys2Proof.Machine

end

section
/-! LAW. Reception, the rate detection and the errors that a listening node counts (R224, R229, R232-R237, R243, R258). -/

namespace Sys2Proof.Machine

/-! ## The queues under a frame that is not filtered -/

/-- From `s` to `t` the receive queues, the partial messages, AON, the arrays, the code flash and the sessions stand. -/
structure KeepsQueues (s t : State) : Prop where
  q0 : t.shb.q0 = s.shb.q0
  q1 : t.shb.q1 = s.shb.q1
  partials : t.shb.partials = s.shb.partials
  aon : t.aon = s.aon
  nand : t.nand = s.nand
  cfl : t.cfl = s.cfl
  mg : t.mg = s.mg

theorem KeepsQueues.refl (s : State) : KeepsQueues s s := ⟨rfl, rfl, rfl, rfl, rfl, rfl, rfl⟩

theorem KeepsQueues.trans {s t u : State} (a : KeepsQueues s t) (b : KeepsQueues t u) : KeepsQueues s u :=
  ⟨b.q0.trans a.q0, b.q1.trans a.q1, b.partials.trans a.partials, b.aon.trans a.aon, b.nand.trans a.nand, b.cfl.trans a.cfl,
    b.mg.trans a.mg⟩

theorem passiveNoted_keepsQueues (s : State) (now old : Bool) : KeepsQueues s (passiveNoted s now old) := by
  obtain ⟨irq, shb⟩ := passiveNoted_shb s now old
  constructor <;> simp only [shb, passiveNoted_frame]

theorem joinBus_keepsQueues (s : State) : KeepsQueues s (joinBus s) := by
  obtain ⟨m, irq, i, shb, -⟩ := joinBus_shb s
  constructor <;> simp only [shb, joinBus_frame]

theorem noteValid_keepsQueues (s : State) : KeepsQueues s (noteValid s) := by
  unfold noteValid
  dsimp only
  split
  · split
    · exact ⟨rfl, rfl, rfl, rfl, rfl, rfl, rfl⟩
    · refine .trans ?_ (joinBus_keepsQueues _)
      exact ⟨rfl, rfl, rfl, rfl, rfl, rfl, rfl⟩
  · exact ⟨rfl, rfl, rfl, rfl, rfl, rfl, rfl⟩

theorem noteBrs_keepsQueues (s : State) (run : Nat) : KeepsQueues s (noteBrs s run).2 := by
  unfold noteBrs
  split
  · exact .refl s
  · split
    · exact ⟨rfl, rfl, rfl, rfl, rfl, rfl, rfl⟩
    · split
      · exact ⟨rfl, rfl, rfl, rfl, rfl, rfl, rfl⟩
      · refine .trans ?_ (joinBus_keepsQueues _)
        exact ⟨rfl, rfl, rfl, rfl, rfl, rfl, rfl⟩

theorem receiveOk_keepsQueues (s : State) : KeepsQueues s (receiveOk s) := by
  unfold receiveOk
  split
  · refine .trans ?_ (passiveNoted_keepsQueues _ _ _)
    split
    · exact ⟨rfl, rfl, rfl, rfl, rfl, rfl, rfl⟩
    · exact ⟨rfl, rfl, rfl, rfl, rfl, rfl, rfl⟩
  · exact .refl s

theorem countFrame_keepsQueues (s : State) (x : Frame) : KeepsQueues s (countFrame s x) := by
  unfold countFrame
  split
  · exact ⟨rfl, rfl, rfl, rfl, rfl, rfl, rfl⟩
  · exact .refl s

/-- A base-format or remote frame is discarded before filtering (R224). -/
theorem receiveFrame_unfiltered (s : State) (f : FrameForm) (x : Frame) (run : Nat) (form : f ≠ .extended) :
    KeepsQueues s (receiveFrame s f x run) := by
  have measured : KeepsQueues s (if dataStep s then noteBrs s run else (decide (2 ≤ s.shb.drate), s)).2 := by
    split
    · exact noteBrs_keepsQueues s run
    · exact .refl s
  unfold receiveFrame
  simp only [form, if_false]
  generalize (if dataStep s then noteBrs s run else (decide (2 ≤ s.shb.drate), s)) = q at measured ⊢
  split
  · exact .refl s
  · split
    · split
      · exact .refl s
      · split
        · exact measured.trans (receiveOk_keepsQueues _)
        · exact measured
    · exact (noteValid_keepsQueues s).trans (receiveOk_keepsQueues _)

/-! ## A frame that a listening node takes -/

/-- A frame that the bus can carry is whole as the command gives it (R224). -/
theorem wholeFrame_of_ok (s : State) (f : FrameForm) (x : Frame) (ok : frameOk f x = true) : wholeFrame s x = x ∧ countFrame s x = s := by
  simp only [frameOk, Bool.and_eq_true, decide_eq_true_eq, Bool.or_eq_true, Bool.not_eq_true'] at ok
  obtain ⟨⟨length, fd⟩, -⟩ := ok
  have bytes : (List.range (dlcLen x.fdf x.dlc)).map (fun i => x.data.getD i (Config.busByte s.free i)) = x.data :=
    List.ext_getElem (by simp [length]) (fun i _ h => by simp [h])
  have brs : (x.brs && x.fdf) = x.brs := by
    obtain h | h := fd
    · simp [h]
    · simp [h]
  exact ⟨by rw [wholeFrame, bytes, brs], if_neg (by omega)⟩

/-- A listening node filters a frame without BRS, and counts nothing of it (R232, R235). -/
theorem execFrameReceived_listens (x : Frame) (run : Nat) (s : State) (ok : frameOk .extended x = true) (listen : s.shb.mode = .listen)
    (brs : x.brs = false) :
    execFrameReceived .extended x run s = .next (filterFrame (setShb s (fun b => { b with errRun := 0 })) x) := by
  obtain ⟨whole, counted⟩ := wholeFrame_of_ok s .extended x ok
  have uses : onBus s = true := by simp [onBus, listen]
  have valid : noteValid s = setShb s (fun b => { b with errRun := 0 }) := if_neg (by simp [nominalStep, setShb, listen])
  have taken : receiveOk (setShb s (fun b => { b with errRun := 0 })) = setShb s (fun b => { b with errRun := 0 }) :=
    if_neg (by simp [setShb, listen])
  unfold execFrameReceived receiveFrame
  rw [whole, counted]
  simp only [uses, brs, valid, taken, Bool.not_true, Bool.false_eq_true, if_false, if_true]

/-- A frame of another node that no pair matches is a miss (R235). -/
theorem filterFrame_missed (s : State) (x : Frame) (other : idSrc x.id ≠ s.aon.opt.nodeId) (missed : matchingPair s x = none) :
    filterFrame s x = setShb s (fun b => { b with counts := { b.counts with miss := b.counts.miss + 1 } }) := by
  unfold filterFrame
  rw [if_neg (fun h => other h.1)]
  dsimp only
  rw [missed]

/-- One that a bridge pair matches goes to Q1 (R235, R237). -/
theorem filterFrame_bridge (s : State) (x : Frame) (n : Nat) (other : idSrc x.id ≠ s.aon.opt.nodeId) (pair : matchingPair s x = some n)
    (bridge : 16 ≤ n) : filterFrame s x = enterQ1 s x n := by
  unfold filterFrame
  rw [if_neg (fun h => other h.1)]
  dsimp only
  rw [pair]
  exact if_neg (Nat.not_lt.mpr bridge)

/-- A frame that enters Q1 takes the lowest free entry with its arrival number (R237, R255; assumption log entry 35). -/
theorem enterQ1_enters (s : State) (x : Frame) (n : Nat) (i : Fin 64) (free : freeQ1 s.shb = some i) :
    (enterQ1 s x n).shb.q1 =
      upd s.shb.q1 i (fun _ => some { frame := x, seq := s.shb.q1seq % 65536, pair := n, ts := s.warp.ns, locked := false }) ∧
    (enterQ1 s x n).shb.q0 = s.shb.q0 ∧ enterQ1 s x n = { s with shb := (enterQ1 s x n).shb, i3c := (enterQ1 s x n).i3c } := by
  unfold enterQ1
  rw [free]
  refine ⟨?_, ?_, raiseIrq_within _ _⟩
  · rw [raiseIrq_shb]
    rfl
  · rw [raiseIrq_shb]
    rfl

/-! ## Errors of a node that listens -/

/-- What the detection makes of an error leaves the counters, LAST, TEC and REC (R232, R243). -/
theorem errorInDetection_keeps (s : State) (brs : Bool) (listen : s.shb.mode = .listen) :
    (errorInDetection s brs).shb.counts = s.shb.counts ∧ (errorInDetection s brs).shb.last = s.shb.last ∧
    (errorInDetection s brs).shb.tec = s.shb.tec ∧ (errorInDetection s brs).shb.recCnt = s.shb.recCnt ∧
    (errorInDetection s brs).aon = s.aon ∧ (errorInDetection s brs).nand = s.nand ∧ (errorInDetection s brs).cfl = s.cfl ∧
    (errorInDetection s brs).mg = s.mg := by
  unfold errorInDetection
  dsimp only
  split
  · split
    · split
      · exact ⟨rfl, rfl, rfl, rfl, rfl, rfl, rfl, rfl⟩
      · exact ⟨rfl, rfl, rfl, rfl, rfl, rfl, rfl, rfl⟩
    · exact ⟨rfl, rfl, rfl, rfl, rfl, rfl, rfl, rfl⟩
  · split
    · exact ⟨rfl, rfl, rfl, rfl, rfl, rfl, rfl, rfl⟩
    · rw [if_neg (by simp [nominalStep, setShb, listen])]
      split
      · obtain ⟨m, irq, i, -, shb⟩ := detect_shb (setShb s (fun b => { b with errRun := b.errRun + 1, validRun := 0 }))
        simp only [shb, detect_frame]
        exact ⟨rfl, rfl, rfl, rfl, rfl, rfl, rfl, rfl⟩
      · exact ⟨rfl, rfl, rfl, rfl, rfl, rfl, rfl, rfl⟩

/-- An error of a listening node is counted with its kind and goes to the detection (R243). -/
theorem execBusError_listens (e : BusErr) (tx brs : Bool) (s : State) (listen : s.shb.mode = .listen) : execBusError e tx brs s =
    .next (errorInDetection (setShb s (fun b => { b with counts := countErr b.counts e, last := lastCode e })) brs) := by
  unfold execBusError
  simp only [setShb, nominalStep, listen, reduceCtorEq, decide_false, Bool.false_and, Bool.false_eq_true, if_false, or_true, if_true]

/-! ## Candidate rates -/

/-- The next candidate, and the fault after a whole round, which is logged once (R232, R258). -/
theorem nextCandidate_tries (s : State) :
    (nextCandidate s).shb = { s.shb with
      cand := if s.shb.cand ≤ 1 then 4 else s.shb.cand - 1, validRun := 0, errRun := 0
      noFrame := s.shb.noFrame || decide (s.shb.cand ≤ 1) } ∧
    nextCandidate s = { s with shb := (nextCandidate s).shb, log := (nextCandidate s).log } ∧
    (1 < s.shb.cand ∨ s.shb.noFrame = true → (nextCandidate s).log = s.log) := by
  unfold nextCandidate noteNoFrame
  by_cases round : s.shb.cand ≤ 1
  · cases known : s.shb.noFrame with
    | true => simp [round, known, setShb]
    | false => simp [round, setShb, logEv, logSev]
  · simp [round, setShb]

end Sys2Proof.Machine

open Sys2Proof Sys2Proof.Machine

/-- Settles O37: reception of a listening node, the detection's time-outs, the errors it counts and the end of integration. -/
theorem busReceptionAndDetection : Obligations.BusReceptionAndDetection := by
  unfold Obligations.BusReceptionAndDetection
  refine ⟨fun x run s ok listen _ brs other missed => ⟨_, (execFrameReceived_listens x run s ok listen brs).trans
      (congrArg Host.Outcome.next (filterFrame_missed _ x other missed)), rfl, rfl, rfl, rfl⟩,
    fun x run n i s ok listen _ brs other pair bridge free => ⟨_, (execFrameReceived_listens x run s ok listen brs).trans
      (congrArg Host.Outcome.next (filterFrame_bridge _ x n other pair bridge)), ?_⟩,
    fun f x run s form => ⟨_, rfl, ?_⟩, fun s detecting unknown => ⟨_, congrArg Host.Outcome.next (if_pos ?_), nextCandidate_tries s⟩,
    fun s unnamed nominal unknown => ⟨_, congrArg Host.Outcome.next (if_pos ?_), ?_⟩,
    fun e tx brs s listen => ⟨_, execBusError_listens e tx brs s listen, errorInDetection_keeps _ brs listen⟩,
    fun s waits detecting => ⟨_, congrArg Host.Outcome.next ((if_pos waits).trans (if_pos detecting)), ?_⟩,
    fun src cls type tag s held => ⟨_, congrArg Host.Outcome.next (if_pos held), rfl, rfl, rfl⟩⟩
  · obtain ⟨q1, q0, within⟩ := enterQ1_enters (setShb s (fun b => { b with errRun := 0 })) x n i free
    rw [q1]
    exact ⟨upd_self _ i _, fun j hj => upd_other _ i j _ hj, q0, within⟩
  · have kept := (countFrame_keepsQueues s x).trans (receiveFrame_unfiltered (countFrame s x) f (wholeFrame s x) run form)
    exact ⟨kept.q0, kept.q1, kept.partials, kept.aon, kept.nand, kept.cfl, kept.mg⟩
  · simp [nominalStep, detecting, unknown]
  · simp [dataStep, unnamed, nominal, unknown]
  · obtain ⟨m, irq, i, shb, -⟩ := joinBus_shb (setShb s (fun b => { b with drate := 1 }))
    simp [shb]
  · obtain ⟨irq, shb⟩ := setBusMode_shb (setShb s (fun b => { b with integrating := false, stuck := false })) .active
    simp [shb]

end

section
/-! LAW. Transmission, bus-off and its recovery, and the firmware's BEACON (R227, R230, R240-R245, R258). -/

namespace Sys2Proof.Machine

/-! ## Identifiers (R227) -/

theorem makeId_toNat (c t n g : Nat) :
    (makeId c t n g).toNat = c % 8 * 2 ^ 26 + t % 64 * 2 ^ 20 + n % 1024 * 2 ^ 10 + g % 1024 := by
  rw [makeId, BitVec.toNat_ofNat]
  exact Nat.mod_eq_of_lt (by omega)

theorem idClass_makeId (c t n g : Nat) : idClass (makeId c t n g) = BitVec.ofNat 3 c := by
  apply BitVec.eq_of_toNat_eq
  rw [idClass, BitVec.extractLsb'_toNat, makeId_toNat, Nat.shiftRight_eq_div_pow, BitVec.toNat_ofNat]
  omega

theorem idType_makeId (c t n g : Nat) : idType (makeId c t n g) = BitVec.ofNat 6 t := by
  apply BitVec.eq_of_toNat_eq
  rw [idType, BitVec.extractLsb'_toNat, makeId_toNat, Nat.shiftRight_eq_div_pow, BitVec.toNat_ofNat]
  omega

theorem idSrc_makeId (c t n g : Nat) : idSrc (makeId c t n g) = BitVec.ofNat 10 n := by
  apply BitVec.eq_of_toNat_eq
  rw [idSrc, BitVec.extractLsb'_toNat, makeId_toNat, Nat.shiftRight_eq_div_pow, BitVec.toNat_ofNat]
  omega

/-! ## Which frame wins (R240) -/

/-- The winner competes, and no frame that competes has a lower identifier. -/
theorem lowestId_least {l : List (CanId × OnWire)} {p : CanId × OnWire} (h : lowestId l = some p) : p ∈ l ∧ ∀ q ∈ l, p.1 ≤ q.1 := by
  induction l generalizing p with
  | nil => simp [lowestId] at h
  | cons a t ih =>
    unfold lowestId at h
    cases rest : lowestId t with
    | none =>
      have alone : t = [] := by
        cases t with
        | nil => rfl
        | cons b u =>
          unfold lowestId at rest
          split at rest
          · split at rest <;> cases rest
          · cases rest
      rw [rest] at h
      cases h
      simp [alone]
    | some q =>
      obtain ⟨mem, least⟩ := ih rest
      rw [rest] at h
      dsimp only at h
      split at h
      · next lower =>
        cases h
        exact ⟨List.mem_cons_of_mem _ mem, List.forall_mem_cons.mpr ⟨BitVec.le_of_lt lower, least⟩⟩
      · next notLower =>
        cases h
        have first : a.1 ≤ q.1 := BitVec.not_lt.mp notLower
        exact ⟨List.mem_cons_self, List.forall_mem_cons.mpr ⟨BitVec.le_refl _, fun r hr => BitVec.le_trans first (least r hr)⟩⟩

/-- A PENDING mailbox competes with its identifier, and no other mailbox does. -/
theorem mbox_competing (s : State) (id : CanId) (n : Fin 16) :
    (id, OnWire.mbox n) ∈ competing s ↔ (s.shb.mbox[n.val]).status = .pending ∧ (s.shb.mbox[n.val]).id = id := by
  have fifo : (id, OnWire.mbox n) ∉ (s.shb.fifo.take 1).map (fun x => (x.id, OnWire.fifo)) := by
    simp only [List.mem_map, Prod.mk.injEq, reduceCtorEq, and_false, exists_false, not_false_eq_true]
  rw [competing, List.mem_append, or_iff_left fifo]
  simp [allFin]

/-- A winning mailbox has the lowest identifier of those that are PENDING. -/
theorem lowestId_mbox {s : State} {id : CanId} {n : Fin 16} (h : lowestId (competing s) = some (id, .mbox n)) (m : Fin 16)
    (pending : (s.shb.mbox[m.val]).status = .pending) : (s.shb.mbox[n.val]).id ≤ (s.shb.mbox[m.val]).id := by
  obtain ⟨mem, least⟩ := lowestId_least h
  rw [((mbox_competing s id n).mp mem).2]
  exact least _ ((mbox_competing s _ m).mpr ⟨pending, rfl⟩)

theorem noteSof_within (s : State) (id : CanId) : noteSof s id = { s with warp := (noteSof s id).warp } := by
  unfold noteSof
  split
  · rfl
  · rfl

/-- The state in which a mailbox's frame is on the wire (R240). -/
def mboxOnWire (s : State) (n : Fin 16) : State :=
  setShb (setMbox s n (fun m => { m with status := .active, tries := min 15 (m.tries + 1) })) (fun b => { b with onWire := .mbox n })

theorem execFrameSof_mbox (id : CanId) (n : Fin 16) (s : State) (active : s.shb.mode = .active) (integrated : s.shb.integrating = false)
    (idle : s.shb.onWire = .idle) (wins : lowestId (competing s) = some (id, .mbox n)) :
    execFrameSof s = .next (noteSof (mboxOnWire s n) id) := by
  unfold execFrameSof
  rw [if_pos ⟨active, integrated, idle⟩, wins]
  rfl

/-! ## A mailbox ends (R239-R241) -/

theorem endMbox_shb (s : State) (n : Fin 16) (st : MboxStatus) : ∃ irq, (endMbox s n st).shb = { s.shb with
    mbox := upd s.shb.mbox n (fun m => { m with status := st, cancel := false, abort := false }), irq := irq } := by
  unfold endMbox
  dsimp only
  split
  · exact ⟨_, raiseIrq_shb _ _⟩
  · exact ⟨_, rfl⟩

theorem endMbox_within (s : State) (n : Fin 16) (st : MboxStatus) :
    endMbox s n st = { s with shb := (endMbox s n st).shb, i3c := (endMbox s n st).i3c } := by
  unfold endMbox
  dsimp only
  split
  · exact raiseIrq_within _ _
  · rfl

/-- A mailbox that is PENDING again has not ended: no interrupt is raised (R251). -/
theorem endMbox_pending (s : State) (n : Fin 16) :
    endMbox s n .pending = setMbox s n (fun m => { m with status := .pending, cancel := false, abort := false }) :=
  if_neg (fun h => Bool.false_ne_true h.2)

/-- The state after a mailbox's frame has gone out: the frame sent, the wire idle, the mailbox DONE (R240). -/
def mboxSent (s : State) (n : Fin 16) : State :=
  endMbox (dropWire (setShb s (fun b => { b with sent := mboxFrame s s.shb.mbox[n.val] :: b.sent, tec := b.tec - 1 }))) n .done

theorem mboxSent_shb (s : State) (n : Fin 16) : ∃ irq, (mboxSent s n).shb = { s.shb with
    sent := mboxFrame s s.shb.mbox[n.val] :: s.shb.sent, tec := s.shb.tec - 1, onWire := .idle
    mbox := upd s.shb.mbox n (fun m => { m with status := .done, cancel := false, abort := false }), irq := irq } := by
  obtain ⟨irq, shb⟩ := endMbox_shb (dropWire (setShb s (fun b =>
    { b with sent := mboxFrame s s.shb.mbox[n.val] :: b.sent, tec := b.tec - 1 }))) n .done
  exact ⟨irq, shb⟩

theorem mboxSent_frame (s : State) (n : Fin 16) : (mboxSent s n).aon = s.aon ∧ (mboxSent s n).nand = s.nand ∧
    (mboxSent s n).cfl = s.cfl ∧ (mboxSent s n).mg = s.mg := by
  rw [mboxSent, endMbox_within]
  exact ⟨rfl, rfl, rfl, rfl⟩

/-- What becomes of the frame on the wire when it has gone out (R240-R242, R261). -/
def frameGone (s : State) : OnWire → State
  | .idle => s
  | .mbox n => followSync (mboxSent s n) (s.shb.mbox[n.val]).id
  | .fifo => refillFifo (dropWire (setShb s (fun b => { b with sent := b.fifo.take 1 ++ b.sent, fifo := b.fifo.drop 1, tec := b.tec - 1 })))

theorem execFrameTxDone_eq (s : State) : execFrameTxDone s = .next (passiveNoted (frameGone s s.shb.onWire)
    (127 < (frameGone s s.shb.onWire).shb.tec || 127 < (frameGone s s.shb.onWire).shb.recCnt) s.shb.passive) := rfl

/-- A frame of another class than 0 leads to no FOLLOW_UP (R261). -/
theorem followSync_other (s : State) (id : CanId) (cls : idClass id ≠ 0) : followSync s id = s := if_neg (fun h => cls h.1)

theorem execFrameTxDone_mbox (n : Fin 16) (s : State) (wire : s.shb.onWire = .mbox n) (cls : idClass (s.shb.mbox[n.val]).id ≠ 0) :
    execFrameTxDone s = .next (passiveNoted (mboxSent s n)
      (127 < (mboxSent s n).shb.tec || 127 < (mboxSent s n).shb.recCnt) s.shb.passive) := by
  rw [execFrameTxDone_eq, wire, frameGone, followSync_other _ _ cls]

theorem execArbitrationLost_again (n : Fin 16) (s : State) (wire : s.shb.onWire = .mbox n) (kept : (s.shb.mbox[n.val]).abort = false)
    (wanted : (s.shb.mbox[n.val]).cancel = false) (limit : (s.shb.mbox[n.val]).attempts = 0) : execArbitrationLost s =
      .next (setMbox (dropWire (setShb s (fun b => { b with counts := { b.counts with arblost := b.counts.arblost + 1 } }))) n
        (fun m => { m with status := .pending, cancel := false, abort := false })) := by
  unfold execArbitrationLost failAttempt
  rw [if_neg (by rw [wire]; exact OnWire.noConfusion), setShb_shb]
  dsimp only
  rw [wire]
  dsimp only
  simp only [kept, wanted, limit, Bool.false_eq_true, if_false, ne_eq, not_true_eq_false, false_and, endMbox_pending]

/-! ## Recovery (R244, R245) -/

/-- The state in which SHB is ACTIVE again after bus-off: TEC and REC 0, error active (R244). -/
def recovered (s : State) : State :=
  let s := setShb s (fun b => { b with recovering := false, tec := 0, recCnt := 0 })
  setBusMode (holdElection (if s.shb.passive then raiseIrq (setShb s (fun b => { b with passive := false })) irqState else s)) .active

theorem recovered_active (s : State) : (recovered s).shb.mode = .active ∧ (recovered s).shb.tec = 0 ∧ (recovered s).shb.recCnt = 0 ∧
    (recovered s).shb.recovering = false ∧ (recovered s).shb.passive = false ∧ (recovered s).aon = s.aon ∧ (recovered s).nand = s.nand ∧
    (recovered s).cfl = s.cfl := by
  unfold recovered
  dsimp only
  split
  · obtain ⟨irq, shb⟩ := setBusMode_shb (holdElection (raiseIrq (setShb
      (setShb s (fun b => { b with recovering := false, tec := 0, recCnt := 0 })) (fun b => { b with passive := false })) irqState)) .active
    rw [shb]
    simp [holdElection, raiseIrq_shb]
  · next active =>
    obtain ⟨irq, shb⟩ := setBusMode_shb (holdElection (setShb s (fun b => { b with recovering := false, tec := 0, recCnt := 0 }))) .active
    rw [shb]
    simpa [holdElection] using active

/-! ## The transmit FIFO (R242) -/

/-- Frames for which the FIFO has room, with none of the firmware's waiting, go behind what it holds. -/
theorem fifoSend_room (s : State) (l : List Frame) (none_waits : s.mg.txFeed = []) (room : s.shb.fifo.length + l.length ≤ 32) :
    fifoSend s l = { s with shb := { s.shb with fifo := s.shb.fifo ++ l } } := by
  have all : l.length ≤ 32 - s.shb.fifo.length := by omega
  have feed : ({ s.mg with txFeed := [] } : Mgmt) = s.mg := by rw [← none_waits]
  simp only [fifoSend, refillFifo, none_waits, List.nil_append, List.take_of_length_le all, List.drop_of_length_le all, feed]

end Sys2Proof.Machine

open Sys2Proof Sys2Proof.Machine

/-- Settles O38: the frame that wins the bus, what becomes of it, bus-off and the BEACON. -/
theorem busTransmissionAndBusOff : Obligations.BusTransmissionAndBusOff := by
  unfold Obligations.BusTransmissionAndBusOff
  refine ⟨fun id n s active integrated idle wins => ⟨_, execFrameSof_mbox id n s active integrated idle wins, ?_⟩,
    fun n s wire cls => ⟨_, execFrameTxDone_mbox n s wire cls, ?_⟩,
    fun n s wire kept wanted limit => ⟨_, execArbitrationLost_again n s wire kept wanted limit, rfl,
      congrArg Mbox.status (upd_self s.shb.mbox n _), rfl, rfl⟩,
    fun s off stands run few => ⟨_, congrArg Host.Outcome.next ((if_pos ⟨off, stands, run⟩).trans ((if_pos few).trans (if_pos off))), rfl,
      rfl, rfl⟩,
    fun s off recovers => ⟨recovered s, congrArg Host.Outcome.next (if_pos ⟨off, recovers⟩), recovered_active s⟩,
    fun s used => ⟨_, congrArg Host.Outcome.next (if_neg used), ?_⟩,
    fun s run on beacon room feed => ⟨_, congrArg Host.Outcome.next ((if_pos ⟨run, on, beacon, room⟩).trans
      (fifoSend_room s _ feed room)), ?_⟩⟩
  · rw [noteSof_within]
    exact ⟨rfl, congrArg Mbox.status (upd_self s.shb.mbox n _), fun m hm => upd_other _ n m _ hm, fun m => lowestId_mbox wins m, rfl, rfl⟩
  · obtain ⟨irq, noted⟩ := passiveNoted_shb (mboxSent s n) (127 < (mboxSent s n).shb.tec || 127 < (mboxSent s n).shb.recCnt) s.shb.passive
    obtain ⟨irq', sent⟩ := mboxSent_shb s n
    simp only [passiveNoted_frame, mboxSent_frame, and_true]
    rw [noted, sent]
    exact ⟨rfl, congrArg Mbox.status (upd_self s.shb.mbox n _), rfl, fun m hm => upd_other _ n m _ hm, rfl⟩
  · simp [logEv, logSev]
  · refine ⟨⟨_, rfl, idClass_makeId _ _ _ _, idType_makeId _ _ _ _, ?_, rfl, rfl⟩, rfl⟩
    rw [idSrc_makeId, BitVec.ofNat_toNat]
    rfl

end

section
/-! LAW. The bridge window (R238, R240, R241, R246-R255). -/

namespace Sys2Proof.Machine

/-! ## Accesses -/

theorem onWindow_on (s : State) (f : State → State) (on : windowOn s = true) : onWindow s f = f s := if_pos on

theorem windowOn_answers {s : State} (on : windowOn s = true) : targetAnswers s = true := (Bool.and_eq_true_iff.mp on).1

/-! ## WIN_EN (R248) -/

/-- What the end of WIN_EN makes of a bridge mailbox: PENDING is ABORTED at once, ACTIVE at its end. -/
def abortBridge (s : State) (n : Fin 16) : State :=
  match (s.shb.mbox[n.val]).status with
  | .pending => endMbox s n .aborted
  | .active => setMbox s n (fun m => { m with abort := true })
  | _ => s

theorem writeWinEn_clears (s : State) (was : s.shb.winEn = true) : writeWinEn s false =
    ((allFin 16).filter (fun n => 8 ≤ n.val)).foldl abortBridge (setShb s (fun b => { b with winEn := false })) := by
  unfold writeWinEn
  rw [if_neg (by simp [was])]
  rfl

theorem writeWinEn_sets (s : State) : writeWinEn s true = setShb s (fun b => { b with winEn := true }) := rfl

/-- From `s` to `t` bridge mailboxes ended or are marked to end: no mailbox outside `l` changes, those of `l` that were PENDING are
ABORTED, and beside the mailboxes only BW_IRQ and the in-band interrupts differ. -/
structure Aborts (l : List (Fin 16)) (s t : State) : Prop where
  winEn : t.shb.winEn = s.shb.winEn
  q1 : t.shb.q1 = s.shb.q1
  others : ∀ m ∉ l, t.shb.mbox[m.val] = s.shb.mbox[m.val]
  ended : ∀ m ∈ l, (s.shb.mbox[m.val]).status = .pending → (t.shb.mbox[m.val]).status = .aborted
  stays : ∀ m : Fin 16, (s.shb.mbox[m.val]).status = .aborted → (t.shb.mbox[m.val]).status = .aborted
  within : t = { s with shb := t.shb, i3c := t.i3c }

theorem abortBridge_aborts (s : State) (n : Fin 16) : Aborts [n] s (abortBridge s n) := by
  unfold abortBridge
  split
  · next pending =>
    obtain ⟨irq, shb⟩ := endMbox_shb s n .aborted
    have self : ((endMbox s n .aborted).shb.mbox[n.val]).status = .aborted := by rw [shb]; exact congrArg Mbox.status (upd_self _ n _)
    have other (m : Fin 16) (h : m ≠ n) : (endMbox s n .aborted).shb.mbox[m.val] = s.shb.mbox[m.val] := by
      rw [shb]; exact upd_other _ n m _ h
    refine ⟨by rw [shb], by rw [shb], fun m hm => other m (by simpa using hm), fun m hm _ => ?_, fun m hm => ?_, endMbox_within _ _ _⟩
    · rw [List.mem_singleton.mp hm]
      exact self
    · by_cases h : m = n
      · rw [h]
        exact self
      · rw [other m h]
        exact hm
  · next active =>
    have other (m : Fin 16) (h : m ≠ n) : (setMbox s n (fun m => { m with abort := true })).shb.mbox[m.val] = s.shb.mbox[m.val] :=
      upd_other _ n m _ h
    refine ⟨rfl, rfl, fun m hm => other m (by simpa using hm), fun m hm pending => ?_, fun m hm => ?_, rfl⟩
    · rw [List.mem_singleton.mp hm, active] at pending
      cases pending
    · have ne : m ≠ n := fun h => by rw [h, active] at hm; cases hm
      rw [other m ne]
      exact hm
  · next no_pending _ =>
    exact ⟨rfl, rfl, fun _ _ => rfl, fun m hm pending => absurd (List.mem_singleton.mp hm ▸ pending) no_pending, fun _ h => h, rfl⟩

theorem foldl_abortBridge (l : List (Fin 16)) (s : State) : Aborts l s (l.foldl abortBridge s) := by
  induction l generalizing s with
  | nil => exact ⟨rfl, rfl, fun _ _ => rfl, fun _ h => absurd h List.not_mem_nil, fun _ h => h, rfl⟩
  | cons n t ih =>
    have first := abortBridge_aborts s n
    have rest := ih (abortBridge s n)
    rw [List.foldl_cons]
    refine ⟨rest.winEn.trans first.winEn, rest.q1.trans first.q1, fun m hm => ?_, fun m hm pending => ?_,
      fun m h => rest.stays m (first.stays m h), ?_⟩
    · obtain ⟨ne, out⟩ := not_or.mp (mt List.mem_cons.mpr hm)
      exact (rest.others m out).trans (first.others m (by simpa using ne))
    · by_cases h : m = n
      · exact rest.stays m (first.ended m (by simp [h]) pending)
      · exact rest.ended m (List.mem_of_ne_of_mem h hm) (by rw [first.others m (by simpa using h)]; exact pending)
    · rw [rest.within, first.within]

/-! ## Q1 (R238, R255) -/

/-- Bytes of a number that has no more than they hold are those of its remainder. -/
theorem leBytes_mod (n v : Nat) : leBytes n (v % 256 ^ n) = leBytes n v := by
  induction n generalizing v with
  | zero => rfl
  | succ n ih =>
    have low : BitVec.ofNat 8 (v % 256 ^ (n + 1)) = BitVec.ofNat 8 v := by
      apply BitVec.eq_of_toNat_eq
      simp only [BitVec.toNat_ofNat]
      exact Nat.mod_mod_of_dvd v (Dvd.intro_left (256 ^ n) (pow_succ 256 n).symm)
    have high : v % 256 ^ (n + 1) / 256 = v / 256 % 256 ^ n := by
      rw [pow_succ', Nat.mod_mul_right_div_self]
    rw [leBytes, leBytes, low, high, ih]

theorem leBytes_word (v : Nat) : leBytes 4 (BitVec.ofNat 32 v).toNat = leBytes 4 v := leBytes_mod 4 v

/-- A read of an entry that holds a frame: its word, and the entry locked or freed (R238). -/
theorem readQ1_held (s : State) (i : Fin 64) (e : Q1Entry) (w : Nat) (held : s.shb.q1[i.val] = some e) (word : w < 20) :
    readQ1 s i.val w = (q1Word e w, setQ1 s i.val (if w = 19 then none else some { e with locked := true })) := by
  have entry : s.shb.q1.toList.getD i.val none = some e := by simp [held]
  unfold readQ1
  rw [entry]
  exact if_neg (by omega)

theorem execQ1EntryRead_on (i : Fin 64) (w : BitVec 5) (e : Q1Entry) (s : State) (on : windowOn s = true)
    (held : s.shb.q1[i.val] = some e) (word : w.toNat < 20) : execQ1EntryRead (BitVec.ofNat 6 i.val) w s =
      .next (setReply (setShb s (fun b => { b with
        q1 := upd b.q1 i (fun _ => if w.toNat = 19 then none else some { e with locked := true }) })) (leBytes 4 (q1Word e w.toNat).toNat)) := by
  have index : (BitVec.ofNat 6 i.val).toNat = i.val := Nat.mod_eq_of_lt i.isLt
  unfold execQ1EntryRead
  dsimp only
  rw [if_neg (by simp [windowOn_answers on]), if_neg (by simp [on]), index, readQ1_held s i e _ held word, setQ1]
  simp only [updNat_eq_upd]

/-! ## Bridge mailboxes (R240, R241, R254) -/

/-- The mailbox that a request leaves (R240). -/
def requested (s : State) (n : Fin 16) (fdf brs : Bool) (dlc : BitVec 4) (attempts : Nat) (m : Mbox) : Mbox :=
  { m with
    status := if mboxRefused s.shb n.val m.id fdf brs then .refused else .pending, attempts := attempts, tries := 0, fdf := fdf
    brs := brs, dlc := dlc, cancel := false, abort := false }

/-- A request of a mailbox at rest sets that mailbox, BW_IRQ and the in-band interrupts alone. -/
theorem mboxRequest_atRest (s : State) (n : Fin 16) (fdf brs : Bool) (dlc : BitVec 4) (attempts : Nat)
    (rest : (s.shb.mbox[n.val]).status.isFinal = true) :
    (mboxRequest s n fdf brs dlc attempts).shb.mbox = upd s.shb.mbox n (requested s n fdf brs dlc attempts) ∧
    mboxRequest s n fdf brs dlc attempts = { s with
      shb := (mboxRequest s n fdf brs dlc attempts).shb, i3c := (mboxRequest s n fdf brs dlc attempts).i3c } := by
  have idle : ¬ ((s.shb.mbox[n.val]).status = .pending ∨ (s.shb.mbox[n.val]).status = .active) := by
    rintro (h | h) <;> rw [h] at rest <;> cases rest
  unfold mboxRequest
  dsimp only
  rw [if_neg idle]
  split
  · exact ⟨by rw [raiseIrq_shb]; rfl, raiseIrq_within _ _⟩
  · exact ⟨rfl, rfl⟩

theorem execTxctlRequest_on (m : Fin 8) (w : Word) (s : State) (on : windowOn s = true) (enabled : s.shb.winEn = true)
    (rest : (s.shb.mbox[8 + m.val]).status.isFinal = true) (only : w.getLsbD 9 = false) : execTxctlRequest m w s =
      .next (mboxRequest s (bridgeBox m) (w.getLsbD 6) (w.getLsbD 5) (w.extractLsb' 0 4) (w.extractLsb' 20 4).toNat) := by
  have final : (s.shb.mbox[(bridgeBox m).val]).status.isFinal = true := rest
  unfold execTxctlRequest
  rw [onWindow_on s _ on]
  unfold writeTxctl
  simp only [final, enabled, only, Bool.not_true, Bool.false_eq_true, if_false, Bool.and_self, if_true]

theorem execTxctlCancel_pending (m : Fin 8) (s : State) (on : windowOn s = true) (pending : (s.shb.mbox[8 + m.val]).status = .pending) :
    execTxctlCancel m s = .next (endMbox s (bridgeBox m) .cancelled) := by
  have waits : (s.shb.mbox[(bridgeBox m).val]).status = .pending := pending
  unfold execTxctlCancel
  rw [onWindow_on s _ on, waits]

/-- The first word of a bridge mailbox is its identifier (R247, R254). -/
theorem writeWindow_mboxId (m : Fin 8) (w : Word) (s : State) (rest : (s.shb.mbox[8 + m.val]).status.isFinal = true) :
    writeWindow s (0x400 + 0x80 * m.val) w = setMbox s (bridgeBox m) (fun x => { x with id := w.extractLsb' 0 29 }) := by
  generalize offset : 0x400 + 0x80 * m.val = o
  have box : Fin.ofNat 16 (8 + (o - 0x400) / 0x80) = bridgeBox m :=
    Fin.ext (by rw [Fin.val_ofNat]; simp only [bridgeBox]; omega)
  have final : (s.shb.mbox[(bridgeBox m).val]).status.isFinal = true := rest
  unfold writeWindow
  split
  · omega
  · omega
  · omega
  · omega
  · omega
  · rw [if_neg (by omega), if_pos (by omega)]
    dsimp only
    rw [if_neg (by omega)]
    simp only [box]
    rw [if_neg (by simp [final]), if_pos (by omega)]

theorem execBridgeRegisterWrite_on (o : Nat) (w : Word) (s : State) (on : windowOn s = true) (aligned : o % 4 = 0) (window : o < 0x1000) :
    execBridgeRegisterWrite o w s = .next (writeWindow s o w) := by
  have word : o / 4 * 4 = o := by omega
  unfold execBridgeRegisterWrite
  dsimp only
  rw [word, if_neg (by omega), if_neg (by omega), onWindow_on s _ on]

/-- The offsets that R247 reserves take nothing. -/
theorem writeWindow_reserved (w : Word) (s : State) (o : Nat) (reserved : o ∈ [0x1C, 0x38, 0x3C, 0x40, 0x7C, 0x200, 0xFFC]) :
    writeWindow s o w = s := by
  simp only [List.mem_cons, List.not_mem_nil, or_false] at reserved
  obtain rfl | rfl | rfl | rfl | rfl | rfl | rfl := reserved <;> rfl

end Sys2Proof.Machine

open Sys2Proof Sys2Proof.Machine

/-- Settles O39: each access of the window that answers, by the word it reads or writes. -/
theorem bridgeWindow : Obligations.BridgeWindow := by
  unfold Obligations.BridgeWindow
  refine ⟨fun s on => congrArg Host.Outcome.next ((onWindow_on s _ on).trans (writeWinEn_sets s)),
    fun s on was => ⟨_, congrArg Host.Outcome.next ((onWindow_on s _ on).trans (writeWinEn_clears s was)), ?_⟩,
    fun s on => ⟨_, congrArg Host.Outcome.next (onWindow_on s _ on), fun n => ?_, rfl⟩,
    fun m s on => congrArg Host.Outcome.next (onWindow_on s _ on),
    fun i s on => ⟨_, congrArg Host.Outcome.next (onWindow_on s _ on), fun n => ?_, rfl⟩,
    fun s on => congrArg Host.Outcome.next (onWindow_on s _ on),
    fun i e s on held => ⟨⟨_, execQ1EntryRead_on i 0 e s on held (by decide), ?_, upd_self _ i _, rfl⟩,
      ⟨_, execQ1EntryRead_on i 19 e s on held (by decide), leBytes_word _, upd_self _ i _⟩⟩,
    fun m w s on enabled rest only => ⟨_, execTxctlRequest_on m w s on enabled rest only, ?_⟩,
    fun m s on pending => ⟨_, execTxctlCancel_pending m s on pending, ?_⟩,
    fun m w s on rest => ⟨_, (execBridgeRegisterWrite_on _ w s on (by omega) (by omega)).trans
      (congrArg Host.Outcome.next (writeWindow_mboxId m w s rest)), upd_self s.shb.mbox (bridgeBox m) _,
      fun n hn => upd_other _ (bridgeBox m) n _ (fun h => hn (congrArg Fin.val h)), rfl⟩,
    fun w s on o reserved => ?_⟩
  · have aborts := foldl_abortBridge ((allFin 16).filter (fun n => 8 ≤ n.val)) (setShb s (fun b => { b with winEn := false }))
    exact ⟨aborts.winEn, fun n bridge => aborts.ended n (by simp [allFin, bridge]), fun n firmware => aborts.others n (by simp [firmware]),
      aborts.q1, aborts.within⟩
  · simp only [flushQ1, setShb_shb, Vector.getElem_map]
    cases s.shb.q1[n.val] with
    | none => rfl
    | some e => cases locked : e.locked <;> simp [locked, Option.filter]
  · by_cases h : n.val = i.toNat
    · simp [setQ1, updNat, h, i.isLt]
    · simp [setQ1, updNat, i.isLt, h, Ne.symm h]
  · show leBytes 4 (e.frame.id.setWidth 32).toNat = _
    rw [BitVec.toNat_setWidth_of_le (by decide)]
  · obtain ⟨mbox, within⟩ := mboxRequest_atRest s (bridgeBox m) (w.getLsbD 6) (w.getLsbD 5) (w.extractLsb' 0 4)
      (w.extractLsb' 20 4).toNat rest
    have self := upd_self s.shb.mbox (bridgeBox m) (requested s (bridgeBox m) (w.getLsbD 6) (w.getLsbD 5) (w.extractLsb' 0 4)
      (w.extractLsb' 20 4).toNat)
    rw [mbox]
    exact ⟨congrArg Mbox.status self, congrArg Mbox.dlc self, congrArg Mbox.attempts self, within⟩
  · obtain ⟨irq, shb⟩ := endMbox_shb s (bridgeBox m) .cancelled
    refine ⟨?_, fun n hn => ?_, endMbox_within _ _ _⟩
    · rw [shb]
      exact congrArg Mbox.status (upd_self s.shb.mbox (bridgeBox m) _)
    · rw [shb]
      exact upd_other _ (bridgeBox m) n _ (fun h => hn (congrArg Fin.val h))
  · have place : o % 4 = 0 ∧ o < 0x1000 := by
      simp only [List.mem_cons, List.not_mem_nil, or_false] at reserved
      omega
    exact (execBridgeRegisterWrite_on o w s on place.1 place.2).trans (congrArg Host.Outcome.next (writeWindow_reserved w s o reserved))

end

section
/-! LAW. The tunnels' REQUESTs (R242, R284, R285). -/

namespace Sys2Proof.Machine

/-- What a message hands over goes behind the frames that wait, in the FIFO and before it, and nothing else changes (R242). -/
theorem tunnelSend_appends (s : State) (node : NodeId) (p : List Byte) :
    (tunnelSend s node p).shb.fifo ++ (tunnelSend s node p).mg.txFeed = s.shb.fifo ++ s.mg.txFeed ++
      segment (fdAllowed s.shb) (makeId 3 1 s.aon.opt.nodeId.toNat node.toNat) p ∧
    tunnelSend s node p = { s with
      shb := { s.shb with fifo := (tunnelSend s node p).shb.fifo }, mg := { s.mg with txFeed := (tunnelSend s node p).mg.txFeed } } := by
  refine ⟨?_, rfl⟩
  simp only [tunnelSend, sendMessage, fifoSend, refillFifo, List.append_assoc, List.take_append_drop]

/-- The firmware is on the bus, and the REQUEST is valid (R279, R284). -/
structure TakesRequest (s : State) (p : List Byte) : Prop where
  run : s.mg.running = true
  on : isOn s 5 = true
  bus : onBus s = true
  full : recovering s = false
  ok : requestOk p = true

theorem TakesRequest.taken {s : State} {p : List Byte} (h : TakesRequest s p) :
    ¬ (!(s.mg.running && isOn s 5 && onBus s) || recovering s || !requestOk p) = true := by
  simp [h.run, h.on, h.bus, h.full, h.ok]

/-- A REQUEST of a bound node goes to its session (R285). -/
theorem execTunnelRequest_bound {src : NodeId} {p : List Byte} {s : State} {k : Sess} (h : TakesRequest s p)
    (bound : boundTo s src = some k) : execTunnelRequest src p s = .next (tunnelLine s k src p) := by
  unfold execTunnelRequest
  rw [if_neg h.taken, bound]

/-- One of another node binds the lowest free session and goes to it (R285). -/
theorem execTunnelRequest_free {src : NodeId} {p : List Byte} {s : State} {k : Sess} (h : TakesRequest s p) (unbound : boundTo s src = none)
    (free : tunnels.find? (fun k => !(getSes s k).isOpen) = some k) :
    execTunnelRequest src p s = .next (tunnelLine (bindTunnel s k src) k src p) := by
  unfold execTunnelRequest
  rw [if_neg h.taken, unbound]
  dsimp only
  rw [free]

/-- With no free session it is answered 408 (R285). -/
theorem execTunnelRequest_full {src : NodeId} {p : List Byte} {s : State} (h : TakesRequest s p) (unbound : boundTo s src = none)
    (taken : tunnels.find? (fun k => !(getSes s k).isOpen) = none) :
    execTunnelRequest src p s = .next (tunnelSend s src (tunnelPayload (p.getD 2 0) false (ERR 408).bytes)) := by
  unfold execTunnelRequest
  rw [if_neg h.taken, unbound]
  dsimp only
  rw [taken]

/-- An empty line has no response and changes nothing (R286). -/
theorem submit_empty (s : State) (k : Sess) (x : Byte) : submit s k x [] none = s := rfl

/-- A session with no line of its own holds none of the message's (R284). -/
theorem lineHeld_idle (q : Ses) (x : Byte) (busy : q.busy = none) (queue : q.queue = []) : lineHeld q x = false := by
  simp [lineHeld, busy, queue]

/-- A new LSEQ with an empty text leaves an idle session as it is (R284). -/
theorem tunnelLine_empty (s : State) (k : Sess) (src : NodeId) (p : List Byte) (busy : (getSes s k).busy = none)
    (queue : (getSes s k).queue = []) (last : (getSes s k).lastLseq = none) (empty : leAt p 0 2 = 0) : tunnelLine s k src p = s := by
  unfold tunnelLine
  rw [if_neg (by simp [lineHeld_idle _ _ busy queue]), if_neg (by simp [last]), empty]
  exact submit_empty _ _ _

/-- The LSEQ of the last line has its response again (R284). -/
theorem tunnelLine_again (s : State) (k : Sess) (src : NodeId) (p : List Byte) (busy : (getSes s k).busy = none)
    (queue : (getSes s k).queue = []) (last : (getSes s k).lastLseq = some (p.getD 2 0)) :
    tunnelLine s k src p = tunnelSend s src (getSes s k).lastResp := by
  unfold tunnelLine
  rw [if_neg (by simp [lineHeld_idle _ _ busy queue]), if_pos last]

/-- The session that a node binds has just opened (R279, R285). -/
theorem getSes_bindTunnel (s : State) (k : Sess) (src : NodeId) : getSes (bindTunnel s k src) k = { Ses.opened k with node := some src } :=
  getSes_setSes s k _

end Sys2Proof.Machine

open Sys2Proof Sys2Proof.Machine

/-- Settles O44: a REQUEST goes by what its node is bound to, and by what sessions are free. -/
theorem tunnelRequests : Obligations.TunnelRequests := by
  unfold Obligations.TunnelRequests
  refine ⟨fun src p s run on bus full ok empty unbound k free => ?_,
    fun src p k s run on bus full ok bound busy queue last => ⟨_, ?_, tunnelSend_appends s src _⟩,
    fun src p s run on bus full ok unbound taken =>
      ⟨_, execTunnelRequest_full ⟨run, on, bus, full, ok⟩ unbound (List.find?_eq_none.mpr fun k hk => by simp [taken k hk]),
        tunnelSend_appends s src _⟩,
    fun src p s bad => congrArg Host.Outcome.next (if_pos (by simp [bad]))⟩
  · refine (execTunnelRequest_free ⟨run, on, bus, full, ok⟩ unbound free).trans
      (congrArg Host.Outcome.next (tunnelLine_empty _ k src p ?_ ?_ ?_ empty))
    all_goals rw [getSes_bindTunnel]; rfl
  · exact (execTunnelRequest_bound ⟨run, on, bus, full, ok⟩ bound).trans
      (congrArg Host.Outcome.next (tunnelLine_again s k src p busy queue last))

end

section
/-! LAW. The verbs of the shelf bus, the warp unit and the stakes on their lines (R238, R242, R244, R245, R261, R268, R273, R317-R319). -/

namespace Sys2Proof.Machine

/-! ## The shelf bus (R317) -/

/-- A response changes no more of SHB than the transmit FIFO (R284). -/
theorem respond_shb (s : State) (k : Sess) (l : Line) : ∃ fifo, (respond s k l).shb = { s.shb with fifo := fifo } := by
  obtain ⟨-, -, -, within⟩ := setSes_sameLseq s k ▸ respond_answered s k (getSes s k).curLseq l
  have shb := congrArg State.shb within
  exact ⟨_, shb⟩

/-- The line's sequence leaves D05 as it is. -/
theorem noShb_lineStart (s : State) (k : Sess) (on : isOn s 5 = true) : noShb (lineStart s k) = false := by
  have same : isOn (lineStart s k) 5 = isOn s 5 := rfl
  rw [noShb, same, on]
  rfl

theorem busFilterVerb_runs (s : State) (k : Sess) (n m x f : Nat) (b : Bool) (h : mayRun s k .keep [.serve, .park, .fault] = true)
    (on : isOn s 5 = true) (low : 6 ≤ n) (high : n ≤ 15) (hm : m < 2 ^ 29) (hx : x < 2 ^ 29) (hf : f ≤ 2) :
    busFilterVerb k n m x f (if b = true then 1 else 0) (lineStart s k) =
      okAns (setFilter (lineStart s k) n (fun _ => { en := b, fmt := BitVec.ofNat 2 f, id := BitVec.ofNat 29 m, mask := BitVec.ofNat 29 x }))
        [("filter", .nat n), ("match", .hex 8 m), ("mask", .hex 8 x), ("fmt", .nat f), ("en", boolVal b)] := by
  have enabled : (decide ((if b = true then 1 else 0) = 1)) = b := by cases b <;> rfl
  have one : ¬ 1 < (if b = true then 1 else 0) := by cases b <;> decide
  rw [busFilterVerb, verb_onLine k .keep _ [.serve, .park, .fault] _ _ s h (by decide) ((firstOf_eq_none _).mpr (by
    simp [noShb_lineStart s k on, one]; omega))]
  simp only [enabled]

theorem busRecoverVerb_runs (s : State) (k : Sess) (h : mayRun s k .keep [.serve, .park, .fault] = true) (on : isOn s 5 = true) :
    busRecoverVerb k (lineStart s k) = okAns (requestRecovery (lineStart s k)) [("mode", .kw s.shb.mode.text)] :=
  verb_onLine k .keep _ [.serve, .park, .fault] _ _ s h (by decide) (by simp [firstOf, noShb_lineStart s k on])

/-- A node that uses the bus under an ID of its own begins its detection anew (R72, R232, R258). -/
theorem busRedetectVerb_runs (s : State) (k : Sess) (h : mayRun s k .keep [.serve, .park, .fault] = true) (on : isOn s 5 = true)
    (used : s.shb.mode ≠ .off) (own : s.shb.mode ≠ .dupnode) :
    busRedetectVerb k (lineStart s k) = okAns (detect (lineStart s k)) [("mode", .kw "DETECTING")] := by
  obtain ⟨m, irq, i, mode, shb⟩ := detect_shb (lineStart s k)
  have begins : ¬ ((detect (lineStart s k)).shb.mode = .off ∨ (detect (lineStart s k)).shb.mode = .dupnode) := by
    rw [shb]
    obtain rfl | rfl := mode <;> simp
  rw [busRedetectVerb, verb_onLine k .keep _ [.serve, .park, .fault] _ _ s h (by decide) (by simp [firstOf, noShb_lineStart s k on])]
  have stands : ¬ ((lineStart s k).shb.mode = .off ∨ (lineStart s k).shb.mode = .dupnode) := not_or.mpr ⟨used, own⟩
  dsimp only
  rw [if_neg stands, if_neg begins]

theorem busFlushVerb_runs (s : State) (k : Sess) (h : mayRun s k .keep [.serve, .park, .fault] = true) (on : isOn s 5 = true)
    (wire : s.shb.onWire ≠ .fifo) : busFlushVerb k (lineStart s k) =
      okAns (setShb (lineStart s k) (fun b => { b with fifo := [] })) [("flushed", .nat s.shb.fifo.length)] := by
  have quiet : (lineStart s k).shb.onWire ≠ .fifo := wire
  rw [busFlushVerb, verb_onLine k .keep _ [.serve, .park, .fault] _ _ s h (by decide) (by simp [firstOf, noShb_lineStart s k on])]
  dsimp only
  simp only [quiet, if_false, List.take_zero, Nat.sub_zero]
  rfl

theorem busSetVerb_runs (s : State) (k : Sess) (h c b : Nat) (may : mayRun s k .keep [.serve, .park, .fault] = true)
    (on : isOn s 5 = true) (guard_ : cfgGuard s k = false) (low : 1000000000 ≤ h) (high : h ≤ 600000000000) (hc : c ≤ 10)
    (hb : b = 0 ∨ 1000000000 ≤ b ∧ b ≤ 3600000000000) : busSetVerb k (some h) (some c) (some b) (lineStart s k) =
      okAns (storesCfg (setShb (lineStart s k) (fun x => { x with holdoffNs := h, recovMax := c, beaconNs := b })))
        [("holdoff", .dur h), ("count", .nat c), ("beacon", .dur b)] := by
  refine verb_onLine k .keep _ [.serve, .park, .fault] _ _ s may (by decide) ((firstOf_eq_none _).mpr ?_)
  simp [outOf, noShb_lineStart s k on, cfgGuard_lineStart, guard_]
  omega

/-! ## The warp unit (R318) -/

/-- Each of the six intervals has its code (R261). -/
theorem intervalCode_interval (c : Fin 6) : intervalCode (31250000 * 2 ^ c.val) = some c.val := by
  revert c
  decide

theorem warpSetVerb_runs (s : State) (k : Sess) (c : Fin 6) (d m : Nat) (h : mayRun s k .keep [.serve, .park, .fault] = true)
    (guard_ : cfgGuard s k = false) (hd : d ≤ 65535) (low : 1 ≤ m) (high : m ≤ 64) :
    warpSetVerb k (some (31250000 * 2 ^ c.val)) (some d) (some m) (lineStart s k) =
      okAns (storesCfg (setWarp (lineStart s k) (fun w => { w with interval := c.val, delay := d, restmax := m })))
        [("interval", .dur (31250000 * 2 ^ c.val)), ("delay", .nat d), ("restmax", .nat m)] := by
  rw [warpSetVerb, verb_onLine k .keep _ [.serve, .park, .fault] _ _ s h (by decide) ((firstOf_eq_none _).mpr (by
    simp [outOf, cfgGuard_lineStart, guard_, intervalCode_interval]; omega))]
  simp only [Option.bind_some, intervalCode_interval]
  rfl

/-- A table that is not the active one is written at once (R268). -/
theorem setTable_idle (s : State) (n : Fin 4) (t : SlotTable) (idle : n ≠ s.warp.active) : setTable s n.val t =
    setWarp (writeArea s .cfg) (fun w => { w with tables := updNat w.tables n.val (fun _ => some t) }) :=
  if_neg (fun h => idle (Fin.ext h.1))

theorem warpTableVerb_runs (s : State) (k : Sess) (n : Fin 4) (m x g : Nat) (h : mayRun s k .keep [.serve, .park, .fault] = true)
    (guard_ : cfgGuard s k = false) (some_ : 0 < m) (hm : m < 2 ^ 40) (low : 1 ≤ x) (high : x ≤ 256) (hg : g ≤ 39)
    (idle : n ≠ s.warp.active) : warpTableVerb k n.val m x g none none (lineStart s k) =
      okAns (setWarp (writeArea (lineStart s k) .cfg) (fun w => { w with
          tables := updNat w.tables n.val (fun _ => some { mask := BitVec.ofNat 40 m, smax := x, stagger := g }) }))
        [("table", .nat n.val), ("mask", .hex 10 m), ("smax", .nat x), ("stagger", .nat g)] := by
  have mask : (BitVec.ofNat 40 m).toNat = m := Nat.mod_eq_of_lt hm
  rw [warpTableVerb, verb_onLine k .keep _ [.serve, .park, .fault] _ _ s h (by decide) ((firstOf_eq_none _).mpr (by
    simp [outOf, notBool, sends, cfgGuard_lineStart, guard_]; omega))]
  dsimp only
  rw [setTable_idle (lineStart s k) n _ idle]
  simp only [sends, reduceCtorEq, decide_false, Bool.false_eq_true, if_false, tableFields, mask]
  rfl

/-- A switch to a table that is there waits for the frame boundary (R268, R273). -/
theorem switchTable_pending (s : State) (n : Fin 4) (there : (s.warp.tables[n.val]).isSome = true) :
    switchTable s n.val = (setWarp s (fun w => { w with pending := some n }), none) := by
  obtain ⟨t, table⟩ := Option.isSome_iff_exists.mp there
  have entry : s.warp.tables.toList.getD n.val none = some t := by simp [table]
  unfold switchTable
  rw [entry]
  simp only [Fin.ofNat_val_eq_self]

theorem warpTableActiveVerb_runs (s : State) (k : Sess) (n : Fin 4) (h : mayRun s k .keep [.serve, .park, .fault] = true)
    (guard_ : cfgGuard s k = false) (there : (s.warp.tables[n.val]).isSome = true) : warpTableActiveVerb k n.val (lineStart s k) =
      okAns (storesCfg (setWarp (lineStart s k) (fun w => { w with pending := some n })))
        [("table", .nat n.val), ("at", .nat (nextBoundary s.warp.ns))] := by
  have entry : ((lineStart s k).warp.tables.toList.getD n.val none).isNone = false := by
    simpa [lineStart] using there
  rw [warpTableActiveVerb, verb_onLine k .keep _ [.serve, .park, .fault] _ _ s h (by decide) ((firstOf_eq_none _).mpr (by
    simp only [entry, cfgGuard_lineStart, guard_]; simp; omega))]
  rw [switchTable_pending (lineStart s k) n there]
  rfl

/-! ## The stakes (R319) -/

theorem stakeAt_setStake (s : State) (i : Fin 64) (f : Stake → Stake) : stakeAt (setStake s i f) i.val = f s.warp.stakes[i.val] := by
  simp [stakeAt, setStake]

/-- The state with an entry armed for this node; a REST stake has arrived (R219, R273). -/
def stakeArmed (s : State) (i : Fin 64) (x a g : Nat) : State :=
  { setStake s i (fun _ => { trigger := x, state := .armed, action := a, arg := g, src := 0x3FF, late := 0 }) with
    bat := { s.bat with restStake := s.bat.restStake || decide (a = 5) } }

theorem stakeAt_stakeArmed (s : State) (i : Fin 64) (x a g : Nat) :
    stakeAt (stakeArmed s i x a g) i.val = { trigger := x, state := .armed, action := a, arg := g, src := 0x3FF, late := 0 } :=
  stakeAt_setStake s i _

/-- A stake whose trigger is ahead is armed, and neither fires nor is missed (R273). -/
theorem placeStake_ahead (s : State) (i : Fin 64) (x a g : Nat) (ahead : s.warp.ns ≤ x) :
    placeStake s i x a g 0x3FF = stakeArmed s i x a g := by
  unfold placeStake stakeArmed
  by_cases rest : a = 5
  · simp [rest, ahead]
  · simp only [rest, if_false, decide_false, Bool.or_false]
    exact if_pos ahead

theorem stakeSetVerb_runs (s : State) (k : Sess) (i : Fin 64) (a g x : Nat) (h : mayRun s k .keep anyState = true) (low : 1 ≤ a)
    (high : a ≤ 7) (arg : argOk a g = true) (whole : x % 1000 = 0) (ahead : s.warp.ns < x) (near_ : x ≤ s.warp.ns + 2 ^ 39 * 1000) :
    stakeSetVerb k i.val a false x (some g) none none (lineStart s k) =
      okAns (stakeArmed (lineStart s k) i x a g) [("stake", .nat i.val), ("state", .kw "ARMED"), ("trigger", .nat x)] := by
  have listed : actionReserved a = false := by simp [actionReserved]; omega
  have trigger : stakeTrigger (lineStart s k) false x = x := by
    show x / 1000 * 1000 = x
    omega
  rw [stakeSetVerb, verb_onLine k .keep _ anyState _ _ s h (fun _ hx => hx) ((firstOf_eq_none _).mpr (by
    simp [listed, trigger, arg, outOf, notBool, sends]; omega))]
  simp only [trigger, sends, reduceCtorEq, decide_false, Bool.false_eq_true, if_false, Option.getD_some, Fin.ofNat_val_eq_self]
  rw [placeStake_ahead (lineStart s k) i x a g (Nat.le_of_lt ahead), stakeAt_stakeArmed]
  rfl

theorem stakeCancelVerb_runs (s : State) (k : Sess) (i : Fin 64) (h : mayRun s k .keep anyState = true)
    (armed : s.warp.stakes[i.val].state = .armed) : stakeCancelVerb k i.val none (lineStart s k) =
      okAns (setStake (lineStart s k) i (fun x => { x with state := .cancelled }))
        [("stake", .nat i.val), ("state", .kw "CANCELLED")] := by
  have waits : (stakeAt (lineStart s k) i.val).state = .armed := by simpa [stakeAt] using armed
  rw [stakeCancelVerb, verb_onLine k .keep _ anyState _ _ s h (fun _ hx => hx) ((firstOf_eq_none _).mpr (by
    simp [notBool, sends]; omega))]
  simp only [waits, sends, reduceCtorEq, decide_false, Bool.false_eq_true, if_false, if_true, Fin.ofNat_val_eq_self, stakeAt_setStake]
  rfl

end Sys2Proof.Machine

open Sys2Proof Sys2Proof.Machine

/-- Settles O55: each verb that may run is its effect on the session's line, with its answer. -/
theorem busWarpAndStakeVerbs : Obligations.BusWarpAndStakeVerbs := by
  unfold Obligations.BusWarpAndStakeVerbs
  refine ⟨fun k n m x f b s may on low high hm hx hf => ⟨_, rfl, onVerb_answers _ _ (mayRun_ready may).1
      (busFilterVerb_runs s k n m x f b may on low high hm hx hf)⟩,
    fun k s may on off => ⟨_, rfl, onVerb_answers _ _ (mayRun_ready may).1 ?_⟩,
    fun k s may on used own => ⟨_, rfl, ?_⟩,
    fun k s may on wire => ⟨_, rfl, onVerb_answers _ _ (mayRun_ready may).1 (busFlushVerb_runs s k may on wire)⟩,
    fun k h c b s may on guard_ low high hc hb => ⟨_, rfl, onVerb_answers _ _ (mayRun_ready may).1
      (busSetVerb_runs s k h c b may on guard_ low high hc hb)⟩,
    fun k c d m s may guard_ hd low high => ⟨_, rfl, onVerb_answers _ _ (mayRun_ready may).1
      (warpSetVerb_runs s k c d m may guard_ hd low high)⟩,
    fun k n m x g s may guard_ some_ hm low high hg idle => ⟨_, rfl, onVerb_answers _ _ (mayRun_ready may).1
      (warpTableVerb_runs s k n m x g may guard_ some_ hm low high hg idle)⟩,
    fun k n s may guard_ there => ⟨_, rfl, onVerb_answers _ _ (mayRun_ready may).1 (warpTableActiveVerb_runs s k n may guard_ there)⟩,
    fun k i a g x s may low high arg whole ahead near_ => ⟨_, rfl, onVerb_answers _ _ (mayRun_ready may).1
      (stakeSetVerb_runs s k i a g x may low high arg whole ahead near_)⟩,
    fun k i s may armed => ⟨_, rfl, onVerb_answers _ _ (mayRun_ready may).1 (stakeCancelVerb_runs s k i may armed)⟩⟩
  · rw [busRecoverVerb_runs s k may on, off]
    exact congrArg (fun u => okAns u _) (if_pos off)
  · obtain ⟨m, irq, i, mode, shb⟩ := detect_shb (lineStart s k)
    rw [onVerb_line (.busRedetect k) false (mayRun_ready may).1 (busRedetectVerb_runs s k may on used own)]
    obtain ⟨fifo, answered⟩ := respond_shb (detect (lineStart s k)) k (OK [("mode", .kw "DETECTING")])
    simp only [respond_frame, detect_frame, lineStart_frame, and_true]
    rw [answered, shb]
    exact ⟨by rw [← or_assoc]; exact .inl mode, rfl, rfl, rfl, respond_said _ _ _⟩

end

section
/-! LAW. Warp time: a keeper followed, lost and elected, its SYNC, the step and the guard (R260-R263, R269, R278). -/

namespace Sys2Proof.Machine

/-! ## Following (R261-R263) -/

/-- Without a keeper a node follows anyone. -/
theorem followsNode_anyone (s : State) (src : NodeId) (follower : s.warp.state ≠ .keeper) (alone : s.warp.keeper = none) :
    followsNode s src = true := by
  simp [followsNode, follower, alone]

theorem execSync_follows (src : NodeId) (tag : BitVec 10) (p : List Byte) (s : State) (heard : hears s = true)
    (follower : s.warp.state ≠ .keeper) (full : p.length = 8) (interval : byteAt p 4 ≤ 5) (follows : followsNode s src = true) :
    execSync src tag p s = .next (setWarp s (fun w => { w with
      keeper := some src, await := some { src := src, tag := tag, local_ := w.ns, table := byteAt p 6 % 4 } })) := by
  have taken : ¬ (!hears s || p.length ≠ 8 || 5 < byteAt p 4) = true := by simp [heard, full, interval]
  unfold execSync
  rw [if_neg taken, if_neg (fun h => follower h.1)]
  dsimp only
  rw [if_neg follower, if_pos follows]

theorem execFollowUp_pair (src : NodeId) (tag : BitVec 10) (p : List Byte) (a : SyncWait) (s : State) (heard : hears s = true)
    (follower : s.warp.state ≠ .keeper) (full : p.length = 8) (waits : s.warp.await = some a) (same : a.src = src) (pair : a.tag = tag) :
    execFollowUp src tag p s = .next (acceptPair s ((leAt p 0 8 : ℤ) + s.warp.delay - a.local_)) := by
  unfold execFollowUp
  rw [waits]
  exact congrArg Host.Outcome.next (if_pos ⟨heard, follower, full, same, pair⟩)

/-- What every accepted pair does before its offset is used (R262). -/
def pairTaken (s : State) : State :=
  setWarp { s with free := s.free + 1 } (fun w => { w with await := none, missed := 0, lastSync := some s.aon.us, growthFs := 0 })

/-- An offset beyond 100 us waits as a step (R262). -/
theorem acceptPair_steps (s : State) (o : ℤ) (far : 100000 < o.natAbs) :
    acceptPair s o = setWarp (pairTaken s) (fun w => { w with step := some o, good := 0 }) := if_neg (Nat.not_le.mpr far)

/-- The eighth offset in a row within 1 us makes the node SYNCED; where SETTLE is stopped, nothing but its warp time changes (R262). -/
theorem acceptPair_syncs (s : State) (o : ℤ) (stopped : s.nand.settle.running = false) (near_ : o.natAbs ≤ 1000) (steady : 7 ≤ s.warp.good) :
    ∃ follow, acceptPair s o = setWarp (pairTaken s) (fun w => { w with
      trim := clipTrim (Config.slew o s.free), good := s.warp.good + 1, followUs := follow, state := .synced, unset_ := false }) := by
  have eighth : 8 ≤ s.warp.good + 1 := Nat.succ_le_succ steady
  unfold acceptPair
  dsimp only
  rw [if_pos (Nat.le_trans near_ (by decide))]
  simp only [near_, if_true, setWarp_warp, eighth]
  split
  · exact ⟨_, (nextFolds_stopped _ (by exact stopped)).trans rfl⟩
  · exact ⟨_, (nextFolds_stopped _ (by exact stopped)).trans rfl⟩

/-- The trim stays within 500 ppm (R262). -/
theorem clipTrim_bounds (t : ℤ) : -500000 ≤ clipTrim t ∧ clipTrim t ≤ 500000 := by
  unfold clipTrim
  omega

/-! ## Losing sync (R262, R278) -/

theorem execFollowUpTimeout_counts (s : State) (waits : s.warp.await.isSome = true) (few : s.warp.missed < 3) :
    execFollowUpTimeout s = .next (setWarp s (fun w => { w with await := none, missed := w.missed + 1 })) :=
  congrArg Host.Outcome.next ((if_pos waits).trans (if_neg (Nat.not_le.mpr (Nat.succ_lt_succ few))))

theorem loseSync_synced (s : State) (synced : s.warp.state = .synced) : loseSync s =
    logEv (setWarp s (fun w => { w with state := .holdover, keeper := none, await := none, good := 0, missed := 0 })) 6 .warpLost :=
  if_pos synced

/-! ## Keepers (R261, R263) -/

theorem execKeeperAnnounce_follows (src : NodeId) (p : List Byte) (s : State) (heard : hears s = true)
    (follower : s.warp.state ≠ .keeper) (full : p.length = 8) (role : byteAt p 2 = 1) (alone : s.warp.keeper = none) :
    execKeeperAnnounce src p s = .next (setWarp s (fun w => { w with candidate := false, keeper := some src, await := none })) := by
  have taken : ¬ (!hears s || p.length ≠ 8 || 2 < byteAt p 2) = true := by simp [heard, full, role]
  have follows := followsNode_anyone (setWarp s (fun w => { w with candidate := false })) src follower alone
  unfold execKeeperAnnounce
  dsimp only
  rw [if_neg taken, if_neg follower, if_pos ⟨role, follows⟩]
  simp [setWarp, alone]

theorem execKeeperElectionTimeout_elects (s : State) (heard : hears s = true) (capable : s.aon.opt.keeperCap = true)
    (active : s.shb.mode = .active) (follower : s.warp.state ≠ .keeper) (set_ : s.warp.unset_ = false)
    (followed : s.warp.followUs ≤ s.aon.us) : execKeeperElectionTimeout s = .next (sendAnnounce (setWarp s (fun w =>
      { w with state := .keeper, keeper := some s.aon.opt.nodeId, candidate := false, await := none, step := none, good := 0 })) 1) := by
  have judged : ¬ (s.warp.unset_ = true ∧ s.warp.candidate = false) := by simp [set_]
  exact congrArg Host.Outcome.next ((if_pos ⟨heard, capable, active, follower, followed⟩).trans (if_neg judged))

/-- With mailbox 0 at rest the firmware's frame goes there (R240; log entry 20). -/
theorem fwSend_first (s : State) (id : CanId) (data : List Byte) (rest : (s.shb.mbox[0]).status.isFinal = true) :
    fwSend s id data = mboxRequest (setMbox s 0 (fun m => { m with id := id, data := data })) 0 false false (lenDlc data.length) 0 := by
  have lowest : (allFin 8).find? (fun n => (s.shb.mbox[n.val]).status.isFinal) = some 0 := List.find?_cons_of_pos rest
  unfold fwSend
  rw [lowest]
  rfl

/-- A mailbox of the firmware takes a classical frame of any class but 7 (R240). -/
theorem mboxRefused_classical (b : Shb) (n : Nat) (id : CanId) (own : n < 8) (cls : idClass id ≠ 7) :
    mboxRefused b n id false false = false := by
  simpa [mboxRefused, own] using cls

/-- A mailbox at rest whose request is not refused waits with its identifier (R240). -/
theorem mboxRequest_waits (s : State) (n : Fin 16) (fdf brs : Bool) (dlc : BitVec 4) (attempts : Nat)
    (rest : (s.shb.mbox[n.val]).status.isFinal = true) (sound : mboxRefused s.shb n.val (s.shb.mbox[n.val]).id fdf brs = false) :
    ((mboxRequest s n fdf brs dlc attempts).shb.mbox[n.val]).status = .pending ∧
    ((mboxRequest s n fdf brs dlc attempts).shb.mbox[n.val]).id = (s.shb.mbox[n.val]).id := by
  simp only [(mboxRequest_atRest s n fdf brs dlc attempts rest).1, upd_self]
  exact ⟨if_neg (by simp [sound]), rfl⟩

theorem fwSend_waits (s : State) (id : CanId) (data : List Byte) (rest : (s.shb.mbox[0]).status.isFinal = true) (cls : idClass id ≠ 7) :
    ((fwSend s id data).shb.mbox[0]).status = .pending ∧ ((fwSend s id data).shb.mbox[0]).id = id := by
  have filled : (setMbox s 0 (fun m => { m with id := id, data := data })).shb.mbox[(0 : Fin 16).val] =
      { s.shb.mbox[0] with id := id, data := data } := upd_self s.shb.mbox 0 _
  obtain ⟨status, box⟩ := mboxRequest_waits (setMbox s 0 (fun m => { m with id := id, data := data })) 0 false false
    (lenDlc data.length) 0 (by rw [filled]; exact rest) (by rw [filled]; exact mboxRefused_classical _ _ id (by decide) cls)
  rw [fwSend_first s id data rest]
  exact ⟨status, box.trans (congrArg Mbox.id filled)⟩

/-- The keeper's SYNC waits in mailbox 0 where that is at rest (R261; log entry 20). -/
theorem execKeeperSyncTimer_sends (s : State) (heard : hears s = true) (keeps : s.warp.state = .keeper) (active : s.shb.mode = .active)
    (rest : (s.shb.mbox[0]).status.isFinal = true) : ∃ t, execKeeperSyncTimer s = .next t ∧
      t.warp = { s.warp with syncSeq := (s.warp.syncSeq + 1) % 2 ^ 32 } ∧ (t.shb.mbox[0]).status = .pending ∧
      (t.shb.mbox[0]).id = makeId 0 0 s.aon.opt.nodeId.toNat ((s.warp.syncSeq + 1) % 2 ^ 32 % 1024) ∧ t.aon = s.aon ∧ t.nand = s.nand := by
  refine ⟨_, congrArg Host.Outcome.next (if_pos ⟨heard, keeps, active⟩), ?_⟩
  have cls : idClass (makeId 0 0 s.aon.opt.nodeId.toNat ((s.warp.syncSeq + 1) % 2 ^ 32 % 1024)) ≠ 7 := by
    rw [idClass_makeId]
    decide
  exact ⟨by simp, and_assoc.mp ⟨fwSend_waits _ _ _ rest cls, by simp⟩⟩

/-! ## The step and the guard (R262, R269) -/

theorem execWarpStep_steps (o : ℤ) (s : State) (step : s.warp.step = some o) : execWarpStep s = .next (logEv
    (setWarp s (fun w => { w with ns := ((w.ns : ℤ) + o).toNat, step := none, frac := 0 })) 6 .warpStepped (o.natAbs % 2 ^ 32)
    (o.natAbs / 2 ^ 32) (if o < 0 then 1 else 0)) := by
  unfold execWarpStep
  rw [step]

theorem execWarpGuardCrossing_widens (s : State) (holds : s.warp.state = .holdover) (wide : 11500 < werr s) :
    execWarpGuardCrossing s = .next (setWarp s (fun w => { w with state := .wide })) := by
  unfold execWarpGuardCrossing
  rw [holds]
  exact congrArg Host.Outcome.next (if_pos wide)

end Sys2Proof.Machine

open Sys2Proof Sys2Proof.Machine

/-- Settles O41: a pair's offset is trim or step, and a keeper is followed, lost or elected by one change of warp time each. -/
theorem warpFollowsAKeeper : Obligations.WarpFollowsAKeeper := by
  unfold Obligations.WarpFollowsAKeeper
  refine ⟨fun src tag p s heard follower alone full interval =>
      execSync_follows src tag p s heard follower full interval (followsNode_anyone s src follower alone),
    fun src tag p a s heard follower full waits same pair far =>
      ⟨_, execFollowUp_pair src tag p a s heard follower full waits same pair, ?_⟩,
    fun src tag p a s heard follower full waits same pair stopped near_ steady =>
      ⟨_, execFollowUp_pair src tag p a s heard follower full waits same pair, ?_⟩,
    execFollowUpTimeout_counts,
    fun s synced => ⟨_, congrArg Host.Outcome.next ((if_neg (by simp [synced])).trans (loseSync_synced s synced)), rfl, rfl, rfl⟩,
    execKeeperAnnounce_follows,
    fun s heard capable active follower set_ followed =>
      ⟨_, execKeeperElectionTimeout_elects s heard capable active follower set_ followed, ?_⟩,
    fun s heard keeps active rest => ?_,
    fun o s step => ⟨_, execWarpStep_steps o s step, rfl, rfl, rfl⟩,
    execWarpGuardCrossing_widens⟩
  · rw [acceptPair_steps s _ far]
    exact ⟨rfl, rfl⟩
  · obtain ⟨follow, synced⟩ := acceptPair_syncs s _ stopped near_ steady
    rw [synced]
    obtain ⟨low, high⟩ := clipTrim_bounds (Config.slew ((leAt p 0 8 : ℤ) + s.warp.delay - a.local_) s.free)
    exact ⟨rfl, rfl, rfl, low, high, rfl⟩
  · simp [sendAnnounce]
  · obtain ⟨t, sends, warp, status, box, kept⟩ := execKeeperSyncTimer_sends s heard keeps active rest
    refine ⟨t, sends, warp, status, ?_, ?_, kept⟩
    · rw [box, idClass_makeId]
      rfl
    · rw [box, idType_makeId]
      rfl

end

section
/-! LAW. The stored count, the slot tables, the stakes set, cancelled and judged, and the REST windows (R266-R275, R280). -/

namespace Sys2Proof.Machine

/-! ## The stored count (R266) -/

theorem execWarpCountSave_stores (s : State) (run : s.mg.running = true) (follows : s.warp.state = .synced ∨ s.warp.state = .keeper) :
    execWarpCountSave s = .next (writeArea (setWarp s (fun w => { w with stored := some w.ns, storeBad := false })) .time) := by
  unfold execWarpCountSave
  rw [if_pos run]
  obtain synced | keeps := follows
  · rw [synced]
  · rw [keeps]

/-! ## Slot tables (R268) -/

/-- The two high bits of a byte name one of the four tables. -/
theorem byteAt_table (p : List Byte) (i : Nat) : byteAt p i / 64 < 4 := by
  have byte : byteAt p i < 256 := (p.getD i 0).isLt
  omega

/-- A table that is not the active one holds its new content at once, and the config store keeps it. -/
theorem setTable_spare (s : State) (n : Fin 4) (x : SlotTable) (spare : n ≠ s.warp.active) :
    (setTable s n.val x).warp.tables[n.val] = some x ∧ (setTable s n.val x).warp.active = s.warp.active ∧
    setTable s n.val x =
      { s with warp := { s.warp with tables := (setTable s n.val x).warp.tables }, store := (setTable s n.val x).store } := by
  simp only [setTable_idle s n x spare, updNat_eq_upd]
  exact ⟨upd_self _ n _, rfl, rfl⟩

theorem execSlotTable_own (p : List Byte) (s : State) (heard : hears s = true) (named : s.aon.opt.nodeId ≠ 0x3FF) (full : p.length = 8)
    (slots : BitVec.ofNat 40 (leAt p 0 5) ≠ 0) (stagger : byteAt p 6 % 64 < 40) : execSlotTable s.aon.opt.nodeId p s =
      .next (setTable s (byteAt p 6 / 64)
        { mask := BitVec.ofNat 40 (leAt p 0 5), smax := byteAt p 5 + 1, stagger := byteAt p 6 % 64 }) := by
  have taken : ¬ (!hears s || (s.aon.opt.nodeId ≠ s.aon.opt.nodeId && s.aon.opt.nodeId ≠ 0x3FF) || p.length ≠ 8) = true := by
    simp [heard, full]
  unfold execSlotTable
  dsimp only
  rw [if_neg taken, if_neg (not_or.mpr ⟨slots, Nat.not_le.mpr stagger⟩), if_neg named]

theorem execSlotTable_discards (p : List Byte) (s : State) (heard : hears s = true) (full : p.length = 8)
    (bad : BitVec.ofNat 40 (leAt p 0 5) = 0 ∨ 40 ≤ byteAt p 6 % 64) : execSlotTable 0x3FF p s = .next (discardFrame s) := by
  have taken : ¬ (!hears s || ((0x3FF : BitVec 10) ≠ s.aon.opt.nodeId && (0x3FF : BitVec 10) ≠ 0x3FF) || p.length ≠ 8) = true := by
    simp [heard, full]
  unfold execSlotTable
  dsimp only
  rw [if_neg taken, if_pos bad]

theorem execFrameBoundaryTableSwitch_switches (x : SlotTable) (n : Fin 4) (s : State) (staged : s.warp.staged = some x)
    (pending : s.warp.pending = some n) : execFrameBoundaryTableSwitch s = .next (setWarp s (fun w =>
      { w with tables := upd w.tables w.active (fun _ => some x), staged := none, active := n, pending := none })) := by
  unfold execFrameBoundaryTableSwitch
  rw [staged]
  simp only [setWarp_warp, pending]
  rfl

/-! ## Stakes set and cancelled (R270, R273) -/

/-- A frame's tag names the entry of its number (R270). -/
theorem stakeTag (i : Fin 64) : (BitVec.ofNat 10 i.val).toNat = i.val := Nat.mod_eq_of_lt (by omega)

/-- The entry that a frame's tag names. -/
theorem stakeTag_entry (i : Fin 64) (h : (BitVec.ofNat 10 i.val).toNat < 64) : (⟨(BitVec.ofNat 10 i.val).toNat, h⟩ : Fin 64) = i :=
  Fin.ext (stakeTag i)

/-- A stake whose trigger is ahead waits, whoever sets it; a REST stake has arrived (R219, R273). -/
theorem placeStake_waits (s : State) (i : Fin 64) (x a g : Nat) (src : NodeId) (ahead : s.warp.ns ≤ x) :
    placeStake s i x a g src =
      { setStake s i (fun _ => { trigger := x, state := .armed, action := a, arg := g, src := src, late := 0 }) with
        bat := { s.bat with restStake := s.bat.restStake || decide (a = 5) } } := by
  unfold placeStake
  by_cases rest : a = 5
  · simp [rest, ahead]
  · simp only [rest, if_false, decide_false, Bool.or_false]
    exact if_pos ahead

theorem execStakeSetFrame_places (src : NodeId) (i : Fin 64) (p : List Byte) (s : State) (heard : hears s = true) (full : p.length = 8)
    (target : leAt p 5 2 % 1024 = s.aon.opt.nodeId.toNat) (low : 1 ≤ leAt p 5 2 / 4096) (high : leAt p 5 2 / 4096 < 8) :
    execStakeSetFrame src (BitVec.ofNat 10 i.val) p s =
      .next (placeStake s i (nearTrigger s.warp.ns (leAt p 0 5)) (leAt p 5 2 / 4096) (byteAt p 7) src) := by
  have taken : ¬ (!hears s || p.length ≠ 8 || !targeted s (leAt p 5 2)) = true := by simp [heard, full, targeted, target]
  have listed : ¬ actionReserved (leAt p 5 2 / 4096) = true := by
    simp only [actionReserved, Bool.or_eq_true, decide_eq_true_eq]
    omega
  have index : (BitVec.ofNat 10 i.val).toNat < 64 := by rw [stakeTag]; exact i.isLt
  unfold execStakeSetFrame
  dsimp only
  rw [if_neg taken, dif_pos index, if_neg listed, stakeTag_entry]

theorem execStakeCancelFrame_cancels (i : Fin 64) (p : List Byte) (s : State) (heard : hears s = true) (full : p.length = 8)
    (target : leAt p 5 2 % 1024 = s.aon.opt.nodeId.toNat) (trigger : s.warp.stakes[i.val].trigger / 1000 % 2 ^ 40 = leAt p 0 5)
    (armed : s.warp.stakes[i.val].state = .armed) : execStakeCancelFrame (BitVec.ofNat 10 i.val) p s =
      .next (setStake s i (fun x => { x with state := .cancelled })) := by
  have taken : ¬ (!hears s || p.length ≠ 8 || !targeted s (leAt p 5 2)) = true := by simp [heard, full, targeted, target]
  have index : (BitVec.ofNat 10 i.val).toNat < 64 := by rw [stakeTag]; exact i.isLt
  unfold execStakeCancelFrame
  dsimp only
  rw [if_neg taken, dif_pos index]
  simp only [stakeTag]
  rw [if_neg (not_not.mpr trigger), if_pos armed]

/-! ## Stakes judged (R272, R273, R280) -/

/-- An entry with its outcome and how late it was judged (R271). -/
def judgedAs (ns : Nat) (outcome : StakeSt) (x : Stake) : Stake := { x with state := outcome, late := min 0xFFFFFFFF (ns - x.trigger) }

/-- LOG_MARK is refused nowhere: it fires or comes too late, and beside its entry only the log changes (R272, R273, R280). -/
theorem judgeStake_mark (s : State) (i : Fin 64) (mark : s.warp.stakes[i.val].action = 6) : ∃ log, judgeStake s i =
    { setStake s i (judgedAs s.warp.ns
        (if s.warp.ns ≤ s.warp.stakes[i.val].trigger + 1000000000 then .fired else .missed)) with log := log } := by
  unfold judgeStake
  dsimp only
  split
  · simp only [fireStake, stakeAction, mark]
    exact ⟨_, rfl⟩
  · exact ⟨_, rfl⟩

theorem execStakeFire_judges (i : Fin 64) (s : State) (on : isOn s 6 = true) (armed : s.warp.stakes[i.val].state = .armed)
    (due : s.warp.stakes[i.val].trigger ≤ s.warp.ns) : execStakeFire i s = .next (judgeStake s i) :=
  congrArg Host.Outcome.next (if_pos ⟨on, armed, due⟩)

/-! ## REST windows (R275) -/

/-- The earliest of some starts is no earlier than a bound on all of them. -/
theorem foldl_min_late (l : List Nat) (t0 a : Nat) (first : t0 ≤ a) (all : ∀ t ∈ l, t0 ≤ t) : t0 ≤ l.foldl min a :=
  List.foldlRecOn l min first fun _ later t mem => Nat.le_min.mpr ⟨later, all t mem⟩

theorem foldl_max_late (l : List Nat) (t0 : Nat) : t0 ≤ l.foldl max t0 :=
  List.foldlRecOn l max (Nat.le_refl t0) fun _ later _ _ => le_max_of_le_left later

/-- A window is placed no earlier than asked for. -/
theorem restStart_late (l : List (NodeId × Nat)) (t0 n : Nat) : t0 ≤ restStart l t0 n := by
  unfold restStart
  dsimp only
  generalize ends_ : (l.map (fun p => p.2 + restWindowNs)).filter (fun e => t0 < e) = ends
  generalize good_ : (t0 :: ends).filter (fun t => overlapping l t < n) = good
  have late : ∀ t ∈ good, t0 ≤ t := by
    intro t mem
    rw [← good_] at mem
    obtain rfl | later := List.mem_cons.mp (List.mem_of_mem_filter mem)
    · exact Nat.le_refl t
    · rw [← ends_] at later
      exact Nat.le_of_lt (of_decide_eq_true (List.mem_filter.mp later).2)
  refine foldl_min_late good t0 _ ?_ late
  cases good with
  | nil => exact foldl_max_late ends t0
  | cons t _ => exact late t List.mem_cons_self

/-- The keeper notes the window that it places for the requester. -/
theorem execRestRequestFrame_notes (src : NodeId) (p : List Byte) (s : State) (heard : hears s = true) (full : p.length = 8)
    (keeps : s.warp.state = .keeper) (active : s.shb.mode = .active) : ∃ t w, execRestRequestFrame src p s = .next t ∧
      s.warp.ns + 60000000000 ≤ w ∧ (src, w) ∈ t.warp.rests ∧ t.aon = s.aon ∧ t.nand = s.nand := by
  refine ⟨_, _, congrArg Host.Outcome.next (if_pos ⟨heard, full, keeps, active⟩), restStart_late
    (s.warp.rests.filter (fun p => s.warp.ns < p.2 + restWindowNs && p.1 ≠ src)) _ s.warp.restmax, ?_⟩
  simp

end Sys2Proof.Machine

open Sys2Proof Sys2Proof.Machine

/-- Settles O42: each frame or expiry is one change of the count, of one table, of one stake's entry or of the windows. -/
theorem slotTablesAndStakes : Obligations.SlotTablesAndStakes := by
  unfold Obligations.SlotTablesAndStakes
  refine ⟨fun s run follows => ⟨_, execWarpCountSave_stores s run follows, rfl, rfl⟩,
    fun p s heard named full slots stagger idle => ⟨_, execSlotTable_own p s heard named full slots stagger, ?_⟩,
    execSlotTable_discards,
    fun x n s staged pending => ⟨_, execFrameBoundaryTableSwitch_switches x n s staged pending, upd_self _ _ _, rfl, rfl, rfl, rfl⟩,
    fun src i p s heard full target low high ahead => ⟨_, execStakeSetFrame_places src i p s heard full target low high, ?_⟩,
    fun i p s heard full target trigger armed => ⟨_, execStakeCancelFrame_cancels i p s heard full target trigger armed,
      upd_self _ i _, fun j hj => upd_other _ i j _ hj, rfl⟩,
    fun i s on armed due mark => ⟨_, execStakeFire_judges i s on armed due, ?_⟩,
    fun src p s heard full keeps active => ?_⟩
  · have table := byteAt_table p 6
    simp only [Nat.mod_eq_of_lt table]
    exact setTable_spare s ⟨byteAt p 6 / 64, table⟩ _ (fun h => idle (congrArg Fin.val h))
  · rw [placeStake_waits s i _ _ _ src (Nat.le_of_lt ahead)]
    exact ⟨upd_self _ i _, fun j hj => upd_other _ i j _ hj, rfl⟩
  · obtain ⟨log, judged⟩ := judgeStake_mark s i mark
    rw [judged]
    have entry := upd_self s.warp.stakes i (judgedAs s.warp.ns
      (if s.warp.ns ≤ s.warp.stakes[i.val].trigger + 1000000000 then .fired else .missed))
    have outcome := congrArg Stake.state entry
    have trigger := congrArg Stake.trigger entry
    exact ⟨outcome, trigger, fun j hj => upd_other _ i j _ hj, rfl⟩
  · obtain ⟨t, w, notes, later, noted, kept⟩ := execRestRequestFrame_notes src p s heard full keeps active
    exact ⟨t, notes, ⟨w, later, noted⟩, kept⟩

end

section
/-! LAW. What a response leaves of its session and of the firmware, the unlock latch, and a session's new level (R289, R295, R362). -/

namespace Sys2Proof.Machine

/-! ## What a response leaves -/

section
variable {s t : State} {k : Sess} {l : Line} (h : Answered s t k l)
include h

/-- Of its session an answer touches the sequence, the last response and the output path. -/
theorem Answered.session : getSes t k = { getSes s k with
    curLseq := (getSes t k).curLseq, resp := some l, out := (getSes t k).out, lastLseq := (getSes t k).lastLseq
    lastResp := (getSes t k).lastResp } := by
  obtain ⟨-, -, -, rest⟩ := h
  have ses := congrArg (fun u => getSes u k) rest
  exact ses.trans (upd_self _ k _)

theorem Answered.level : (getSes t k).priv = (getSes s k).priv := by rw [h.session]
theorem Answered.challenge : (getSes t k).nonce = (getSes s k).nonce := by rw [h.session]
theorem Answered.unlock : (getSes t k).unlock = (getSes s k).unlock := by rw [h.session]
theorem Answered.isOpen : (getSes t k).isOpen = (getSes s k).isOpen := by rw [h.session]

theorem Answered.others {j : Sess} (other : j ≠ k) : getSes t j = getSes s j := by
  obtain ⟨-, -, -, rest⟩ := h
  have ses := congrArg (fun u => getSes u j) rest
  exact ses.trans (upd_other _ k j _ other)

/-- Of the firmware's state it touches the sessions and the frames that wait. -/
theorem Answered.mg : t.mg = { s.mg with ses := t.mg.ses, txFeed := t.mg.txFeed } := by
  obtain ⟨-, -, -, rest⟩ := h
  have mg := congrArg State.mg rest
  rw [mg]

theorem Answered.aon : t.aon = s.aon := by
  obtain ⟨-, -, -, rest⟩ := h
  rw [rest]

theorem Answered.nand : t.nand = s.nand := by
  obtain ⟨-, -, -, rest⟩ := h
  rw [rest]

theorem Answered.cfl : t.cfl = s.cfl := by
  obtain ⟨-, -, -, rest⟩ := h
  rw [rest]

end

/-- A response is the answer in the state that it is given in. -/
theorem respond_answers (s : State) (k : Sess) (l : Line) : Answered s (respond s k l) k l := by
  have h := respond_answered s k (getSes s k).curLseq l
  rwa [setSes_sameLseq] at h

/-! ## The unlock latch (R362) -/

/-- The words of the array are all that reads of it see. -/
theorem sameFlash_of_words {s t : State} (h : t.cfl.words = s.cfl.words) : SameFlash s t := fun w => by rw [wordAt, h, wordAt]

theorem getSes_relatch (s : State) (k : Sess) : getSes (relatch s) k = getSes s k := rfl

theorem relatch_latch (s : State) :
    (relatch s).cfl.latch = true ↔ ∃ j, (getSes s j).isOpen = true ∧ (getSes s j).unlock = true := by
  show s.mg.ses.toList.any (fun q => q.isOpen && q.unlock) = true ↔ _
  simp only [List.any_eq_true, Vector.mem_toList_iff, Bool.and_eq_true]
  constructor
  · rintro ⟨q, mem, holds⟩
    obtain ⟨j, bound, rfl⟩ := Vector.mem_iff_getElem.mp mem
    exact ⟨⟨j, bound⟩, holds⟩
  · rintro ⟨j, holds⟩
    exact ⟨_, Vector.getElem_mem j.isLt, holds⟩

/-- A change of a session that keeps it open, or closed, and its unlock is no matter of the latch. -/
theorem relatch_setSes (s : State) (k : Sess) (f : Ses → Ses) (kept : ∀ q, (f q).isOpen = q.isOpen ∧ (f q).unlock = q.unlock) :
    relatch (setSes s k f) = setSes (relatch s) k f := by
  have same : ∀ j, (getSes (setSes s k f) j).isOpen = (getSes s j).isOpen ∧ (getSes (setSes s k f) j).unlock = (getSes s j).unlock := by
    intro j
    by_cases own : j = k
    · subst own
      rw [getSes_setSes]
      exact kept _
    · rw [getSes_setSes_other s k j f own]
      exact ⟨rfl, rfl⟩
  have latch : (relatch (setSes s k f)).cfl.latch = (relatch s).cfl.latch := by
    rw [Bool.eq_iff_iff, relatch_latch, relatch_latch]
    exact exists_congr fun j => by rw [(same j).1, (same j).2]
  exact congrArg (fun b => { setSes s k f with cfl := { s.cfl with latch := b } }) latch

/-- An unlock that ends leaves the latch to the other sessions' unlocks. -/
theorem dropUnlock_latch (s : State) (k : Sess) (h : (dropUnlock s k).cfl.latch = true) :
    ∃ j, j ≠ k ∧ (getSes s j).isOpen = true ∧ (getSes s j).unlock = true := by
  obtain ⟨j, opened, unlocked⟩ := (relatch_latch _).mp h
  have other : j ≠ k := by
    rintro rfl
    rw [getSes_setSes] at unlocked
    cases unlocked
  rw [getSes_setSes_other _ _ _ _ other] at opened unlocked
  exact ⟨j, other, opened, unlocked⟩

/-- The line's sequence and the end of its session's unlock do not touch one another. -/
theorem dropUnlock_lineStart (s : State) (k : Sess) :
    dropUnlock (lineStart s k) k = setSes (dropUnlock s k) k (fun q => { q with curLseq := nextLseq (getSes s k).curLseq }) := by
  have apart := relatch_setSes (setSes s k (fun q => { q with unlock := false })) k
    (fun q => { q with curLseq := nextLseq (getSes s k).curLseq }) fun _ => ⟨rfl, rfl⟩
  rw [setSes_setSes] at apart
  rw [dropUnlock, dropUnlock, ← apart, lineStart, setSes_setSes]

/-! ## A new level (R295, R362) -/

/-- A new level takes the unlock of a session that falls below KEEP. -/
theorem getSes_setPriv (s : State) (k : Sess) (p : Priv) :
    getSes (setPriv s k p) k = { getSes s k with priv := p, unlock := decide (p = .keep) && (getSes s k).unlock } := by
  cases p <;> simp [setPriv, dropUnlock, getSes_relatch]

theorem getSes_setPriv_other (s : State) (k j : Sess) (p : Priv) (other : j ≠ k) : getSes (setPriv s k p) j = getSes s j := by
  cases p <;> simp [setPriv, dropUnlock, getSes_relatch, getSes_setSes_other, other]

theorem setPriv_frame (s : State) (k : Sess) (p : Priv) :
    (setPriv s k p).aon = s.aon ∧ (setPriv s k p).nand = s.nand ∧ (setPriv s k p).shb = s.shb := by
  cases p <;> exact ⟨rfl, rfl, rfl⟩

/-- The line's sequence and its session's level do not touch one another. -/
theorem setPriv_lineStart (s : State) (k : Sess) (p : Priv) :
    setPriv (lineStart s k) k p = setSes (setPriv s k p) k (fun q => { q with curLseq := nextLseq (getSes s k).curLseq }) := by
  have level : setSes (lineStart s k) k (fun q => { q with priv := p }) = lineStart (setSes s k (fun q => { q with priv := p })) k := by
    simp only [lineStart, setSes_setSes, getSes_setSes]
  unfold setPriv
  dsimp only
  rw [level]
  split
  · rw [lineStart, getSes_setSes]
  · rw [dropUnlock_lineStart, getSes_setSes]

end Sys2Proof.Machine
end

section
/-! LAW. AUTH on its line: a level at once, a challenge, an answer to it, and a level's secret (R185, R295-R298, R304). -/

namespace Sys2Proof.Machine

/-! ## Levels, secrets and backoffs -/

theorem lowers_lineStart (s : State) (k : Sess) (p : Priv) : lowers (lineStart s k) k p = lowers s k p := by
  rw [lowers, getSes_lineStart, lowers]

/-- A level above the session's own is not taken by lowering. -/
theorem lowers_eq_false {s : State} {k : Sess} {p : Priv} (above : (getSes s k).priv.rank < p.rank) : lowers s k p = false :=
  decide_eq_false (Nat.not_le.mpr above)

theorem backoffOf_setBackoff (s : State) (p : Priv) (b : Backoff) : backoffOf (setBackoff s p b) p = b := by
  cases p <;> rfl

theorem getSes_setBackoff (s : State) (p : Priv) (b : Backoff) (k : Sess) : getSes (setBackoff s p b) k = getSes s k := rfl

theorem backoffOf_congr {s t : State} (h : t.aon = s.aon) (p : Priv) : backoffOf t p = backoffOf s p := by
  rw [backoffOf, h, backoffOf]

theorem secretOf_congr {s t : State} (run : t.mg.secRun = s.mg.secRun) (keep : t.mg.secKeep = s.mg.secKeep) (p : Priv) :
    secretOf t p = secretOf s p := by
  unfold secretOf
  rw [run, keep]

theorem authText_congr {s t : State} (bad : t.mg.secBad = s.mg.secBad) (keep : t.mg.secKeep = s.mg.secKeep) : authText t = authText s := by
  rw [authText, bad, keep, authText]

/-- AUTH's level is one of the three. -/
theorem authRefusals_none {v : Nat} (hv : v ≤ 2) : firstOf [(decide (2 < v), 101)] = none :=
  (firstOf_eq_none _).mpr (by simp [Nat.not_lt.mpr hv])

/-! ## AUTH without a MAC (R296, R297) -/

/-- A level at or below the session's own is taken at once, and any level on S0 while no KEEP secret is set. -/
theorem authPlainVerb_takes (s : State) (k : Sess) (v : Nat) (h : mayRun s k .view anyState = true) (hv : v ≤ 2)
    (free : lowers s k (privOf v) = true ∨ s.mg.secBad = false ∧ k = 0 ∧ s.mg.secKeep = none) :
    authPlainVerb k v (lineStart s k) = privAnswer (setPriv (lineStart s k) k (privOf v)) (privOf v) := by
  rw [authPlainVerb, verb_onLine k .view _ anyState _ _ s h (fun _ hx => hx) (authRefusals_none hv)]
  dsimp only
  rw [lowers_lineStart]
  split
  · rfl
  · next above =>
    obtain low | ⟨good, own, unset_⟩ := free
    · exact absurd low above
    · have readable : (lineStart s k).mg.secBad = false := good
      have open_ : k = 0 ∧ (lineStart s k).mg.secKeep = none := ⟨own, unset_⟩
      rw [readable, if_neg Bool.false_ne_true, if_pos open_]

/-- The answer of such a line, whichever of AUTH's forms it has. -/
theorem authPlain_takes (s : State) (k : Sess) (v : Nat) (i : Instr) (h : mayRun s k .view anyState = true) (hv : v ≤ 2)
    (free : lowers s k (privOf v) = true ∨ s.mg.secBad = false ∧ k = 0 ∧ s.mg.secKeep = none) :
    Answered (setPriv s k (privOf v)) (onVerb s k i true (authPlainVerb k v)) k (OK [("priv", .kw (privOf v).text)]) ∧
    (getSes (onVerb s k i true (authPlainVerb k v)) k).priv = privOf v := by
  have answered : Answered (setPriv s k (privOf v)) (onVerb s k i true (authPlainVerb k v)) k (OK [("priv", .kw (privOf v).text)]) :=
    onVerb_answers i true (mayRun_ready h).1 (by rw [authPlainVerb_takes s k v h hv free, setPriv_lineStart]; rfl)
  exact ⟨answered, by rw [answered.level, getSes_setPriv]⟩

/-- The nonce that a challenge gives: drawn anew, for one level, for 30 s (R296). -/
def challenge (s : State) (p : Priv) : Nonce := { bytes := Config.drbg s.free 48, level := p, until_ := s.aon.us + 30000000 }

/-- The state in which a session holds its challenge. -/
def challenged (s : State) (k : Sess) (p : Priv) : State :=
  setSes { s with free := s.free + 1 } k (fun q => { q with nonce := some (challenge s p) })

theorem challenged_session (s : State) (k : Sess) (p : Priv) :
    getSes (challenged s k p) k = { getSes s k with nonce := some (challenge s p) } := by
  rw [challenged, getSes_setSes]
  rfl

theorem authPlain_challenges (s : State) (k : Sess) (v : Nat) (h : mayRun s k .view anyState = true) (hv : v ≤ 2)
    (above : (getSes s k).priv.rank < (privOf v).rank) (good : s.mg.secBad = false) (guarded : k ≠ 0 ∨ s.mg.secKeep ≠ none) :
    Answered (challenged s k (privOf v)) (onVerb s k (.auth k v) true (authPlainVerb k v)) k
      (OK [("nonce", .bytes (challenge s (privOf v)).bytes), ("ttl", .nat 30)]) := by
  refine onVerb_answers (.auth k v) true (mayRun_ready h).1 ?_
  have readable : (lineStart s k).mg.secBad = false := good
  have closed : ¬ (k = 0 ∧ (lineStart s k).mg.secKeep = none) := not_and_or.mpr guarded
  rw [authPlainVerb, verb_onLine k .view _ anyState _ _ s h (fun _ hx => hx) (authRefusals_none hv)]
  dsimp only
  rw [lowers_lineStart, lowers_eq_false above, if_neg Bool.false_ne_true, readable, if_neg Bool.false_ne_true, if_neg closed]
  rw [challenged, setSes_setSes]
  exact congrArg (fun u => okAns u [("nonce", .bytes (challenge s (privOf v)).bytes), ("ttl", .nat 30)])
    (setSes_setSes { s with free := s.free + 1 } k (fun q => { q with curLseq := nextLseq (getSes s k).curLseq })
      (fun q => { q with nonce := some (challenge s (privOf v)) }))

/-! ## AUTH with a MAC (R296, R298) -/

/-- The MAC is the one that the level's secret gives; a level whose secret is unset has none. -/
def macRight (s : State) (k : Sess) (p : Priv) (nonce mac : List Byte) : Bool :=
  match secretOf s p with
  | some key => Config.hmacSha384 key (authMessage nonce p k) = mac
  | none => false

theorem macRight_own {s : State} {k : Sess} {p : Priv} {nonce key : List Byte} (known : secretOf s p = some key) :
    macRight s k p nonce (Config.hmacSha384 key (authMessage nonce p k)) = true := by
  rw [macRight, known]
  exact decide_eq_true rfl

theorem macRight_wrong {s : State} {k : Sess} {p : Priv} {nonce key mac : List Byte}
    (wrong : secretOf s p = none ∨ secretOf s p = some key ∧ Config.hmacSha384 key (authMessage nonce p k) ≠ mac) :
    macRight s k p nonce mac = false := by
  obtain unset_ | ⟨known, differs⟩ := wrong
  · rw [macRight, unset_]
  · rw [macRight, known]
    exact decide_eq_false differs

/-- The state after an attempt: its nonce is consumed. -/
def attempted (s : State) (k : Sess) : State := setSes s k (fun q => { q with nonce := none })

theorem attempted_session (s : State) (k : Sess) : getSes (attempted s k) k = { getSes s k with nonce := none } := by
  rw [attempted, getSes_setSes]

/-- The state after a right MAC. -/
def macAccepted (s : State) (k : Sess) (p : Priv) : State := setPriv (setBackoff (attempted s k) p { fails := 0, until_ := 0 }) k p

/-- The state after a wrong one. -/
def macRefused (s : State) (k : Sess) (p : Priv) : State := noteFailure (attempted s k) p

theorem macAccepted_challenge (s : State) (k : Sess) (p : Priv) : (getSes (macAccepted s k p) k).nonce = none := by
  rw [macAccepted, getSes_setPriv]
  show (getSes (setBackoff (attempted s k) p _) k).nonce = none
  rw [getSes_setBackoff, attempted_session]

theorem macAccepted_backoff (s : State) (k : Sess) (p : Priv) : backoffOf (macAccepted s k p) p = { fails := 0, until_ := 0 } := by
  rw [macAccepted, backoffOf_congr (setPriv_frame _ k p).1, backoffOf_setBackoff]

theorem macRefused_session (s : State) (k : Sess) (p : Priv) : getSes (macRefused s k p) k = { getSes s k with nonce := none } :=
  attempted_session s k

theorem macRefused_backoff (s : State) (k : Sess) (p : Priv) : backoffOf (macRefused s k p) p =
    { fails := (backoffOf s p).fails + 1, until_ := s.aon.us + backoffSeconds ((backoffOf s p).fails + 1) * 1000000 } :=
  backoffOf_setBackoff _ p _

theorem tryMac_lineStart (s : State) (k : Sess) (p : Priv) (nonce mac : List Byte) : tryMac (lineStart s k) k p nonce mac =
    if macRight s k p nonce mac then
      (setSes (macAccepted s k p) k (fun q => { q with curLseq := nextLseq (getSes s k).curLseq }), .line (OK [("priv", .kw p.text)]))
    else (setSes (macRefused s k p) k (fun q => { q with curLseq := nextLseq (getSes s k).curLseq }), .line (ERR 203)) := by
  have consumed : setSes (lineStart s k) k (fun q => { q with nonce := none }) = lineStart (attempted s k) k := by
    simp only [attempted, lineStart, setSes_setSes, getSes_setSes]
  have cleared : setBackoff (lineStart (attempted s k) k) p { fails := 0, until_ := 0 } =
      lineStart (setBackoff (attempted s k) p { fails := 0, until_ := 0 }) k := rfl
  have lseq : (getSes (setBackoff (attempted s k) p { fails := 0, until_ := 0 }) k).curLseq = (getSes s k).curLseq := by
    rw [getSes_setBackoff, attempted_session]
  have counted : noteFailure (lineStart (attempted s k) k) p =
      setSes (macRefused s k p) k (fun q => { q with curLseq := nextLseq (getSes s k).curLseq }) := by
    rw [lineStart, attempted, getSes_setSes]
    rfl
  unfold tryMac
  dsimp only
  rw [consumed, cleared, setPriv_lineStart, lseq, counted]
  rfl

/-- Above the session's level the backoff is judged first, then the nonce. -/
theorem authMacVerb_above (s : State) (k : Sess) (v : Nat) (mac : List Byte) (h : mayRun s k .view anyState = true) (hv : v ≤ 2)
    (above : (getSes s k).priv.rank < (privOf v).rank) (good : s.mg.secBad = false) : authMacVerb k v mac (lineStart s k) =
      if s.aon.us < (backoffOf s (privOf v)).until_ then
        err (lineStart s k) 204 [("wait", .nat (waitSeconds s.aon.us (backoffOf s (privOf v)).until_))]
      else (openNonce (lineStart s k) k (privOf v)).elim (err (lineStart s k) 205) (fun n => tryMac (lineStart s k) k (privOf v) n mac) := by
  have readable : (lineStart s k).mg.secBad = false := good
  have backoff : backoffOf (lineStart s k) (privOf v) = backoffOf s (privOf v) := rfl
  have clock : (lineStart s k).aon.us = s.aon.us := rfl
  rw [authMacVerb, verb_onLine k .view _ anyState _ _ s h (fun _ hx => hx) (authRefusals_none hv)]
  dsimp only
  rw [lowers_lineStart, lowers_eq_false above, if_neg Bool.false_ne_true, readable, if_neg Bool.false_ne_true, backoff, clock]
  cases openNonce (lineStart s k) k (privOf v) <;> rfl

/-- Outside the backoff, under an open nonce of the level, the MAC is tried. -/
theorem authMac_tries (s : State) (k : Sess) (v : Nat) (n : Nonce) (mac : List Byte) (h : mayRun s k .view anyState = true) (hv : v ≤ 2)
    (above : (getSes s k).priv.rank < (privOf v).rank) (good : s.mg.secBad = false)
    (ready : (backoffOf s (privOf v)).until_ ≤ s.aon.us) (nonce : (getSes s k).nonce = some n) (level : n.level = privOf v)
    (live : s.aon.us < n.until_) :
    if macRight s k (privOf v) n.bytes mac then
      Answered (macAccepted s k (privOf v)) (onVerb s k (.authMac k v mac) true (authMacVerb k v mac)) k (OK [("priv", .kw (privOf v).text)])
    else Answered (macRefused s k (privOf v)) (onVerb s k (.authMac k v mac) true (authMacVerb k v mac)) k (ERR 203) := by
  have clock : (lineStart s k).aon.us = s.aon.us := rfl
  have held : openNonce (lineStart s k) k (privOf v) = some n.bytes := by
    simp only [openNonce, getSes_lineStart, nonce, level, clock, live, and_self, if_true]
  have runs := authMacVerb_above s k v mac h hv above good
  rw [if_neg (Nat.not_lt.mpr ready), held, Option.elim_some, tryMac_lineStart] at runs
  split
  · next right =>
    rw [if_pos right] at runs
    exact onVerb_answers _ true (mayRun_ready h).1 runs
  · next wrong =>
    rw [if_neg wrong] at runs
    exact onVerb_answers _ true (mayRun_ready h).1 runs

theorem authMac_early (s : State) (k : Sess) (v : Nat) (mac : List Byte) (h : mayRun s k .view anyState = true) (hv : v ≤ 2)
    (above : (getSes s k).priv.rank < (privOf v).rank) (good : s.mg.secBad = false)
    (early : s.aon.us < (backoffOf s (privOf v)).until_) :
    Answered s (onVerb s k (.authMac k v mac) true (authMacVerb k v mac)) k
      (ERR 204 [("wait", .nat (waitSeconds s.aon.us (backoffOf s (privOf v)).until_))]) := by
  have runs := authMacVerb_above s k v mac h hv above good
  rw [if_pos early] at runs
  exact onVerb_answers _ true (mayRun_ready h).1 runs

theorem authMac_unchallenged (s : State) (k : Sess) (v : Nat) (mac : List Byte) (h : mayRun s k .view anyState = true) (hv : v ≤ 2)
    (above : (getSes s k).priv.rank < (privOf v).rank) (good : s.mg.secBad = false)
    (ready : (backoffOf s (privOf v)).until_ ≤ s.aon.us) (none_ : (getSes s k).nonce = none) :
    Answered s (onVerb s k (.authMac k v mac) true (authMacVerb k v mac)) k (ERR 205) := by
  have unheld : openNonce (lineStart s k) k (privOf v) = none := by rw [openNonce, getSes_lineStart, none_]
  have runs := authMacVerb_above s k v mac h hv above good
  rw [if_neg (Nat.not_lt.mpr ready), unheld] at runs
  exact onVerb_answers _ true (mayRun_ready h).1 runs

/-! ## AUTH SECRET (R185, R297) -/

/-- A level's secret stands in SEC, wrapped under K_store. -/
def secretStored (s : State) (p : Priv) (key : List Byte) : State :=
  writeArea { s with mg := if p = .keep then { s.mg with secKeep := some (keyWrap kStore key) }
    else { s.mg with secRun := some (keyWrap kStore key) } } .sec

theorem storeSecret_lineStart (s : State) (k : Sess) (p : Priv) (key : List Byte) (good : s.mg.secBad = false) :
    storeSecret (lineStart s k) p key =
      (setSes (secretStored s p key) k (fun q => { q with curLseq := nextLseq (getSes s k).curLseq }),
        .line (OK [("level", .kw p.text), ("auth", .kw (authText (secretStored s p key)))])) := by
  have readable : (lineStart s k).mg.secBad = false := good
  unfold storeSecret
  dsimp only
  rw [readable, if_neg Bool.false_ne_true]
  cases p <;> rfl

/-- `t` holds the secret of the level `p`; the other levels' secrets, AON, the tenants' record and the NAND are as in `s`. -/
structure SecretSet (s t : State) (p : Priv) (key : List Byte) : Prop where
  secret : secretOf t p = some key
  others : ∀ x, x ≠ p → secretOf t x = secretOf s x
  aon : t.aon = s.aon
  ten : t.ten = s.ten
  nand : t.nand = s.nand

theorem secretStored_set (s : State) (p : Priv) (key : List Byte) (named : p ≠ .view) (whole : key.length % 8 = 0) :
    SecretSet s (secretStored s p key) p key := by
  have wrapped := keyUnwrap_keyWrap kStore key whole
  refine ⟨?_, fun x other => ?_, ?_, ?_, ?_⟩
  · cases p with
    | view => exact absurd rfl named
    | run => exact wrapped
    | keep => exact wrapped
  · cases p with
    | view => exact absurd rfl named
    | run =>
      cases x with
      | run => exact absurd rfl other
      | view | keep => rfl
    | keep =>
      cases x with
      | keep => exact absurd rfl other
      | view | run => rfl
  all_goals simp only [secretStored, writeArea_frame]

/-- An answer leaves the secrets as they are. -/
theorem SecretSet.answered {s u t : State} {p : Priv} {key : List Byte} {k : Sess} {l : Line} (set : SecretSet s u p key)
    (h : Answered u t k l) : SecretSet s t p key ∧ authText t = authText u := by
  have run : t.mg.secRun = u.mg.secRun := by rw [h.mg]
  have keep : t.mg.secKeep = u.mg.secKeep := by rw [h.mg]
  have bad : t.mg.secBad = u.mg.secBad := by rw [h.mg]
  exact ⟨⟨(secretOf_congr run keep p).trans set.secret, fun x other => (secretOf_congr run keep x).trans (set.others x other),
    h.aon.trans set.aon, h.ten.trans set.ten, h.nand.trans set.nand⟩, authText_congr bad keep⟩

theorem privOf_secret {v : Nat} (hv : v = 1 ∨ v = 2) : privOf v ≠ .view := by
  obtain rfl | rfl := hv <;> exact fun e => by cases e

/-- A secret in plain form, on S0. -/
theorem authSecretPlain_stores (s : State) (v : Nat) (b : List Byte) (h : mayRun s 0 .keep anyState = true) (hv : v = 1 ∨ v = 2)
    (len : b.length = 48) (guard_ : cfgGuard s 0 = false) (good : s.mg.secBad = false) :
    Answered (secretStored s (privOf v) b) (onVerb s 0 (.authSecretPlain 0 v b) true (authSecretPlainVerb 0 v b)) 0
      (OK [("level", .kw (privOf v).text), ("auth", .kw (authText (secretStored s (privOf v) b)))]) := by
  refine onVerb_answers _ true (mayRun_ready h).1 ?_
  have known : ¬ ((lineStart s 0).mg.secBad = true ∧ (0 : Sess) = 0) := fun bad => by
    have readable : (lineStart s 0).mg.secBad = false := good
    simp [readable] at bad
  rw [authSecretPlainVerb, if_neg known, verb_onS0 fun _ => rfl,
    verb_onLine 0 .keep _ anyState _ _ s h (fun _ hx => hx) ((firstOf_eq_none _).mpr (by simp [len, cfgGuard_lineStart, guard_]; omega)),
    storeSecret_lineStart s 0 _ b good]

/-- A secret wrapped under the owner key is stored when it unwraps, else answered 109. -/
theorem authSecretWrap_stores (s : State) (k : Sess) (v : Nat) (b x : List Byte) (h : mayRun s k .keep anyState = true)
    (hv : v = 1 ∨ v = 2) (len : b.length = 56) (owner : s.ten.otk.isSome = true) (guard_ : cfgGuard s k = false)
    (good : s.mg.secBad = false) (carried : unwrapped s b = some x) :
    Answered (secretStored s (privOf v) x) (onVerb s k (.authSecretWrap k v b) true (authSecretWrapVerb k v b)) k
      (OK [("level", .kw (privOf v).text), ("auth", .kw (authText (secretStored s (privOf v) x)))]) := by
  refine onVerb_answers _ true (mayRun_ready h).1 ?_
  have carried' : unwrapped (lineStart s k) b = some x := carried
  have present : s.ten.otk.isNone = false := by simpa using owner
  rw [authSecretWrapVerb, verb_onLine k .keep _ anyState _ _ s h (fun _ hx => hx) ((firstOf_eq_none _).mpr (by
    simp [len, carried', cfgGuard_lineStart, guard_, present]; omega)), carried', Option.getD_some, storeSecret_lineStart s k _ x good]

theorem authSecretWrap_fails (s : State) (k : Sess) (v : Nat) (b : List Byte) (h : mayRun s k .keep anyState = true)
    (hv : v = 1 ∨ v = 2) (len : b.length = 56) (owner : s.ten.otk.isSome = true) (broken : unwrapped s b = none) :
    Answered s (onVerb s k (.authSecretWrap k v b) true (authSecretWrapVerb k v b)) k (ERR 109) := by
  refine onVerb_answers _ true (mayRun_ready h).1 ?_
  have broken' : unwrapped (lineStart s k) b = none := broken
  have level : (v = 0 || decide (2 < v)) = false := by simp; omega
  rw [authSecretWrapVerb, verb_refuses k .keep _ anyState _ _ s h (fun _ hx => hx) (c := 109) (by
    simp [firstOf, len, broken', owner, level])]
  rfl

/-- A secret that an owner key unwraps is a whole number of blocks. -/
theorem unwrapped_length {s : State} {b x : List Byte} (h : unwrapped s b = some x) : x.length % 8 = 0 := by
  obtain ⟨o, -, carried⟩ := Option.bind_eq_some_iff.mp h
  exact keyUnwrap_length o b x carried

end Sys2Proof.Machine

open Sys2Proof Sys2Proof.Machine

/-- Settles O45: each form of AUTH is its effect on the session's line, with its answer. -/
theorem privilegeOfASession : Obligations.PrivilegeOfASession := by
  unfold Obligations.PrivilegeOfASession
  refine ⟨fun k v s h hv low c mem => ?_,
    fun v s h _ hv good unset_ => ⟨_, rfl, ?_⟩,
    fun k v s h hv above good guarded => ⟨_, rfl, challenge s (privOf v), ?_⟩,
    fun k v n key s h hv above good ready nonce level live => ⟨_, rfl, ?_⟩,
    fun k v n key mac s h hv above good ready nonce level live => ⟨_, rfl, ?_⟩,
    fun k v mac s h hv above good => ⟨fun early => ⟨_, rfl, authMac_early s k v mac h hv above good early⟩,
      fun ready none_ => ⟨_, rfl, authMac_unchallenged s k v mac h hv above good ready none_⟩⟩,
    fun k s => rfl,
    fun v b s h hv len guard_ good => ⟨_, rfl, ?_⟩,
    fun k v b s h hv len owner guard_ good => ⟨_, rfl, fun x carried => ?_, authSecretWrap_fails s k v b h hv len owner⟩⟩
  · have takes := fun i => authPlain_takes s k v i h hv (.inl (decide_eq_true low))
    obtain rfl | rfl : c = .auth k v ∨ c = .authLower k v := by simpa using mem
    · exact ⟨_, rfl, takes _⟩
    · exact ⟨_, rfl, takes _⟩
  · obtain ⟨answered, level⟩ := authPlain_takes s 0 v (.auth 0 v) h hv (.inr ⟨good, rfl, unset_⟩)
    exact ⟨level, answered.1⟩
  · have answered := authPlain_challenges s k v h hv above good guarded
    have session := challenged_session s k (privOf v)
    exact ⟨by rw [answered.challenge, session], rfl, rfl, answered.1, by rw [answered.level, session], answered.aon⟩
  · have tried := authMac_tries s k v n (Config.hmacSha384 key (authMessage n.bytes (privOf v) k)) h hv above good ready nonce level live
    by_cases right : macRight s k (privOf v) n.bytes (Config.hmacSha384 key (authMessage n.bytes (privOf v) k)) = true
    · rw [if_pos right] at tried
      refine ⟨by rw [tried.challenge, macAccepted_challenge], fun _ => ⟨?_, ?_, tried.1⟩⟩
      · rw [tried.level, macAccepted, getSes_setPriv]
      · rw [backoffOf_congr tried.aon, macAccepted_backoff]
    · rw [if_neg right] at tried
      exact ⟨by rw [tried.challenge, macRefused_session], fun known => absurd (macRight_own known) right⟩
  · have tried := authMac_tries s k v n mac h hv above good ready nonce level live
    by_cases right : macRight s k (privOf v) n.bytes mac = true
    · rw [if_pos right] at tried
      exact ⟨by rw [tried.challenge, macAccepted_challenge], fun wrong => Bool.noConfusion (right.symm.trans (macRight_wrong wrong))⟩
    · rw [if_neg right] at tried
      refine ⟨by rw [tried.challenge, macRefused_session], fun _ => ⟨by rw [tried.level, macRefused_session], tried.1, ?_⟩⟩
      rw [backoffOf_congr tried.aon, macRefused_backoff]
      exact ⟨rfl, rfl⟩
  · have answered := authSecretPlain_stores s v b h hv len guard_ good
    obtain ⟨⟨secret, others, aon, ten, nand⟩, text⟩ := (secretStored_set s (privOf v) b (privOf_secret hv) (by omega)).answered answered
    exact ⟨secret, others, aon, ten, nand, text ▸ answered.1⟩
  · have answered := authSecretWrap_stores s k v b x h hv len owner guard_ good carried
    obtain ⟨⟨secret, others, aon, ten, nand⟩, -⟩ :=
      (secretStored_set s (privOf v) x (privOf_secret hv) (unwrapped_length carried)).answered answered
    exact ⟨secret, others, aon, ten, nand⟩

end

section
/-! LAW. SESSION on its line, and the idle limit (R279, R290, R299, R301). -/

namespace Sys2Proof.Machine

/-! ## SESSION SET (R301) -/

theorem sessionSetEcho_sets (s : State) (b : Bool) (h : mayRun s 0 .view anyState = true) :
    Answered (setSes s 0 (fun q => { q with echo := b }))
      (onVerb s 0 (.sessionSetEcho 0 (if b = true then 1 else 0)) false (sessionSetEchoVerb 0 (if b = true then 1 else 0))) 0
      (OK [("echo", boolVal b)]) := by
  refine onVerb_answers _ false (mayRun_ready h).1 ?_
  have on : decide ((if b = true then 1 else 0) = 1) = b := by cases b <;> rfl
  rw [sessionSetEchoVerb, verb_onS0 fun _ => rfl,
    verb_onLine 0 .view _ anyState _ _ s h (fun _ hx => hx) (by cases b <;> rfl), on, lineStart, setSes_setSes, setSes_setSes]
  rfl

theorem sessionSetNotify_sets (s : State) (k : Sess) (b : Bool) (h : mayRun s k .view anyState = true) :
    Answered (setSes s k (fun q => { q with notify := b }))
      (onVerb s k (.sessionSetNotify k (if b = true then 1 else 0)) false (sessionSetNotifyVerb k (if b = true then 1 else 0))) k
      (OK [("notify", boolVal b)]) := by
  refine onVerb_answers _ false (mayRun_ready h).1 ?_
  have on : decide ((if b = true then 1 else 0) = 1) = b := by cases b <;> rfl
  rw [sessionSetNotifyVerb, verb_onLine k .view _ anyState _ _ s h (fun _ hx => hx) (by cases b <;> rfl), on, lineStart, setSes_setSes,
    setSes_setSes]
  rfl

theorem sessionSetIdle_sets (s : State) (k : Sess) (n : Nat) (h : mayRun s k .keep anyState = true) (low : 60000000000 ≤ n)
    (high : n ≤ 86400000000000) (guard_ : cfgGuard s k = false) :
    Answered (storesCfg { s with mg := { s.mg with idleNs := n } }) (onVerb s k (.sessionSetIdle k n) false (sessionSetIdleVerb k n)) k
      (OK [("idle", .dur n)]) := by
  refine onVerb_answers _ false (mayRun_ready h).1 ?_
  rw [sessionSetIdleVerb, verb_onLine k .keep _ anyState _ _ s h (fun _ hx => hx) ((firstOf_eq_none _).mpr (by
    simp [outOf, cfgGuard_lineStart, guard_]; omega))]
  rfl

/-! ## SESSION END (R301) -/

theorem getSes_endTunnel (s : State) (k : Sess) : getSes (endTunnel s k) k = Ses.closed := by
  rw [endTunnel, getSes_relatch, getSes_setSes]

theorem getSes_endTunnel_other (s : State) (k j : Sess) (other : j ≠ k) : getSes (endTunnel s k) j = getSes s j := by
  rw [endTunnel, getSes_relatch, getSes_setSes_other _ _ _ _ other]

/-- A verb that has given its response itself ends in its own state (R300). -/
theorem onVerb_done {k : Sess} {s t : State} {f : Verb} (i : Instr) (b : Bool) (h : lineReady s k = true)
    (hf : f (lineStart s k) = (t, .done)) : onVerb s k i b f = t := by
  rw [onVerb_ready s k i b f h]
  unfold runLine
  rw [← lineStart]
  simp only [hf]

theorem sessionEndVerb_runs (s : State) (k : Sess) (h : mayRun s k .view anyState = true) : sessionEndVerb k (lineStart s k) =
    if isTunnel k then (endTunnel (respond (lineStart s k) k (OK [])) k, .done) else okAns (setPriv (lineStart s k) k .view) [] :=
  verb_onLine k .view _ anyState _ _ s h (fun _ hx => hx) rfl

/-- S0, S5 and S6 fall to VIEW. -/
theorem sessionEnd_lowers (s : State) (k : Sess) (h : mayRun s k .view anyState = true) (stays : isTunnel k = false) :
    Answered (setPriv s k .view) (onVerb s k (.sessionEnd k) false (sessionEndVerb k)) k (OK []) := by
  refine onVerb_answers _ false (mayRun_ready h).1 ?_
  rw [sessionEndVerb_runs s k h, stays, if_neg Bool.false_ne_true, setPriv_lineStart]
  rfl

/-- A tunnel closes, after its response. -/
theorem sessionEnd_closes (s : State) (k : Sess) (h : mayRun s k .view anyState = true) (tunnel : isTunnel k = true) :
    onVerb s k (.sessionEnd k) false (sessionEndVerb k) = endTunnel (respond (lineStart s k) k (OK [])) k :=
  onVerb_done _ false (mayRun_ready h).1 (by rw [sessionEndVerb_runs s k h, tunnel, if_pos rfl])

/-- A session that executes a line is open. -/
theorem mayRun_isOpen {s : State} {k : Sess} {need : Priv} {states : List HoldState} (h : mayRun s k need states = true) :
    (getSes s k).isOpen = true := by
  obtain ⟨ready, -, -⟩ := mayRun_ready h
  simp only [lineReady, Bool.and_eq_true] at ready
  obtain ⟨⟨⟨opened, -⟩, -⟩, -⟩ := ready
  exact opened

/-! ## The idle limit (R292, R299) -/

/-- What the idle limit makes of a session above VIEW: it falls to VIEW, with a notice. -/
def idleFall (s : State) (k : Sess) : State :=
  if (getSes s k).priv = .view then s
  else setPriv (setSes (logEv s 2 .noticeSent k.val) k (fun q => q.notice (EVT [("priv", .kw "VIEW"), ("cause", .kw "IDLE")]))) k .view

theorem execSessionIdleExpiry_runs (s : State) (k : Sess) (opened : (getSes s k).isOpen = true) (idle : (getSes s k).busy = none) :
    execSessionIdleExpiry k s = .next (if isTunnel k then endTunnel (drainNotices (idleFall s k) k) k else idleFall s k) := by
  have runs : ¬ ((!(getSes s k).isOpen) = true ∨ (getSes s k).busy.isSome = true) := by simp [opened, idle]
  exact congrArg Host.Outcome.next (if_neg runs)

theorem idleFall_view (s : State) (k : Sess) (level : (getSes s k).priv = .view) : idleFall s k = s := if_pos level

theorem idleFall_session (s : State) (k : Sess) (above : (getSes s k).priv ≠ .view) (notices : (getSes s k).notices = [])
    (lost : (getSes s k).lost = 0) : getSes (idleFall s k) k =
      { getSes s k with priv := .view, unlock := false, notices := [EVT [("priv", .kw "VIEW"), ("cause", .kw "IDLE")]] } := by
  have logged : getSes (logEv s 2 .noticeSent k.val) k = getSes s k := getSes_congr (by simp only [logEv_frame]) k
  rw [idleFall, if_neg above, getSes_setPriv, getSes_setSes, logged]
  simp [Ses.notice, notices, lost]

theorem idleFall_others (s : State) (k j : Sess) (other : j ≠ k) : getSes (idleFall s k) j = getSes s j := by
  unfold idleFall
  split
  · rfl
  · rw [getSes_setPriv_other _ _ _ _ other, getSes_setSes_other _ _ _ _ other]
    exact getSes_congr (by simp only [logEv_frame]) j

theorem idleFall_frame (s : State) (k : Sess) :
    (idleFall s k).aon = s.aon ∧ (idleFall s k).nand = s.nand ∧ (idleFall s k).shb = s.shb := by
  unfold idleFall
  split
  · exact ⟨rfl, rfl, rfl⟩
  · simp only [setPriv_frame, setSes_frame, logEv_frame, and_self]

theorem tunnelSend_ses (s : State) (n : NodeId) (p : List Byte) : (tunnelSend s n p).mg.ses = s.mg.ses := by
  obtain ⟨fifo, feed, sent⟩ := sendMessage_eq s (makeId 3 1 s.aon.opt.nodeId.toNat n.toNat) p
  rw [tunnelSend, sent]

/-- A tunnel's notices leave the other sessions as they are. -/
theorem drainNotices_others (s : State) (k j : Sess) (tunnel : isTunnel k = true) (other : j ≠ k) :
    getSes (drainNotices s k) j = getSes s j := by
  unfold drainNotices
  simp only [tunnel, if_true]
  split
  · rfl
  · split
    · rfl
    · split
      · next n _ =>
        refine List.foldlRecOn (motive := fun u => getSes u j = getSes s j) _ _ (getSes_setSes_other s k j _ other)
          fun u kept x _ => (getSes_congr (tunnelSend_ses u n _) j).trans kept
      · rfl

end Sys2Proof.Machine

open Sys2Proof Sys2Proof.Machine

/-- Settles O46: each setting, end or expiry is one change of its session. -/
theorem sessionSettingsAndIdle : Obligations.SessionSettingsAndIdle := by
  unfold Obligations.SessionSettingsAndIdle
  refine ⟨fun b s h => ⟨_, rfl, sessionSetEcho_sets s b h⟩, fun k b s h => ⟨_, rfl, sessionSetNotify_sets s k b h⟩,
    fun k n s h low high guard_ => ⟨_, rfl, sessionSetIdle_sets s k n h low high guard_⟩,
    fun k s h stays => ⟨_, rfl, ?_⟩,
    fun k s h tunnel => ⟨_, congrArg Host.Outcome.next (sessionEnd_closes s k h tunnel), getSes_endTunnel _ k, fun j other => ?_⟩,
    fun k s opened idle stays above notices lost => ⟨_, execSessionIdleExpiry_runs s k opened idle, ?_⟩,
    fun k s opened idle tunnel level => ⟨_, execSessionIdleExpiry_runs s k opened idle, ?_⟩,
    fun k s busy => congrArg Host.Outcome.next (if_pos (.inr busy))⟩
  · have answered := sessionEnd_lowers s k h stays
    have session := getSes_setPriv s k .view
    exact ⟨by rw [answered.level, session], by rw [answered.unlock, session]; rfl,
      by rw [answered.isOpen, session]; exact mayRun_isOpen h, answered.1⟩
  · rw [getSes_endTunnel_other _ k j other, (respond_answers _ k _).others other, lineStart, getSes_setSes_other _ _ _ _ other]
  · rw [stays, if_neg Bool.false_ne_true]
    exact ⟨idleFall_session s k above notices lost, fun j => idleFall_others s k j, idleFall_frame s k⟩
  · rw [tunnel, if_pos rfl, idleFall_view s k level]
    exact ⟨getSes_endTunnel _ k, fun j other => (getSes_endTunnel_other _ k j other).trans (drainNotices_others s k j tunnel other)⟩

end

section
/-! LAW. The FLASH verbs on their lines: the password and its unlock, and a job that holds its session (R300, R321, R326, R361-R363). -/

namespace Sys2Proof.Machine

/-! ## FLASH UNLOCK and FLASH LOCK (R362, R363) -/

/-- The backoff of the password stands in AON. -/
def passwordBackoff (s : State) (b : Backoff) : State := { s with aon := { s.aon with pwd := b } }

/-- The right password: the count is clear, the session holds the unlock, and the latch is set. -/
def unlocking (s : State) (k : Sess) : State :=
  relatch (setSes (passwordBackoff s { fails := 0, until_ := 0 }) k (fun q => { q with unlock := true }))

theorem unlocking_session (s : State) (k : Sess) : getSes (unlocking s k) k = { getSes s k with unlock := true } := by
  rw [unlocking, getSes_relatch, getSes_setSes]
  rfl

theorem unlocking_latch (s : State) (k : Sess) (opened : (getSes s k).isOpen = true) : (unlocking s k).cfl.latch = true :=
  (relatch_latch _).mpr ⟨k, by rw [getSes_setSes]; exact ⟨opened, rfl⟩⟩

theorem unlocking_lineStart (s : State) (k : Sess) :
    unlocking (lineStart s k) k = setSes (unlocking s k) k (fun q => { q with curLseq := nextLseq (getSes s k).curLseq }) := by
  have apart := relatch_setSes (setSes (passwordBackoff s { fails := 0, until_ := 0 }) k (fun q => { q with unlock := true })) k
    (fun q => { q with curLseq := nextLseq (getSes s k).curLseq }) fun _ => ⟨rfl, rfl⟩
  have backoff : passwordBackoff (lineStart s k) { fails := 0, until_ := 0 } =
      setSes (passwordBackoff s { fails := 0, until_ := 0 }) k (fun q => { q with curLseq := nextLseq (getSes s k).curLseq }) := rfl
  rw [setSes_setSes] at apart
  rw [unlocking, unlocking, ← apart, backoff, setSes_setSes]

/-- Below eight failures a password is judged by the backoff first, then by the one in force. -/
theorem flashUnlockVerb_runs (s : State) (k : Sess) (p : List Byte) (h : mayRun s k .keep [.serve, .fault] = true) (len : p.length = 16)
    (few : s.aon.pwd.fails < 8) : flashUnlockVerb k p (lineStart s k) =
      if s.aon.us < s.aon.pwd.until_ then err (lineStart s k) 208 [("wait", .nat (waitSeconds s.aon.us s.aon.pwd.until_))]
      else if p = s.cfl.pwd then okAns (unlocking (lineStart s k) k) [("prot", .kw "UNLOCKED")]
      else err (passwordBackoff (lineStart s k)
        { fails := s.aon.pwd.fails + 1, until_ := s.aon.us + 2 ^ s.aon.pwd.fails * 1000000 }) 207 := by
  rw [flashUnlockVerb, verb_onLine k .keep _ [.serve, .fault] _ _ s h (by decide) ((firstOf_eq_none _).mpr (by simp [len]))]
  exact if_neg (Nat.not_le.mpr few)

theorem flashUnlock_right (s : State) (k : Sess) (h : mayRun s k .keep [.serve, .fault] = true) (len : s.cfl.pwd.length = 16)
    (few : s.aon.pwd.fails < 8) (ready : s.aon.pwd.until_ ≤ s.aon.us) :
    Answered (unlocking s k) (onVerb s k (.flashUnlock k s.cfl.pwd) false (flashUnlockVerb k s.cfl.pwd)) k
      (OK [("prot", .kw "UNLOCKED")]) := by
  refine onVerb_answers _ false (mayRun_ready h).1 ?_
  rw [flashUnlockVerb_runs s k _ h len few, if_neg (Nat.not_lt.mpr ready), if_pos rfl, unlocking_lineStart]
  rfl

theorem flashUnlock_wrong (s : State) (k : Sess) (p : List Byte) (h : mayRun s k .keep [.serve, .fault] = true) (len : p.length = 16)
    (few : s.aon.pwd.fails < 8) (ready : s.aon.pwd.until_ ≤ s.aon.us) (wrong : p ≠ s.cfl.pwd) :
    Answered (passwordBackoff s { fails := s.aon.pwd.fails + 1, until_ := s.aon.us + 2 ^ s.aon.pwd.fails * 1000000 })
      (onVerb s k (.flashUnlock k p) false (flashUnlockVerb k p)) k (ERR 207) := by
  refine onVerb_answers _ false (mayRun_ready h).1 ?_
  rw [flashUnlockVerb_runs s k p h len few, if_neg (Nat.not_lt.mpr ready), if_neg wrong]
  rfl

theorem flashUnlock_early (s : State) (k : Sess) (p : List Byte) (h : mayRun s k .keep [.serve, .fault] = true) (len : p.length = 16)
    (few : s.aon.pwd.fails < 8) (early : s.aon.us < s.aon.pwd.until_) :
    Answered s (onVerb s k (.flashUnlock k p) false (flashUnlockVerb k p)) k
      (ERR 208 [("wait", .nat (waitSeconds s.aon.us s.aon.pwd.until_))]) := by
  refine onVerb_answers _ false (mayRun_ready h).1 ?_
  rw [flashUnlockVerb_runs s k p h len few, if_pos early]
  rfl

theorem flashLock_drops (s : State) (k : Sess) (h : mayRun s k .keep anyState = true) :
    Answered (dropUnlock s k) (onVerb s k (.flashLock k) false (flashLockVerb k)) k (OK [("prot", .kw "LOCKED")]) := by
  refine onVerb_answers _ false (mayRun_ready h).1 ?_
  rw [flashLockVerb, verb_onLine k .keep _ anyState _ _ s h (fun _ hx => hx) rfl, dropUnlock_lineStart]
  rfl

/-! ## A job that holds its session (R300, R326) -/

/-- The uses of the FLASH verbs that work on the array. -/
def CflUse.ofVerb : CflUse → Bool
  | .optSet _ | .protect _ _ _ | .password _ | .scrub _ => true
  | _ => false

theorem scrubSectors_ne_nil (r : Nat) : scrubSectors r ≠ [] := by
  unfold scrubSectors
  split <;> simp

/-- Each of them has operations. -/
theorem planOps_ofVerb_ne_nil (s : State) (use : CflUse) (named : use.ofVerb = true) : (planOps s use).2 ≠ [] := by
  cases use with
  | optSet keys => simp [planOps, optWriteOps]
  | protect a b on => simp [planOps, protWriteOps]
  | password p => simp [planOps, protWriteOps]
  | scrub r =>
    obtain ⟨n, l, sectors⟩ := List.exists_cons_of_ne_nil (scrubSectors_ne_nil r)
    simp [planOps, sectors]
  | _ => cases named

/-- A job that joins an empty queue is laid out at its head. -/
def laidOut (s : State) (use : CflUse) (k : Sess) : State :=
  let q := planOps (pushJob s use (some k)) use
  { q.1 with cfl := { q.1.cfl with
      jobs := [{ use := use, session := some k, planned := true, ops := q.2, redo := q.2, retried := false }] } }

/-- Its plan leaves the sessions, AON and SHB, and of the code flash the words, the protection and the password. -/
theorem laidOut_keeps (s : State) (use : CflUse) (k : Sess) (named : use.ofVerb = true) :
    (laidOut s use k).cfl.words = s.cfl.words ∧ (laidOut s use k).cfl.prot = s.cfl.prot ∧ (laidOut s use k).cfl.pwd = s.cfl.pwd ∧
    (laidOut s use k).aon = s.aon ∧ (laidOut s use k).shb = s.shb ∧ (laidOut s use k).mg = s.mg := by
  cases use with
  | optSet _ | protect _ _ _ | password _ | scrub _ => exact ⟨rfl, rfl, rfl, rfl, rfl, rfl⟩
  | _ => cases named

theorem startJob_laidOut (s : State) (use : CflUse) (k : Sess) (named : use.ofVerb = true) (idle : s.cfl.jobs = [])
    (room : (use.writesOptions && optFull s) = false) : startJob s use (some k) = laidOut s use k := by
  have jobs : (pushJob s use (some k)).cfl.jobs =
      [{ use := use, session := some k, planned := false, ops := [], redo := [], retried := false }] := by
    simp only [pushJob, idle, List.nil_append]
  have full : (use.writesOptions && optFull (pushJob s use (some k))) = false := room
  unfold startJob pump
  rw [jobs]
  show pumpJobs 5 _ = _
  rw [pumpJobs, jobs]
  simp only [Bool.false_eq_true, if_false, full, planOps_ofVerb_ne_nil _ use named]
  rfl

/-- The session `k` is busy with its job of the use `use`, which is the only one in the queue; the array's words, the protection, the
password, AON and SHB are as in `s`. -/
structure JobRuns (s t : State) (k : Sess) (use : CflUse) : Prop where
  busy : (getSes t k).busy = some .flashJob
  job : ∃ j u, t.cfl.jobs = [j] ∧ j.use = use ∧ j.session = some k ∧ j.ops = (planOps u use).2
  flash : SameFlash s t
  prot : t.cfl.prot = s.cfl.prot
  pwd : t.cfl.pwd = s.cfl.pwd
  aon : t.aon = s.aon
  shb : t.shb = s.shb

/-- A verb whose effect is such a job leaves its session busy with it. -/
theorem onVerb_jobRuns {s : State} {k : Sess} {f : Verb} (i : Instr) (use : CflUse) (h : lineReady s k = true)
    (hf : f (lineStart s k) = flashWork (lineStart s k) k use) (named : use.ofVerb = true) (idle : s.cfl.jobs = [])
    (room : (use.writesOptions && optFull s) = false) : JobRuns s (onVerb s k i false f) k use := by
  have start := startJob_laidOut (waitFor (lineStart s k) k .flashJob) use k named idle room
  obtain ⟨words, prot, pwd, aon, shb, mg⟩ := laidOut_keeps (waitFor (lineStart s k) k .flashJob) use k named
  have held : (getSes (laidOut (waitFor (lineStart s k) k .flashJob) use k) k).busy = some .flashJob := by
    rw [getSes_congr (s := waitFor (lineStart s k) k .flashJob) (by rw [mg]), waitFor, getSes_setSes]
  rw [flashWork, workOn_waits (by rw [start]; exact held), start] at hf
  rw [onVerb_waits i false h hf]
  exact ⟨by rw [getSes_setSes], ⟨_, _, rfl, rfl, rfl, rfl⟩, sameFlash_of_words words, prot, pwd, aon, shb⟩

theorem JobRuns.ops_ne_nil {s t : State} {k : Sess} {use : CflUse} (h : JobRuns s t k use) (named : use.ofVerb = true) :
    ∃ j, t.cfl.jobs = [j] ∧ j.use = use ∧ j.session = some k ∧ j.ops ≠ [] := by
  obtain ⟨j, u, jobs, job, session, ops⟩ := h.job
  exact ⟨j, jobs, job, session, ops ▸ planOps_ofVerb_ne_nil u use named⟩

/-! ## The verbs that write or scrub (R321, R360, R361) -/

theorem flashScrub_runs (s : State) (k : Sess) (r : Nat) (h : mayRun s k .keep [.serve, .fault] = true) (region : r ≤ 5)
    (idle : s.cfl.jobs = []) : JobRuns s (onVerb s k (.flashScrub k r) false (flashScrubVerb k r)) k (.scrub r) :=
  onVerb_jobRuns _ _ (mayRun_ready h).1
    (verb_onLine k .keep _ [.serve, .fault] _ _ s h (by decide) ((firstOf_eq_none _).mpr (by simp [region]))) rfl idle rfl

/-- The line's sequence leaves the session's unlock. -/
theorem noUnlock_lineStart (s : State) (k : Sess) : noUnlock (lineStart s k) k = noUnlock s k := by
  rw [noUnlock, getSes_lineStart, noUnlock]

theorem noUnlock_eq_false {s : State} {k : Sess} (unlocked : (getSes s k).unlock = true) : noUnlock s k = false := by
  rw [noUnlock, unlocked, Bool.not_true]

theorem flashProtect_runs (s : State) (k : Sess) (a b : Nat) (on : Bool) (h : mayRun s k .keep [.serve, .fault] = true) (order : a ≤ b)
    (last : b ≤ 447) (unlocked : (getSes s k).unlock = true) (idle : s.cfl.jobs = []) :
    JobRuns s (onVerb s k (.flashProtect k a b (if on = true then 1 else 0)) false
      (flashProtectVerb k a b (if on = true then 1 else 0))) k (.protect a b on) := by
  have state : decide ((if on = true then 1 else 0) = 1) = on := by cases on <;> rfl
  have code : ¬ 1 < (if on = true then 1 else 0) := by cases on <;> decide
  refine onVerb_jobRuns _ _ (mayRun_ready h).1 ?_ rfl idle rfl
  rw [flashProtectVerb, verb_onLine k .keep _ [.serve, .fault] _ _ s h (by decide) ((firstOf_eq_none _).mpr (by
    simp [noUnlock_lineStart, noUnlock_eq_false unlocked, code]; omega)), state]

theorem flashPassword_runs (s : State) (k : Sess) (p : List Byte) (h : mayRun s k .keep [.serve, .fault] = true) (len : p.length = 16)
    (unlocked : (getSes s k).unlock = true) (idle : s.cfl.jobs = []) :
    JobRuns s (onVerb s k (.flashPassword k p) false (flashPasswordVerb k p)) k (.password p) :=
  onVerb_jobRuns _ _ (mayRun_ready h).1 (verb_onLine k .keep _ [.serve, .fault] _ _ s h (by decide) ((firstOf_eq_none _).mpr (by
    simp [noUnlock_lineStart, noUnlock_eq_false unlocked, len]))) rfl idle rfl

theorem flashOptSet_runs (s : State) (k : Sess) (l : List (OptKey × Nat)) (h : mayRun s k .keep [.serve, .fault] = true)
    (fine : (l.flatMap (optValue s)).all (fun p => !p.1) = true) (open_ : (s.aon.opt.optWp && noUnlock s k) = false)
    (room : optFull s = false) (idle : s.cfl.jobs = []) :
    JobRuns s (onVerb s k (.flashOptSet k l) false (flashOptSetVerb k l)) k (.optSet l) := by
  have values : l.flatMap (optValue (lineStart s k)) = l.flatMap (optValue s) := rfl
  have full : optFull (lineStart s k) = false := room
  have open' : ((lineStart s k).aon.opt.optWp && noUnlock (lineStart s k) k) = false := by rw [noUnlock_lineStart]; exact open_
  refine onVerb_jobRuns _ _ (mayRun_ready h).1 (verb_onLine k .keep _ [.serve, .fault] _ _ s h (by decide) ((firstOf_eq_none _).mpr ?_))
    rfl idle (by rw [room, Bool.and_false])
  rw [values, List.all_append, fine, open', full]
  rfl

end Sys2Proof.Machine

open Sys2Proof Sys2Proof.Machine

/-- Settles O57: the password gives or refuses the unlock, and each other verb is one job of its session. -/
theorem flashVerbs : Obligations.FlashVerbs := by
  unfold Obligations.FlashVerbs
  refine ⟨fun k p s h len few => ⟨?_, fun ready wrong => ⟨_, rfl, flashUnlock_wrong s k p h len few ready wrong⟩,
      fun early => ⟨_, rfl, flashUnlock_early s k p h len few early⟩⟩,
    fun k s h => ⟨_, rfl, ?_⟩, fun k r s h region idle => ⟨_, rfl, ?_⟩, fun k a b on s h order last unlocked idle => ⟨_, rfl, ?_⟩,
    fun k p s h len unlocked idle => ⟨_, rfl, ?_⟩, fun k l s h fine open_ room idle => ⟨_, rfl, ?_⟩⟩
  · rintro ready rfl
    have answered := flashUnlock_right s k h len few ready
    refine ⟨_, rfl, by rw [answered.unlock, unlocking_session], by rw [answered.cfl, unlocking_latch s k (mayRun_isOpen h)],
      answered.aon, answered.1, sameFlash_of_words (by rw [answered.cfl]; rfl)⟩
  · have answered := flashLock_drops s k h
    refine ⟨?_, fun latch => dropUnlock_latch s k (answered.cfl ▸ latch), answered.1, answered.aon,
      sameFlash_of_words (by rw [answered.cfl]; rfl)⟩
    rw [answered.unlock, dropUnlock, getSes_relatch, getSes_setSes]
  · have runs := flashScrub_runs s k r h region idle
    obtain ⟨j, _, jobs, use, session, ops⟩ := runs.job
    exact ⟨runs.busy, ⟨j, jobs, use, session, ops⟩, runs.flash, runs.aon, runs.shb⟩
  · have runs := flashProtect_runs s k a b on h order last unlocked idle
    exact ⟨runs.busy, runs.ops_ne_nil rfl, runs.flash, runs.prot, runs.aon⟩
  · have runs := flashPassword_runs s k p h len unlocked idle
    exact ⟨runs.busy, runs.ops_ne_nil rfl, runs.flash, runs.pwd, runs.aon⟩
  · have runs := flashOptSet_runs s k l h fine open_ room idle
    exact ⟨runs.busy, runs.ops_ne_nil rfl, runs.flash, runs.aon⟩

end

section
/-! LAW. Commands by the part of the machine that they reach, and the code-flash array over each of them (R305, R353, R355, R364). -/

namespace Sys2Proof.Machine

/-! ## The commands by what they reach -/

/-- The parts of the machine that commands reach which are no Gehel lines; a line reaches its verb. -/
inductive Branch
  | host       -- what HP watches, and the host's pins (R81, R84, R87-R91, R96)
  | supply     -- supplies, clocks, temperature and the phases of the reset (R52, R68, R70, R415, R430)
  | boot       -- the phases of BOOT, and provisioning (R78-R83, R152)
  | takeover   -- the phases of a takeover, and the waits (R98, R100, R108, R160)
  | array      -- the dies at work for saves, records and SETTLE (R112-R117, R141-R158)
  | restore    -- the phases of a restore and of the handback (R97, R102, R163-R172)
  | domain     -- lanes, domains and the watchdog (R49, R55-R67, R390)
  | tenantKey  -- the steps of a crypto-erase (R189, R192)
  | pack       -- the pack, the charger and the estimator (R196-R223)
  | window     -- the bridge window (R246-R255)
  | bus        -- the shelf bus (R229-R245)
  | warp       -- warp time, slot tables and stakes (R259-R278)
  | target     -- the I3C target (R36, R408)
  | transport  -- characters, pipes, tunnels and the sessions' limits (R279-R285, R296, R299)
  | recorder   -- the event recorder (R328-R339)
  | flash      -- the code flash and the firmware update (R347-R364, R372-R382)
  | line       -- a Gehel line

/-- The part of the machine that a command reaches. -/
def branchOf : Instr → Branch
  | .drstL .. | .act .. | .wr .. | .wra .. | .wrp .. | .wrpa .. | .rd .. | .rda .. | .preab .. | .presb .. | .prepb .. | .refab ..
    | .refsb .. | .rfmab .. | .rfmsb .. | .sre .. | .srx .. | .pde .. | .pdx .. | .mrw .. | .rcdControlWordWrite .. | .mrr .. | .mpc ..
    | .vrefca .. | .vrefcs .. | .nop .. | .des .. | .caParityError .. | .dramAlert .. | .hostDckAbsent => .host
  | .crystalRecheck .. | .tjAlarm .. | .tjAlarmEnd .. | .vbulkQualifyReached .. | .powerOnReset | .powerOnResetRelease | .rcStable
    | .aonInitDone | .optionLoad | .crystalConfirmed | .crystalTimeout | .wardenParityError | .bulkStable | .vbulkQualifyDrop
    | .holdLLow | .vbulkDroop | .vddqDLow | .vccqNLow | .refclkLoss | .refclkReturn | .refclkLossLimit | .refclkAbsentBoot
    | .thermalShutdown | .vsbLoss | .vsbPowerUp => .supply
  | .hpReady .. | .rootAndSelftests .. | .imageDerivation .. | .provisioningStart .. | .bootDomainsUp | .headerCheck | .bodyCheck
    | .firmwareStart | .provisioningDone => .boot
  | .portRetrainDone .. | .mapSnoopApply | .burstDrainEnd | .closeEnd | .switchEnd | .clockHandoverEnd | .portStartEnd | .firstGranule
    | .parkWaitExpiry | .restoreWaitExpiry | .descriptorReloadDone | .coverRecompute => .takeover
  | .strandLoadDone .. | .strandProgramDone .. | .dieTimeout .. | .dieResetRetry .. | .tailDone .. | .rimProgramDone ..
    | .rimMarginReadDone .. | .foldProgramDone .. | .foldMarginReadDone .. | .blockEraseDone .. | .nandReadDone .. | .plaitStart
    | .slotOpenToken | .rimDwellExpiry | .settleAutoStart | .settleAutoStop => .array
  | .restoreLoadDone .. | .streamStart | .streamEnd | .zeroFillEnd | .handbackDataEnd | .handbackRefreshEnd | .modeReplayDone
    | .handbackSreDone | .handbackRelease | .handbackReady => .restore
  | .flitSend .. | .flitArrival .. | .creditReturn .. | .pllLock .. | .domainUp .. | .domainPowerFail .. | .drainComplete ..
    | .drainLimitExpiry .. | .watchdogKick | .watchdogExpiry | .deferredActivation => .domain
  | .keyZeroize .. | .keyStoreWriteDone .. | .oldCopyEraseDone .. => .tenantKey
  | .packPresenceChange .. | .packEepromRead .. | .chgPause .. | .chgResume .. | .estimatorStep .. | .wardenPackSample ..
    | .impedanceProbe .. | .polarisationProbe .. | .eRemUpdate | .eRemStale | .endOfDischarge | .hwFloorComparator | .chgPrechargeDone
    | .chgCvEntry | .chargeEnd | .chgRecharge | .cellOv | .preTimeout | .chgTimeout | .buck | .faultRetryExpiry | .marginUpgradeHold
    | .restAnchor | .unanchored | .restRequest | .selfRestWindow | .restWindowEnd | .packRecordWrite | .sensefailRequalify => .pack
  | .bwCtrlWinEn .. | .bwIrqClear .. | .bwRelease .. | .q1EntryRead .. | .txctlRequest .. | .txctlCancel .. | .bridgeRegisterWrite ..
    | .bwCtrlQ1Flush | .bwQ1ovfClear => .window
  | .frameReceived .. | .busError .. | .reassemblyGap .. | .rateCandidateTimeout | .dataRateTimeout | .busIntegrated | .frameTxDone
    | .arbitrationLost | .busoffRecoveryPolicy | .busoffRecoveryDone | .rxdStuck | .beaconTimer | .frameSof => .bus
  | .sync .. | .followUp .. | .keeperAnnounce .. | .slotTable .. | .stakeSetFrame .. | .stakeCancelFrame .. | .restRequestFrame ..
    | .stakeFire .. | .followUpTimeout | .syncLoss | .keeperElectionTimeout | .keeperSyncTimer | .warpStep | .warpGuardCrossing
    | .warpCountSave | .frameBoundaryTableSwitch => .warp
  | .entdaa .. | .setnewda .. | .hsdaMismatch .. | .rstdaa | .getpid | .getbcr | .getdcr | .getstatus => .target
  | .consoleCharacter .. | .pipeInWrite .. | .pipeOutRead .. | .pipeCtrlFlush .. | .pipeCtrlOvfClr .. | .tunnelRequest ..
    | .sessionIdleExpiry .. | .nonceExpiry .. => .transport
  | .eventArrival .. | .bucketTick | .freezeLeaseExpiry => .recorder
  | .flashFetch .. | .wordProgramDone .. | .sectorEraseDone .. | .marginReadDone .. | .header .. | .splint .. | .cflOperationTimeout
    | .receiptTimer | .imageVerificationDone => .flash
  | _ => .line

/-- A command that is a Gehel line runs its verb on its session (R305). -/
theorem exec_line {c : Instr} (h : branchOf c = .line) :
    ∃ k b f, verbOf c = some (b, f) ∧ ∀ s, exec c s = .next (onVerb s k c b f) := by
  cases c <;> cases h <;> exact ⟨_, _, _, rfl, fun _ => rfl⟩

/-- No arm of exec ends in a fault or a refusal. -/
theorem exec_next (c : Instr) (s : State) : ∃ t, exec c s = .next t := by
  cases c <;> exact ⟨_, rfl⟩

theorem step_front (c : Instr) (rest : List Instr) (s : State) : step { s with pending := c :: rest } = exec c { s with pending := rest } := rfl

theorem step_next (s : State) : ∃ t, step s = .next t := by
  unfold step
  split
  · exact ⟨_, rfl⟩
  · exact exec_next _ _

/-! ## The code-flash array

In each branch the laws of the machine's operations (`_words`) give the routine commands; those that run a function of their own over the
state, or over a list, are written out. -/

theorem host_keepsWords {c : Instr} (h : branchOf c = .host) {s t : State} (run : exec c s = .next t) (hw : flashWf s.cfl.words = true) :
    flashWf t.cfl.words = true := by
  cases c <;> cases h <;> obtain rfl := Host.Outcome.next.inj run <;> clear run
  case sre sub rank => exact onForward_words _ _ (fun u hu => observeSelfRef_words _ (by simpa using hu)) hw
  all_goals
    (repeat' split) <;> simp [hw]

theorem supply_keepsWords {c : Instr} (h : branchOf c = .supply) {s t : State} (run : exec c s = .next t) (hw : flashWf s.cfl.words = true) :
    flashWf t.cfl.words = true := by
  cases c <;> cases h <;> obtain rfl := Host.Outcome.next.inj run <;> clear run
  case vccqNLow =>
    dsimp only
    split
    · exact hw
    · exact foldl_wf _ (fun u d hu => channelLost_words u d hu) _ _
        (by simpa using foldl_wf _ (fun u d hu => markFailed_words u d .powerGood hu) _ _ (by simpa using hw))
  all_goals
    try dsimp only
    (repeat' split) <;> simp [hw]

theorem boot_keepsWords {c : Instr} (h : branchOf c = .boot) {s t : State} (run : exec c s = .next t) (hw : flashWf s.cfl.words = true) :
    flashWf t.cfl.words = true := by
  cases c <;> cases h <;> obtain rfl := Host.Outcome.next.inj run <;> clear run
  all_goals
    try dsimp only
    (repeat' split) <;> simp [hw]

theorem takeover_keepsWords {c : Instr} (h : branchOf c = .takeover) {s t : State} (run : exec c s = .next t) (hw : flashWf s.cfl.words = true) :
    flashWf t.cfl.words = true := by
  cases c <;> cases h <;> obtain rfl := Host.Outcome.next.inj run <;> clear run
  case portRetrainDone aOk bOk => exact takePhase_words _ _ _ (fun u hu => retrained_words u aOk bOk hu) hw
  case firstGranule => exact takePhase_words _ _ _ (fun u hu => by dsimp only; split <;> simpa using hu) hw
  all_goals
    try dsimp only
    (repeat' split) <;> simp [hw]

theorem array_keepsWords {c : Instr} (h : branchOf c = .array) {s t : State} (run : exec c s = .next t) (hw : flashWf s.cfl.words = true) :
    flashWf t.cfl.words = true := by
  cases c <;> cases h <;> obtain rfl := Host.Outcome.next.inj run <;> clear run
  case slotOpenToken =>
    dsimp only
    split
    · refine foldl_wf _ (fun u d hu => startWork_words u d hu) _ _ ?_
      rw [queueErases_words]
      refine queueRim_words _ ?_
      (repeat' split) <;> simpa using hw
    · exact hw
  all_goals
    try dsimp only
    (repeat' split) <;> simp (maxDischargeDepth := 12) [hw]

theorem restore_keepsWords {c : Instr} (h : branchOf c = .restore) {s t : State} (run : exec c s = .next t) (hw : flashWf s.cfl.words = true) :
    flashWf t.cfl.words = true := by
  cases c <;> cases h <;> obtain rfl := Host.Outcome.next.inj run <;> clear run
  case restoreLoadDone =>
    exact withRun_words _ _ (fun r => by dsimp only; (repeat' split) <;> simp [hw]) hw
  case modeReplayDone => exact handPhase_words _ _ _ (fun u hu => by dsimp only; split <;> exact hu) hw
  case handbackSreDone => exact handPhase_words _ _ _ (fun u hu => by dsimp only; split <;> simpa using hu) hw
  case handbackRelease =>
    exact handPhase_words _ _ _ (fun u hu => withRun_words _ _ (fun r => by split <;> exact hu) hu) hw
  case handbackReady =>
    exact handPhase_words _ _ _ (fun u hu => withRun_words _ _ (fun r => finishRestore_words u r hu) hu) hw
  all_goals
    (repeat' split) <;> simp [hw]

theorem domain_keepsWords {c : Instr} (h : branchOf c = .domain) {s t : State} (run : exec c s = .next t) (hw : flashWf s.cfl.words = true) :
    flashWf t.cfl.words = true := by
  cases c <;> cases h <;> obtain rfl := Host.Outcome.next.inj run <;> clear run
  all_goals
    try dsimp only
    (repeat' split) <;> simp [hw]

theorem tenantKey_keepsWords {c : Instr} (h : branchOf c = .tenantKey) {s t : State} (run : exec c s = .next t) (hw : flashWf s.cfl.words = true) :
    flashWf t.cfl.words = true := by
  cases c <;> cases h <;> obtain rfl := Host.Outcome.next.inj run <;> clear run
  all_goals
    (repeat' split) <;> simp [hw]

theorem pack_keepsWords {c : Instr} (h : branchOf c = .pack) {s t : State} (run : exec c s = .next t) (hw : flashWf s.cfl.words = true) :
    flashWf t.cfl.words = true := by
  cases c <;> cases h <;> obtain rfl := Host.Outcome.next.inj run <;> clear run
  all_goals
    try dsimp only
    (repeat' split) <;> simp [hw]

theorem window_keepsWords {c : Instr} (h : branchOf c = .window) {s t : State} (run : exec c s = .next t) (hw : flashWf s.cfl.words = true) :
    flashWf t.cfl.words = true := by
  cases c <;> cases h <;> obtain rfl := Host.Outcome.next.inj run <;> clear run
  case txctlCancel => exact onWindow_words _ _ (fun u hu => by split <;> simpa using hu) hw
  all_goals
    (repeat' split) <;> simp [hw]

theorem bus_keepsWords {c : Instr} (h : branchOf c = .bus) {s t : State} (run : exec c s = .next t) (hw : flashWf s.cfl.words = true) :
    flashWf t.cfl.words = true := by
  cases c <;> cases h <;> obtain rfl := Host.Outcome.next.inj run <;> clear run
  all_goals
    (repeat' split) <;> simp [hw]

theorem warp_keepsWords {c : Instr} (h : branchOf c = .warp) {s t : State} (run : exec c s = .next t) (hw : flashWf s.cfl.words = true) :
    flashWf t.cfl.words = true := by
  cases c <;> cases h <;> obtain rfl := Host.Outcome.next.inj run <;> clear run
  all_goals
    try dsimp only
    (repeat' split) <;> simp [hw]

theorem target_keepsWords {c : Instr} (h : branchOf c = .target) {s t : State} (run : exec c s = .next t) (hw : flashWf s.cfl.words = true) :
    flashWf t.cfl.words = true := by
  cases c <;> cases h <;> obtain rfl := Host.Outcome.next.inj run <;> clear run
  all_goals
    (repeat' split) <;> simp [hw]

theorem transport_keepsWords {c : Instr} (h : branchOf c = .transport) {s t : State} (run : exec c s = .next t) (hw : flashWf s.cfl.words = true) :
    flashWf t.cfl.words = true := by
  cases c <;> cases h <;> obtain rfl := Host.Outcome.next.inj run <;> clear run
  case pipeInWrite s6 bytes =>
    have fed := foldl_wf _ (fun u b hu => feedByte_words u (pipeOf s6) b hu)
      (bytes.take (1024 - (getSes s (pipeOf s6)).line.length)) s hw
    dsimp only
    (repeat' split) <;> simp [hw, fed]
  all_goals
    (repeat' split) <;> simp [hw]

theorem recorder_keepsWords {c : Instr} (h : branchOf c = .recorder) {s t : State} (run : exec c s = .next t) (hw : flashWf s.cfl.words = true) :
    flashWf t.cfl.words = true := by
  cases c <;> cases h <;> obtain rfl := Host.Outcome.next.inj run <;> clear run
  all_goals
    (repeat' split) <;> simp [hw]

theorem flash_keepsWords {c : Instr} (h : branchOf c = .flash) {s t : State} (run : exec c s = .next t) (hw : flashWf s.cfl.words = true) :
    flashWf t.cfl.words = true := by
  cases c <;> cases h <;> obtain rfl := Host.Outcome.next.inj run <;> clear run
  all_goals
    try dsimp only
    (repeat' split) <;> simp [hw]

theorem line_keepsWords {c : Instr} (h : branchOf c = .line) {s t : State} (run : exec c s = .next t) (hw : flashWf s.cfl.words = true) :
    flashWf t.cfl.words = true := by
  obtain ⟨k, b, f, verb, meaning⟩ := exec_line h
  obtain rfl := Host.Outcome.next.inj ((meaning s).symm.trans run)
  exact onVerb_words s k c b f (fun _ hu => verbOf_words verb _ hu) hw

theorem exec_keepsWords {c : Instr} {s t : State} (run : exec c s = .next t) (hw : flashWf s.cfl.words = true) :
    flashWf t.cfl.words = true := by
  cases h : branchOf c with
  | host => exact host_keepsWords h run hw
  | supply => exact supply_keepsWords h run hw
  | boot => exact boot_keepsWords h run hw
  | takeover => exact takeover_keepsWords h run hw
  | array => exact array_keepsWords h run hw
  | restore => exact restore_keepsWords h run hw
  | domain => exact domain_keepsWords h run hw
  | tenantKey => exact tenantKey_keepsWords h run hw
  | pack => exact pack_keepsWords h run hw
  | window => exact window_keepsWords h run hw
  | bus => exact bus_keepsWords h run hw
  | warp => exact warp_keepsWords h run hw
  | target => exact target_keepsWords h run hw
  | transport => exact transport_keepsWords h run hw
  | recorder => exact recorder_keepsWords h run hw
  | flash => exact flash_keepsWords h run hw
  | line => exact line_keepsWords h run hw

end Sys2Proof.Machine

open Sys2Proof Sys2Proof.Machine

/-- Settles O1: that is how step takes a command. -/
theorem stepRunsTheFrontCommand : Obligations.StepRunsTheFrontCommand :=
  step_front

/-- Settles O4: each arm of exec is a next state, and an empty queue's step is too. -/
theorem everyCommandAnswersANextState : Obligations.EveryCommandAnswersANextState :=
  ⟨exec_next, step_next⟩

/-- Settles O5: an empty queue's microsecond keeps the form, and so does the command in front, whichever part of the machine it reaches. -/
theorem flashStaysCanonical : Obligations.FlashStaysCanonical := by
  intro s t hw run
  unfold step at run
  split at run
  · obtain rfl := Host.Outcome.next.inj run
    exact idle_words s hw
  · exact exec_keepsWords run hw

/-- Settles O6: the factory's option words stand alone, in order. -/
theorem resetFlashIsCanonical : Obligations.ResetFlashIsCanonical := by
  unfold Obligations.ResetFlashIsCanonical FlashCanonical
  decide

end

section
/-! LAW. The event recorder: an entry appended, held or dropped, the buckets, the lease's end, and the LOG verbs (R320, R328-R339). -/

namespace Sys2Proof.Machine

/-! ## One entry (R332, R333, R338) -/

/-- The entry as it stands in the log. -/
def Recorder.entryOf (r : Recorder) (e : Entry) : Entry := { e with seq := r.seq, epoch := r.epoch.setWidth 6 }

/-- A log with room takes the entry at the next SEQ. -/
theorem Recorder.append_room {r : Recorder} (e : Entry) (open_ : r.full = false) (wrap : r.wrapDue = false) (room : r.entries.length < 4095) :
    r.append e = { r with entries := r.entries ++ [r.entryOf e], seq := r.seq + 1, wrapDue := decide (r.seq = 0xFFFFFFFF) } := by
  have short : ¬ r.entries.length ≥ 4095 := Nat.not_le.mpr room
  simp only [append, wrap, append1, open_, short, Bool.false_eq_true, if_false, entryOf]

/-- A full log drops the entry and counts it. -/
theorem Recorder.append_full {r : Recorder} (e : Entry) (full : r.full = true) (wrap : r.wrapDue = false) :
    r.append e = { r with drops := r.drops + 1 } := by
  simp only [append, wrap, append1, full, Bool.false_eq_true, if_false, if_true]

theorem Recorder.place_unleased {r : Recorder} (e : Entry) (lease : r.lease = none) : r.place e = r.append e := by
  simp only [place, lease]

/-- While a lease runs an entry is held; past 64 it is counted. -/
theorem Recorder.place_leased {r : Recorder} (e : Entry) (lease : r.lease.isSome = true) : r.place e =
    if r.held.length < 64 then { r with held := r.held ++ [{ e with epoch := r.epoch.setWidth 6 }] } else { r with hovf := r.hovf + 1 } := by
  obtain ⟨l, h⟩ := Option.isSome_iff_exists.mp lease
  simp only [place, h]

/-! ## Rate limiting (R335) -/

/-- A FAULT, and what the recorder writes itself, goes past the buckets. -/
theorem Recorder.arrive_unlimited {r : Recorder} (e : Entry) (free : e.sev = sevFault ∨ e.ev.own = true) : r.arrive e = r.place e :=
  if_pos free

/-- An event whose bucket is empty is counted there and not recorded. -/
theorem Recorder.arrive_suppressed {r : Recorder} {b : Bucket} (e : Entry) (fault : e.sev ≠ sevFault) (own : e.ev.own = false)
    (buckets : r.buckets = [b]) (dom : b.dom = e.dom) (ev : b.ev = e.ev) (empty : b.tokens = 0) (some_ : b.suppressed ≠ 0) :
    r.arrive e = { r with buckets := [{ b with suppressed := b.suppressed + 1 }] } := by
  simp [arrive, fault, own, takeToken, buckets, dom, ev, empty, some_]

/-- With nothing suppressed a tick is a token for each bucket, and the full ones go. -/
theorem Recorder.tick_quiet {r : Recorder} (warp : Nat) (wsync : Bool) (quiet : ∀ b ∈ r.buckets, b.suppressed = 0) :
    r.tick warp wsync = { r with
      buckets := (r.buckets.map (fun b => { b with tokens := min 8 (b.tokens + 1) })).filter (fun b => decide (b.tokens ≠ 8)) } := by
  have due : r.buckets.filter (fun b => b.suppressed ≠ 0) = [] := by simpa using quiet
  have tokens : r.buckets.map (fun b => { b with suppressed := 0, tokens := min 8 (b.tokens + 1) }) =
      r.buckets.map (fun b => { b with tokens := min 8 (b.tokens + 1) }) :=
    List.map_congr_left fun b hb => by rw [← quiet b hb]
  simp only [tick, due, List.foldl_nil, tokens]

/-! ## The end of a lease (R338) -/

/-- What an entry reports, apart from where it stands. -/
def Entry.report (e : Entry) : Dom × EvCode × Vector Word 4 × Bool := (e.dom, e.ev, e.args, e.delayed)

/-- Held entries that all find room are appended in order, each DELAYED. -/
theorem Recorder.release_room (held : List Entry) (r : Recorder) (open_ : r.full = false) (wrap : r.wrapDue = false)
    (room : r.entries.length + held.length ≤ 4095) (last : r.seq.toNat + held.length < 2 ^ 32) :
    let t := held.foldl (fun r e => r.append { e with delayed := true }) r
    t.lease = r.lease ∧ t.held = r.held ∧ t.seq.toNat = r.seq.toNat + held.length ∧
      t.entries.map Entry.report = r.entries.map Entry.report ++ held.map (fun e => (e.dom, e.ev, e.args, true)) := by
  induction held generalizing r with
  | nil => simp
  | cons e held ih =>
    simp only [List.length_cons] at room last
    have next : (r.seq + 1).toNat = r.seq.toNat + 1 := by
      rw [BitVec.toNat_add]
      exact Nat.mod_eq_of_lt (by simp; omega)
    have notLast : decide (r.seq = 0xFFFFFFFF) = false := by
      refine decide_eq_false fun h => ?_
      have greatest : r.seq.toNat = 0xFFFFFFFF := by rw [h]; rfl
      omega
    simp only [List.foldl_cons, append_room _ open_ wrap (show r.entries.length < 4095 by omega)]
    obtain ⟨lease, kept, seq, entries⟩ := ih { r with
      entries := r.entries ++ [r.entryOf { e with delayed := true }], seq := r.seq + 1, wrapDue := decide (r.seq = 0xFFFFFFFF) }
      open_ notLast (by simp; omega) (by simp only [next]; omega)
    refine ⟨lease, kept, ?_, ?_⟩
    · rw [seq, next, List.length_cons]
      omega
    · simpa [Entry.report, entryOf] using entries

theorem Recorder.thaw_room {r : Recorder} (warp : Nat) (wsync : Bool) (open_ : r.full = false) (wrap : r.wrapDue = false) (none_ : r.hovf = 0)
    (room : r.entries.length + r.held.length ≤ 4095) (last : r.seq.toNat + r.held.length < 2 ^ 32) :
    (r.thaw warp wsync).lease = none ∧ (r.thaw warp wsync).held = [] ∧ (r.thaw warp wsync).seq.toNat = r.seq.toNat + r.held.length ∧
      (r.thaw warp wsync).entries.map Entry.report = r.entries.map Entry.report ++ r.held.map (fun e => (e.dom, e.ev, e.args, true)) := by
  simp only [thaw, none_, if_true]
  exact release_room r.held { r with lease := none, held := [], hovf := 0 } open_ wrap room last

/-- LOG CLEAR leaves its one entry, in a new epoch (R339). -/
theorem Recorder.clear_eq {r : Recorder} (warp : Nat) (wsync : Bool) (session : Nat) (wrap : r.wrapDue = false) :
    r.clear warp wsync session = { r with
      entries := [{ Entry.stamp warp wsync 0 (.named .clear) EvKind.clear.sev
        (mkArgs r.entries.length session r.drops (r.epoch + 1).toNat) with seq := r.seq, epoch := (r.epoch + 1).setWidth 6 }]
      full := false, drops := 0, epoch := r.epoch + 1, seq := r.seq + 1, wrapDue := decide (r.seq = 0xFFFFFFFF) } := by
  rw [clear, append_room]
  · rfl
  · rfl
  · exact wrap
  · exact Nat.zero_lt_succ _

/-! ## Events from the domains (R329, R330) -/

/-- From the end of the power-on reset an event with a number arrives at the recorder. -/
theorem exec_eventArrival (d : Dom) (n : BitVec 11) (v : BitVec 3) (a : Vector Word 4) (s : State) (up : s.aon.por = .up) (some_ : n ≠ 0) :
    exec (.eventArrival d n v a) s = .next { s with
      log := s.log.arrive (Entry.stamp s.warp.ns (wsyncOf s) d (arrivingCode d n) (arrivingSev (arrivingCode d n) v a) a) } :=
  congrArg Host.Outcome.next (if_pos ⟨up, some_⟩)

/-! ## The LOG verbs (R320) -/

theorem Answered.log {s t : State} {k : Sess} {l : Line} (h : Answered s t k l) : t.log = s.log := by
  obtain ⟨-, -, -, same⟩ := h
  rw [same]

theorem logClearVerb_runs (s : State) (k : Sess) (h : mayRun s k .view anyState = true) : logClearVerb k (lineStart s k) =
    okAns { lineStart s k with log := s.log.clear s.warp.ns (wsyncOf s) k.val }
      [("epoch", .nat (s.log.clear s.warp.ns (wsyncOf s) k.val).epoch.toNat)] := by
  rw [logClearVerb, verb_onLine k .view _ anyState _ _ s h (fun _ hx => hx) rfl]
  rfl

theorem logFreezeVerb_runs (s : State) (k : Sess) (h : mayRun s k .view anyState = true) : logFreezeVerb k (lineStart s k) =
    okAns { lineStart s k with log := { s.log with lease := some (s.aon.us + 10000000) } }
      [("lease", .dur 10000000000), ("held", .nat s.log.held.length)] := by
  rw [logFreezeVerb, verb_onLine k .view _ anyState _ _ s h (fun _ hx => hx) rfl]
  rfl

theorem logThawVerb_unleased (s : State) (k : Sess) (h : mayRun s k .view anyState = true) (lease : s.log.lease = none) :
    logThawVerb k (lineStart s k) = okAns (lineStart s k) [("released", .nat 0)] := by
  rw [logThawVerb, verb_onLine k .view _ anyState _ _ s h (fun _ hx => hx) rfl]
  exact if_neg (by rw [(lineStart_frame s k).2.1, lease]; decide)

/-- The MARK entry of a session (R320, R331). -/
def markEntry (s : State) (k : Sess) (c : Nat) : Entry :=
  Entry.stamp s.warp.ns (wsyncOf s) 0 (.named .mark) EvKind.mark.sev (mkArgs c 0xFFFFFFFF k.val 0)

/-- A MARK is never rate-limited. -/
theorem log_mark (s : State) (k : Sess) (c : Nat) : (logEv s 0 .mark c 0xFFFFFFFF k.val).log = s.log.place (markEntry s k c) :=
  Recorder.arrive_unlimited (markEntry s k c) (.inr rfl)

theorem logMarkVerb_runs (s : State) (k : Sess) (c : Nat) (h : mayRun s k .run anyState = true) (code : c < 2048) (lease : s.log.lease = none)
    (open_ : s.log.full = false) (wrap : s.log.wrapDue = false) (room : s.log.entries.length < 4095) : logMarkVerb k c (lineStart s k) =
      okAns { lineStart s k with log := s.log.append (markEntry s k c) } [("seq", .nat s.log.seq.toNat)] := by
  have log : (logEv (lineStart s k) 0 .mark c 0xFFFFFFFF k.val).log = s.log.append (markEntry s k c) := by
    rw [log_mark]
    exact Recorder.place_unleased _ lease
  have state : logEv (lineStart s k) 0 .mark c 0xFFFFFFFF k.val = { lineStart s k with log := s.log.append (markEntry s k c) } := by
    rw [← log]
    rfl
  have fields : markFields s.log (s.log.append (markEntry s k c)) = [("seq", .nat s.log.seq.toNat)] := by
    rw [Recorder.append_room _ open_ wrap room]
    simp [markFields, lease, open_, seqVal, Recorder.entryOf]
  rw [logMarkVerb, verb_onLine k .run _ anyState _ _ s h (fun _ hx => hx) (by simp [firstOf, code])]
  dsimp only
  rw [state, (lineStart_frame s k).2.1, fields]

end Sys2Proof.Machine

open Sys2Proof Sys2Proof.Machine

/-- Settles O47: each command is one operation of the recorder, whose equation for the case gives the log. -/
theorem eventsAndTheLog : Obligations.EventsAndTheLog := by
  unfold Obligations.EventsAndTheLog
  refine ⟨fun d n v a s up some_ fault lease open_ wrap room => ⟨_, exec_eventArrival d n v a s up some_, ?_⟩,
    fun d n v a b s up some_ fault own buckets dom ev empty count => ?_,
    fun d n v a s up some_ fault lease => ⟨_, exec_eventArrival d n v a s up some_, ?_⟩,
    fun d n v a s up some_ fault lease full wrap => ?_,
    fun s up quiet => ⟨_, congrArg Host.Outcome.next (if_pos up), Recorder.tick_quiet _ _ quiet, rfl⟩,
    fun e s lease open_ wrap none_ room last => ⟨_, congrArg Host.Outcome.next (if_pos (by rw [lease]; rfl)), ?_⟩,
    fun k s h wrap => ⟨_, rfl, ?_⟩,
    fun k s h => ⟨_, rfl, ?_⟩,
    fun k s h lease => ⟨_, rfl, onVerb_answers _ _ (mayRun_ready h).1 (logThawVerb_unleased s k h lease)⟩,
    fun k c s h code lease open_ wrap room => ⟨_, rfl, ?_⟩⟩
  · dsimp only
    rw [Recorder.arrive_unlimited _ (.inl fault), Recorder.place_unleased _ lease, Recorder.append_room _ open_ wrap room]
    exact ⟨⟨_, rfl, rfl, rfl, rfl, fault, rfl, rfl, rfl⟩, rfl, rfl, rfl⟩
  · rw [exec_eventArrival d n v a s up some_, Recorder.arrive_suppressed _ fault own buckets dom ev empty count]
  · dsimp only
    rw [Recorder.arrive_unlimited _ (.inl fault), Recorder.place_leased _ lease]
    by_cases few : s.log.held.length < 64 <;> simp [few]
  · rw [exec_eventArrival d n v a s up some_, Recorder.arrive_unlimited _ (.inl fault), Recorder.place_unleased _ lease,
      Recorder.append_full _ full wrap]
  · obtain ⟨unleased, empty, seq, entries⟩ := Recorder.thaw_room s.warp.ns (wsyncOf s) open_ wrap none_ room last
    exact ⟨unleased, empty, seq, entries, rfl⟩
  · have cleared := Recorder.clear_eq s.warp.ns (wsyncOf s) k.val wrap
    have answered := onVerb_answers (.logClear k) true (u := { s with log := s.log.clear s.warp.ns (wsyncOf s) k.val }) (mayRun_ready h).1
      (logClearVerb_runs s k h)
    dsimp only
    rw [answered.log]
    refine ⟨?_, ?_⟩
    · simpa only [cleared] using answered
    · rw [cleared]
      exact ⟨rfl, rfl, rfl, rfl⟩
  · exact onVerb_answers _ _ (mayRun_ready h).1 (logFreezeVerb_runs s k h)
  · have answered := onVerb_answers (.logMark k c) true (u := { s with log := s.log.append (markEntry s k c) }) (mayRun_ready h).1
      (logMarkVerb_runs s k c h code lease open_ wrap room)
    dsimp only
    rw [answered.log]
    refine ⟨answered, ?_⟩
    rw [Recorder.append_room _ open_ wrap room, List.map_append]
    rfl

end

section
/-! LAW. The code flash: one operation at a time, how it ends, and the reads that wait for it (R347, R348, R353-R364). -/

namespace Sys2Proof.Machine

/-! ## The queue of jobs (R357) -/

/-- A queue whose head has its operations laid out stays as it is. -/
theorem pump_busy {s : State} {j : CflJob} {rest : List CflJob} (jobs : s.cfl.jobs = j :: rest) (planned : j.planned = true)
    (ops : j.ops ≠ []) : pump s = s := by
  show pumpJobs (_ + 3 + 1) s = s
  simp only [pumpJobs, jobs, planned, ops, if_true, if_false]

theorem pump_empty {s : State} (jobs : s.cfl.jobs = []) : pump s = s := by
  show pumpJobs (_ + 3 + 1) s = s
  simp only [pumpJobs, jobs]

theorem releaseReads_none {s : State} (waiting : s.cfl.waiting = []) : releaseReads s = s := by
  simp only [releaseReads, waiting, List.foldl_nil]
  rw [← waiting]

/-- So a queue goes on whose head is laid out, with no read waiting. -/
theorem release_pump_busy {s : State} {j : CflJob} {rest : List CflJob} (jobs : s.cfl.jobs = j :: rest) (planned : j.planned = true)
    (ops : j.ops ≠ []) (waiting : s.cfl.waiting = []) : releaseReads (pump s) = s := by
  rw [pump_busy jobs planned ops, releaseReads_none waiting]

theorem release_pump_empty {s : State} (jobs : s.cfl.jobs = []) (waiting : s.cfl.waiting = []) : releaseReads (pump s) = s := by
  rw [pump_empty jobs, releaseReads_none waiting]

theorem replaceHead_cons {s : State} {j : CflJob} {rest : List CflJob} (jobs : s.cfl.jobs = j :: rest) (i : CflJob) :
    replaceHead s i = { s with cfl := { s.cfl with jobs := i :: rest } } := by
  rw [replaceHead, jobs]

theorem afterOperation_none {s : State} (warm : s.cfl.warmDue = false) : afterOperation s = s := by
  simp only [afterOperation, warm, Bool.false_and, Bool.false_eq_true, if_false]

theorem currentOp_head {s : State} {j : CflJob} {o : CflOp} {os : List CflOp} {rest : List CflJob} (jobs : s.cfl.jobs = j :: rest)
    (ops : j.ops = o :: os) : currentOp s = some o := by
  simp only [currentOp, jobs, ops, List.head?_cons]

/-! ## How an operation ends (R356, R368) -/

/-- The state with the status and the pulses of the operation that has ended. -/
def opEnded (s : State) (st : CflStatus) (p : Nat) : State := { s with cfl := { s.cfl with status := st, pulses := p } }

/-- After an operation that ends OK with others to follow, the job goes on with these. -/
theorem endOp_ok {s : State} (p : Nat) {j : CflJob} {rest : List CflJob} (jobs : s.cfl.jobs = j :: rest) (warm : s.cfl.warmDue = false)
    (more : 1 < j.ops.length) : endOp s .ok p =
      releaseReads (pump (replaceHead (stageHeader (opEnded s .ok p) j) { j with ops := j.ops.tail })) := by
  have warm' : ¬ s.cfl.warmDue = true := by rw [warm]; exact Bool.false_ne_true
  unfold endOp
  dsimp only
  split
  next none_ => rw [jobs] at none_; cases none_
  next i others some_ =>
    obtain ⟨rfl, rfl⟩ := List.cons.inj (some_.symm.trans jobs)
    rw [if_neg warm', if_neg (Nat.not_le.mpr more)]
    rfl

theorem endOp_goesOn {s : State} (p : Nat) {j : CflJob} {x o : CflOp} {os : List CflOp} {rest : List CflJob} (jobs : s.cfl.jobs = j :: rest)
    (planned : j.planned = true) (ops : j.ops = x :: o :: os) (waiting : s.cfl.waiting = []) (warm : s.cfl.warmDue = false)
    (store : (stageHeader (opEnded s .ok p) j).cfl = (opEnded s .ok p).cfl) :
    endOp s .ok p = { stageHeader (opEnded s .ok p) j with cfl := { (opEnded s .ok p).cfl with jobs := { j with ops := o :: os } :: rest } } := by
  rw [endOp_ok p jobs warm (by rw [ops]; exact Nat.le_add_left 2 _), ops, List.tail_cons,
    replaceHead_cons (j := j) (rest := rest) (by rw [store]; exact jobs), store]
  exact release_pump_busy rfl planned (List.cons_ne_nil _ _) waiting

/-- Only the erase of sector 482 in a job that opens a staging stores a header (R376). -/
theorem stageHeader_none {s : State} {j : CflJob} (other : ∀ h, j.use = .openStaging h → j.ops.head? ≠ some (.erase 482)) :
    stageHeader s j = s := by
  unfold stageHeader
  split
  next h _ use ops => exact absurd (by rw [ops, List.head?_cons]) (other h use)
  next => rfl

theorem endOp_goesOn_plain {s : State} (p : Nat) {j : CflJob} {x o : CflOp} {os : List CflOp} {rest : List CflJob}
    (jobs : s.cfl.jobs = j :: rest) (planned : j.planned = true) (ops : j.ops = x :: o :: os) (waiting : s.cfl.waiting = [])
    (warm : s.cfl.warmDue = false) (other : ∀ h, j.use = .openStaging h → x ≠ .erase 482) : endOp s .ok p =
      { opEnded s .ok p with cfl := { (opEnded s .ok p).cfl with jobs := { j with ops := o :: os } :: rest } } := by
  have plain : stageHeader (opEnded s .ok p) j = opEnded s .ok p :=
    stageHeader_none fun h use => by rw [ops, List.head?_cons]; simpa using other h use
  rw [endOp_goesOn p jobs planned ops waiting warm (by rw [plain]), plain]

/-- A job that has not been tried a second time is, after a time-out. -/
theorem endOp_timeout {s : State} (p : Nat) {j : CflJob} {rest : List CflJob} (jobs : s.cfl.jobs = j :: rest) (planned : j.planned = true)
    (first : j.retried = false) (redo : j.redo ≠ []) (plain : ∀ i d, j.use ≠ .splint i d) (waiting : s.cfl.waiting = [])
    (warm : s.cfl.warmDue = false) : endOp s .timeout p =
      { opEnded s .timeout p with cfl := { (opEnded s .timeout p).cfl with jobs := { j with ops := j.redo, retried := true } :: rest } } := by
  have warm' : ¬ s.cfl.warmDue = true := by rw [warm]; exact Bool.false_ne_true
  have again : ¬ (j.retried || decide (j.redo = [])) = true := by simp [first, redo]
  unfold endOp
  dsimp only
  split
  next none_ => rw [jobs] at none_; cases none_
  next i others some_ =>
    obtain ⟨rfl, rfl⟩ := List.cons.inj (some_.symm.trans jobs)
    rw [if_neg warm']
    split
    next n d use => exact absurd use (plain n d)
    next =>
      rw [if_neg again]
      exact (congrArg (fun u => releaseReads (pump u)) (replaceHead_cons (s := opEnded s .timeout p) jobs _)).trans
        (release_pump_busy rfl planned redo waiting)

/-- An abort's write that is refused ends the job; nobody waits for it here. -/
theorem endOp_abort_fails {s : State} (st : CflStatus) (p : Nat) {j : CflJob} (jobs : s.cfl.jobs = [j]) (use : j.use = .abort)
    (session : j.session = none) (waiting : s.cfl.waiting = []) (warm : s.cfl.warmDue = false) (st_ : st = .protected_ ∨ st = .progConflict) :
    endOp s st p = { opEnded s st p with cfl := { (opEnded s st p).cfl with jobs := [] } } := by
  have warm' : ¬ s.cfl.warmDue = true := by rw [warm]; exact Bool.false_ne_true
  have fails : ∀ u : State, failJob u j st p = u := fun u => by simp only [failJob, use, session, answerBusy]
  unfold endOp
  dsimp only
  split
  next none_ => rw [jobs] at none_; cases none_
  next i others some_ =>
    obtain ⟨rfl, rfl⟩ := List.cons.inj (some_.symm.trans jobs)
    obtain rfl | rfl := st_
    · rw [if_neg warm', fails]
      exact release_pump_empty rfl waiting
    · rw [if_neg warm', fails]
      exact release_pump_empty rfl waiting

/-! ## What programs and erases leave (R353-R355, R364) -/

/-- Below the level of the soft warning the pulses are noted in the code flash alone. -/
theorem notePulses_program {s : State} (a : Nat) {p : Nat} (few : p < 8) :
    notePulses s true a p = { s with cfl := { s.cfl with maxpulse := max s.cfl.maxpulse p } } := by
  simp only [notePulses, if_true, Nat.not_le.mpr few, if_false]

theorem notePulses_erase {s : State} (a : Nat) {p : Nat} (few : p < 5) : notePulses s false a p = s := by
  simp only [notePulses, Bool.false_eq_true, Nat.not_le.mpr few, if_false]

/-- The queue, the waiting reads and the protection are the same. -/
structure SameQueue (s t : State) : Prop where
  jobs : t.cfl.jobs = s.cfl.jobs
  waiting : t.cfl.waiting = s.cfl.waiting
  warmDue : t.cfl.warmDue = s.cfl.warmDue
  prot : t.cfl.prot = s.cfl.prot

theorem SameQueue.refl (s : State) : SameQueue s s := ⟨rfl, rfl, rfl, rfl⟩

theorem SameQueue.trans {s t u : State} (h : SameQueue s t) (h' : SameQueue t u) : SameQueue s u :=
  ⟨h'.jobs.trans h.jobs, h'.waiting.trans h.waiting, h'.warmDue.trans h.warmDue, h'.prot.trans h.prot⟩

theorem SameQueue.logEv {s t : State} (h : SameQueue s t) (d : Dom) (k : EvKind) (a : Nat) : SameQueue s (logEv t d k a) :=
  ⟨h.jobs, h.waiting, h.warmDue, h.prot⟩

theorem foldl_sameQueue {α : Type} {f : State → α → State} (keeps : ∀ s x, SameQueue s (f s x)) (l : List α) (s : State) :
    SameQueue s (l.foldl f s) := by
  induction l generalizing s with
  | nil => exact .refl s
  | cons x l ih => exact (keeps s x).trans (ih _)

theorem spoilWord_sameQueue (s : State) (w : Nat) : SameQueue s (spoilWord s w) := by
  unfold spoilWord
  dsimp only
  split
  · exact ⟨rfl, rfl, rfl, rfl⟩
  · exact ⟨rfl, rfl, rfl, rfl⟩

theorem spoilSector_sameQueue (s : State) (n : Nat) : SameQueue s (spoilSector s n) := by
  have wiped : SameQueue s (wipeSector s n) := ⟨rfl, rfl, rfl, rfl⟩
  refine wiped.trans ?_
  unfold spoilSector
  refine foldl_sameQueue (fun u i => ?_) _ _
  obtain ⟨jobs, waiting, warmDue, prot⟩ := spoilWord_sameQueue u (n * sectorWords + i)
  exact ⟨jobs, waiting, warmDue, prot⟩

theorem wordAt_setWord_same {s : State} (w : Nat) (v : DWord) (wf : FlashCanonical s) : wordAt (setWord s w v) w = v :=
  flashGet_put_same s.cfl.words w v wf

theorem wordAt_setWord_other (s : State) {w x : Nat} (v : DWord) (other : x ≠ w) : wordAt (setWord s w v) x = wordAt s x :=
  flashGet_put_other s.cfl.words w x v other

theorem wordAt_wipeSector_same (s : State) {n x : Nat} (inside : x / sectorWords = n) : wordAt (wipeSector s n) x = wordErased :=
  flashGet_erase_same s.cfl.words n x inside

theorem wordAt_wipeSector_other (s : State) {n x : Nat} (outside : x / sectorWords ≠ n) : wordAt (wipeSector s n) x = wordAt s x :=
  flashGet_erase_other s.cfl.words n x outside

theorem countOf_advanceCount (s : State) (w : Nat) : countOf (advanceCount s w) w = countOf s w + 1 := by
  simp only [countOf, advanceCount, look_put, Option.getD_some]

/-! ## The operation under way -/

/-- A program that is neither refused nor in conflict, and verifies below the soft warning, writes its word and the job goes on. -/
theorem programEnds_pass {n w : Nat} {v : DWord} {j : CflJob} {o : CflOp} {os : List CflOp} {rest : List CflJob} {s : State}
    (jobs : s.cfl.jobs = j :: rest) (planned : j.planned = true) (ops : j.ops = .program w v :: o :: os) (waiting : s.cfl.waiting = [])
    (allowed : programRefused s w = false) (clear : programConflict s w v = false) (few : n < 8) (warm : s.cfl.warmDue = false) :
    programEnds n true s = { s with cfl := { (setWord (advanceCount s w) w v).cfl with
      maxpulse := max s.cfl.maxpulse n, status := .ok, pulses := n, jobs := { j with ops := o :: os } :: rest } } := by
  simp only [programEnds, currentOp_head jobs ops, allowed, clear, Bool.false_eq_true, if_false, if_true]
  rw [notePulses_program _ few]
  exact endOp_goesOn_plain n jobs planned ops waiting warm (fun _ _ => nofun)

/-- A program that is refused ends without a pulse. -/
theorem programEnds_refused {n w : Nat} {b : Bool} {v : DWord} {s : State} (op : currentOp s = some (.program w v))
    (refused : programRefused s w = true) : programEnds n b s = endOp s .protected_ 0 := by
  simp only [programEnds, op, refused, if_true]

theorem programEnds_conflict {n w : Nat} {b : Bool} {v : DWord} {s : State} (op : currentOp s = some (.program w v))
    (allowed : programRefused s w = false) (conflict : programConflict s w v = true) : programEnds n b s = endOp s .progConflict 0 := by
  simp only [programEnds, op, allowed, conflict, Bool.false_eq_true, if_false, if_true]

/-- An erase that verifies below the soft warning wipes its sector. -/
theorem eraseEnds_pass {n e : Nat} {s : State} (op : currentOp s = some (.erase e)) (allowed : eraseRefused s e = false) (few : n < 5) :
    eraseEnds n true s = endOp (wipeSector s e) .ok n := by
  simp only [eraseEnds, op, allowed, Bool.false_eq_true, if_false, if_true]
  rw [notePulses_erase _ few]

/-- An erase that the timer ends leaves its sector spoiled. -/
theorem operationExpires_erase {e : Nat} {s : State} (op : currentOp s = some (.erase e)) (allowed : eraseRefused s e = false) :
    operationExpires s = endOp (logEv (spoilSector s e) 3 .flashTimeout (e * 0x4000)) .timeout 0 := by
  simp only [operationExpires, op, allowed, Bool.false_eq_true, if_false]

theorem exec_wordProgramDone {n : Nat} {b : Bool} {s t : State} (ends : programEnds n b s = t) (warm : t.cfl.warmDue = false) :
    exec (.wordProgramDone n b) s = .next t :=
  congrArg Host.Outcome.next ((congrArg afterOperation ends).trans (afterOperation_none warm))

theorem exec_sectorEraseDone {n : Nat} {b : Bool} {s t : State} (ends : eraseEnds n b s = t) (warm : t.cfl.warmDue = false) :
    exec (.sectorEraseDone n b) s = .next t :=
  congrArg Host.Outcome.next ((congrArg afterOperation ends).trans (afterOperation_none warm))

theorem exec_cflOperationTimeout {s t : State} (ends : operationExpires s = t) (warm : t.cfl.warmDue = false) :
    exec .cflOperationTimeout s = .next t :=
  congrArg Host.Outcome.next ((congrArg afterOperation ends).trans (afterOperation_none warm))

/-! ## Reads (R347, R348, R357) -/

/-- A read that is delivered changes the code flash's own fields, and halts the core where its line is poisoned. -/
theorem deliver_keeps (s : State) (f : FetchKind) (a : Nat) :
    (deliver s f a).cfl = { s.cfl with
      fetched := some (fetchLine s f a), corrected := s.cfl.corrected + Config.correctedErrors s.free } ∧
    (deliver s f a).mg.halted = (s.mg.halted || (decide (f = .instruction) && decide (fetchLine s f a = .poison))) ∧
    (deliver s f a).aon = s.aon ∧ (deliver s f a).store = s.store ∧ (deliver s f a).nand = s.nand ∧
    (fetchLine s f a ≠ .poison → deliver s f a = { s with cfl := (deliver s f a).cfl, free := s.free + 1 }) := by
  unfold deliver
  cases line : fetchLine s f a with
  | poison => cases f <;> simp
  | line b => simp
  | fault => simp

end Sys2Proof.Machine

open Sys2Proof Sys2Proof.Machine

/-- Settles O56: each operation ends by the equation of its case, and the array's laws give the words. -/
theorem codeFlashOperations : Obligations.CodeFlashOperations := by
  unfold Obligations.CodeFlashOperations
  refine ⟨fun n w v j o os rest s jobs planned ops waiting allowed clear few warm wf =>
      ⟨_, exec_wordProgramDone (programEnds_pass jobs planned ops waiting allowed clear few warm) warm, wordAt_setWord_same w v wf,
        fun x hx => wordAt_setWord_other (advanceCount s w) v hx, rfl, countOf_advanceCount s w, rfl, rfl, rfl, rfl⟩,
    fun n w b v j o os s jobs planned ops use session waiting warm => ⟨
      fun refused => exec_wordProgramDone ((programEnds_refused (currentOp_head jobs ops) refused).trans
        (endOp_abort_fails _ _ jobs use session waiting warm (.inl rfl))) warm,
      fun allowed conflict => exec_wordProgramDone ((programEnds_conflict (currentOp_head jobs ops) allowed conflict).trans
        (endOp_abort_fails _ _ jobs use session waiting warm (.inr rfl))) warm⟩,
    fun n e j o os rest s jobs planned ops waiting allowed few warm other => ⟨_, exec_sectorEraseDone
        ((eraseEnds_pass (currentOp_head jobs ops) allowed few).trans (endOp_goesOn_plain n (s := wipeSector s e) jobs planned ops waiting
          warm (fun h hu he => other h hu (CflOp.erase.inj he)))) warm,
      fun x hx => wordAt_wipeSector_same s hx, fun x hx => wordAt_wipeSector_other s hx, rfl, rfl, rfl⟩,
    fun e j os rest s jobs planned ops waiting allowed warm first redo plain => ?_,
    fun n r j o os s jobs planned use waiting => ⟨fun ops => ?_, fun ops found => ?_⟩,
    fun f a s on busy => ?_, fun f a s on free => ⟨deliver s f a, ?_, ?_⟩⟩
  · have spoilt := (spoilSector_sameQueue s e).logEv 3 .flashTimeout (e * 0x4000)
    have warm' := spoilt.warmDue.trans warm
    have ends := endOp_timeout 0 (spoilt.jobs.trans jobs) planned first redo plain (spoilt.waiting.trans waiting) warm'
    have expires := (operationExpires_erase (currentOp_head jobs ops) allowed).trans ends
    refine ⟨_, exec_cflOperationTimeout expires (by simp only [opEnded, warm']), ?_, ?_, ?_, ?_, ?_⟩
    · simp only [opEnded]
    · simp only
    · simp only [opEnded, spoilt.prot]
    · simp [opEnded]
    · simp [opEnded]
  · show Host.Outcome.next _ = _
    simp only [jobs, ops, use, List.foldl_nil, replaceHead]
    exact congrArg Host.Outcome.next (release_pump_busy rfl planned (List.cons_ne_nil _ _) waiting)
  · show Host.Outcome.next _ = _
    simp only [jobs, ops, use, List.foldl_nil, scrubSector, found, List.tail_cons, List.length_nil, Nat.add_zero, if_true, List.nil_append,
      List.cons_ne_nil, false_and, if_false]
    exact congrArg Host.Outcome.next (release_pump_busy rfl planned (List.cons_ne_nil _ _) waiting)
  · show Host.Outcome.next _ = _
    simp only [on, busy, Bool.not_true, Bool.false_eq_true, if_false, if_true]
  · show Host.Outcome.next _ = _
    simp only [on, free, Bool.not_true, Option.isSome_none, Bool.false_eq_true, if_false]
  · obtain ⟨cfl, halted, aon, store, nand, rest⟩ := deliver_keeps s f a
    exact ⟨by rw [cfl], by rw [cfl]; exact Nat.le_add_right _ _, halted, aon, store, nand, rest⟩

end

section
/-! LAW. The firmware update: headers, splints, receipts, the verdict and the FW verbs (R314, R322, R372-R382). -/

namespace Sys2Proof.Machine

/-! ## A job that joins the queue (R357) -/

/-- A job without a start of its own is laid out at once in an empty queue. -/
theorem startJob_empty {s : State} {use : CflUse} {session : Option Sess} {ops : List CflOp} (idle : s.cfl.jobs = [])
    (other : use.writesOptions = false) (plan : planOps (pushJob s use session) use = (pushJob s use session, ops)) (some_ : ops ≠ []) :
    startJob s use session = { s with cfl := { s.cfl with
      jobs := [{ use := use, session := session, planned := true, ops := ops, redo := ops, retried := false }] } } := by
  have jobs : (pushJob s use session).cfl.jobs =
      [{ use := use, session := session, planned := false, ops := [], redo := [], retried := false }] := by
    simp only [pushJob, idle, List.nil_append]
  unfold startJob pump
  rw [jobs]
  show pumpJobs 5 _ = _
  rw [pumpJobs, jobs]
  simp only [Bool.false_eq_true, if_false, other, Bool.false_and, plan, some_]
  rfl

/-- Behind a job that is laid out it waits. -/
theorem startJob_busy {s : State} {j : CflJob} {rest : List CflJob} (use : CflUse) (session : Option Sess) (jobs : s.cfl.jobs = j :: rest)
    (planned : j.planned = true) (ops : j.ops ≠ []) : startJob s use session = pushJob s use session := by
  have queue : (pushJob s use session).cfl.jobs =
      j :: (rest ++ [{ use := use, session := session, planned := false, ops := [], redo := [], retried := false }]) := by
    rw [pushJob, jobs, List.cons_append]
  exact pump_busy queue planned ops

/-! ## Receipts (R375) -/

/-- Of the store a receipt touches its own time and mark, of SHB the FIFO, of the firmware the frames that wait. -/
theorem sendReceipt_keeps (s : State) :
    (sendReceipt s).store = { s.store with lastReceipt := (sendReceipt s).store.lastReceipt, receiptDue := (sendReceipt s).store.receiptDue } ∧
    (sendReceipt s).cfl = s.cfl ∧ (sendReceipt s).aon = s.aon ∧ (sendReceipt s).nand = s.nand := by
  unfold sendReceipt
  cases s.store.distributor with
  | none => exact ⟨rfl, rfl, rfl, rfl⟩
  | some n => simp only [sendMessage_frame, and_self]

/-- Frames go behind those in the FIFO and those that wait for it. -/
theorem sendMessage_queue (s : State) (id : CanId) (p : List Byte) :
    (sendMessage s id p).shb.fifo ++ (sendMessage s id p).mg.txFeed = s.shb.fifo ++ s.mg.txFeed ++ segment (fdAllowed s.shb) id p := by
  simp only [sendMessage, fifoSend, refillFifo, List.append_assoc, List.take_append_drop]

/-! ## Headers (R372, R376) -/

/-- In force when a header arrives: its source is the distributor. -/
def heardFrom (s : State) (n : NodeId) : State := { s with store := { s.store with distributor := some n } }

theorem judgeHeader_heardFrom (s : State) (n : NodeId) (b : List Byte) : judgeHeader (heardFrom s n) b = judgeHeader s b := rfl

theorem execHeader_heard {n : NodeId} {b : List Byte} {s : State} (hears : hearsClass4 s = true) (len : b.length = 512) :
    execHeader n b s = .next (match judgeHeader s b with
      | .rejected r => sendReceipt (setReason (heardFrom s n) r)
      | .opens => startJob (heardFrom s n) (.openStaging b) none
      | .resumes => sendReceipt (heardFrom s n)
      | .busy => sendReceipt (setReason (heardFrom s n) .busy)) := by
  simp only [execHeader, hears, len, Bool.not_true, ne_eq, not_true_eq_false]
  rfl

/-- A header for which a receipt goes out leaves the array, AON and NAND, and of the store all but the reason and the receipt's own. -/
theorem headerReceipt_keeps (s : State) (n : NodeId) (r : Reason) :
    (sendReceipt (setReason (heardFrom s n) r)).store.distributor = some n ∧ (sendReceipt (setReason (heardFrom s n) r)).store.reason = r ∧
    (sendReceipt (setReason (heardFrom s n) r)).store.hdrA = s.store.hdrA ∧
    (sendReceipt (setReason (heardFrom s n) r)).store.hdrB = s.store.hdrB ∧ (sendReceipt (setReason (heardFrom s n) r)).cfl = s.cfl ∧
    (sendReceipt (setReason (heardFrom s n) r)).aon = s.aon ∧ (sendReceipt (setReason (heardFrom s n) r)).nand = s.nand := by
  obtain ⟨store, cfl, aon, nand⟩ := sendReceipt_keeps (setReason (heardFrom s n) r)
  rw [store, cfl, aon, nand]
  exact ⟨rfl, rfl, rfl, rfl, rfl, rfl, rfl⟩

/-- The first operations of a staging: both erases, the digest and the opening record (R376). -/
def openingOps (b : List Byte) : List CflOp :=
  [.erase 481, .erase 482] ++ (List.range 6).map (fun i =>
    .program (receiptWord (recDigest + 8 * i)) (BitVec.ofNat 64 (leAt (Config.sha384 b) (8 * i) 8))) ++ [clearOp (receiptWord recOpen)]

theorem startJob_openStaging {s : State} (b : List Byte) (idle : s.cfl.jobs = []) : startJob s (.openStaging b) none =
    { s with cfl := { s.cfl with jobs := [{ use := .openStaging b, session := none, planned := true, ops := openingOps b
                                            redo := openingOps b, retried := false }] } } :=
  startJob_empty idle rfl rfl (List.cons_ne_nil _ _)

theorem hdrOf_stored_same (s : State) (t : Bank) (b : List Byte) : hdrOf (writeArea (setHdr s t b) .hdr) t = b := by
  cases t <;> rfl

theorem hdrOf_stored_other (s : State) (t : Bank) (b : List Byte) :
    hdrOf (writeArea (setHdr s t b) .hdr) (otherBank t) = hdrOf s (otherBank t) := by
  cases t <;> rfl

theorem stored_store (s : State) (t : Bank) (b : List Byte) :
    writeArea (setHdr s t b) .hdr = { s with store := (writeArea (setHdr s t b) .hdr).store } := by
  cases t <;> rfl

/-- What an operation that ends with sector 482 erased leaves of a staging that opens: its header is stored. -/
theorem stageHeader_opens {s : State} {j : CflJob} {b : List Byte} {os : List CflOp} (use : j.use = .openStaging b)
    (ops : j.ops = .erase 482 :: os) : stageHeader s j = writeArea (setHdr s (targetBank s) b) .hdr := by
  simp only [stageHeader, use, ops]

/-- Sector 482 is the receipt area's, which no protection covers (R352). -/
theorem eraseRefused_receiptArea (s : State) : eraseRefused s 482 = false := by
  simp [eraseRefused, protectedSector]

/-- With sectors 481 and 482 erased the header of the staging is stored, and the job goes on (R376). -/
theorem sectorEraseDone_opens {n : Nat} {b : List Byte} {j : CflJob} {o : CflOp} {os : List CflOp} {rest : List CflJob} {s : State}
    (jobs : s.cfl.jobs = j :: rest) (planned : j.planned = true) (use : j.use = .openStaging b) (ops : j.ops = .erase 482 :: o :: os)
    (waiting : s.cfl.waiting = []) (few : n < 5) (warm : s.cfl.warmDue = false) : exec (.sectorEraseDone n true) s = .next { s with
      store := (writeArea (setHdr s (targetBank s) b) .hdr).store
      cfl := { (opEnded (wipeSector s 482) .ok n).cfl with jobs := { j with ops := o :: os } :: rest } } := by
  have bank : targetBank (opEnded (wipeSector s 482) .ok n) = targetBank s := rfl
  have stored : stageHeader (opEnded (wipeSector s 482) .ok n) j = { opEnded (wipeSector s 482) .ok n with
      store := (writeArea (setHdr s (targetBank s) b) .hdr).store } := by
    rw [stageHeader_opens use ops, bank, stored_store]
    cases targetBank s <;> rfl
  have goesOn := endOp_goesOn (s := wipeSector s 482) n jobs planned ops waiting warm (by rw [stored])
  rw [stored] at goesOn
  exact exec_sectorEraseDone ((eraseEnds_pass (currentOp_head jobs ops) (eraseRefused_receiptArea s) few).trans goesOn) warm

/-! ## Splints (R374) -/

/-- In force when a splint arrives in RECEIVING: a receipt is due. -/
def dueReceipt (s : State) : State := { s with store := { s.store with receiptDue := true } }

theorem execSplint_outside {n : NodeId} {g : BitVec 10} {b : List Byte} {s : State} (hears : hearsClass4 s = true)
    (outside : receiving s = false) : execSplint n g b s = .next (setReason (countDiscard s) .noHeader) := by
  simp only [execSplint, hears, outside, Bool.not_true, Bool.not_false, Bool.false_eq_true, if_true, if_false]

theorem execSplint_receiving {n : NodeId} {g : BitVec 10} {b : List Byte} {s : State} (hears : hearsClass4 s = true)
    (inside : receiving s = true) : execSplint n g b s = .next (match splintReason s g.toNat b with
      | some r => setReason (countDiscard (dueReceipt s)) r
      | none => if splintHeld s g.toNat then countDiscard (dueReceipt s)
        else startJob (dueReceipt s) (.splint g.toNat (b.drop 32)) none) := by
  simp only [execSplint, hears, inside, Bool.not_true, Bool.false_eq_true, if_false]
  rfl

/-! ## The FW verbs (R314, R322, R380, R382) -/

/-- A piece of an upload follows what its session has staged of it. -/
theorem staged_stagePiece (s : State) (k : Sess) (x : UploadKind) (o : Nat) {d : List Byte} (fits : pieceLen d = false) :
    staged (stagePiece s k x o d) k x = (if o = 0 then [] else staged s k x) ++ d := by
  have some_ : (if o = 0 then [] else staged s k x) ++ d ≠ [] := by
    rintro none_
    obtain ⟨-, rfl⟩ := List.append_eq_nil_iff.mp none_
    cases fits
  have gone : ((getSes s k).uploads.filter (fun u => decide (u.kind ≠ x))).find? (fun u => decide (u.kind = x)) = none := by
    simp
  rw [stagePiece, staged, setStaged, getSes_setSes]
  simp only [List.find?_append, gone, some_, if_false, Option.none_or, List.find?_cons, decide_true]

/-- With its last piece an upload reaches to that piece's end. -/
theorem staged_stagePiece_length {s : State} {k : Sess} {x : UploadKind} {o : Nat} {d : List Byte} (fits : pieceLen d = false)
    (next : pieceOut s k x o = false) : (staged (stagePiece s k x o d) k x).length = o + d.length := by
  rw [staged_stagePiece s k x o fits, List.length_append]
  split
  next first => rw [first, List.length_nil]
  next later =>
    simp only [pieceOut, ne_eq, later, not_false_eq_true, decide_true, Bool.true_and, decide_eq_false_iff_not, not_not] at next
    rw [← next]

/-- On a ready session it is no matter whether a verb is one of the recovery set. -/
theorem onVerb_inRecovery {s : State} {k : Sess} (i : Instr) (f : Verb) (ready : lineReady s k = true) :
    onVerb s k i true f = onVerb s k i false f := by
  rw [onVerb_ready s k i true f ready, onVerb_ready s k i false f ready]

theorem pieceOut_lineStart (s : State) (k : Sess) (x : UploadKind) (o : Nat) : pieceOut (lineStart s k) k x o = pieceOut s k x o := by
  rw [pieceOut, staged_lineStart, pieceOut]

theorem receiving_lineStart (s : State) (k : Sess) : receiving (lineStart s k) = receiving s := rfl

theorem stageOf_lineStart (s : State) (k : Sess) : stageOf (lineStart s k) = stageOf s := rfl

theorem fwPutHdr_piece (s : State) (k : Sess) (o : Nat) (d : List Byte) (h : mayRun s k .keep [.serve, .park, .fault] = true)
    (fits : pieceLen d = false) (inside : o + d.length ≤ 511) (next : pieceOut s k .header o = false) :
    Answered (stagePiece s k .header o d) (onVerb s k (.fwPutHdr k o d) true (fwPutHdrVerb k o d)) k
      (OK [("off", .nat o), ("len", .nat d.length)]) := by
  have next' : pieceOut (lineStart s k) k .header o = false := (pieceOut_lineStart s k _ o).trans next
  rw [onVerb_inRecovery _ _ (mayRun_ready h).1]
  refine piece_answered _ .header o d (mayRun_ready h).1 ?_
  rw [fwPutHdrVerb, verb_onLine k .keep _ [.serve, .park, .fault] _ _ s h (by decide)
    ((firstOf_eq_none _).mpr (by simp [fits, next']; omega))]
  simp only [staged_stagePiece_length fits next']
  rw [if_pos (by omega)]

/-- A splint is whole from the length of its own header on. -/
theorem splintWhole_short {b : List Byte} (short : b.length < 32) : splintWhole b = false := by
  simp only [splintWhole, Bool.and_eq_false_iff, decide_eq_false_iff_not]
  omega

theorem fwPut_piece (s : State) (k : Sess) (i o : Nat) (d : List Byte) (h : mayRun s k .keep [.serve, .park, .fault] = true) (index : i ≤ 895)
    (fits : pieceLen d = false) (next : pieceOut s k (.splint i) o = false) (short : o + d.length < 32) (inside : receiving s = true) :
    Answered (stagePiece s k (.splint i) o d) (onVerb s k (.fwPut k i o d) true (fwPutVerb k i o d)) k
      (OK [("off", .nat o), ("len", .nat d.length)]) := by
  have next' : pieceOut (lineStart s k) k (.splint i) o = false := (pieceOut_lineStart s k _ o).trans next
  rw [onVerb_inRecovery _ _ (mayRun_ready h).1]
  refine piece_answered _ (.splint i) o d (mayRun_ready h).1 ?_
  rw [fwPutVerb, verb_onLine k .keep _ [.serve, .park, .fault] _ _ s h (by decide)
    ((firstOf_eq_none _).mpr (by simp [fits, next', receiving_lineStart, inside]; omega))]
  simp only [splintWhole_short ((staged_stagePiece_length fits next').trans_lt short), Bool.false_eq_true, if_false]

theorem fwPut_refused (s : State) (k : Sess) (i o : Nat) (d : List Byte) (h : mayRun s k .keep [.serve, .park, .fault] = true)
    (outside : receiving s = false) : Answered s (onVerb s k (.fwPut k i o d) true (fwPutVerb k i o d)) k (ERR 313) := by
  obtain ⟨ready, priv, hold⟩ := mayRun_ready h
  refine onVerb_answers _ true ready ?_
  rw [fwPutVerb, verb_runs k .keep [SV, PK, FT] _ _ (lineStart s k) (by rw [getSes_lineStart]; exact priv) hold]
  simp only [receiving_lineStart, outside, Bool.not_false, firstOf, if_true]
  rfl

/-- FW ACTIVATE on its line goes by the stage alone. -/
theorem fwActivateVerb_runs (s : State) (k : Sess) (h : mayRun s k .keep [.serve, .park, .save, .restore, .fault] = true) :
    fwActivateVerb k (lineStart s k) = match stageOf s with
      | .idle => err (lineStart s k) 313
      | .receiving => err (lineStart s k) 314 [("missing", rangesVal ((missingFrom s 0).take 256))]
      | .failed => err (lineStart s k) 505
      | .complete => workOn (lineStart s k) k .activate (fun s => { s with store := { s.store with verifyWaiters := s.store.verifyWaiters ++ [k] } })
      | .verified | .activating => workOn (lineStart s k) k .activate (fun s => pump (activateReq s k)) := by
  rw [fwActivateVerb, verb_onLine k .keep _ [.serve, .park, .save, .restore, .fault] _ _ s h (by decide) rfl]
  rfl

theorem fwActivate_refused {s : State} {k : Sess} {c : Nat} {f : List (String × Val)}
    (h : mayRun s k .keep [.serve, .park, .save, .restore, .fault] = true) (refuses : fwActivateVerb k (lineStart s k) = err (lineStart s k) c f) :
    Answered s (onVerb s k (.fwActivate k) true (fwActivateVerb k)) k (ERR c f) :=
  onVerb_answers _ true (mayRun_ready h).1 (refuses.trans rfl)

/-- A COMPLETE image's activation waits for the verdict (R380). -/
theorem fwActivate_waits (s : State) (k : Sess) (h : mayRun s k .keep [.serve, .park, .save, .restore, .fault] = true)
    (complete : stageOf s = .complete) : onVerb s k (.fwActivate k) true (fwActivateVerb k) =
      setSes { waitFor (lineStart s k) k .activate with store := { s.store with verifyWaiters := s.store.verifyWaiters ++ [k] } } k
        (fun q => { q with busy := some .activate }) := by
  refine onVerb_waits _ true (mayRun_ready h).1 ?_
  rw [fwActivateVerb_runs s k h, complete]
  refine workOn_waits ?_
  show (getSes (waitFor (lineStart s k) k .activate) k).busy = _
  rw [waitFor, getSes_setSes]

theorem fwAbortVerb_runs (s : State) (k : Sess) (h : mayRun s k .keep [.serve, .park, .fault] = true) : fwAbortVerb k (lineStart s k) =
    if stageOf s = .idle then okAns (lineStart s k) [("stage", .kw "IDLE")] else flashWork (lineStart s k) k .abort := by
  rw [fwAbortVerb, verb_onLine k .keep _ [.serve, .park, .fault] _ _ s h (by decide) rfl]
  rfl

/-- An abort is one job that clears CLOSED. -/
theorem fwAbort_closes (s : State) (k : Sess) (h : mayRun s k .keep [.serve, .park, .fault] = true) (idle : s.cfl.jobs = [])
    (open_ : stageOf s ≠ .idle) : onVerb s k (.fwAbort k) false (fwAbortVerb k) =
      setSes { waitFor (lineStart s k) k .flashJob with cfl := { s.cfl with jobs := [{
        use := .abort, session := some k, planned := true, ops := [clearOp (receiptWord recClosed)]
        redo := [clearOp (receiptWord recClosed)], retried := false }] } } k (fun q => { q with busy := some .flashJob }) := by
  refine onVerb_waits _ false (mayRun_ready h).1 ?_
  have start := startJob_empty (s := waitFor (lineStart s k) k .flashJob) (use := .abort) (session := some k) idle rfl rfl (List.cons_ne_nil _ _)
  rw [fwAbortVerb_runs s k h, if_neg open_, flashWork, workOn_waits, start]
  · rfl
  · rw [start]
    show (getSes (waitFor (lineStart s k) k .flashJob) k).busy = _
    rw [waitFor, getSes_setSes]

end Sys2Proof.Machine

open Sys2Proof Sys2Proof.Machine

/-- Settles O58: each message by its judgement, each FW verb by the stage. -/
theorem firmwareUpdate : Obligations.FirmwareUpdate := by
  unfold Obligations.FirmwareUpdate
  refine ⟨fun n b s hears len idle => ⟨_, execHeader_heard hears len, ?_⟩,
    fun n b j o os rest s jobs planned use ops waiting few warm => ⟨_, sectorEraseDone_opens jobs planned use ops waiting few warm, ?_⟩,
    fun n g b h rest s hears jobs planned ops => ?_,
    fun n s running due distributor => ⟨sendReceipt s, congrArg Host.Outcome.next (if_pos ⟨running, due⟩), ?_⟩,
    fun h rest s jobs planned ops => ⟨_, rfl, ?_⟩,
    fun k o d s h fits inside next => ⟨_, rfl, fwPutHdr_piece s k o d h fits inside next⟩,
    fun k i o d s h index fits next short => ⟨_, rfl, ?_⟩,
    fun k s h => ⟨_, rfl, fun idle => fwActivate_refused h (by rw [fwActivateVerb_runs s k h, idle]),
      fun failed => fwActivate_refused h (by rw [fwActivateVerb_runs s k h, failed]),
      fun receiving_ => ⟨_, (fwActivate_refused h (by rw [fwActivateVerb_runs s k h, receiving_])).1⟩, fun complete => ?_⟩,
    fun k s h idle => ⟨_, rfl, ?_⟩⟩
  · cases judged : judgeHeader s b with
    | rejected r =>
      obtain ⟨source, reason, hdrA, hdrB, cfl, aon, nand⟩ := headerReceipt_keeps s n r
      simp only [HdrResult.rejected.injEq, reduceCtorEq, false_imp_iff, true_and, forall_eq']
      exact ⟨source, ⟨reason, cfl, hdrA, hdrB⟩, sameFlash_of_words (by rw [cfl]), aon, nand⟩
    | opens =>
      simp only [reduceCtorEq, false_imp_iff, implies_true, true_and, startJob_openStaging (s := heardFrom s n) b idle]
      exact ⟨rfl, fun _ => ⟨⟨_, rfl, rfl, rfl⟩, rfl⟩, fun _ => rfl, rfl, rfl⟩
    | resumes =>
      obtain ⟨source, reason, -, -, cfl, aon, nand⟩ := headerReceipt_keeps s n s.store.reason
      simp only [reduceCtorEq, false_imp_iff, implies_true, true_and]
      exact ⟨source, fun _ => ⟨reason, cfl⟩, sameFlash_of_words (congrArg Cfl.words cfl), aon, nand⟩
    | busy =>
      obtain ⟨source, reason, -, -, cfl, aon, nand⟩ := headerReceipt_keeps s n .busy
      simp only [reduceCtorEq, false_imp_iff, implies_true, true_and]
      exact ⟨source, fun _ => ⟨reason, cfl⟩, sameFlash_of_words (by rw [cfl]), aon, nand⟩
  · exact ⟨hdrOf_stored_same s _ b, hdrOf_stored_other s _ b, fun x hx => wordAt_wipeSector_same s hx,
      fun x hx => wordAt_wipeSector_other s hx, rfl, rfl⟩
  · cases inside : receiving s with
    | false => exact ⟨_, execSplint_outside (n := n) hears inside, fun _ => ⟨rfl, rfl, rfl⟩, nofun, fun _ => rfl, rfl, rfl⟩
    | true =>
      refine ⟨_, execSplint_receiving (n := n) hears inside, ?_⟩
      cases reason : splintReason s g.toNat b with
      | some r =>
        refine ⟨nofun, fun _ => ⟨fun q same => ?_, nofun⟩, fun _ => rfl, rfl, rfl⟩
        obtain rfl := Option.some.inj same
        exact ⟨rfl, rfl, rfl, rfl⟩
      | none =>
        cases held : splintHeld s g.toNat with
        | true => exact ⟨nofun, fun _ => ⟨nofun, fun _ => ⟨rfl, rfl⟩⟩, fun _ => rfl, rfl, rfl⟩
        | false =>
          simp only [Bool.false_eq_true, if_false, startJob_busy (s := dueReceipt s) _ none jobs planned ops]
          exact ⟨nofun, fun _ => ⟨nofun, fun _ => ⟨_, rfl, rfl, rfl⟩⟩, fun _ => rfl, rfl, rfl⟩
  · obtain ⟨-, cfl, aon, -⟩ := sendReceipt_keeps s
    refine ⟨?_, ?_, cfl, aon⟩
    · simp only [sendReceipt, distributor, sendMessage_frame]
    · simp only [sendReceipt, distributor]
      exact sendMessage_queue s _ _
  · simp only [Bool.not_eq_true']
    by_cases due : s.mg.running = true ∧ stageOf s = .complete ∧ s.cfl.jobs.any isVerdict = false
    · rw [if_pos due, if_pos due, startJob_busy _ none jobs planned ops]
      exact ⟨⟨_, _, rfl, rfl, by simp [and_assoc]⟩, fun _ => rfl, rfl⟩
    · rw [if_neg due, if_neg due]
      exact ⟨rfl, fun _ => rfl, rfl⟩
  · split
    next inside => exact fwPut_piece s k i o d h index fits next short inside
    next outside => exact fwPut_refused s k i o d h (Bool.not_eq_true _ ▸ outside)
  · rw [fwActivate_waits s k h complete]
    exact ⟨rfl, by rw [getSes_setSes], rfl⟩
  · split
    next closed => exact onVerb_answers _ false (mayRun_ready h).1 ((fwAbortVerb_runs s k h).trans (if_pos closed))
    next open_ =>
      rw [fwAbort_closes s k h idle open_]
      exact ⟨by rw [getSes_setSes], ⟨_, rfl, rfl, rfl, rfl⟩, fun _ => rfl⟩

end

section
/-! LAW. The verbs that only read: each answers its fields and changes nothing else (R307-R323, R435). -/

namespace Sys2Proof.Machine

/-- A reading verb that nothing refuses answers its fields, which the line's sequence leaves as they are. -/
theorem reads_answered {k : Sess} {s : State} {refusals : State → List (Bool × Nat)} {g : State → List (String × Val)} (i : Instr) (b : Bool)
    (h : mayRun s k .view anyState = true) (fine : (refusals (lineStart s k)).all (fun p => !p.1) = true) :
    Answered s (onVerb s k i b (verb k .view false anyState refusals (fun u => okAns u (g u)))) k (OK (g (lineStart s k))) := by
  refine onVerb_answers i b (mayRun_ready h).1 ?_
  rw [verb_onLine k .view anyState anyState refusals _ s h (fun _ x => x) ((firstOf_eq_none _).mpr fine)]
  rfl

theorem not_recovering {s : State} {k : Sess} (h : mayRun s k .view anyState = true) : recovering (lineStart s k) = false := by
  obtain ⟨ready, -, -⟩ := mayRun_ready h
  simp only [lineReady, Bool.and_eq_true, Bool.not_eq_true'] at ready
  exact ready.2

/-- The names of the 20 domains as DOMAIN lists them. -/
theorem domain_names : (allFin 20).map (fun d => "d" ++ two d.val) = ["d00", "d01", "d02", "d03", "d04", "d05", "d06", "d07", "d08", "d09",
    "d10", "d11", "d12", "d13", "d14", "d15", "d16", "d17", "d18", "d19"] := by decide

theorem session_names : (allFin 7).map (fun x => "s" ++ decText x.val) = ["s0", "s1", "s2", "s3", "s4", "s5", "s6"] := by decide

/-- A table's fields have the same keys whether it is valid or not. -/
theorem tableFields_keys (n : Nat) (t : Option SlotTable) : (tableFields n t).map Prod.fst = ["table", "mask", "smax", "stagger"] := by
  cases t <;> rfl

/-- Without a count LOG READ and LOG PREV give 40 entries at most. -/
theorem readFields_shape (l : List Entry) (next : Nat) :
    ((readFields l next none none).map Prod.fst).take 2 = ["next", "more"] ∧ (readFields l next none none).length ≤ 42 := by
  refine ⟨rfl, ?_⟩
  simp only [readFields, List.length_append, List.length_map, Option.getD_none]
  exact Nat.add_le_add_left (List.length_take_le _ _) 2

/-! ## Verbs of which an operand or the state picks the row -/

theorem stakeAt_val (s : State) (i : Fin 64) : stakeAt s i.val = s.warp.stakes[i.val] := by
  simp [stakeAt]

theorem stakeShow_answers {k : Sess} {s : State} (n : Fin 64) (h : mayRun s k .view anyState = true) :
    Answered s (onVerb s k (.stakeShow k (some n.val)) false (stakeShowVerb k (some n.val))) k
      (OK [("stake", .nat n.val), ("trigger", .nat s.warp.stakes[n.val].trigger), ("state", .kw s.warp.stakes[n.val].state.text),
        ("action", .kw (actionText s.warp.stakes[n.val].action)), ("arg", .nat s.warp.stakes[n.val].arg),
        ("src", .nat s.warp.stakes[n.val].src.toNat), ("late", .nat s.warp.stakes[n.val].late)]) := by
  have range : (!outOf 0 63 (some n.val)) = true := by simp [outOf]; omega
  refine onVerb_answers _ false (mayRun_ready h).1 ?_
  rw [stakeShowVerb, verb_onLine k .view anyState anyState _ _ s h (fun _ x => x) ((firstOf_eq_none _).mpr (by simp [range]))]
  simp only [stakeAt_val, lineStart_frame]
  rfl

theorem restoreReport_answers {k : Sess} {s : State} {r : Report} (h : mayRun s k .view anyState = true) (report : s.rst.report = some r) :
    Answered s (onVerb s k (.restoreReport k none none) false (restoreReportVerb k none none)) k (OK (reportFields r)) := by
  refine onVerb_answers _ false (mayRun_ready h).1 ?_
  rw [restoreReportVerb, verb_onLine k .view anyState anyState _ _ s h (fun _ x => x) ((firstOf_eq_none _).mpr (by simp [outOf, report]))]
  simp only [lineStart_frame, report]
  rfl

theorem restoreReport_refused {k : Sess} {s : State} (h : mayRun s k .view anyState = true) (none_ : s.rst.report = none) :
    Answered s (onVerb s k (.restoreReport k none none) false (restoreReportVerb k none none)) k (ERR 412) := by
  obtain ⟨ready, priv, hold⟩ := mayRun_ready h
  refine onVerb_answers _ false ready ?_
  rw [restoreReportVerb, verb_runs k .view anyState _ _ (lineStart s k) (by rw [getSes_lineStart]; exact priv) hold]
  simp only [lineStart_frame, none_, outOf, firstOf, Option.isNone_none, Bool.false_eq_true, if_false, if_true]
  rfl

end Sys2Proof.Machine

open Sys2Proof Sys2Proof.Machine

/-- Settles O48: each verb's row is the list of its fields. -/
theorem readingVerbsChangeNothing : Obligations.ReadingVerbsChangeNothing := by
  unfold Obligations.ReadingVerbsChangeNothing
  refine ⟨fun k s h p row => ?_, fun k s h => ⟨_, rfl, _, reads_answered _ true h rfl, ?_⟩,
    fun k n s h small => ⟨⟨_, rfl, _, reads_answered _ false h (by simp; omega), rfl⟩,
      ⟨_, rfl, _, reads_answered _ false h (by simp; omega), rfl⟩, ⟨_, rfl, _, reads_answered _ false h (by simp; omega), rfl⟩⟩,
    fun k n s h small => ⟨_, rfl, _, reads_answered _ false h (by simpa [cellCount] using small), rfl⟩,
    fun k n s h => ⟨_, rfl, stakeShow_answers n h⟩,
    fun k x r g b row s h valid inside => ⟨_, rfl, _, reads_answered _ false h (by simp [valid, inside]), rfl, rfl⟩,
    fun k g s h valid inside => ⟨_, rfl, _, reads_answered _ false h (by simp [valid, inside]), rfl⟩,
    fun k o s h => ⟨_, rfl, _, reads_answered _ false h rfl, ?_⟩,
    fun k s h c row => ?_,
    fun k s h => ⟨_, rfl, _, reads_answered _ true h rfl, rfl⟩,
    fun k s h => ⟨_, rfl, _, reads_answered _ false h rfl, rfl⟩,
    fun k r s h report => ⟨_, rfl, restoreReport_answers h report⟩, fun k s h none_ => ⟨_, rfl, restoreReport_refused h none_⟩⟩
  · simp only [List.mem_cons, List.not_mem_nil, or_false] at row
    obtain rfl | rfl | rfl | rfl | rfl | rfl | rfl | rfl | rfl | rfl | rfl | rfl := row
    · exact ⟨_, rfl, _, reads_answered _ false h rfl, rfl⟩
    · exact ⟨_, rfl, _, reads_answered _ false h rfl, rfl⟩
    · exact ⟨_, rfl, _, reads_answered _ false h rfl, rfl⟩
    · refine ⟨_, rfl, _, reads_answered _ false h rfl, ?_⟩
      simp only [List.map_append, tableFields_keys]
      rfl
    · exact ⟨_, rfl, _, reads_answered _ true h rfl, rfl⟩
    · exact ⟨_, rfl, _, reads_answered _ false h rfl, rfl⟩
    · exact ⟨_, rfl, _, reads_answered _ true h rfl, rfl⟩
    · exact ⟨_, rfl, _, reads_answered _ false h rfl, rfl⟩
    · refine ⟨_, rfl, _, reads_answered _ false h rfl, ?_⟩
      rw [List.map_append, List.map_map]
      exact congrArg (· ++ ["s7"]) session_names
    · exact ⟨_, rfl, _, reads_answered _ false h rfl, rfl⟩
    · exact ⟨_, rfl, _, reads_answered _ false h rfl, rfl⟩
    · refine ⟨_, rfl, _, reads_answered _ false h rfl, ?_⟩
      rw [List.map_map]
      exact domain_names
  · simp only [not_recovering h, Bool.false_eq_true, if_false]
    have word : holdWord (lineStart s k) = holdWord s := rfl
    exact ⟨rfl, by simp [statusFields], by simp [statusFields], by simp [statusFields, bootFields, word],
      by simp [statusFields, bootFields], by simp [statusFields]⟩
  · simp [List.map_drop, Function.comp_def]
  · simp only [List.mem_cons, List.not_mem_nil, or_false] at row
    obtain rfl | rfl := row
    · exact ⟨_, rfl, _, reads_answered _ true h rfl, readFields_shape _ _⟩
    · exact ⟨_, rfl, _, reads_answered _ true h rfl, readFields_shape _ _⟩

end

section
/-! LAW. No operation touches the queue of commands that wait: one equation for each operation that has none yet. -/

namespace Sys2Proof.Machine

/-! ## Runs through a list -/

/-- A run that carries a result beside the state. -/
theorem foldl_fst_pending {α β : Type} (f : State × β → α → State × β) (keeps : ∀ p x, (f p x).1.pending = p.1.pending) (l : List α)
    (p : State × β) : (l.foldl f p).1.pending = p.1.pending :=
  List.foldlRecOn (motive := fun q : State × β => q.1.pending = p.1.pending) l f rfl fun q hq x _ => (keeps q x).trans hq

/-! ## The bus's own operations -/

@[simp] theorem holdElection_pending (s : State) : (holdElection s).pending = s.pending := by simp [holdElection]

/-! ## Sessions and their lines -/

@[simp] theorem respondSeq_pending (s : State) (k : Sess) (lseq : Byte) (l : Line) : (respondSeq s k lseq l).pending = s.pending := by
  unfold respondSeq
  dsimp only
  (repeat' split) <;> simp

@[simp] theorem noteIssue_pending (s : State) (k : Option Sess) (x : Issue) : (noteIssue s k x).pending = s.pending := by
  unfold noteIssue
  split <;> simp

@[simp] theorem drainNotices_pending (s : State) (k : Sess) : (drainNotices s k).pending = s.pending := by
  unfold drainNotices
  dsimp only
  (repeat' split) <;> simp

theorem runLine_pending (s : State) (k : Sess) (lseq : Byte) (f : Verb) (hf : ∀ s, (f s).1.pending = s.pending) :
    (runLine s k lseq f).pending = s.pending := by
  have kept := hf (setSes s k (fun q => { q with curLseq := lseq }))
  unfold runLine
  dsimp only
  split
  next t l run => simpa [run] using kept
  next t b run => simpa [run] using kept
  next t run => simpa [run] using kept

@[simp] theorem onLineSeq_pending (s : State) (k : Sess) (lseq : Byte) (line : QLine) (f : Verb)
    (hf : ∀ s, (f s).1.pending = s.pending) : (onLineSeq s k lseq line f).pending = s.pending := by
  have runs := runLine_pending s k lseq f hf
  unfold onLineSeq
  dsimp only
  (repeat' split) <;> simp [runs]

@[simp] theorem onVerb_pending (s : State) (k : Sess) (i : Instr) (inRecovery : Bool) (f : Verb)
    (hf : ∀ s, (f s).1.pending = s.pending) : (onVerb s k i inRecovery f).pending = s.pending := by
  refine onLineSeq_pending _ _ _ _ _ fun u => ?_
  split
  · rfl
  · exact hf u

/-! ## Domains -/

@[simp] theorem darkWarp_pending (s : State) : (darkWarp s).pending = s.pending := by simp [darkWarp]
@[simp] theorem setMode_pending (s : State) (d : Dom) (m : DMode) : (setMode s d m).pending = s.pending := by simp [setMode]
@[simp] theorem applyModes_pending (s : State) (target : State → Dom → DMode) : (applyModes s target).pending = s.pending := by simp [applyModes]

/-! ## Pages and rings of the dies -/

@[simp] theorem nextPage_pending (s : State) (d : Die) : (nextPage s d).1.pending = s.pending := by
  have kept : (openGroup s d .deltaOpen).1.pending = s.pending := by simp
  unfold nextPage
  split
  next t g run => rwa [run] at kept
  next t run => rwa [run] at kept

@[simp] theorem makeRing_pending (s : State) (d : Die) : (makeRing s d).1.pending = s.pending := by
  unfold makeRing
  exact foldl_fst_pending _ (fun p _ => by simp) _ _

/-! ## The estimator -/

@[simp] theorem estNow_pending (s : State) : (estNow s).pending = s.pending := by simp [estNow]

/-! ## Hold control -/

@[simp] theorem takeCover_pending (s : State) : (takeCover s).pending = s.pending := by simp [takeCover]
@[simp] theorem powerDown_pending (s : State) : (powerDown s).pending = s.pending := by simp [powerDown]
@[simp] theorem enterHeld_pending (s : State) : (enterHeld s).pending = s.pending := by simp [enterHeld]
@[simp] theorem enterDark_pending (s : State) : (enterDark s).pending = s.pending := by simp [enterDark]
@[simp] theorem enterHeldOrDark_pending (s : State) (held : Bool) : (enterHeldOrDark s held).pending = s.pending := by simp [enterHeldOrDark]
@[simp] theorem faultMark_pending (s : State) (causes : List FaultCause) : (faultMark s causes).pending = s.pending := by simp [faultMark]
@[simp] theorem faultPins_pending (s : State) : (faultPins s).pending = s.pending := by simp [faultPins]

@[simp] theorem enterFault_pending (s : State) (causes : List FaultCause) (tno : Nat) : (enterFault s causes tno).pending = s.pending := by
  simp [enterFault]

@[simp] theorem unarm_pending (s : State) (c : FaultCause) : (unarm s c).pending = s.pending := by simp [unarm]
@[simp] theorem checkStripe_pending (s : State) : (checkStripe s).pending = s.pending := by simp [checkStripe]
@[simp] theorem hostReset_pending (s : State) : (hostReset s).pending = s.pending := by simp [hostReset]
@[simp] theorem enterServe_pending (s : State) : (enterServe s).pending = s.pending := by unfold enterServe; dsimp only; split <;> simp
@[simp] theorem packSnoops_pending (s : State) : (packSnoops s).pending = s.pending := by simp [packSnoops]
@[simp] theorem snoopPut_pending (s : State) (x : Snoop) : (snoopPut s x).pending = s.pending := by simp [snoopPut]

@[simp] theorem startSave_pending (s : State) (planned : Bool) (cause : Cause) : (startSave s planned cause).pending = s.pending := by
  simp [startSave]

@[simp] theorem startRestore_pending (s : State) : (startRestore s).pending = s.pending := by unfold startRestore; split <;> simp
@[simp] theorem startRim_pending (s : State) (rim : Rim) (use : RimUse) : (startRim s rim use).pending = s.pending := by simp [startRim]
@[simp] theorem cutHandback_pending (s : State) (r : RestoreRun) (c : Cause) : (cutHandback s r c).pending = s.pending := by simp [cutHandback]

@[simp] theorem unplanned_pending (s : State) (c : Cause) : (unplanned s c).pending = s.pending := by
  unfold unplanned
  dsimp only
  (repeat' split) <;> simp

@[simp] theorem observeSelfRef_pending (s : State) : (observeSelfRef s).pending = s.pending := by simp [observeSelfRef]
@[simp] theorem parkRequest_pending (s : State) (c : Cause) : (parkRequest s c).1.pending = s.pending := by unfold parkRequest; split <;> simp

@[simp] theorem restoreRequest_pending (s : State) (source : Cause) (session : Option Sess) (stagger : Option (Nat × Nat)) :
    (restoreRequest s source session stagger).1.pending = s.pending := by
  unfold restoreRequest
  (repeat' split) <;> simp

/-! ## Firmware images and the management reset -/

@[simp] theorem setHdr_pending (s : State) (bank : Bank) (h : List Byte) : (setHdr s bank h).pending = s.pending := by
  cases bank <;> rfl

@[simp] theorem sendReceipt_pending (s : State) : (sendReceipt s).pending = s.pending := by unfold sendReceipt; split <;> simp
@[simp] theorem deliverDescriptors_pending (s : State) : (deliverDescriptors s).pending = s.pending := by simp [deliverDescriptors]
@[simp] theorem managementReset_pending (s : State) (cause : ResetCause) : (managementReset s cause).pending = s.pending := by simp [managementReset]
@[simp] theorem reopenSessions_pending (s : State) : (reopenSessions s).pending = s.pending := by simp [reopenSessions]
@[simp] theorem relatch_pending (s : State) : (relatch s).pending = s.pending := by simp [relatch]
@[simp] theorem dropUnlock_pending (s : State) (k : Sess) : (dropUnlock s k).pending = s.pending := by simp [dropUnlock]

/-! ## The host path -/

@[simp] theorem onForward_pending (s : State) (f : State → State) (hf : ∀ s, (f s).pending = s.pending) :
    (onForward s f).pending = s.pending := by
  unfold onForward
  split
  · exact hf s
  · rfl

@[simp] theorem openRow_pending (s : State) (k : BankKey) (row : BitVec 18) : (openRow s k row).pending = s.pending := by simp [openRow]
@[simp] theorem closeRows_pending (s : State) (p : BankKey → Bool) : (closeRows s p).pending = s.pending := by simp [closeRows]
@[simp] theorem snoopGranule_pending (s : State) (g : Nat) : (snoopGranule s g).pending = s.pending := by simp [snoopGranule]

@[simp] theorem forwardWrite_pending (s : State) (k : BankKey) (data : Nat) : (forwardWrite s k data).pending = s.pending := by
  unfold forwardWrite
  dsimp only
  split <;> simp

@[simp] theorem hostWrite_pending (s : State) (sub : Sub) (rank : Rank) (bank : BankAddr) (data : Nat) (close : Bool) :
    (hostWrite s sub rank bank data close).pending = s.pending := by
  simp [hostWrite]

@[simp] theorem enterSelfRef_pending (s : State) (sub : Sub) (rank : Rank) : (enterSelfRef s sub rank).pending = s.pending := by simp [enterSelfRef]
@[simp] theorem capture_pending (s : State) (e : CapEntry) : (capture s e).pending = s.pending := by simp [capture]

@[simp] theorem captureWrite_pending (s : State) (sub : Sub) (ranks : List Rank) (key : MrKey) (value : Byte) :
    (captureWrite s sub ranks key value).pending = s.pending :=
  foldl_pending _ (fun s r => by dsimp only; split <;> simp) _ _

@[simp] theorem damageWord_pending (s : State) (w : Nat) : (damageWord s w).pending = s.pending := by simp [damageWord]

/-! ## Key slots -/

@[simp] theorem setSlot_pending (s : State) (t : Tenant) (slot : Nat) : (setSlot s t slot).pending = s.pending := by simp [setSlot]
@[simp] theorem dirtyTenant_pending (s : State) (t : Tenant) : (dirtyTenant s t).pending = s.pending := by simp [dirtyTenant]

@[simp] theorem placeKey_pending (s : State) (t : Tenant) (slot : Nat) (key : List Byte) : (placeKey s t slot key).pending = s.pending := by
  simp [placeKey]

@[simp] theorem installKey_pending (s : State) (t : Tenant) (slot : Nat) (key : List Byte) : (installKey s t slot key).pending = s.pending := by
  simp [installKey]

@[simp] theorem drawKey_pending (s : State) (t : Tenant) : (drawKey s t).pending = s.pending := by simp [drawKey]
@[simp] theorem generateKey_pending (s : State) (t : Tenant) : (generateKey s t).pending = s.pending := by simp [generateKey]
@[simp] theorem generateAll_pending (s : State) : (generateAll s).pending = s.pending := by simp [generateAll]

/-! ## The rim, its rings and the strands -/

@[simp] theorem wakeDie_pending (s : State) (d : Die) (work : Page → Work) : (wakeDie s d work).1.pending = s.pending := by
  have kept := nextPage_pending s d
  unfold wakeDie
  split
  · rfl
  · split
    next t p run => simpa [run] using kept
    next t run => simpa [run] using kept

@[simp] theorem wakeStrand_pending (acc : State × List Strand) (x : Strand) : (wakeStrand acc x).1.pending = acc.1.pending := by simp [wakeStrand]

@[simp] theorem wakePlait_pending (acc : State × List OpenPlait) (p : OpenPlait) : (wakePlait acc p).1.pending = acc.1.pending :=
  foldl_fst_pending _ (fun q x => by simp) p.strands (acc.1, [])

@[simp] theorem wakeTable_pending (acc : State × List TabStrand) (x : TabStrand) : (wakeTable acc x).1.pending = acc.1.pending := by simp [wakeTable]

@[simp] theorem abandonPlaits_pending (s : State) (v : Save) (gone : OpenPlait → Bool) :
    (abandonPlaits s v gone).pending = s.pending := by
  unfold abandonPlaits
  dsimp only
  refine (foldl_pending _ (fun s p => foldl_pending _ (fun s x => ?_) _ _) _ _ : State.pending _ = _)
  (repeat' split) <;> simp

@[simp] theorem wakeOnce_pending (s : State) : (wakeOnce s).pending = s.pending := by
  have plaits (l : List OpenPlait) : (l.foldl wakePlait (s, [])).1.pending = s.pending := foldl_fst_pending _ (fun p x => by simp) _ _
  have tables (u : State) (l : List TabStrand) : (l.foldl wakeTable (u, [])).1.pending = u.pending :=
    foldl_fst_pending _ (fun p x => by simp) _ _
  unfold wakeOnce
  cases s.map.save with
  | none => dsimp only; split <;> simp [tables]
  | some v => dsimp only; split <;> simp [tables, plaits]

@[simp] theorem wakeStrands_pending (s : State) : (wakeStrands s).pending = s.pending := by simp [wakeStrands]

@[simp] theorem startTables_pending (s : State) (use : RimUse) (types : List Nat) (last : Option Die) :
    (startTables s use types last).pending = s.pending := by
  unfold startTables
  split <;> simp

@[simp] theorem saveAdvance_pending (s : State) : (saveAdvance s).pending = s.pending := by unfold saveAdvance; split <;> simp
@[simp] theorem stopPlaits_pending (s : State) : (stopPlaits s).pending = s.pending := by unfold stopPlaits; split <;> simp
@[simp] theorem addLayer_pending (s : State) (v : Save) : (addLayer s v).pending = s.pending := by simp [addLayer]
@[simp] theorem learnEnergy_pending (s : State) (v : Save) (n : Nat) : (learnEnergy s v n).pending = s.pending := by simp [learnEnergy]
@[simp] theorem pruneLayers_pending (s : State) : (pruneLayers s).pending = s.pending := by simp [pruneLayers]
@[simp] theorem buryGroup_pending (s : State) (g : Group) : (buryGroup s g).pending = s.pending := by simp [buryGroup]

@[simp] theorem reclaim_pending (s : State) (fold : Bool) : (reclaim s fold).pending = s.pending := by
  unfold reclaim
  refine (foldl_pending _ (fun s g => ?_) _ _).trans (by simp)
  dsimp only
  (repeat' split) <;> simp

@[simp] theorem proveErases_pending (s : State) (r : Rim) : (proveErases s r).pending = s.pending := by simp [proveErases]
@[simp] theorem commitRecord_pending (s : State) (r : Rim) : (commitRecord s r).pending = s.pending := by simp [commitRecord]
@[simp] theorem commitSave_pending (s : State) (r : Rim) : (commitSave s r).pending = s.pending := by unfold commitSave; split <;> simp
@[simp] theorem restoreFails_pending (s : State) : (restoreFails s).pending = s.pending := by simp [restoreFails]
@[simp] theorem discardImage_pending (s : State) : (discardImage s).pending = s.pending := by simp [discardImage]

@[simp] theorem commitDiscard_pending (s : State) (r : Rim) (session : Option Sess) : (commitDiscard s r session).pending = s.pending := by
  simp [commitDiscard]

@[simp] theorem commitFormat_pending (s : State) (r : Rim) : (commitFormat s r).pending = s.pending := by simp [commitFormat]
@[simp] theorem commitFold_pending (s : State) (r : Rim) : (commitFold s r).pending = s.pending := by simp [commitFold]

@[simp] theorem commitRestored_pending (s : State) (r : Rim) : (commitRestored s r).pending = s.pending := by
  unfold commitRestored
  dsimp only
  split <;> simp

@[simp] theorem commitZero_pending (s : State) (r : Rim) : (commitZero s r).pending = s.pending := by simp [commitZero]
@[simp] theorem startProof_pending (s : State) : (startProof s).pending = s.pending := by simp [startProof]
@[simp] theorem endPark_pending (s : State) : (endPark s).pending = s.pending := by simp [endPark]
@[simp] theorem rimCommits_pending (s : State) (j : RimJob) : (rimCommits s j).pending = s.pending := by unfold rimCommits; split <;> simp
@[simp] theorem saveFails_pending (s : State) (c : FaultCause) : (saveFails s c).pending = s.pending := by simp [saveFails]

@[simp] theorem rimImpossible_pending (s : State) (use : RimUse) : (rimImpossible s use).pending = s.pending := by
  unfold rimImpossible
  cases use <;> simp

@[simp] theorem tablesReady_pending (s : State) : (tablesReady s).pending = s.pending := by unfold tablesReady; (repeat' split) <;> simp
@[simp] theorem setRing_pending (s : State) (copyB : Bool) (r : Ring) : (setRing s copyB r).pending = s.pending := by simp [setRing]
@[simp] theorem placeRing_pending (s : State) (copyB : Bool) (d : Die) : (placeRing s copyB d).pending = s.pending := by simp [placeRing]

@[simp] theorem againCopy_pending (s : State) (copyB : Bool) (attempts : Nat) : (againCopy s copyB attempts).pending = s.pending := by
  unfold againCopy
  split <;> simp

theorem moveRing_pending {s t : State} {copyB : Bool} (h : moveRing s copyB = some t) : t.pending = s.pending := by
  obtain ⟨d, -, rfl⟩ := Option.map_eq_some_iff.mp h
  simp

theorem moveBoth_pending {s t : State} (h : moveBoth s = some t) : t.pending = s.pending := by
  obtain ⟨p, -, rfl⟩ := Option.map_eq_some_iff.mp h
  simp

@[simp] theorem relocateCopy_pending (s : State) (copyB : Bool) : (relocateCopy s copyB).pending = s.pending := by
  unfold relocateCopy
  split
  · rfl
  · split
    next t moved => simp [moveRing_pending moved]
    next => simp

@[simp] theorem relocateBoth_pending (s : State) : (relocateBoth s).pending = s.pending := by
  unfold relocateBoth
  split
  · rfl
  · split
    next t moved => simp [moveBoth_pending moved]
    next => simp

@[simp] theorem copyFails_pending (s : State) (j : RimJob) (copyB : Bool) : (copyFails s j copyB).pending = s.pending := by simp [copyFails]

@[simp] theorem copiesFail_pending (s : State) (j : RimJob) : (copiesFail s j).pending = s.pending := by
  unfold copiesFail
  dsimp only
  (repeat' split) <;> simp

@[simp] theorem queueCopy_pending (s : State) (copyB : Bool) : (queueCopy s copyB).pending = s.pending := by
  unfold queueCopy
  (repeat' split) <;> simp

@[simp] theorem queueRim_pending (s : State) : (queueRim s).pending = s.pending := by simp [queueRim]

@[simp] theorem useRingPage_pending (s : State) (copyB : Bool) (seq : Nat) (p : Page) : (useRingPage s copyB seq p).pending = s.pending := by
  simp [useRingPage]

@[simp] theorem rimProgramDone_pending (s : State) (copyB pass : Bool) : (rimProgramDone s copyB pass).pending = s.pending := by
  unfold rimProgramDone
  dsimp only
  (repeat' split) <;> simp

@[simp] theorem rimDwellEnd_pending (s : State) : (rimDwellEnd s).pending = s.pending := by unfold rimDwellEnd; split <;> simp

@[simp] theorem rimMarginDone_pending (s : State) (a b : MarginRead) : (rimMarginDone s a b).pending = s.pending := by
  unfold rimMarginDone
  split <;> simp

/-! ## The code flash -/

@[simp] theorem planOps_pending (s : State) (use : CflUse) : (planOps s use).1.pending = s.pending := by unfold planOps; split <;> simp
@[simp] theorem pushJob_pending (s : State) (use : CflUse) (session : Option Sess) : (pushJob s use session).pending = s.pending := by simp [pushJob]
@[simp] theorem activateReq_pending (s : State) (k : Sess) : (activateReq s k).pending = s.pending := by simp [activateReq]

@[simp] theorem finishActivation_pending (s : State) (session : Option Sess) (recovery : Bool) :
    (finishActivation s session recovery).pending = s.pending := by
  simp [finishActivation]

@[simp] theorem finishJob_pending (s : State) (j : CflJob) : (finishJob s j).pending = s.pending := by unfold finishJob; split <;> simp

@[simp] theorem failJob_pending (s : State) (j : CflJob) (st : CflStatus) (pulses : Nat) : (failJob s j st pulses).pending = s.pending := by
  unfold failJob
  split <;> simp

@[simp] theorem refuseFull_pending (s : State) (j : CflJob) : (refuseFull s j).pending = s.pending := by simp [refuseFull]

theorem pumpJobs_pending (n : Nat) (s : State) : (pumpJobs n s).pending = s.pending := by
  induction n generalizing s with
  | zero => rfl
  | succ n ih =>
    unfold pumpJobs
    dsimp only
    (repeat' split) <;> simp [ih]

@[simp] theorem pump_pending (s : State) : (pump s).pending = s.pending := pumpJobs_pending _ s

@[simp] theorem startJob_pending (s : State) (use : CflUse) (session : Option Sess) : (startJob s use session).pending = s.pending := by
  simp [startJob]

@[simp] theorem deliver_pending (s : State) (kind : FetchKind) (addr : Nat) : (deliver s kind addr).pending = s.pending := by
  unfold deliver
  dsimp only
  split <;> simp

@[simp] theorem releaseReads_pending (s : State) : (releaseReads s).pending = s.pending := by simp [releaseReads]
@[simp] theorem replaceHead_pending (s : State) (j : CflJob) : (replaceHead s j).pending = s.pending := by simp [replaceHead]
@[simp] theorem stageHeader_pending (s : State) (j : CflJob) : (stageHeader s j).pending = s.pending := by unfold stageHeader; split <;> simp

@[simp] theorem endOp_pending (s : State) (st : CflStatus) (pulses : Nat) : (endOp s st pulses).pending = s.pending := by
  unfold endOp
  dsimp only
  (repeat' split) <;> simp

@[simp] theorem notePulses_pending (s : State) (isProgram : Bool) (addr pulses : Nat) : (notePulses s isProgram addr pulses).pending = s.pending := by
  simp [notePulses]

@[simp] theorem programEnds_pending (pulses : Nat) (pass : Bool) (s : State) : (programEnds pulses pass s).pending = s.pending := by
  unfold programEnds
  split <;> simp

@[simp] theorem eraseEnds_pending (pulses : Nat) (pass : Bool) (s : State) : (eraseEnds pulses pass s).pending = s.pending := by
  unfold eraseEnds
  split <;> simp

@[simp] theorem operationExpires_pending (s : State) : (operationExpires s).pending = s.pending := by unfold operationExpires; split <;> simp

@[simp] theorem refreshSector_pending (s : State) (session : Option Sess) (n : Nat) : (refreshSector s session n).1.pending = s.pending := by
  unfold refreshSector
  (repeat' split) <;> simp

@[simp] theorem scrubSector_pending (s : State) (j : CflJob) (n : Nat) (rest : List CflOp) (weak : List Nat) :
    (scrubSector s j n rest weak).pending = s.pending := by
  simp [scrubSector]

/-! ## What every verb goes through -/

@[simp] theorem verb_pending (k : Sess) (need : Priv) (s0Only : Bool) (states : List HoldState)
    (refusals : State → List (Bool × Nat)) (f : Verb) (s : State) (hf : ∀ s, (f s).1.pending = s.pending) :
    (verb k need s0Only states refusals f s).1.pending = s.pending := by
  unfold verb
  (repeat' split) <;> simp [hf]

@[simp] theorem okAns_pending (s : State) (fields : List (String × Val)) : (okAns s fields).1.pending = s.pending := by simp [okAns]
@[simp] theorem waitFor_pending (s : State) (k : Sess) (b : Busy) : (waitFor s k b).pending = s.pending := by simp [waitFor]

@[simp] theorem workOn_pending (s : State) (k : Sess) (b : Busy) (f : State → State) (hf : ∀ s, (f s).pending = s.pending) :
    (workOn s k b f).1.pending = s.pending := by
  unfold workOn
  dsimp only
  split <;> simp [hf]

@[simp] theorem storesCfg_pending (s : State) : (storesCfg s).pending = s.pending := by simp [storesCfg]

@[simp] theorem setStaged_pending (s : State) (k : Sess) (kind : UploadKind) (l : List Byte) : (setStaged s k kind l).pending = s.pending := by
  simp [setStaged]

@[simp] theorem stagePiece_pending (s : State) (k : Sess) (kind : UploadKind) (off : Nat) (data : List Byte) :
    (stagePiece s k kind off data).pending = s.pending := by
  simp [stagePiece]

/-! ## Keys on their way -/

@[simp] theorem setJob_pending (s : State) (j : EraseJob) : (setJob s j).pending = s.pending := by simp [setJob]

@[simp] theorem answerErase_pending (s : State) (j : EraseJob) (verified : Bool) : (answerErase s j verified).pending = s.pending := by
  simp [answerErase]

@[simp] theorem resumeErases_pending (s : State) : (resumeErases s).pending = s.pending := by simp [resumeErases]
@[simp] theorem keyAnswer_pending (s : State) (t : Tenant) : (keyAnswer s t).1.pending = s.pending := by simp [keyAnswer]

/-! ## The save and SETTLE -/

@[simp] theorem beginPlait_pending (s : State) (v : Save) : (beginPlait s v).pending = s.pending := by simp [beginPlait]
@[simp] theorem stripeShort_pending (s : State) : (stripeShort s).pending = s.pending := by unfold stripeShort; split <;> simp

@[simp] theorem stepSave_pending (s : State) (d : Die) (old new : StrandSt) (page : Option Page) :
    (stepSave s d old new page).pending = s.pending := by
  unfold stepSave
  split <;> simp

@[simp] theorem stepTable_pending (s : State) (d : Die) (old new : StrandSt) (page : Option Page) :
    (stepTable s d old new page).pending = s.pending := by
  unfold stepTable
  split <;> simp

@[simp] theorem tableFailed_pending (s : State) (d : Die) : (tableFailed s d).pending = s.pending := by unfold tableFailed; (repeat' split) <;> simp
@[simp] theorem diesChanged_pending (s : State) : (diesChanged s).pending = s.pending := by simp [diesChanged]

@[simp] theorem strandFailed_pending (s : State) (die : Die) : (strandFailed s die).pending = s.pending := by
  unfold strandFailed
  dsimp only
  split <;> simp

@[simp] theorem startWork_pending (s : State) (d : Die) : (startWork s d).pending = s.pending := by unfold startWork; (repeat' split) <;> simp

@[simp] theorem queueErases_pending (s : State) : (queueErases s).pending = s.pending := by
  unfold queueErases
  split
  · rfl
  · refine foldl_pending _ (fun s c => ?_) _ _
    (repeat' split) <;> simp

@[simp] theorem closePlaits_pending (s : State) : (closePlaits s).pending = s.pending := by unfold closePlaits; split <;> simp
@[simp] theorem setFold_pending (s : State) (f : FoldDie) : (setFold s f).pending = s.pending := by simp [setFold]
@[simp] theorem dropFold_pending (s : State) (d : Die) : (dropFold s d).pending = s.pending := by simp [dropFold]

@[simp] theorem abandonDie_pending (s : State) (d : Die) : (abandonDie s d).pending = s.pending := by
  unfold abandonDie
  dsimp only
  (repeat' split) <;> simp

@[simp] theorem loseRing1_pending (s : State) (die : Die) (copyB : Bool) : (loseRing1 s die copyB).pending = s.pending := by
  unfold loseRing1
  split
  · rfl
  · split
    · simp
    · split
      · rfl
      · split
        next t moved => exact moveRing_pending moved
        next => simp

@[simp] theorem loseRingDie_pending (s : State) (die : Die) : (loseRingDie s die).pending = s.pending := by simp [loseRingDie]
@[simp] theorem moveRings_pending (s : State) (d : Dom) : (moveRings s d).pending = s.pending := by simp [moveRings]
@[simp] theorem checkReadPath_pending (s : State) : (checkReadPath s).pending = s.pending := by unfold checkReadPath; split <;> simp
@[simp] theorem channelLost_pending (s : State) (d : Dom) : (channelLost s d).pending = s.pending := by simp [channelLost]

@[simp] theorem takePhase_pending (s : State) (p : TakePhase) (f : State → State) (hf : ∀ s, (f s).pending = s.pending) :
    (takePhase s p f).pending = s.pending := by
  unfold takePhase
  (repeat' split) <;> simp [hf]

@[simp] theorem skipSub_pending (s : State) (sub : Sub) : (skipSub s sub).pending = s.pending := by unfold skipSub; split <;> simp
@[simp] theorem retrainEvents_pending (s : State) (aOk bOk : Bool) : (retrainEvents s aOk bOk).pending = s.pending := by simp [retrainEvents]

@[simp] theorem retrained_pending (s : State) (aOk bOk : Bool) : (retrained s aOk bOk).pending = s.pending := by
  unfold retrained
  dsimp only
  (repeat' split) <;> simp

@[simp] theorem takeDescriptors_pending (s : State) : (takeDescriptors s).pending = s.pending := by simp [takeDescriptors]

@[simp] theorem startFold_pending (s : State) (d : Die) : (startFold s d).pending = s.pending := by
  have kept : (openGroup s d .baseOpen).1.pending = s.pending := by simp
  unfold startFold
  dsimp only
  generalize openGroup s d .baseOpen = r at kept ⊢
  obtain ⟨t, o⟩ := r
  cases o with
  | none => exact kept
  | some g => dsimp only; split <;> simpa using kept

@[simp] theorem closeFolds_pending (s : State) : (closeFolds s).pending = s.pending := by simp [closeFolds]

@[simp] theorem nextFolds_pending (s : State) : (nextFolds s).pending = s.pending := by
  have run (f : State → Nat → State) (hf : ∀ s c, (f s c).pending = s.pending) :
      (closeFolds ((List.range 8).foldl f s)).pending = s.pending := by simp [foldl_pending f hf]
  unfold nextFolds
  split
  · rfl
  · split
    · simp
    · split
      · simp
      · exact run _ fun s c => by (repeat' split) <;> simp

@[simp] theorem startSettle_pending (s : State) : (startSettle s).pending = s.pending := by simp [startSettle]

@[simp] theorem foldMarginFailed_pending (s : State) (f : FoldDie) (plane : Nat) : (foldMarginFailed s f plane).pending = s.pending := by
  simp [foldMarginFailed]

@[simp] theorem groupErased_queue (s : State) (die : Die) (block : Nat) : (groupErased s die block).pending = s.pending := by simp [groupErased]
@[simp] theorem ringWithout_pending (s : State) (die : Die) (block : Nat) : (ringWithout s die block).pending = s.pending := by simp [ringWithout]
@[simp] theorem noteWear_pending (s : State) (die : Die) (depth bits : Nat) : (noteWear s die depth bits).pending = s.pending := by simp [noteWear]

/-! ## The restore -/

@[simp] theorem withRun_pending (s : State) (f : RestoreRun → State) (hf : ∀ r, (f r).pending = s.pending) : (withRun s f).pending = s.pending := by
  unfold withRun
  (repeat' split) <;> simp [hf]

@[simp] theorem loadLost_pending (s : State) (run : RestoreRun) : (loadLost s run).pending = s.pending := by simp [loadLost]

@[simp] theorem handPhase_pending (s : State) (p : TakePhase) (f : State → State) (hf : ∀ s, (f s).pending = s.pending) :
    (handPhase s p f).pending = s.pending := by
  unfold handPhase
  (repeat' split) <;> simp [hf]

@[simp] theorem finishRestore_pending (s : State) (r : RestoreRun) : (finishRestore s r).pending = s.pending := by simp [finishRestore]

/-! ## Supplies and resets -/

@[simp] theorem powerOnReset_pending (s : State) : (powerOnReset s).pending = s.pending := by simp [powerOnReset]

@[simp] theorem porPhase_pending (s : State) (p : PorPhase) (f : State → State) (hf : ∀ s, (f s).pending = s.pending) :
    (porPhase s p f).pending = s.pending := by
  unfold porPhase
  (repeat' split) <;> simp [hf]

@[simp] theorem wakeStakes_pending (s : State) : (wakeStakes s).pending = s.pending := by simp [wakeStakes]
@[simp] theorem applyWake_pending (s : State) (target : State → Dom → DMode) : (applyWake s target).pending = s.pending := by simp [applyWake]
@[simp] theorem bootEntry_pending (s : State) : (bootEntry s).pending = s.pending := by simp [bootEntry]
@[simp] theorem warmReset_pending (s : State) : (warmReset s).pending = s.pending := by simp [warmReset]
@[simp] theorem requestWarm_pending (s : State) : (requestWarm s).pending = s.pending := by simp [requestWarm]
@[simp] theorem afterOperation_pending (s : State) : (afterOperation s).pending = s.pending := by simp [afterOperation]
@[simp] theorem supplyModes_pending (s : State) : (supplyModes s).pending = s.pending := by unfold supplyModes; split <;> simp
@[simp] theorem nearCut_pending (s : State) (c : Cause) : (nearCut s c).pending = s.pending := by unfold nearCut; split <;> simp
@[simp] theorem portsFail_pending (s : State) : (portsFail s).pending = s.pending := by unfold portsFail; dsimp only; split <;> simp
@[simp] theorem markFailed_pending (s : State) (d : Dom) (kind : PowerFail) : (markFailed s d kind).pending = s.pending := by simp [markFailed]
@[simp] theorem relock_pending (s : State) : (relock s).pending = s.pending := by simp [relock]
@[simp] theorem drawInstance_pending (s : State) : (drawInstance s).pending = s.pending := by simp [drawInstance]

/-! ## Lanes -/

@[simp] theorem noteCorrected_pending (s : State) (n : LaneId) : (noteCorrected s n).pending = s.pending := by simp [noteCorrected]

@[simp] theorem notePoison_pending (s : State) (n : LaneId) (f : Flit) : (notePoison s n f).pending = s.pending := by
  unfold notePoison
  dsimp only
  (repeat' split) <;> simp

@[simp] theorem reportEnd_pending (s : State) (n : LaneId) (tag : BitVec 8) (how : WorkEnd) : (reportEnd s n tag how).pending = s.pending := by
  unfold reportEnd
  split <;> simp

@[simp] theorem programFilters_pending (s : State) : (programFilters s).pending = s.pending := by simp [programFilters]
@[simp] theorem joinStripe_pending (s : State) (d : Dom) : (joinStripe s d).pending = s.pending := by simp [joinStripe]

@[simp] theorem coreLost_pending (s : State) (d : Dom) : (coreLost s d).pending = s.pending := by
  unfold coreLost
  split
  · split <;> simp
  · split <;> simp
  · split <;> simp
  · (repeat' split) <;> simp
  · split <;> simp
  · rfl

/-! ## The pack and the charger -/

@[simp] theorem setChg_pending (s : State) (m : ChgMode) : (setChg s m).pending = s.pending := by simp [setChg]
@[simp] theorem chargeEnds_pending (s : State) : (chargeEnds s).pending = s.pending := by simp [chargeEnds]
@[simp] theorem callMode_pending (s : State) : (callMode s).pending = s.pending := by simp [callMode]
@[simp] theorem leavePause_pending (s : State) : (leavePause s).pending = s.pending := by simp [leavePause]
@[simp] theorem qualifyCharger_pending (s : State) : (qualifyCharger s).pending = s.pending := by simp [qualifyCharger]
@[simp] theorem writeSetpoint_pending (s : State) : (writeSetpoint s).pending = s.pending := by simp [writeSetpoint]
@[simp] theorem followCharger_pending (s : State) : (followCharger s).pending = s.pending := by simp [followCharger]
@[simp] theorem chargerFault_pending (s : State) (cause : Nat) : (chargerFault s cause).pending = s.pending := by simp [chargerFault]
@[simp] theorem endPause_pending (s : State) (cause : PauseCause) : (endPause s cause).pending = s.pending := by simp [endPause]
@[simp] theorem chargerTrips_pending (s : State) (cause : Nat) : (chargerTrips s cause).pending = s.pending := by simp [chargerTrips]
@[simp] theorem clearRetry_pending (s : State) : (clearRetry s).pending = s.pending := by simp [clearRetry]
@[simp] theorem setResult_pending (s : State) (r : PackResult) : (setResult s r).pending = s.pending := by simp [setResult]
@[simp] theorem stopEstimator_pending (s : State) : (stopEstimator s).pending = s.pending := by simp [stopEstimator]
@[simp] theorem learnPack_pending (s : State) (serial rsInit : Nat) : (learnPack s serial rsInit).pending = s.pending := by simp [learnPack]
@[simp] theorem keepPack_pending (s : State) (r : PackRec) : (keepPack s r).pending = s.pending := by simp [keepPack]

@[simp] theorem packIdentified_pending (s : State) (b : List Byte) : (packIdentified s b).pending = s.pending := by
  unfold packIdentified
  dsimp only
  (repeat' split) <;> simp

@[simp] theorem packAnonymous_pending (s : State) : (packAnonymous s).pending = s.pending := by simp [packAnonymous]
@[simp] theorem resetRejected_pending (s : State) : (resetRejected s).pending = s.pending := by simp [resetRejected]
@[simp] theorem countCycles_pending (s : State) (amp : ℚ) : (countCycles s amp).pending = s.pending := by unfold countCycles; split <;> simp
@[simp] theorem addLoad_pending (s : State) (dt : ℚ) : (addLoad s dt).pending = s.pending := by simp [addLoad]
@[simp] theorem stepFilter_pending (s : State) (r : PackRec) (x : Sample) (dt : ℚ) : (stepFilter s r x dt).pending = s.pending := by simp [stepFilter]
@[simp] theorem addChargeTime_pending (s : State) (ms : Nat) : (addChargeTime s ms).pending = s.pending := by simp [addChargeTime]
@[simp] theorem storeCheckpoint_pending (s : State) : (storeCheckpoint s).pending = s.pending := by simp [storeCheckpoint]
@[simp] theorem noteImbalance_pending (s : State) (x : Sample) : (noteImbalance s x).pending = s.pending := by simp [noteImbalance]
@[simp] theorem senseFails_pending (s : State) : (senseFails s).pending = s.pending := by simp [senseFails]
@[simp] theorem takeSample_pending (s : State) (x : Sample) (icmd : Nat) : (takeSample s x icmd).pending = s.pending := by simp [takeSample]
@[simp] theorem takeAnchor_pending (s : State) (cells : List Nat) : (takeAnchor s cells).pending = s.pending := by unfold takeAnchor; split <;> simp
@[simp] theorem resumeEstimator_pending (s : State) : (resumeEstimator s).pending = s.pending := by unfold resumeEstimator; dsimp only; split <;> simp
@[simp] theorem noteProbe_pending (s : State) (cell : Nat) (ok : Bool) : (noteProbe s cell ok).pending = s.pending := by simp [noteProbe]
@[simp] theorem probeSer_pending (s : State) (cell : Nat) (z m : ℚ) : (probeSer s cell z m).pending = s.pending := by unfold probeSer; split <;> simp
@[simp] theorem probePol_pending (s : State) (cell : Nat) (z m : ℚ) : (probePol s cell z m).pending = s.pending := by unfold probePol; split <;> simp
@[simp] theorem estAfterProbe_pending (s : State) : (estAfterProbe s).pending = s.pending := by simp [estAfterProbe]
@[simp] theorem openRest_pending (s : State) : (openRest s).pending = s.pending := by simp [openRest]

/-! ## BOOT -/

@[simp] theorem firstTable_pending (s : State) : (firstTable s).pending = s.pending := by simp [firstTable]
@[simp] theorem startWarp_pending (s : State) : (startWarp s).pending = s.pending := by simp [startWarp]
@[simp] theorem noBank_pending (s : State) : (noBank s).pending = s.pending := by simp [noBank]
@[simp] theorem bankFails_pending (s : State) : (bankFails s).pending = s.pending := by simp [bankFails]

@[simp] theorem loadKeys_pending (s : State) : (loadKeys s).pending = s.pending := by
  unfold loadKeys
  refine foldl_pending _ (fun s t => ?_) _ _
  dsimp only
  (repeat' split) <;> simp

@[simp] theorem reloadPack_pending (s : State) : (reloadPack s).pending = s.pending := by unfold reloadPack; split <;> simp
@[simp] theorem raiseThermometer_pending (s : State) : (raiseThermometer s).pending = s.pending := by simp [raiseThermometer]
@[simp] theorem settleAreas_pending (s : State) : (settleAreas s).pending = s.pending := by simp [settleAreas]
@[simp] theorem identify_pending (s : State) (facts : NandFacts) : (identify s facts).pending = s.pending := by simp [identify]
@[simp] theorem uniteGrown_pending (s : State) : (uniteGrown s).pending = s.pending := by simp [uniteGrown]
@[simp] theorem applyGrown_pending (s : State) : (applyGrown s).pending = s.pending := by simp [applyGrown]

theorem walkFree_pending (zeroBits : List ((Die × Nat) × Nat)) (d : Die) (n : Nat) (s : State) :
    (walkFree zeroBits d n s).pending = s.pending := by
  induction n generalizing s with
  | zero => rfl
  | succ n ih =>
    unfold walkFree
    (repeat' split) <;> simp [ih]

@[simp] theorem blankChecks_pending (s : State) (facts : NandFacts) : (blankChecks s facts).pending = s.pending := by
  unfold blankChecks
  refine (foldl_pending _ (fun s d => walkFree_pending _ d _ s) _ _).trans (foldl_pending _ (fun s g => ?_) _ _)
  (repeat' split) <;> simp

@[simp] theorem loadTables_pending (s : State) (facts : NandFacts) : (loadTables s facts).pending = s.pending := by simp [loadTables]
@[simp] theorem deriveNone_pending (s : State) : (deriveNone s).pending = s.pending := by simp [deriveNone]

@[simp] theorem derivePending_pending (s : State) (r : Rim) (stale rimfb : Bool) : (derivePending s r stale rimfb).pending = s.pending := by
  simp [derivePending]

@[simp] theorem chooseRecord_pending (s : State) (r : Rim) (stale : Bool) (facts : NandFacts) :
    (chooseRecord s r stale facts).pending = s.pending := by
  unfold chooseRecord
  (repeat' split) <;> simp

@[simp] theorem deriveImage_pending (s : State) (failed : Bool) (facts : NandFacts) : (deriveImage s failed facts).pending = s.pending := by
  unfold deriveImage
  (repeat' split) <;> simp

@[simp] theorem loadPrevLog_pending (s : State) (readable : Bool) : (loadPrevLog s readable).pending = s.pending := by
  unfold loadPrevLog
  split <;> simp

theorem placeRings_pending {s t : State} (h : placeRings s = some t) : t.pending = s.pending := by
  unfold placeRings at h
  split at h
  · cases h; rfl
  · exact moveRing_pending h
  · exact moveRing_pending h
  · exact moveBoth_pending h

@[simp] theorem checkRings_pending (s : State) : (checkRings s).pending = s.pending := by
  unfold checkRings
  split
  · rfl
  · split
    next t placed => exact placeRings_pending placed
    next => rfl

@[simp] theorem endBoot_pending (s : State) : (endBoot s).pending = s.pending := by unfold endBoot; dsimp only; split <;> simp

@[simp] theorem wipeGroups_pending (s : State) (zeroBits : List ((Die × Nat) × Nat)) : (wipeGroups s zeroBits).pending = s.pending := by
  simp [wipeGroups]

@[simp] theorem makeTable_pending (s : State) (d : Die) : (makeTable s d).pending = s.pending := by unfold makeTable; split <;> simp

/-! ## Headers, splints and FW ACTIVATE -/

@[simp] theorem flashWork_pending (s : State) (k : Sess) (use : CflUse) : (flashWork s k use).1.pending = s.pending := by simp [flashWork]
@[simp] theorem tryPassword_pending (s : State) (k : Sess) (pwd : List Byte) : (tryPassword s k pwd).1.pending = s.pending := by simp [tryPassword]

@[simp] theorem sessionHeader_pending (s : State) (k : Sess) (h : List Byte) : (sessionHeader s k h).1.pending = s.pending := by
  unfold sessionHeader
  split <;> simp

@[simp] theorem countDiscard_pending (s : State) : (countDiscard s).pending = s.pending := by simp [countDiscard]

@[simp] theorem sessionSplint_pending (s : State) (k : Sess) (idx : Nat) (b : List Byte) : (sessionSplint s k idx b).1.pending = s.pending := by
  unfold sessionSplint
  split <;> simp

@[simp] theorem fwActivateVerb_pending (k : Sess) (s : State) : (fwActivateVerb k s).1.pending = s.pending := by
  refine verb_pending _ _ _ _ _ _ s fun u => ?_
  dsimp only
  split <;> simp

/-! ## The shelf bus and the window -/

@[simp] theorem noteNoFrame_pending (s : State) : (noteNoFrame s).pending = s.pending := by simp [noteNoFrame]
@[simp] theorem nextCandidate_pending (s : State) : (nextCandidate s).pending = s.pending := by simp [nextCandidate]
@[simp] theorem noteValid_pending (s : State) : (noteValid s).pending = s.pending := by simp [noteValid]
@[simp] theorem countReasm_pending (s : State) : (countReasm s).pending = s.pending := by simp [countReasm]

@[simp] theorem dropPartial_pending (s : State) (src : NodeId) (cls : BitVec 3) (type : BitVec 6) (tag : BitVec 10) :
    (dropPartial s src cls type tag).pending = s.pending := by
  simp [dropPartial]

@[simp] theorem reassemble_pending (s : State) (x : Frame) : (reassemble s x).pending = s.pending := by
  unfold reassemble
  dsimp only
  (repeat' split) <;> simp

@[simp] theorem takeFrame_pending (s : State) (x : Frame) : (takeFrame s x).pending = s.pending := by simp [takeFrame]
@[simp] theorem serveQ0_pending (s : State) : (serveQ0 s).pending = s.pending := by simp [serveQ0]
@[simp] theorem enterQ0_pending (s : State) (x : Frame) : (enterQ0 s x).pending = s.pending := by simp [enterQ0]
@[simp] theorem enterQ1_pending (s : State) (x : Frame) (pair : Nat) : (enterQ1 s x pair).pending = s.pending := by unfold enterQ1; split <;> simp

@[simp] theorem filterFrame_pending (s : State) (x : Frame) : (filterFrame s x).pending = s.pending := by
  unfold filterFrame
  dsimp only
  split <;> simp

@[simp] theorem receiveOk_pending (s : State) : (receiveOk s).pending = s.pending := by simp [receiveOk]

theorem noteBrs_pending (s : State) (run : Nat) : (noteBrs s run).2.pending = s.pending := by
  unfold noteBrs
  (repeat' split) <;> simp

@[simp] theorem receiveFrame_pending (s : State) (form : FrameForm) (x : Frame) (run : Nat) :
    (receiveFrame s form x run).pending = s.pending := by
  unfold receiveFrame
  dsimp only
  split
  · rfl
  · split
    · split
      · rfl
      · (repeat' split) <;> simp [noteBrs_pending]
    · split <;> simp

@[simp] theorem countFrame_pending (s : State) (x : Frame) : (countFrame s x).pending = s.pending := by simp [countFrame]
@[simp] theorem endMbox_queue (s : State) (n : Fin 16) (st : MboxStatus) : (endMbox s n st).pending = s.pending := by simp [endMbox]
@[simp] theorem noteSof_pending (s : State) (id : CanId) : (noteSof s id).pending = s.pending := by simp [noteSof]
@[simp] theorem followSync_pending (s : State) (id : CanId) : (followSync s id).pending = s.pending := by unfold followSync; (repeat' split) <;> simp
@[simp] theorem dropWire_pending (s : State) : (dropWire s).pending = s.pending := by simp [dropWire]
@[simp] theorem failAttempt_pending (s : State) : (failAttempt s).pending = s.pending := by unfold failAttempt; split <;> simp
@[simp] theorem errorInDetection_pending (s : State) (brs : Bool) : (errorInDetection s brs).pending = s.pending := by simp [errorInDetection]
@[simp] theorem enterBusoff_pending (s : State) : (enterBusoff s).pending = s.pending := by unfold enterBusoff; split <;> simp
@[simp] theorem countError_pending (s : State) (kind : BusErr) (tx : Bool) : (countError s kind tx).pending = s.pending := by simp [countError]
@[simp] theorem requestRecovery_pending (s : State) : (requestRecovery s).pending = s.pending := by simp [requestRecovery]
@[simp] theorem setQ1_pending (s : State) (n : Nat) (e : Option Q1Entry) : (setQ1 s n e).pending = s.pending := by simp [setQ1]

@[simp] theorem writeWinEn_pending (s : State) (on : Bool) : (writeWinEn s on).pending = s.pending := by
  unfold writeWinEn
  dsimp only
  split
  · simp
  · refine (foldl_pending _ (fun s n => ?_) _ _).trans (by simp)
    split <;> simp

@[simp] theorem flushQ1_pending (s : State) : (flushQ1 s).pending = s.pending := by simp [flushQ1]

@[simp] theorem writeTxctl_pending (s : State) (n : Fin 16) (w : Word) (request cancel : Bool) :
    (writeTxctl s n w request cancel).pending = s.pending := by
  unfold writeTxctl
  dsimp only
  (repeat' split) <;> simp

@[simp] theorem setFilter_pending (s : State) (n : Nat) (f : Filter → Filter) : (setFilter s n f).pending = s.pending := by simp [setFilter]
@[simp] theorem flushPipe_pending (s : State) (k : Sess) : (flushPipe s k).pending = s.pending := by simp [flushPipe]
@[simp] theorem writePipeCtrl_pending (s : State) (k : Sess) (w : Word) : (writePipeCtrl s k w).pending = s.pending := by simp [writePipeCtrl]

@[simp] theorem writeWindow_pending (s : State) (off : Nat) (w : Word) : (writeWindow s off w).pending = s.pending := by
  unfold writeWindow
  split <;> simp

theorem readQ1_pending (s : State) (n i : Nat) : (readQ1 s n i).2.pending = s.pending := by
  unfold readQ1
  (repeat' split) <;> simp

@[simp] theorem onWindow_pending (s : State) (f : State → State) (hf : ∀ s, (f s).pending = s.pending) : (onWindow s f).pending = s.pending := by
  unfold onWindow
  (repeat' split) <;> simp [hf]

/-! ## Warp time and stakes -/

@[simp] theorem sendAnnounce_pending (s : State) (role : Nat) : (sendAnnounce s role).pending = s.pending := by simp [sendAnnounce]
@[simp] theorem resign_pending (s : State) (node : NodeId) : (resign s node).pending = s.pending := by simp [resign]
@[simp] theorem acceptPair_pending (s : State) (o : Int) : (acceptPair s o).pending = s.pending := by simp [acceptPair]
@[simp] theorem loseSync_pending (s : State) : (loseSync s).pending = s.pending := by simp [loseSync]
@[simp] theorem setTable_pending (s : State) (n : Nat) (t : SlotTable) : (setTable s n t).pending = s.pending := by simp [setTable]
@[simp] theorem discardFrame_pending (s : State) : (discardFrame s).pending = s.pending := by simp [discardFrame]
@[simp] theorem settleStartReq_pending (s : State) : (settleStartReq s).1.pending = s.pending := by simp [settleStartReq]
@[simp] theorem settleStopReq_pending (s : State) : (settleStopReq s).1.pending = s.pending := by simp [settleStopReq]
@[simp] theorem switchTable_queue (s : State) (n : Nat) : (switchTable s n).1.pending = s.pending := by unfold switchTable; split <;> simp

@[simp] theorem stakeAction_pending (s : State) (i : Fin 64) (x : Stake) : (stakeAction s i x).1.pending = s.pending := by
  unfold stakeAction
  split <;> simp

@[simp] theorem fireStake_pending (s : State) (i : Fin 64) : (fireStake s i).pending = s.pending := by
  have kept := stakeAction_pending (setStake s i (fun x => { x with
    state := .fired, late := min 0xFFFFFFFF (s.warp.ns - s.warp.stakes[i.val].trigger) })) i s.warp.stakes[i.val]
  unfold fireStake
  dsimp only
  generalize stakeAction _ i _ = r at kept ⊢
  obtain ⟨t, o⟩ := r
  cases o <;> simpa using kept

@[simp] theorem judgeStake_pending (s : State) (i : Fin 64) : (judgeStake s i).pending = s.pending := by simp [judgeStake]

@[simp] theorem placeStake_pending (s : State) (i : Fin 64) (trigger action arg : Nat) (src : NodeId) :
    (placeStake s i trigger action arg src).pending = s.pending := by
  simp [placeStake]

@[simp] theorem stakeShowVerb_pending (k : Sess) (i : Option Nat) (s : State) : (stakeShowVerb k i s).1.pending = s.pending := by
  unfold stakeShowVerb
  split <;> simp

/-! ## The hold-control verbs -/

@[simp] theorem parkVerb_pending (k : Sess) (s : State) : (parkVerb k s).1.pending = s.pending := by
  refine verb_pending _ _ _ _ _ _ s fun u => ?_
  have kept : (parkRequest u (verbCause k)).1.pending = u.pending := by simp
  generalize parkRequest u (verbCause k) = r at kept ⊢
  obtain ⟨t, o⟩ := r
  cases o <;> simpa using kept

@[simp] theorem restoreVerb_pending (k : Sess) (s : State) : (restoreVerb k s).1.pending = s.pending := by
  refine verb_pending _ _ _ _ _ _ s fun u => ?_
  have kept : (restoreRequest u (verbCause k) (some k) none).1.pending = u.pending := by simp
  generalize restoreRequest u (verbCause k) (some k) none = r at kept ⊢
  obtain ⟨t, o⟩ := r
  cases o <;> simpa using kept

@[simp] theorem restoreReportVerb_pending (k : Sess) (tenant start : Option Nat) (s : State) :
    (restoreReportVerb k tenant start s).1.pending = s.pending := by
  refine verb_pending _ _ _ _ _ _ s fun u => ?_
  (repeat' split) <;> simp

@[simp] theorem settleAnswer_pending (x : State × Option Nat) : (settleAnswer x).1.pending = x.1.pending := by unfold settleAnswer; split <;> simp

/-! ## Tenant ranges -/

@[simp] theorem stageEntry_pending (s : State) (k : Sess) (e : DWord) (isAdd : Bool) : (stageEntry s k e isAdd).pending = s.pending := by
  simp [stageEntry]

@[simp] theorem attrAnswer_pending (s : State) (t : Tenant) : (attrAnswer s t).1.pending = s.pending := by simp [attrAnswer]

@[simp] theorem changeAttr_pending (s : State) (t : Tenant) (cls : Nat) (vol dis : Bool) : (changeAttr s t cls vol dis).pending = s.pending := by
  simp [changeAttr]

/-! ## The map verbs -/

@[simp] theorem setGeometry_pending (s : State) (w : Word) : (setGeometry s w).pending = s.pending := by simp [setGeometry]

/-! ## Domains on a line -/

@[simp] theorem beginEnable_pending (s : State) (k : Sess) (d : Dom) : (beginEnable s k d).1.pending = s.pending := by simp [beginEnable]
@[simp] theorem imageLeavesChannel_pending (s : State) (d : Nat) : (imageLeavesChannel s d).1.pending = s.pending := by simp [imageLeavesChannel]
@[simp] theorem maskOnly_pending (s : State) (d : Dom) : (maskOnly s d).pending = s.pending := by simp [maskOnly]
@[simp] theorem withdrawBoxes_pending (s : State) : (withdrawBoxes s).pending = s.pending := by simp [withdrawBoxes]
@[simp] theorem beginDrain_pending (s : State) (k : Sess) (d : Dom) : (beginDrain s k d).pending = s.pending := by simp [beginDrain]
@[simp] theorem dropDieFold_pending (s : State) (d : Die) : (dropDieFold s d).pending = s.pending := by unfold dropDieFold; split <;> simp

@[simp] theorem abortDiscard_pending (s : State) (d : Dom) : (abortDiscard s d).pending = s.pending := by
  unfold abortDiscard
  (repeat' split) <;> simp

@[simp] theorem forceOff_pending (s : State) (k : Sess) (d : Dom) : (forceOff s k d).pending = s.pending := by unfold forceOff; split <;> simp

@[simp] theorem afterAnswer_pending (k : Sess) (fields : List (String × Val)) (f : State → State) (s : State)
    (hf : ∀ s, (f s).pending = s.pending) : (afterAnswer k fields f s).1.pending = s.pending := by
  simp [afterAnswer, hf]

@[simp] theorem requestedReset_pending (s : State) : (requestedReset s).pending = s.pending := by simp [requestedReset]

/-! ## Authentication -/

@[simp] theorem setPriv_pending (s : State) (k : Sess) (p : Priv) : (setPriv s k p).pending = s.pending := by simp [setPriv]
@[simp] theorem setBackoff_pending (s : State) (p : Priv) (b : Backoff) : (setBackoff s p b).pending = s.pending := by simp [setBackoff]
@[simp] theorem noteFailure_pending (s : State) (p : Priv) : (noteFailure s p).pending = s.pending := by simp [noteFailure]
@[simp] theorem privAnswer_pending (s : State) (p : Priv) : (privAnswer s p).1.pending = s.pending := by simp [privAnswer]

@[simp] theorem tryMac_pending (s : State) (k : Sess) (p : Priv) (nonce mac : List Byte) : (tryMac s k p nonce mac).1.pending = s.pending := by
  simp [tryMac]

@[simp] theorem authMacVerb_pending (k : Sess) (level : Nat) (mac : List Byte) (s : State) :
    (authMacVerb k level mac s).1.pending = s.pending := by
  refine verb_pending _ _ _ _ _ _ s fun u => ?_
  dsimp only
  (repeat' split) <;> simp

@[simp] theorem storeSecret_pending (s : State) (p : Priv) (key : List Byte) : (storeSecret s p key).1.pending = s.pending := by simp [storeSecret]
@[simp] theorem endTunnel_pending (s : State) (k : Sess) : (endTunnel s k).pending = s.pending := by simp [endTunnel]

/-! ## The I3C target -/

@[simp] theorem onI3c_pending (s : State) (f : State → State) (hf : ∀ s, (f s).pending = s.pending) : (onI3c s f).pending = s.pending := by
  unfold onI3c
  (repeat' split) <;> simp [hf]

@[simp] theorem onDirect_pending (s : State) (f : State → State) (hf : ∀ s, (f s).pending = s.pending) :
    (onDirect s f).pending = s.pending := by
  simp [onDirect, hf]

/-! ## The recorder -/

@[simp] theorem thawLog_pending (s : State) : (thawLog s).pending = s.pending := by simp [thawLog]

/-! ## Characters, pipes and tunnels -/

/-- Whatever a line names. -/
theorem verbOf_pending {i : Instr} {b : Bool} {f : Verb} (h : verbOf i = some (b, f)) (s : State) : (f s).1.pending = s.pending := by
  unfold verbOf at h
  split at h <;> cases h <;>
    simp [statusVerb, parkCancelVerb, parkSetVerb, restoreCancelVerb, restoreDiscardVerb, settleStartVerb, settleStopVerb, settleSetVerb,
      rangeVerb, tenantRangeListVerb, tenantCommitVerb, tenantDiscardVerb, tenantSetVerb, tenantEnableVerb, tenantDisableVerb, tenantShowVerb,
      keyOwnerVerb, keyLoadVerb, keyGenVerb, keyEraseVerb, keyShowVerb, mapVerb, mapGeometryVerb, mapGranuleVerb, mapCoordVerb, mapCoordGidxVerb,
      mapProfileVerb, mapProfileCommitVerb, mapProvisionVerb, batVerb, batSetVerb, batClearVerb, batRestVerb, batOcvloadVerb, batOcvloadCommitVerb,
      batTableVerb, busVerb, busFilterVerb, busRecoverVerb, busRedetectVerb, busFlushVerb, busSetVerb, warpVerb, warpSetVerb, warpTableVerb,
      warpTableActiveVerb, stakeSetVerb, stakeCancelVerb, logVerb, logReadVerb, logPrevVerb, logClearVerb, logFreezeVerb, logThawVerb, logMarkVerb,
      flashVerb, flashOptVerb, flashOptSetVerb, flashUnlockVerb, flashLockVerb, flashProtectVerb, flashPasswordVerb, flashScrubVerb, fwVerb,
      fwMissingVerb, fwPutHdrVerb, fwPutVerb, fwAbortVerb, domainVerb, domainEnableVerb, domainDisableVerb, domainDisableForceVerb, domainSetVerb,
      resetWarmVerb, resetMgmtVerb, diagLanesVerb, diagNandVerb, diagTempVerb, diagSelftestVerb, authPlainVerb, authSecretWrapVerb,
      authSecretPlainVerb, sessionVerb, sessionListVerb, sessionSetEchoVerb, sessionSetNotifyVerb, sessionSetIdleVerb, sessionEndVerb]

@[simp] theorem lineVerb_pending (l : QLine) (s : State) : (lineVerb l s).1.pending = s.pending := by
  unfold lineVerb
  split
  · simp
  · split
    next b f named =>
      split
      · simp
      · exact verbOf_pending named s
    next => simp

@[simp] theorem submit_pending (s : State) (k : Sess) (lseq : Byte) (text : List Byte) (mark : Option Nat) :
    (submit s k lseq text mark).pending = s.pending := by
  unfold submit
  (repeat' split) <;> simp

@[simp] theorem markLine_pending (s : State) (k : Sess) (code : Nat) : (markLine s k code).pending = s.pending := by simp [markLine]
@[simp] theorem markLong_pending (s : State) (k : Sess) : (markLong s k).pending = s.pending := by simp [markLong]
@[simp] theorem feedByte_pending (s : State) (k : Sess) (b : Byte) : (feedByte s k b).pending = s.pending := by simp [feedByte]

@[simp] theorem tunnelLine_pending (s : State) (k : Sess) (src : NodeId) (p : List Byte) : (tunnelLine s k src p).pending = s.pending := by
  simp [tunnelLine]

@[simp] theorem bindTunnel_pending (s : State) (k : Sess) (src : NodeId) : (bindTunnel s k src).pending = s.pending := by simp [bindTunnel]

/-! ## The commands -/

theorem host_keepsQueue {c : Instr} (h : branchOf c = .host) {s t : State} (run : exec c s = .next t) : t.pending = s.pending := by
  cases c <;> cases h <;> obtain rfl := Host.Outcome.next.inj run <;> clear run
  all_goals try dsimp only
  all_goals (repeat' split) <;> simp

theorem supply_keepsQueue {c : Instr} (h : branchOf c = .supply) {s t : State} (run : exec c s = .next t) : t.pending = s.pending := by
  cases c <;> cases h <;> obtain rfl := Host.Outcome.next.inj run <;> clear run
  all_goals try dsimp only
  all_goals (repeat' split) <;> simp

theorem boot_keepsQueue {c : Instr} (h : branchOf c = .boot) {s t : State} (run : exec c s = .next t) : t.pending = s.pending := by
  cases c <;> cases h <;> obtain rfl := Host.Outcome.next.inj run <;> clear run
  all_goals try dsimp only
  all_goals (repeat' split) <;> simp

theorem takeover_keepsQueue {c : Instr} (h : branchOf c = .takeover) {s t : State} (run : exec c s = .next t) : t.pending = s.pending := by
  cases c <;> cases h <;> obtain rfl := Host.Outcome.next.inj run <;> clear run
  case firstGranule => exact takePhase_pending _ _ _ fun u => by dsimp only; split <;> simp
  all_goals try dsimp only
  all_goals (repeat' split) <;> simp

theorem array_keepsQueue {c : Instr} (h : branchOf c = .array) {s t : State} (run : exec c s = .next t) : t.pending = s.pending := by
  cases c <;> cases h <;> obtain rfl := Host.Outcome.next.inj run <;> clear run
  all_goals try dsimp only
  all_goals (repeat' split) <;> simp

theorem restore_keepsQueue {c : Instr} (h : branchOf c = .restore) {s t : State} (run : exec c s = .next t) : t.pending = s.pending := by
  cases c <;> cases h <;> obtain rfl := Host.Outcome.next.inj run <;> clear run
  case restoreLoadDone => exact withRun_pending _ _ fun r => by dsimp only; (repeat' split) <;> simp
  case modeReplayDone => exact handPhase_pending _ _ _ fun u => by dsimp only; split <;> simp
  case handbackSreDone => exact handPhase_pending _ _ _ fun u => by dsimp only; split <;> simp
  case handbackRelease => exact handPhase_pending _ _ _ fun u => withRun_pending _ _ fun r => by split <;> rfl
  all_goals try dsimp only
  all_goals (repeat' split) <;> simp

theorem domain_keepsQueue {c : Instr} (h : branchOf c = .domain) {s t : State} (run : exec c s = .next t) : t.pending = s.pending := by
  cases c <;> cases h <;> obtain rfl := Host.Outcome.next.inj run <;> clear run
  all_goals try dsimp only
  all_goals (repeat' split) <;> simp

theorem tenantKey_keepsQueue {c : Instr} (h : branchOf c = .tenantKey) {s t : State} (run : exec c s = .next t) : t.pending = s.pending := by
  cases c <;> cases h <;> obtain rfl := Host.Outcome.next.inj run <;> clear run
  all_goals try dsimp only
  all_goals (repeat' split) <;> simp

theorem pack_keepsQueue {c : Instr} (h : branchOf c = .pack) {s t : State} (run : exec c s = .next t) : t.pending = s.pending := by
  cases c <;> cases h <;> obtain rfl := Host.Outcome.next.inj run <;> clear run
  all_goals try dsimp only
  all_goals (repeat' split) <;> simp

theorem window_keepsQueue {c : Instr} (h : branchOf c = .window) {s t : State} (run : exec c s = .next t) : t.pending = s.pending := by
  cases c <;> cases h <;> obtain rfl := Host.Outcome.next.inj run <;> clear run
  case q1EntryRead => (repeat' split) <;> simp [readQ1_pending]
  case txctlCancel => exact onWindow_pending _ _ fun u => by split <;> simp
  all_goals try dsimp only
  all_goals (repeat' split) <;> simp

theorem bus_keepsQueue {c : Instr} (h : branchOf c = .bus) {s t : State} (run : exec c s = .next t) : t.pending = s.pending := by
  cases c <;> cases h <;> obtain rfl := Host.Outcome.next.inj run <;> clear run
  all_goals try dsimp only
  all_goals (repeat' split) <;> simp

theorem warp_keepsQueue {c : Instr} (h : branchOf c = .warp) {s t : State} (run : exec c s = .next t) : t.pending = s.pending := by
  cases c <;> cases h <;> obtain rfl := Host.Outcome.next.inj run <;> clear run
  all_goals try dsimp only
  all_goals (repeat' split) <;> simp

theorem target_keepsQueue {c : Instr} (h : branchOf c = .target) {s t : State} (run : exec c s = .next t) : t.pending = s.pending := by
  cases c <;> cases h <;> obtain rfl := Host.Outcome.next.inj run <;> clear run
  all_goals try dsimp only
  all_goals (repeat' split) <;> simp

theorem transport_keepsQueue {c : Instr} (h : branchOf c = .transport) {s t : State} (run : exec c s = .next t) : t.pending = s.pending := by
  cases c <;> cases h <;> obtain rfl := Host.Outcome.next.inj run <;> clear run
  all_goals try dsimp only
  all_goals (repeat' split) <;> simp

theorem recorder_keepsQueue {c : Instr} (h : branchOf c = .recorder) {s t : State} (run : exec c s = .next t) : t.pending = s.pending := by
  cases c <;> cases h <;> obtain rfl := Host.Outcome.next.inj run <;> clear run
  all_goals (repeat' split) <;> simp

theorem flash_keepsQueue {c : Instr} (h : branchOf c = .flash) {s t : State} (run : exec c s = .next t) : t.pending = s.pending := by
  cases c <;> cases h <;> obtain rfl := Host.Outcome.next.inj run <;> clear run
  all_goals try dsimp only
  all_goals (repeat' split) <;> simp

theorem line_keepsQueue {c : Instr} (h : branchOf c = .line) {s t : State} (run : exec c s = .next t) : t.pending = s.pending := by
  obtain ⟨k, b, f, verb, meaning⟩ := exec_line h
  obtain rfl := Host.Outcome.next.inj ((meaning s).symm.trans run)
  exact onVerb_pending s k c b f (verbOf_pending verb)

theorem exec_keepsQueue {c : Instr} {s t : State} (run : exec c s = .next t) : t.pending = s.pending := by
  cases h : branchOf c with
  | host => exact host_keepsQueue h run
  | supply => exact supply_keepsQueue h run
  | boot => exact boot_keepsQueue h run
  | takeover => exact takeover_keepsQueue h run
  | array => exact array_keepsQueue h run
  | restore => exact restore_keepsQueue h run
  | domain => exact domain_keepsQueue h run
  | tenantKey => exact tenantKey_keepsQueue h run
  | pack => exact pack_keepsQueue h run
  | window => exact window_keepsQueue h run
  | bus => exact bus_keepsQueue h run
  | warp => exact warp_keepsQueue h run
  | target => exact target_keepsQueue h run
  | transport => exact transport_keepsQueue h run
  | recorder => exact recorder_keepsQueue h run
  | flash => exact flash_keepsQueue h run
  | line => exact line_keepsQueue h run

end Sys2Proof.Machine

open Sys2Proof Sys2Proof.Machine

/-- Settles O2: no arm of exec reaches an operation that touches the queue. -/
theorem everyCommandTakesTheQueueAsItIs : Obligations.EveryCommandTakesTheQueueAsItIs :=
  fun _ _ _ => exec_keepsQueue

end
